-- ==== Sys2Proof/Word.lean ====
section
/-! DEFINITION. Word types, the bit-field helpers every layer uses, and the names of the package's units (R2, R3, R6). -/

namespace Sys2Proof

abbrev Byte := BitVec 8
abbrev Word32 := BitVec 32
abbrev Dword := BitVec 64
/-- A 24-bit syllable (R10). -/
abbrev Syllable := BitVec 24
/-- An 18-bit syllable address (R10). -/
abbrev SylAddr := BitVec 18

/-- Bits [hi:lo] of `n` (R7). -/
def bits (n hi lo : Nat) : Nat := n / 2 ^ lo % 2 ^ (hi + 1 - lo)

/-- Bit `i` of `n`. -/
def bit (n i : Nat) : Bool := n / 2 ^ i % 2 == 1

/-- The width-`w` number `n` read as two's complement. -/
def toSigned (w n : Nat) : Int := if n % 2 ^ w < 2 ^ (w - 1) then (n % 2 ^ w : Nat) else ((n % 2 ^ w : Nat) : Int) - (2 ^ w : Nat)

/-- An integer reduced to `w` bits of two's complement. -/
def wrapInt (w : Nat) (z : Int) : Nat := (z % ((2 ^ w : Nat) : Int)).toNat

/-- An integer clamped to the range of INT32 (R74, R90). -/
def sat32 (z : Int) : Int := if z < -2147483648 then -2147483648 else if z > 2147483647 then 2147483647 else z

/-- `n` little-endian bytes of `v` (R6). -/
def toBytes : Nat → Nat → List Byte
  | 0, _ => []
  | k + 1, v => BitVec.ofNat 8 v :: toBytes k (v / 256)

/-- The number a little-endian byte list spells (R6). -/
def ofBytes : List Byte → Nat
  | [] => 0
  | b :: bs => b.toNat + 256 * ofBytes bs

/-- Ascending order by a key, keeping the order of equals. -/
def insertBy {α : Type} (key : α → Nat) (x : α) : List α → List α
  | [] => [x]
  | y :: r => if key x < key y then x :: y :: r else y :: insertBy key x r
def sortBy {α : Type} (key : α → Nat) (xs : List α) : List α := xs.foldl (fun acc x => insertBy key x acc) []

/-- Rounds `n` up to a multiple of `k`. -/
def ceilTo (k n : Nat) : Nat := (n + k - 1) / k * k

/-- A physical cluster of the package (R3). -/
structure ClId where
  die : Nat
  cl : Nat
  deriving DecidableEq, Repr

/-- A sequencer core (R3). -/
structure CoreId where
  die : Nat
  cl : Nat
  core : Nat
  deriving DecidableEq, Repr

/-- A hardware context (R3). -/
structure CtxId where
  die : Nat
  cl : Nat
  core : Nat
  ctx : Nat
  deriving DecidableEq, Repr

/-- A matrix engine, by its local number (R3). -/
structure EngId where
  die : Nat
  cl : Nat
  eng : Nat
  deriving DecidableEq, Repr

/-- A copy, glaze or retouch engine of a die (R4). -/
structure DieEng where
  die : Nat
  eng : Nat
  deriving DecidableEq, Repr

def CtxId.coreId (c : CtxId) : CoreId := ⟨c.die, c.cl, c.core⟩
def CtxId.clId (c : CtxId) : ClId := ⟨c.die, c.cl⟩
def CoreId.clId (c : CoreId) : ClId := ⟨c.die, c.cl⟩
def CoreId.ctxId (c : CoreId) (k : Nat) : CtxId := ⟨c.die, c.cl, c.core, k⟩
def EngId.clId (e : EngId) : ClId := ⟨e.die, e.cl⟩

/-- Looks a key up in an association list. -/
def assoc {α β : Type} [DecidableEq α] (k : α) : List (α × β) → Option β
  | [] => none
  | (a, b) :: r => if a = k then some b else assoc k r

/-- Replaces or appends the entry of a key. -/
def assocSet {α β : Type} [DecidableEq α] (k : α) (v : β) : List (α × β) → List (α × β)
  | [] => [(k, v)]
  | (a, b) :: r => if a = k then (k, v) :: r else (a, b) :: assocSet k v r

/-- Drops the entry of a key. -/
def assocDrop {α β : Type} [DecidableEq α] (k : α) : List (α × β) → List (α × β)
  | [] => []
  | (a, b) :: r => if a = k then assocDrop k r else (a, b) :: assocDrop k r

end Sys2Proof
end

