-- ==== Sys2Proof/Config.lean ====
section
/-! DEFINITION. What the part fixes (R2 to R4) and the FREE VALUES: opaque constants without a body, which no proof can see
into. A free value stands where the spec leaves a value open; the assumption log names each. -/

namespace Sys2Proof

/-- Counts of R2, R3 and R4. -/
def Config.dies : Nat := 8
def Config.clustersPerDie : Nat := 32
def Config.coresPerCluster : Nat := 4
def Config.ctxPerCore : Nat := 4
def Config.matrixPerCluster : Nat := 4
def Config.copyPerDie : Nat := 8
def Config.glazePerDie : Nat := 2
def Config.retouchPerDie : Nat := 4
def Config.islandsPerDie : Nat := 8
def Config.chrolinPorts : Nat := 18
/-- Usable LPDDR of a die (R4): 128 GiB. -/
def Config.lpddrBytes : Nat := 0x20_0000_0000
/-- The near cache of a cluster and the second-level cache of a die (R4, R360): 192 slices of 32 sets of 16 ways of 512 bytes. -/
def Config.nearCacheBytes : Nat := 0x4_0000
def Config.cacheSlices : Nat := 192
def Config.cacheSets : Nat := 32
def Config.cacheWays : Nat := 16
def Config.lineBytes : Nat := 512

/-- The place of a die in the package (R2). -/
def Config.dieRow (d : Nat) : Nat := d / 4
def Config.dieCol (d : Nat) : Nat := d % 4
/-- Two dies share an internal edge when they differ by one in exactly one coordinate (R2). -/
def Config.sharesEdge (a b : Nat) : Bool :=
  (Config.dieRow a == Config.dieRow b && (Config.dieCol a + 1 == Config.dieCol b || Config.dieCol b + 1 == Config.dieCol a))
    || (Config.dieCol a == Config.dieCol b && (Config.dieRow a + 1 == Config.dieRow b || Config.dieRow b + 1 == Config.dieRow a))
/-- The ten internal edges (R2), each once, the lower die first. -/
def Config.internalEdges : List (Nat × Nat) :=
  (List.range Config.dies).flatMap fun a => ((List.range Config.dies).filter fun b => decide (a < b) && Config.sharesEdge a b).map fun b => (a, b)
/-- The die that carries a host port (R2). -/
def Config.hostPortDie (port : Nat) : Nat := 7 * port

/-- Free value: the error, in units in the last place, of an inexact result of each xfu function but SQRT (R92). The model
reads it through a clamp to the function's bound (DESIGN CHOICE, log entry 10). -/
opaque Config.exp2Err : Word32 → Int
opaque Config.log2Err : Word32 → Int
opaque Config.rcpErr : Word32 → Int
opaque Config.rsqrtErr : Word32 → Int
opaque Config.tanhErr : Word32 → Int
opaque Config.sigmErr : Word32 → Int

/-- Free value: whether the n-th open choice of a core read takes the older contents of a granule (R208; DESIGN CHOICE, log entry 11). -/
opaque Config.readsOlder : Nat → Bool
/-- Free value: whether the n-th open choice of an engine read misses a later core write (R207; DESIGN CHOICE, log entry 11). -/
opaque Config.engineMisses : Nat → Bool
/-- Free value: whether the n-th write-and-check iteration verifies its row (R337; DESIGN CHOICE, log entry 12). -/
opaque Config.cellVerifies : Nat → Bool
/-- Free value: whether a second-level line filled under another pair is still resident (R304; DESIGN CHOICE, log entry 15). -/
opaque Config.lineStays : Nat → Bool
/-- Free value: LINK after a CALL one of whose delay bundles cannot be decoded (R117; DESIGN CHOICE, log entry 16). -/
opaque Config.openLink : Nat → BitVec 18
/-- Free value: whether of two writes of one special register in one bundle, MTSR's is the one that stays (R118, R124, R109;
DESIGN CHOICE, log entry 17). -/
opaque Config.mtsrStays : Nat → Bool
/-- Free value: whether a tile slot holds a P4 tile, which no table records (R342; DESIGN CHOICE, log entry 19). -/
opaque Config.tileIsP4 : Nat → Bool
/-- Free value: what a peer package answers to the n-th delivery of this package (R310; DESIGN CHOICE, log entry 18). -/
opaque Config.peerAnswer : Nat → Nat
/-- Free value: a block that a glaze member on another package contributes: exponent, mantissas, poison (R269; DESIGN CHOICE, log entry 18). -/
opaque Config.peerBlock : Nat → Nat × List Int × Bool
/-- Free value: the slice, set and way of a line, by the die's disabled slices and address / 512 (R360 does not publish them and lets them
change when a slice is disabled; DESIGN CHOICE, log entry 13), below 192, 32 and 16 (R4, R360). -/
opaque Config.cacheSliceOf : Nat → Nat → Fin 192
opaque Config.cacheSetOf : Nat → Nat → Fin 32
opaque Config.cacheWayOf : Nat → Nat → Fin 16
/-- Free value: the raw syndrome an uncorrectable error leaves (R357; DESIGN CHOICE, log entry 13). -/
opaque Config.syndrome : Nat → BitVec 32

/-- The public-key standards the spec names without defining, uninterpreted (DESIGN CHOICE, log entry 14): ML-DSA-65 under the
device's or the firmware's key and ML-KEM-1024, whose opening key is fused into the die it is opened on (R349). -/
opaque Config.mldsaVerify : List Byte → List Byte → Bool
opaque Config.mldsaSign : List Byte → List Byte
opaque Config.mlkemOpen : Nat → List Byte → List Byte
opaque Config.mlkemSeal : Nat → List Byte → List Byte
/-- Free value: fused and random material of the device: 0 the firmware's verification key, 1 the mask ROM, 2 the fuse
configuration, 3 the device identity public key (R310, R375, R376; DESIGN CHOICE, log entry 14). -/
opaque Config.secret : Nat → List Byte
/-- Free value: the secret that a key exchange shares, by its ciphertext (R377, R379), and the derivations of keys for which the spec gives
no function: a partition's sealing key by the boot's random secret and the partition, a link key by the session's secret and the
direction (0 from the requester), the key that follows one at a key update (R373, R379; DESIGN CHOICE, log entry 14). -/
opaque Config.mlkemShared : List Byte → List Byte
opaque Config.sealKey : Nat → Nat → List Byte
opaque Config.linkKey : List Byte → Nat → List Byte
opaque Config.nextKey : List Byte → List Byte
/-- Free value: the AES-256-GCM key of a session's secret in a direction, 0 for requests and 1 for replies, and of IDE on its host port, 2
(R377, R385 name the algorithm and not the derivation; DESIGN CHOICE, log entry 14). -/
opaque Config.sessionKey : List Byte → Nat → Vector Byte 32
/-- Free value: whether a certificate chain leads from the Jenuth root to a device identity key (R379 gives no encoding), and whether a signature
of a message verifies under such a key (DESIGN CHOICE, log entry 14). -/
opaque Config.chainVerifies : List Byte → List Byte → Bool
opaque Config.keyVerifies : List Byte → List Byte → List Byte → Bool
/-- Free value: whether the link of a host port trains for CXL (R385; DESIGN CHOICE, log entry 152). -/
opaque Config.hostCxl : Nat → Bool
/-- Free value: the acknowledgement and credit fields of a flit's header, by the counter of the next flit expected and whether it is asked
for again (R372 gives no layout; DESIGN CHOICE, log entry 96). -/
opaque Config.ackFields : Nat → Bool → BitVec 40
/-- Free value: the payload of a message to a peer package that carries no data: 1 an abort and 2 a cancel of a collective, 3 the error that a
write met here (R275, R310 give no layout; DESIGN CHOICE, log entry 96). -/
opaque Config.peerPayload : Nat → List Nat → List Byte
/-- Free value: which sector of the partition's secure LPDDR holds a block's exact sums, by collective and block (R276, R324 give no place;
DESIGN CHOICE, log entry 74). -/
opaque Config.glazeArea : Nat → Nat → Nat
/-- Free value: how many entries the provenance log's ring holds (R384 gives no capacity; DESIGN CHOICE, log entry 107). -/
opaque Config.logCapacity : Nat
/-- Free value: the certificate chain of slot 0 (R377; DESIGN CHOICE, log entry 14). -/
opaque Config.certChain : List Byte

end Sys2Proof
end

