-- ==== Sys2Proof/Machine/Fp.lean ====
section
/-! DEFINITION. Exact arithmetic and the floating-point formats of R75 to R82, R88 to R92: every value is decoded to an exact
dyadic number, combined exactly, and rounded once. -/

namespace Sys2Proof.Fp

/-- A dyadic number `m * 2^e`. -/
structure Dy where
  m : Int
  e : Int
  deriving DecidableEq, Repr

/-- `n * 2^k`, for any integer k that leaves an integer (a negative k divides, dropping nothing when it is exact). -/
def shl (n : Int) (k : Int) : Int := if k < 0 then n / (2 ^ (-k).toNat : Nat) else n * (2 ^ k.toNat : Nat)

def Dy.add (a b : Dy) : Dy :=
  let e := if a.e ≤ b.e then a.e else b.e
  ⟨shl a.m (a.e - e) + shl b.m (b.e - e), e⟩
def Dy.neg (a : Dy) : Dy := ⟨-a.m, a.e⟩
def Dy.sub (a b : Dy) : Dy := a.add b.neg
def Dy.mul (a b : Dy) : Dy := ⟨a.m * b.m, a.e + b.e⟩
def Dy.abs (a : Dy) : Dy := ⟨a.m.natAbs, a.e⟩
/-- Scaling by a power of two. -/
def Dy.scale (a : Dy) (k : Int) : Dy := ⟨a.m, a.e + k⟩
def Dy.isZero (a : Dy) : Bool := a.m == 0
def Dy.lt (a b : Dy) : Bool := decide ((a.sub b).m < 0)
def Dy.le (a b : Dy) : Bool := decide ((a.sub b).m ≤ 0)
def Dy.ofInt (z : Int) : Dy := ⟨z, 0⟩
/-- Whether the number is an integer. -/
def Dy.isInt (a : Dy) : Bool := if 0 ≤ a.e then true else a.m.natAbs % 2 ^ (-a.e).toNat == 0
/-- floor(log2 |a|), for nonzero a. -/
def Dy.ilog2 (a : Dy) : Int := a.e + (Nat.log2 a.m.natAbs : Nat)

/-- Rounding modes, coded as FRM codes them (R77). -/
inductive Rm where
  | rne | rtz | rup | rdn
  deriving DecidableEq, Repr

def Rm.ofFrm (n : BitVec 2) : Rm :=
  if n = 0 then .rne else if n = 1 then .rtz else if n = 2 then .rup else .rdn

/-- The exception flags of R79. -/
abbrev Flags := BitVec 5
def fNV : Flags := 16
def fDZ : Flags := 8
def fOF : Flags := 4
def fUF : Flags := 2
def fNX : Flags := 1

/-- A decoded value: a NaN, an infinity, or a finite number with the sign kept for zero. -/
inductive Fv where
  | nan
  | inf (neg : Bool)
  | fin (neg : Bool) (d : Dy)
  deriving DecidableEq, Repr

/-- A floating-point format of R75. `inf` says that it has infinities; without them (E4M3) the top exponent is finite. -/
structure Fmt where
  eb : Nat
  fb : Nat
  hasInf : Bool
  deriving DecidableEq, Repr

def fp32 : Fmt := ⟨8, 23, true⟩
def bf16 : Fmt := ⟨8, 7, true⟩
def fp16 : Fmt := ⟨5, 10, true⟩
def e4m3 : Fmt := ⟨4, 3, false⟩
def e5m2 : Fmt := ⟨5, 2, true⟩

def Fmt.bias (f : Fmt) : Nat := 2 ^ (f.eb - 1) - 1
def Fmt.width (f : Fmt) : Nat := 1 + f.eb + f.fb
/-- Exponent of the least normal number. -/
def Fmt.emin (f : Fmt) : Int := 1 - (f.bias : Int)
/-- Exponent of the greatest finite number. -/
def Fmt.emax (f : Fmt) : Int := if f.hasInf then (f.bias : Int) else (f.bias : Int) + 1
/-- Bits of the greatest finite magnitude. -/
def Fmt.maxBits (f : Fmt) : Nat := if f.hasInf then (2 ^ f.eb - 1) * 2 ^ f.fb - 1 else 2 ^ (f.eb + f.fb) - 2
def Fmt.infBits (f : Fmt) : Nat := (2 ^ f.eb - 1) * 2 ^ f.fb
/-- The canonical NaN (R75): quiet bit set, sign clear; 0x7F for E4M3. -/
def Fmt.nanBits (f : Fmt) : Nat := if f.hasInf then f.infBits + 2 ^ (f.fb - 1) else 2 ^ (f.eb + f.fb) - 1
def Fmt.signBit (f : Fmt) (neg : Bool) : Nat := if neg then 2 ^ (f.eb + f.fb) else 0

/-- Decodes a bit pattern (R75). -/
def decode (f : Fmt) (n : Nat) : Fv :=
  let neg := bit n (f.eb + f.fb)
  let e := n / 2 ^ f.fb % 2 ^ f.eb
  let fr := n % 2 ^ f.fb
  if f.hasInf && e == 2 ^ f.eb - 1 then (if fr == 0 then .inf neg else .nan)
  else if !f.hasInf && n % 2 ^ (f.eb + f.fb) == 2 ^ (f.eb + f.fb) - 1 then .nan
  else
    let m : Nat := if e == 0 then fr else fr + 2 ^ f.fb
    let x : Int := (if e == 0 then 1 else (e : Int)) - (f.bias : Int) - (f.fb : Int)
    .fin neg ⟨if neg then -(m : Int) else m, x⟩

/-- A rounded result and the flags it raises. -/
structure Res where
  bits : Nat
  flags : Flags
  deriving DecidableEq, Repr

/-- Whether the truncated magnitude is raised: `rest` of `2^s` dropped, `sticky` for a nonzero tail below that. -/
def roundsUp (rm : Rm) (neg : Bool) (q rest : Nat) (s : Nat) (sticky : Bool) : Bool :=
  match rm with
  | .rtz => false
  | .rup => !neg && (rest != 0 || sticky)
  | .rdn => neg && (rest != 0 || sticky)
  | .rne => if s == 0 then false else
      let half := 2 ^ (s - 1)
      if rest > half then true else if rest < half then false else sticky || q % 2 == 1

/-- Rounds the magnitude `m * 2^e` (with a nonzero tail below it when sticky) to a multiple of `2^q`: the multiple and
whether it is inexact. -/
def roundAt (rm : Rm) (neg : Bool) (m : Nat) (e q : Int) (sticky : Bool) : Nat × Bool :=
  if q ≤ e then
    let k := m * 2 ^ (e - q).toNat
    (if roundsUp rm neg k 0 0 sticky then k + 1 else k, sticky)
  else
    let s := (q - e).toNat
    let k := m / 2 ^ s
    let rest := m % 2 ^ s
    (if roundsUp rm neg k rest s sticky then k + 1 else k, rest != 0 || sticky)

/-- The overflow result of R78. -/
def overflowBits (f : Fmt) (rm : Rm) (neg : Bool) : Nat :=
  f.signBit neg + (match rm with
    | .rne => f.infBits
    | .rtz => f.maxBits
    | .rup => if neg then f.maxBits else f.infBits
    | .rdn => if neg then f.infBits else f.maxBits)

/-- Rounds a nonzero magnitude to a format (R76, R78, R79): tininess is taken after rounding. -/
def pack (f : Fmt) (rm : Rm) (neg : Bool) (m : Nat) (e : Int) (sticky : Bool) : Res :=
  if m == 0 then ⟨f.signBit neg, if sticky then fNX ||| fUF else 0⟩ else
  let top : Int := e + (Nat.log2 m : Nat)
  let qn : Int := top - (f.fb : Int)
  let q : Int := if qn < f.emin - f.fb then f.emin - f.fb else qn
  let (k, inexact) := roundAt rm neg m e q sticky
  if k == 0 then ⟨f.signBit neg, fNX ||| fUF⟩ else
  let te : Int := q + (Nat.log2 k : Nat)
  if te > f.emax then ⟨overflowBits f rm neg, fOF ||| fNX⟩ else
  let b : Nat := if te < f.emin then k else
    -- the exponent field, then the fraction below the leading one
    let kk := if Nat.log2 k > f.fb then k / 2 else k
    ((te + f.bias).toNat) * 2 ^ f.fb + (kk - 2 ^ f.fb)
  let (ku, _) := roundAt rm neg m e qn sticky
  let tiny := decide (qn + (Nat.log2 ku : Nat) < f.emin)
  ⟨f.signBit neg + b, if inexact then (if tiny then fNX ||| fUF else fNX) else 0⟩

/-- Rounds an exact dyadic value; `zneg` is the sign a zero takes. -/
def packDy (f : Fmt) (rm : Rm) (zneg : Bool) (d : Dy) : Res :=
  if d.m == 0 then ⟨f.signBit zneg, 0⟩ else pack f rm (decide (d.m < 0)) d.m.natAbs d.e false

def nanRes (f : Fmt) (fl : Flags := 0) : Res := ⟨f.nanBits, fl⟩
def infRes (f : Fmt) (neg : Bool) (fl : Flags := 0) : Res := ⟨f.signBit neg + f.infBits, fl⟩

/-- The sign of an exact zero sum of two signed terms (R76). -/
def zeroSign (rm : Rm) (n1 n2 : Bool) : Bool := if n1 == n2 then n1 else decide (rm = .rdn)

/-- Sum of two decoded values, rounded once. -/
def addV (f : Fmt) (rm : Rm) : Fv → Fv → Res
  | .nan, _ => nanRes f
  | _, .nan => nanRes f
  | .inf a, .inf b => if a == b then infRes f a else nanRes f fNV
  | .inf a, .fin _ _ => infRes f a
  | .fin _ _, .inf b => infRes f b
  | .fin na a, .fin nb b =>
    let s := a.add b
    packDy f rm (zeroSign rm na nb) s

def negV : Fv → Fv
  | .nan => .nan
  | .inf a => .inf !a
  | .fin n d => .fin (!n) d.neg

/-- Exact product. `none` marks 0 x infinity. -/
def prodV : Fv → Fv → Option Fv
  | .nan, .nan => some .nan
  | .nan, _ => some .nan
  | _, .nan => some .nan
  | .inf a, .inf b => some (.inf (a != b))
  | .inf a, .fin n d => if d.m == 0 then none else some (.inf (a != n))
  | .fin n d, .inf a => if d.m == 0 then none else some (.inf (a != n))
  | .fin na a, .fin nb b => some (.fin (na != nb) (a.mul b))

/-- Rounds a decoded value. -/
def roundV (f : Fmt) (rm : Rm) : Fv → Res
  | .nan => nanRes f
  | .inf n => infRes f n
  | .fin n d => packDy f rm n d

def mulV (f : Fmt) (rm : Rm) (a b : Fv) : Res :=
  match prodV a b with
  | none => nanRes f fNV
  | some v => roundV f rm v

/-- a * b + c with one rounding; 0 x infinity sets NV even beside a NaN addend (R139). -/
def fmaV (f : Fmt) (rm : Rm) (a b c : Fv) : Res :=
  match prodV a b with
  | none => nanRes f fNV
  | some p => addV f rm p c

/-- Quotient of two decoded values, rounded once (R229: the correctly rounded quotient). -/
def divV (f : Fmt) (rm : Rm) : Fv → Fv → Res
  | .nan, _ => nanRes f
  | _, .nan => nanRes f
  | .inf _, .inf _ => nanRes f fNV
  | .inf a, .fin n _ => infRes f (a != n)
  | .fin n _, .inf a => ⟨f.signBit (n != a), 0⟩
  | .fin na a, .fin nb b =>
    let neg := na != nb
    if b.m == 0 then (if a.m == 0 then nanRes f fNV else infRes f neg fDZ)
    else if a.m == 0 then ⟨f.signBit neg, 0⟩
    else
      let k : Nat := 64 + Nat.log2 b.m.natAbs
      let n := a.m.natAbs * 2 ^ k
      pack f rm neg (n / b.m.natAbs) (a.e - b.e - k) (n % b.m.natAbs != 0)

/-- Integer square root by binary digits, from bit `k` down. -/
def isqrtFrom : Nat → Nat → Nat → Nat
  | 0, n, r => if (r + 1) * (r + 1) ≤ n then r + 1 else r
  | k + 1, n, r =>
    let r' := r + 2 ^ (k + 1)
    isqrtFrom k n (if r' * r' ≤ n then r' else r)

def isqrt (n : Nat) : Nat := isqrtFrom (Nat.log2 n / 2 + 1) n 0

/-- The square root of a positive dyadic, as `r * 2^e` with a sticky tail. -/
def sqrtDy (d : Dy) : Nat × Int × Bool :=
  let k : Nat := 128 + (d.e % 2).toNat
  let n := d.m.natAbs * 2 ^ k
  let r := isqrt n
  (r, (d.e - k) / 2, decide (r * r ≠ n))

/-- Square root, correctly rounded (R92). -/
def sqrtV (f : Fmt) (rm : Rm) : Fv → Res
  | .nan => nanRes f
  | .inf n => if n then nanRes f fNV else infRes f false
  | .fin n d =>
    if d.m == 0 then ⟨f.signBit n, 0⟩
    else if n then nanRes f fNV
    else let (r, e, st) := sqrtDy d; pack f rm false r e st

/-! ## FP32 as bits -/

def dec32 (w : Word32) : Fv := decode fp32 w.toNat
def isNan32 (w : Word32) : Bool := decide (dec32 w = .nan)
def nan32 : Word32 := 0x7FC00000#32
def isInf32 (w : Word32) : Bool := w.toNat % 0x80000000 == 0x7F800000

/-- An FP32 result with its flags. -/
structure R32 where
  v : Word32
  fl : Flags
  deriving DecidableEq, Repr

def Res.r32 (r : Res) : R32 := ⟨BitVec.ofNat 32 r.bits, r.flags⟩

def add32 (rm : Rm) (a b : Word32) : R32 := (addV fp32 rm (dec32 a) (dec32 b)).r32
def sub32 (rm : Rm) (a b : Word32) : R32 := (addV fp32 rm (dec32 a) (negV (dec32 b))).r32
def mul32 (rm : Rm) (a b : Word32) : R32 := (mulV fp32 rm (dec32 a) (dec32 b)).r32
def fma32 (rm : Rm) (a b c : Word32) : R32 := (fmaV fp32 rm (dec32 a) (dec32 b) (dec32 c)).r32
def fms32 (rm : Rm) (a b c : Word32) : R32 := (fmaV fp32 rm (dec32 a) (dec32 b) (negV (dec32 c))).r32
def fnma32 (rm : Rm) (a b c : Word32) : R32 := (fmaV fp32 rm (negV (dec32 a)) (dec32 b) (dec32 c)).r32
def div32 (a b : Word32) : Word32 := (divV fp32 .rne (dec32 a) (dec32 b)).r32.v
def sqrt32 (rm : Rm) (a : Word32) : R32 := (sqrtV fp32 rm (dec32 a)).r32
/-- FSUB but for -inf - -inf, which is -inf without a flag (R139). -/
def subx32 (rm : Rm) (a b : Word32) : R32 :=
  if a = 0xFF800000#32 ∧ b = 0xFF800000#32 then ⟨0xFF800000#32, 0⟩ else sub32 rm a b

/-- Orders FP32 numbers with +0 above -0, as an integer key of the bits (no NaN). -/
def key32 (w : Word32) : Int := if bit w.toNat 31 then -(w.toNat % 0x80000000 : Nat) - 1 else (w.toNat : Int)
/-- The same for BF16 bits. -/
def key16 (n : Nat) : Int := if bit n 15 then -(n % 0x8000 : Nat) - 1 else (n : Int)

def max32 (a b : Word32) : Word32 := if isNan32 a || isNan32 b then nan32 else if key32 a < key32 b then b else a
def min32 (a b : Word32) : Word32 := if isNan32 a || isNan32 b then nan32 else if key32 b < key32 a then b else a
def abs32 (a : Word32) : Word32 := if isNan32 a then nan32 else a &&& 0x7FFFFFFF#32
def neg32 (a : Word32) : Word32 := if isNan32 a then nan32 else a ^^^ 0x80000000#32
/-- Numerical comparisons of R140; -0 and +0 are equal, a NaN gives false. -/
def cmp32 (eq lt : Bool) (a b : Word32) : Bool :=
  if isNan32 a || isNan32 b then false
  else
    let z (w : Word32) : Int := if w.toNat % 0x80000000 == 0 then 0 else key32 w + (if bit w.toNat 31 then 1 else 0)
    (eq && decide (z a = z b)) || (lt && decide (z a < z b))
def fclmp32 (t lo hi : Word32) : Word32 := min32 (max32 t lo) hi

/-! ## Conversions (R81, R82) -/

/-- Narrows FP32 to another format with infinities (BF16, FP16) under a mode. -/
def narrow (f : Fmt) (rm : Rm) (a : Word32) : Res := roundV f rm (dec32 a)
/-- Widens a value exactly to FP32; the canonical NaN for a NaN, no flag. -/
def widen (f : Fmt) (n : Nat) : Word32 := ((roundV fp32 .rne (decode f n)).r32).v

/-- Whether a value, rounded to nearest as if the exponent had no end, exceeds the greatest finite magnitude of a format. -/
def overMax (f : Fmt) (n : Bool) (d : Dy) : Bool :=
  let q : Int := max (d.ilog2 - f.fb) (f.emin - f.fb)
  d.m != 0 && match decode f f.maxBits with
    | .fin _ dm => dm.lt ⟨(roundAt .rne n d.m.natAbs d.e q false).1, q⟩
    | _ => false

/-- FP32 to FP8 with multiplier `m` (R82). -/
def toFp8 (f : Fmt) (keepInf : Bool) (x m : Word32) : Res :=
  match prodV (dec32 x) (dec32 m) with
  | none => nanRes f fNV
  | some .nan => nanRes f
  | some (.inf n) =>
    if keepInf && f.hasInf then infRes f n else ⟨f.signBit n + f.maxBits, fNX⟩
  | some (.fin n d) =>
    if d.m == 0 then ⟨f.signBit n, 0⟩ else
    if overMax f n d then ⟨f.signBit n + f.maxBits, fOF ||| fNX⟩ else pack f .rne n d.m.natAbs d.e false

/-- Rounds a dyadic to an integer under a mode, and whether it was inexact. -/
def toInt (rm : Rm) (neg : Bool) (d : Dy) : Int × Bool :=
  let (k, ix) := roundAt rm neg d.m.natAbs d.e 0 false
  (if neg then -(k : Int) else k, ix)

/-- FP32 to INT32 (R81, R142). -/
def toI32 (rm : Rm) (a : Word32) : R32 :=
  match dec32 a with
  | .nan => ⟨0, fNV⟩
  | .inf n => ⟨if n then 0x80000000#32 else 0x7FFFFFFF#32, fNV⟩
  | .fin n d =>
    let (z, ix) := toInt rm n d
    if z < -2147483648 then ⟨0x80000000#32, fNV⟩
    else if z > 2147483647 then ⟨0x7FFFFFFF#32, fNV⟩
    else ⟨BitVec.ofInt 32 z, if ix then fNX else 0⟩

/-- INT32 to FP32 (R81). -/
def ofI32 (rm : Rm) (z : Int) : R32 := (packDy fp32 rm false ⟨z, 0⟩).r32

/-- FP32 rounded to an integral FP32 (R142, FRND): the sign of the input stays on a zero result. -/
def rnd32 (rm : Rm) (a : Word32) : R32 :=
  match dec32 a with
  | .nan => ⟨nan32, 0⟩
  | .inf _ => ⟨a, 0⟩
  | .fin n d =>
    if d.m == 0 then ⟨a, 0⟩ else
    let (z, ix) := toInt rm n d
    ⟨(packDy fp32 .rne n ⟨z, 0⟩).r32.v, if ix then fNX else 0⟩

/-- a * 2^k with one rounding (R142, FSCL). -/
def scale32 (rm : Rm) (a : Word32) (k : Int) : R32 :=
  match dec32 a with
  | .nan => ⟨nan32, 0⟩
  | .inf _ => ⟨a, 0⟩
  | .fin n d => if d.m == 0 then ⟨a, 0⟩ else (packDy fp32 rm n (d.scale (max (-1024) (min 1024 k)))).r32

/-- The exponent of FXPN (R142). -/
def fxpn32 (a : Word32) : Word32 :=
  match dec32 a with
  | .nan => 0x7FFFFFFF#32
  | .inf _ => 0x7FFFFFFF#32
  | .fin _ d => if d.m == 0 then 0x80000000#32 else BitVec.ofInt 32 d.ilog2

/-! ## Special functions (R92)

Each inexact result is a free FP32 value within the function's bound of the exact result (DESIGN CHOICE, log entry 10): the correctly
rounded one moved by a free number of steps, as far as the bound, measured from an approximation of the exact result from below with
more than 100 bits to spare, allows; exact cases and special inputs are as the table states. -/

/-- The unit in the last place of FP32 at a positive number, as a power of two, subnormals included (R92). -/
def ulpExp (x : Dy) : Int := max (x.ilog2 - 23) (-149)
/-- Whether the FP32 magnitude `b` lies within `k` units in the last place of an exact magnitude just above `x`: `x` less than `k` units
above it, or `b` at most `k` units above `x`. -/
def within (k : Nat) (x : Dy) (b : Int) : Bool :=
  decide (0 ≤ b) && decide (b ≤ 0x7F7FFFFF) && match decode fp32 b.toNat with
    | .fin _ d => (x.sub d).lt ⟨k, ulpExp x⟩ && (d.sub x).le ⟨k, ulpExp x⟩
    | _ => false
/-- The FP32 magnitude `mag` moved by `z` steps, or by as many of them as stay within `k` units of the exact magnitude `x`. Below a power
of two a step is half a unit, so no more than 2 k + 1 steps can. -/
def nudge (k : Nat) (x : Dy) (mag : Nat) (z : Int) : Nat :=
  let n := min z.natAbs (2 * k + 1)
  match (List.range n).find? fun j => within k x (mag + z.sign * ((n - j : Nat) : Int)) with
  | some j => ((mag : Int) + z.sign * ((n - j : Nat) : Int)).toNat
  | none => mag

/-- ln 2 with 320 fraction bits, rounded down. -/
def ln2 : Nat := 0xB17217F7D1CF79ABC9E3B39803F2F6AF40F343267298B62D8A0D175B8BAAFA2BE7B876206DEBAC98
/-- The series of e^z in fixed point with 320 fraction bits: `term` is z^n / n!, `k` terms are still to come. -/
def expSeries (z : Nat) : Nat → Nat → Nat → Nat → Nat
  | 0, _, _, acc => acc
  | k + 1, n, term, acc => expSeries z k (n + 1) (term * z / 2 ^ 320 / (n + 1)) (acc + term)
/-- 2^x for a dyadic x, as an integer times a power of two: (mantissa, exponent), from below. The argument is taken to 2^-256, which
holds every FP32 number whole. -/
def exp2Dy (d : Dy) : Nat × Int :=
  let fx : Int := shl d.m (d.e + 256)
  let fr := (fx % (2 ^ 256 : Nat)).toNat
  (expSeries (fr * ln2 / 2 ^ 256) 72 0 (2 ^ 320) 0, fx / (2 ^ 256 : Nat) - 320)

/-- Bits of log2 of a mantissa in [1, 2) held with 288 fraction bits, by repeated squaring. -/
def log2Frac : Nat → Nat → Nat → Nat
  | 0, _, acc => acc
  | k + 1, y, acc =>
    let y2 := y * y / 2 ^ 288
    if y2 ≥ 2 ^ 289 then log2Frac k (y2 / 2) (2 * acc + 1) else log2Frac k y2 (2 * acc)

/-- log2 of a positive dyadic, as a dyadic with 200 fraction bits. -/
def log2Dy (d : Dy) : Dy :=
  let k := Nat.log2 d.m.natAbs
  let y := if k ≤ 288 then d.m.natAbs * 2 ^ (288 - k) else d.m.natAbs / 2 ^ (k - 288)
  ⟨(d.e + k) * (2 ^ 200 : Nat) + (log2Frac 200 y 0 : Nat), -200⟩

/-- log2 e with 320 fraction bits. -/
def log2e : Dy := ⟨0x171547652B82FE1777D0FFDA0D23A7D11D6AEF551BAD2B4B1164A2CD9A342648FBC3887EEAA2ED9AC, -320⟩

/-- Whether a positive dyadic is a power of two. -/
def isPow2 (d : Dy) : Bool := d.m.natAbs == 2 ^ Nat.log2 d.m.natAbs

def exp2F (err : Word32 → Int) (a : Word32) : R32 :=
  match dec32 a with
  | .nan => ⟨nan32, 0⟩
  | .inf n => ⟨if n then 0 else 0x7F800000#32, 0⟩
  | .fin _ d =>
    if d.m == 0 then ⟨0x3F800000#32, 0⟩
    else if (Dy.ofInt 128).le d then ⟨0x7F800000#32, fOF ||| fNX⟩
    else
      let ip := shl d.m d.e
      if d.isInt && decide (-149 ≤ ip) then (packDy fp32 .rne false ⟨1, ip⟩).r32
      else
        let d' := if d.lt (Dy.ofInt (-400)) then Dy.ofInt (-400) else d
        let (m, e) := exp2Dy d'
        let r := pack fp32 .rne false m e true
        let b := nudge 2 ⟨m, e⟩ (r.bits % 0x80000000) (err a)
        ⟨BitVec.ofNat 32 b, if b < 0x800000 then fNX ||| fUF else fNX⟩

def log2F (err : Word32 → Int) (a : Word32) : R32 :=
  match dec32 a with
  | .nan => ⟨nan32, 0⟩
  | .inf n => if n then ⟨nan32, fNV⟩ else ⟨0x7F800000#32, 0⟩
  | .fin n d =>
    if d.m == 0 then ⟨0xFF800000#32, fDZ⟩
    else if n then ⟨nan32, fNV⟩
    else if isPow2 d then (packDy fp32 .rne false ⟨d.ilog2, 0⟩).r32
    else
      let l := log2Dy d
      let r := pack fp32 .rne (decide (l.m < 0)) l.m.natAbs l.e true
      let b := nudge 2 l.abs (r.bits % 0x80000000) (err a)
      ⟨BitVec.ofNat 32 (r.bits / 0x80000000 * 0x80000000 + b), if b < 0x800000 then fNX ||| fUF else fNX⟩

def rcpF (err : Word32 → Int) (a : Word32) : R32 :=
  match dec32 a with
  | .nan => ⟨nan32, 0⟩
  | .inf n => ⟨if n then 0x80000000#32 else 0, 0⟩
  | .fin n d =>
    if d.m == 0 then ⟨if n then 0xFF800000#32 else 0x7F800000#32, fDZ⟩
    else
      let r := divV fp32 .rne (.fin false ⟨1, 0⟩) (.fin n d)
      if r.flags &&& fOF ≠ 0 then r.r32
      else if r.flags = 0 then r.r32
      else
        let b := nudge 1 ⟨(2 ^ 200 / d.m.natAbs : Nat), -200 - d.e⟩ (r.bits % 0x80000000) (err a)
        ⟨BitVec.ofNat 32 (fp32.signBit n + b), if b < 0x800000 then fNX ||| fUF else fNX⟩

def rsqrtF (err : Word32 → Int) (a : Word32) : R32 :=
  match dec32 a with
  | .nan => ⟨nan32, 0⟩
  | .inf n => if n then ⟨nan32, fNV⟩ else ⟨0, 0⟩
  | .fin n d =>
    if d.m == 0 then ⟨if n then 0xFF800000#32 else 0x7F800000#32, fDZ⟩
    else if n then ⟨nan32, fNV⟩
    else
      let m := d.m.natAbs * 2 ^ (d.e % 2).toNat
      let q := isqrt (2 ^ 400 / m)
      let e := -(d.e / 2) - 200
      let r := pack fp32 .rne false q e (decide (q * q * m ≠ 2 ^ 400))
      if r.flags = 0 then r.r32
      else ⟨BitVec.ofNat 32 (nudge 1 ⟨q, e⟩ r.bits (err a)), fNX⟩

/-- (1 - 2^-y) / (1 + 2^-y) and 1 / (1 + 2^-y) for y ≥ 0 as a fraction: (numerator, denominator). -/
def expFrac (d : Dy) : Nat × Nat :=
  let d' := if (Dy.ofInt 200).lt d then Dy.ofInt 200 else d
  let (m, e) := exp2Dy d'.neg
  -- 2^-y = m * 2^e with e ≤ 0
  (m, 2 ^ (-e).toNat)

/-- tanh of a positive dyadic: the series x - x^3/3 + 2x^5/15 below 2^-13, where the next term is below 2^-55 of x. -/
def tanhDy (x : Dy) : Dy :=
  if x.lt ⟨1, -13⟩ then
    let x2 := x.mul x
    let third : Dy := ⟨(2 ^ 96 / 3 : Nat), -96⟩
    let two15 : Dy := ⟨(2 ^ 97 / 15 : Nat), -96⟩
    x.mul (((Dy.ofInt 1).sub (x2.mul third)).add ((x2.mul x2).mul two15))
  else
    let (p, q) := expFrac ((x.mul log2e).scale 1)
    ⟨((q - p) * 2 ^ 320 / (q + p) : Nat), -320⟩
def tanhF (err : Word32 → Int) (a : Word32) : R32 :=
  match dec32 a with
  | .nan => ⟨nan32, 0⟩
  | .inf n => ⟨if n then 0xBF800000#32 else 0x3F800000#32, 0⟩
  | .fin n d =>
    if d.m == 0 then ⟨a, 0⟩ else
    let x := tanhDy d.abs
    let r := pack fp32 .rne n x.m.natAbs x.e true
    let b := nudge 4 x (r.bits % 0x80000000) (err a)
    ⟨BitVec.ofNat 32 (fp32.signBit n + b), if b < 0x800000 then fNX ||| fUF else fNX⟩

def sigmF (err : Word32 → Int) (a : Word32) : R32 :=
  match dec32 a with
  | .nan => ⟨nan32, 0⟩
  | .inf n => ⟨if n then 0 else 0x3F800000#32, 0⟩
  | .fin n d =>
    if d.m == 0 then ⟨0x3F000000#32, 0⟩ else
    let (p, q) := expFrac (d.abs.mul log2e)
    -- 2^-y / (1 + 2^-y) for a negative input
    let x : Dy := ⟨((if n then p else q) * 2 ^ 320 / (q + p) : Nat), -320⟩
    let r := pack fp32 .rne false x.m.natAbs x.e true
    let b := nudge 4 x (r.bits % 0x80000000) (err a)
    ⟨BitVec.ofNat 32 b, if b < 0x800000 then fNX ||| fUF else fNX⟩

/-! ## Packed BF16 (R141) -/

def decB (n : Nat) : Fv := decode bf16 n
def addB (rm : Rm) (a b : Nat) : Res := addV bf16 rm (decB a) (decB b)
def mulB (rm : Rm) (a b : Nat) : Res := mulV bf16 rm (decB a) (decB b)
def fmaB (rm : Rm) (a b c : Nat) : Res := fmaV bf16 rm (decB a) (decB b) (decB c)
def maxB (a b : Nat) : Nat :=
  if decide (decB a = .nan) || decide (decB b = .nan) then 0x7FC0 else if key16 a < key16 b then b else a

end Sys2Proof.Fp
end

