-- ==== Sys2Proof/Syntax.lean ====
section
/-! DEFINITION. The abstract syntax: guards, sources and destinations of a move (R19 to R22, R26) and the ONE inductive
`Instr`, one constructor for each row of the opcode table. A trigger row carries its move's guard and source; a step or event
row carries what names its subject and, where the event is an input from outside, the input's data. -/

namespace Sys2Proof

/-- The guard codes of R20 (code 0b111 is illegal and no guard). -/
inductive Guard where
  | always | p1 | p2 | p3 | notP1 | notP2 | notP3
  deriving DecidableEq, Repr

/-- The sources of R21 and R26. Immediates 0x00 to 0xEF are `short`; 0xF0 to 0xF3 are the four long forms. -/
inductive Source where
  | g (i : Nat) | v (i : Nat) | m (i : Nat) | p (i : Nat)
  | o (i : Nat) | vo (i : Nat)
  | latch (unit : Nat) (y : Bool)
  | short (i : Nat) | long0 | long1 | longBoth | long0z
  deriving DecidableEq, Repr

/-- The destinations of R22 that start no operation: operand ports a to d and registers. -/
inductive Dest where
  | port (unit : Nat) (k : Nat)
  | g (i : Nat) | v (i : Nat) | m (i : Nat) | p (i : Nat)
  | o (i : Nat) | vo (i : Nat)
  deriving DecidableEq, Repr

/-- A read or write of device memory by the host, or by another party through the host's window (R211, R385). -/
inductive Access where
  | read (addr : Nat) (n : Nat)
  | write (addr : Nat) (data : List Byte)
  /-- a read of port status through BAR 0 of a host port -/
  | status (port : Nat)
  deriving DecidableEq, Repr

/-- Who makes an access to a saved node's locations and gets what it reads (R315): the host at a port; a load or an atomic of a context, whose
landing entry `entry` has not arrived; the chunk that copy `id` of a copy engine has fetched, from byte `off`; or a party that gets nothing. -/
inductive Asker where
  | host (port : Nat)
  | load (c : CtxId) (entry : Nat) (signed : Bool)
  | fetch (e : DieEng) (id off : Nat)
  | other
  deriving DecidableEq, Repr

/-- What reaches a saved node's locations from outside it (R315): a read or a write, an atomic on an accumulator element (0 AADD, 1 AMAX, 2 AMIN,
3 AXCHG, 4 ACAS, which compares with `b`; an engine's addition is the first), or an update of a barrier word (R193) with its flags in the order
of bits [59:57]. Addresses count 0x40_0000 for a logical cluster: 3 MiB of scratchpad, then its accumulators. -/
inductive SavedAccess where
  | plain (asker : Asker) (acc : Access)
  | atomic (asker : Asker) (addr op : Nat) (a b : Word32)
  | update (addr add : Nat) (arrive : Bool) (sub flags : Nat)
  deriving DecidableEq, Repr

/-- What the controller's checks of one LPDDR sector read give (R355). -/
inductive SectorRead where
  | good | corrected | media | integrity
  deriving DecidableEq, Repr

/-- Where an uncorrectable SRAM error lies (R354). An error in the shadow tier lies at an offset of the image of one of a node's logical
clusters (R318). Instruction memory and its tag array have no code that marks a byte: an error changes bits of a stored byte, or of a line's
tag (R12), and `flip` names them. -/
inductive SramPlace where
  | granule (addr : Nat)
  | element (addr : Nat)
  | spill (c : CtxId) (off : Nat)
  | core (c : CtxId)
  | nearCache (c : ClId)
  | tlb (c : ClId)
  | fresco (row : Nat)
  | text (c : ClId) (off : Nat) (flip : Byte)
  | textTag (c : ClId) (line : Nat) (flip : Dword)
  | shadow (n i off : Nat)
  | management (die : Nat)
  deriving DecidableEq, Repr

/-- What a data payload of a peer package asks for (R310): the partition and world it comes from, the partition and world of this package, an address word there, and bytes;
`reduce` is the source format of an addition into accumulator elements, none for plain writes. -/
structure PeerWrite where
  fromPart : Nat
  fromWorld : Bool
  part : Nat
  world : Bool
  addr : Nat
  data : List Byte
  reduce : Option Nat
  deriving DecidableEq, Repr

/-- What a flit of a peer package says for which the spec gives no layout: a data payload completes a write, or brings the abort or a cancel
of a member's collective (R275), by group, tag and member; a key-update flit begins a resynchronisation (R373). -/
inductive PeerMsg where
  | write (w : PeerWrite)
  | abort (part group tag member : Nat) (timeout : Bool)
  | cancel (part group tag member : Nat) (blocks : List Nat)
  | resync
  deriving DecidableEq, Repr

/-- A Chrolin flit on the wire (R372): its 256 bytes, and what the fields say for which the spec gives no layout: the acknowledgement and
credit fields of the header (every counter below `ackUpto` has arrived, `nackOf` is asked for again), and the message it brings. -/
structure Flit where
  bytes : List Byte
  nackOf : Option Nat
  ackUpto : Nat
  delivers : Option PeerMsg
  deriving DecidableEq, Repr

/-- What a peer package's management core shows in the session of R379: its device identity public key and certificate chain, its signatures of
this package's challenge and of the key exchange, whether it has accepted this package's chain and identity, the key exchange's ciphertext,
and the 32-bit identifier of the link. -/
structure PeerHello where
  key : List Byte
  chain : List Byte
  challengeSig : List Byte
  exchangeSig : List Byte
  accepted : Bool
  share : List Byte
  link : Nat
  deriving DecidableEq, Repr

/-- The corrected errors of one source of Appendix C that no other event counts (R359). -/
structure ErrCount where
  src : Nat
  more : Nat
  deriving DecidableEq, Repr

/-- Where a fatal error lies (R357, R370): its source unit, physical address, ECC location and unit word. -/
structure ErrSite where
  src : Nat
  addr : Nat
  ecc : Nat
  loc : Dword
  deriving DecidableEq, Repr

/-- An island of a die and the operating point that takes effect there (R387). -/
structure IslandPoint where
  isl : Nat
  point : Nat
  deriving DecidableEq, Repr

/-- What the host reads through a session beside memory: entries of the provenance log (R384), fault rings (R358), a Chrolin port (R386), an
island control word (R387), the coolant sensors (R390). -/
inductive SessionRead where
  | entry (n : Nat)
  | faults
  | dieFaults (die : Nat)
  | port (k : Nat)
  | island (die isl : Nat)
  | coolant
  deriving DecidableEq, Repr

/-- What an install brings beside its image (R349): the smoothing factors of each record, and how its programming goes (R337): the rows whose
first loop does not verify, and those whose loop on a spare row does not. -/
structure InstallAid where
  factors : List (List Byte)
  unverified : List Nat
  spareFails : List Nat
  deriving DecidableEq, Repr

/-- A session request's number, or the word it writes, with the partition whose session carries it (R378). -/
structure SessionNat where
  part : Nat
  val : Nat
  deriving DecidableEq, Repr
structure SessionWord where
  part : Nat
  word : Dword
  deriving DecidableEq, Repr

/-- One SPDM request of R377: the option bits that ask for something the device does not support, the slot or measurement
index, the partition of a secured session, the session's settings, its data, and for a request inside a session the message as AES-256-GCM
seals it. -/
structure SpdmReq where
  unsupported : Bool
  slot : Nat
  part : Nat
  period : Nat
  grace : Option Nat
  data : List Byte
  sealed : List Byte
  deriving DecidableEq, Repr

/-- A change of a partition by the partition manager at a session request (R308, R309). -/
inductive PartChange where
  | create (part : Nat)
  | destroy (part : Nat)
  | addCluster (part : Nat) (c : ClId) (secure : Bool)
  | dropCluster (part : Nat) (c : ClId)
  | resident (part : Nat) (c : ClId) (k : Nat) (secure : Bool)
  | region (part : Nat) (die base size : Nat) (secure : Bool) (egressClass : Nat)
  | fresco (part : Nat) (first count : Nat) (secure : Bool)
  | share (part : Nat) (kind : Nat) (slots : Nat) (secure : Bool)
  | tables (part : Nat) (world : Bool) (root : Nat)
  | group (part : Nat) (k : Nat) (members : List Nat) (secure : Bool)
  | peer (part : Nat) (k : Nat) (entry : List Dword) (secure : Bool)
  | staging (part : Nat) (die : Nat) (bytes : Nat)
  | hostClasses (part : Nat) (port : Nat) (mask : Nat)
  | window (part : Nat) (port : Nat) (k : Nat) (base : Nat)
  deriving DecidableEq, Repr

/-- Instructions and steps, one constructor a row of spec/opcode_table.json: steps and events, MOVE, then the trigger rows in
the order of their field values. -/
inductive Instr where
  /-- `BUNDLE_ISSUE`, R57. In a core cycle the core chooses a lead bundle and possibly one merged bundle from the ready contexts and issues them. -/
  | bundleIssue (c : CoreId)
  /-- `STARVATION_LEAD`, R58. A ready context that has not issued for 64 consecutive cycles becomes the lead by step 1. -/
  | starvationLead (c : CoreId)
  /-- `LINE_FETCH`, R14. An instruction line enters the fetch buffer, its tag is checked and it is decrypted or marked failed. -/
  | lineFetch (c : CoreId) (line : Nat)
  /-- `LATCH_LANDING`, R47. A fixed-latency result lands in its latch or register at its landing bundle, ORing its flags into FFLAGS. -/
  | latchLanding (c : CtxId)
  /-- `TIMED_DATA_ARRIVAL`, R54. Data of a timed-landing request arrives in the landing buffer, ending any freeze on its landing bundle. -/
  | timedDataArrival (c : CtxId) (k : Nat)
  /-- `TIMED_LANDING`, R51. A timed request lands at its landing bundle and releases its landing-buffer entry, or raises a walk or integrity trap there. -/
  | timedLanding (c : CtxId)
  /-- `SKETCH_REPLAY_COMPLETE`, R246. A replay finishes, obtains storage and makes the name resident, or raises trap 0x13. -/
  | sketchReplayComplete (c : CtxId)
  /-- `SLEEP_TIMEOUT`, R133. A sleeping context's cycle limit expires and it becomes ready. -/
  | sleepTimeout (c : CtxId)
  /-- `POUR_LANDING`, R172. A pour lands in every MCWIN-named cluster's scratchpad 24 cycles after issue, as one event. -/
  | pourLanding
  /-- `BWAIT_WAKE`, R196. A change of the watched barrier word's phase bit wakes a waiting context, which re-reads the word. -/
  | bwaitWake (c : CtxId)
  /-- `FENCE_COMPLETE`, R198. The condition of a pending FENCE kind holds and the context may issue its next bundle. -/
  | fenceComplete (c : CtxId)
  /-- `PIN_EXPIRY`, R169. A pin's 2,047-bundle coverage window ends on the bundle clock. -/
  | pinExpiry (c : CtxId)
  /-- `PAGE_WALK_COMPLETE`, R305. A page walker finishes a walk for a TCH, refill or engine and yields a leaf or a fault. -/
  | pageWalkComplete (c : CtxId) (k : Nat)
  /-- `SYSC_REPLY`, R127. The partition manager serves a call, writes the reply into the spill window and lowers the token count. -/
  | syscReply (die : Nat)
  /-- `MEX_COMMAND_START`, R221. A queued matrix command starts once its order, pipe and hazards allow, making its start checks. -/
  | mexCommandStart (e : EngId)
  /-- `MLDW_COMPLETE`, R222. The weight load finishes and the shadow plane holds the new tile. -/
  | mldwComplete (e : EngId)
  /-- `STREAM_PROMOTION`, R227. A streamed vector's partials are promoted into its accumulator row. -/
  | streamPromotion (e : EngId)
  /-- `MSTR_COMPLETE`, R222. A stream completes, lowering its token and updating its barrier. -/
  | mstrComplete (e : EngId)
  /-- `MZERO_COMPLETE`, R222. A row-zeroing command completes. -/
  | mzeroComplete (e : EngId)
  /-- `DRAIN_ROW`, R229. A drain reads one accumulator row and writes its converted output bytes. -/
  | drainRow (e : EngId)
  /-- `MDRN_COMPLETE`, R222. A drain completes, lowering its token and updating its barrier. -/
  | mdrnComplete (e : EngId)
  /-- `COPY_START`, R260. A queued copy starts and makes its start checks. -/
  | copyStart (e : DieEng)
  /-- `CHUNK_FETCH`, R261. A copy chunk's source read completes, with refetch and replica on media or decode failure. -/
  | chunkFetch (e : DieEng) (id : Nat) (transient : Bool)
  /-- `CHUNK_WRITE`, R262. A chunk's writes are performed and its bytes are subtracted from the barrier. -/
  | chunkWrite (e : DieEng) (id : Nat)
  /-- `COPY_COMPLETE`, R262. A copy completes as finished, failed or cancelled, settling its barrier and token. -/
  | copyComplete (e : DieEng) (id : Nat)
  /-- `GLAZE_START`, R268. A glaze command starts, checks its parameters and registers with every member's engine. -/
  | glazeStart (e : DieEng)
  /-- `GLAZE_MATCH`, R268. Every member has registered and the collective is matched, or fails on disagreement. -/
  | glazeMatch (k : Nat)
  /-- `GLAZE_TIMEOUT`, R268. TIMEOUT expires before the match and the collective aborts with 0x0F. -/
  | glazeTimeout (e : DieEng) (id : Nat)
  /-- `GLAZE_ROUND_SEND`, R269. A sender transmits one round of planes of every block. -/
  | glazeRoundSend (e : DieEng) (id : Nat)
  /-- `GLAZE_PLANE_RECEIVE`, R272. A received plane advances a block's counter, writes elements, counter and any barrier payment. -/
  | glazePlaneReceive (e : DieEng) (id : Nat) (blk : Nat) (con : Nat)
  /-- `GLAZE_CANCEL_ACK`, R275. Contributors acknowledge a cancel and the named blocks freeze as cancelled. -/
  | glazeCancelAck (e : DieEng) (id : Nat)
  /-- `GLAZE_ABORT`, R275. An abort message sets aborted in unfinished blocks, pays owed bytes and completes the command. -/
  | glazeAbort (e : DieEng) (id : Nat)
  /-- `GLAZE_COMPLETE`, R273. A glaze command completes once all its blocks or receivers are settled. -/
  | glazeComplete (e : DieEng) (id : Nat)
  /-- `RETOUCH_COMMAND_START`, R337. A queued retouch command starts, translates its tile and makes its start checks. -/
  | retouchCommandStart (e : DieEng)
  /-- `RETOUCH_ROW_START`, R337. A row starts once no other engine holds it, captures its source and holds the old contents. -/
  | retouchRowStart (e : DieEng)
  /-- `WRITE_AND_CHECK_LOOP`, R337. A 256-cycle program-and-verify iteration ends, advancing wear, remapping or failing as needed. -/
  | writeAndCheckLoop (e : DieEng) (verified : Bool)
  /-- `TWRT_COMPLETE`, R341. A retouch command completes, settling its barrier, token and provenance log entry. -/
  | twrtComplete (e : DieEng)
  /-- `GRAPH_REGISTRATION`, R284. The measured loader registers a task graph and the barista arms its valid nodes. -/
  | graphRegistration (part : Nat) (addr : Nat) (count : Nat)
  /-- `NODE_READY`, R289. The barista finds an armed node's input phase equal to its expected phase. -/
  | nodeReady (n : Nat)
  /-- `PLACEMENT`, R292. The barista assigns clusters to a ready node, possibly pre-empting lower-priority nodes. -/
  | placement (n : Nat)
  /-- `NODE_START`, R290. Image, entry points, scratchpad image and palette tables are in place and the contexts start. -/
  | nodeStart (n : Nat)
  /-- `NODE_COMMIT`, R290. All contexts have retired with status 0 and all commands completed; the node commits. -/
  | nodeCommit (n : Nat)
  /-- `NODE_FAIL`, R121. After a nonzero exit, once all commands complete, the node enters failed with reason 1. -/
  | nodeFail (n : Nat)
  /-- `KILLED_NODE_RELEASE`, R290. A killed node's engine commands have completed; it is re-queued or failed and its clusters freed. -/
  | killedNodeRelease (n : Nat)
  /-- `QUIESCE_COMPLETE`, R313. All in-flight requests, commands and pours of a stopped node have settled. -/
  | quiesceComplete (n : Nat)
  /-- `SWAP_SAVE_COMPLETE`, R316. Cluster images have been swapped into the shadow tier. -/
  | swapSaveComplete (n : Nat)
  /-- `RESTORE_COMPLETE`, R326. Images, planes, commands, pins and window are restored and contexts resume. -/
  | restoreComplete (n : Nat)
  /-- `SAVED_NODE_ACCESS`, R315. An outside access to a saved node's locations is performed by the barista against its image. -/
  | savedNodeAccess (n : Nat) (acc : SavedAccess)
  /-- `ISLAND_WAKE`, R292. A gated island finishes its 12 microsecond wake. -/
  | islandWake (die isl : Nat)
  /-- `ISLAND_GATE`, R388. An island whose clusters have been free for 1 ms is gated. -/
  | islandGate (die isl : Nat)
  /-- `SHOOTDOWN`, R306. The partition manager writes new entries and invalidates unlocked TLB entries of a range. -/
  | shootdown (part : Nat) (world : Bool) (lo hi : Nat) (writes : List (Nat × Dword))
  /-- `SHOOTDOWN_COMPLETE`, R306. No pin covers the range any more and the old frames may be freed. -/
  | shootdownComplete (k : Nat)
  /-- `SHOOTDOWN_TIMEOUT`, R306. 100 microseconds pass with pins still held and their nodes are pre-empted. -/
  | shootdownTimeout (k : Nat)
  /-- `FRESCO_MAP_CHANGE`, R307. The partition manager changes a fresco map entry and invalidates engine tile caches. -/
  | frescoMapChange (part : Nat) (world : Bool) (vtile : Nat) (entry : Dword)
  /-- `PARTITION_CHANGE`, R309. The partition manager creates, destroys or changes a partition at a session request. -/
  | partitionChange (chg : PartChange)
  /-- `PARTITION_SWAP`, R311. The partition manager saves all running nodes of one partition to serve another. -/
  | partitionSwap (part : Nat)
  /-- `IMAGE_LOAD_REQUEST`, R288. The measured loader checks, measures and stores a program image and returns its id. -/
  | imageLoadRequest (part : Nat) (bytes : List Byte) (key : List Byte)
  /-- `LPDDR_SECTOR_READ`, R355. A sector read is ECC-decoded and MAC-checked, classed media or integrity on failure. -/
  | lpddrSectorRead (addr : Nat) (r : SectorRead)
  /-- `UNCORRECTABLE_DIRTY_SECTOR`, R361. An uncorrectable error in a dirty sector is resolved by its owner's state. -/
  | uncorrectableDirtySector (addr : Nat) (stager : Option Nat)
  /-- `PAGE_RETIREMENT_COMPLETE`, R362. The page is copied to a fresh frame, the leaf rewritten and walks proceed. -/
  | pageRetirementComplete (k : Nat) (frame : Nat)
  /-- `SRAM_UNCORRECTABLE`, R354. An uncorrectable error in on-die SRAM marks a granule or element or kills the owner. -/
  | sramUncorrectable (p : SramPlace)
  /-- `CORRECTED_ERROR_RECORD`, R359. Each millisecond a source emits one coalesced corrected-error record. -/
  | correctedErrorRecord (die : Nat) (src : ErrCount)
  /-- `LOCKSTEP_MISMATCH`, R368. Checker and leader commit signatures differ and the node is killed. -/
  | lockstepMismatch (c : CtxId) (hdr : Nat)
  /-- `VIRAL`, R370. A fatal error stops every core and blocks all host and Chrolin ports. -/
  | viral (die : Nat) (src : ErrSite)
  /-- `VIRAL_FLIT_RECEIVED`, R371. A peer receives a viral flit and fences the link. -/
  | viralFlitReceived (port : Nat)
  /-- `LINK_SILENCE_TIMEOUT`, R371. No valid flit for 1 ms fences a Chrolin link. -/
  | linkSilenceTimeout (port : Nat)
  /-- `FLIT_RECEIVE`, R373. A flit is accepted in counter order or dropped with a negative acknowledgement. -/
  | flitReceive (port : Nat) (f : Flit)
  /-- `FLIT_RESEND`, R373. A negative acknowledgement makes the transmitter resend from its replay buffer. -/
  | flitResend (port : Nat) (upto : Nat)
  /-- `RESYNC_TIMEOUT`, R373. A resynchronisation not complete in 100 microseconds fences the link. -/
  | resyncTimeout (port : Nat)
  /-- `KEEPALIVE`, R372. A transmitter idle for 1 microsecond sends a keepalive. -/
  | keepalive (port : Nat)
  /-- `ROUTINE_KEY_UPDATE`, R373. Every 2^32 flits a routine key update runs. -/
  | routineKeyUpdate (port : Nat)
  /-- `PACKAGE_RESET`, R375. Each management core verifies and measures firmware before the tier scan and link bring-up. -/
  | packageReset (firmware : List (List Byte))
  /-- `FRESCO_SCAN`, R352. The start-up scan hashes the fresco tier, logs bad rows and rewrites corrected ones. -/
  | frescoScan (die : Nat) (bad : List Nat) (weak : List Nat)
  /-- `PEER_SESSION`, R379. Two packages' management cores establish a mutually authenticated link session; `challenge`: the nonce
  that this package has sent. -/
  | peerSession (port : Nat) (peer : PeerHello) (challenge : List Byte)
  /-- `GET_VERSION`, R377. SPDM GET_VERSION request. -/
  | getVersion (port : Nat)
  /-- `GET_CAPABILITIES`, R377. SPDM GET_CAPABILITIES request. -/
  | getCapabilities (port : Nat) (req : SpdmReq)
  /-- `NEGOTIATE_ALGORITHMS`, R377. SPDM NEGOTIATE_ALGORITHMS request. -/
  | negotiateAlgorithms (port : Nat) (req : SpdmReq)
  /-- `GET_DIGESTS`, R377. SPDM GET_DIGESTS request. -/
  | getDigests (port : Nat) (req : SpdmReq)
  /-- `GET_CERTIFICATE`, R377. SPDM GET_CERTIFICATE request for slot 0. -/
  | getCertificate (port : Nat) (req : SpdmReq)
  /-- `CHALLENGE`, R377. SPDM CHALLENGE request. -/
  | challenge (port : Nat) (req : SpdmReq)
  /-- `GET_MEASUREMENTS`, R376. SPDM GET_MEASUREMENTS returning the measurement blocks. -/
  | getMeasurements (port : Nat) (req : SpdmReq)
  /-- `KEY_EXCHANGE`, R377. SPDM KEY_EXCHANGE with ML-KEM-1024. -/
  | keyExchange (port : Nat) (req : SpdmReq)
  /-- `FINISH`, R377. SPDM FINISH establishing the secured session. -/
  | finish (port : Nat) (req : SpdmReq)
  /-- `HEARTBEAT`, R378. SPDM HEARTBEAT keeping the secured session alive. -/
  | heartbeat (port : Nat) (req : SpdmReq)
  /-- `KEY_UPDATE`, R377. SPDM KEY_UPDATE of session keys. -/
  | keyUpdate (port : Nat) (req : SpdmReq)
  /-- `END_SESSION`, R377. SPDM END_SESSION. -/
  | endSession (port : Nat) (req : SpdmReq)
  /-- `HEARTBEAT_TIMEOUT`, R378. No message within twice the heartbeat period stops firings and egress and starts the grace period. -/
  | heartbeatTimeout (part : Nat)
  /-- `GRACE_EXPIRY`, R378. The grace period ends: nodes are killed, keys zeroised and the partition drained. -/
  | graceExpiry (part : Nat)
  /-- `INSTALL_REQUEST`, R349. A sealed weight image is decrypted, checked and programmed through the retouch engines. -/
  | installRequest (part : Nat) (world : Bool) (image : Nat) (slots : List Nat) (aid : InstallAid)
  /-- `BUCKET_CONFIG`, R380. A session request sets an egress bucket's rate and burst. -/
  | bucketConfig (part port rate burst : Nat)
  /-- `EGRESS_BUCKET_REFILL`, R381. A bucket refills at its rate and releases waiting egress in arrival order. -/
  | egressBucketRefill (part port : Nat) (ticks : Nat)
  /-- `LOG_CHECKPOINT`, R384. After 4,096 entries or one second a signed checkpoint of the provenance log is made. -/
  | logCheckpoint
  /-- `LOG_READ`, R384. The host reads provenance entries and checkpoints through the session. -/
  | logRead (part : Nat) (what : SessionRead)
  /-- `HOST_ACCESS`, R385. A host access through BAR 2 is performed at device memory in memory order. -/
  | hostAccess (acc : Access)
  /-- `PORT_RESET`, R386. A session request returns a fenced Chrolin port to training. -/
  | portReset (port : SessionNat)
  /-- `ISLAND_CONTROL_WRITE`, R387. A session request writes an island control word. -/
  | islandControlWrite (die isl : Nat) (w : SessionWord)
  /-- `OPERATING_POINT_CHANGE`, R387. A new setpoint takes effect at the island's next idle cycle boundary. -/
  | operatingPointChange (die : Nat) (isl : IslandPoint)
  /-- `THERMAL_STEP`, R388. Each millisecond a thermal step is added above 95 C or removed below 90 C. -/
  | thermalStep (die isl : Nat) (temp : Int)
  /-- `OVERTEMPERATURE`, R388. A sensor at 110 C makes the package viral. -/
  | overtemperature (die isl : Nat) (temp : Int)
  /-- `POWER_LIMIT_EXCEEDED`, R389. Package power above the limit for 10 ms lowers islands by a thermal step. -/
  | powerLimitExceeded (watts : Nat)
  /-- `COOLANT_FAULT`, R390. Low flow or high inlet temperature limits the module to 1,300 W. -/
  | coolantFault (flow inlet : Nat)
  /-- `COOLANT_RESTORE`, R390. One second after readings return to range the configured limit is restored. -/
  | coolantRestore (flow inlet : Nat)
  /-- `WEAR_LIMIT_SET`, R334. The management core sets the die's fresco wear limit. -/
  | wearLimitSet (die limit : Nat)
  /-- `GRAPH_UNREGISTRATION`, R284. The partition manager unregisters a task graph, which stops its residency with the barista. -/
  | graphUnregistration (part : Nat) (addr : Nat)
  /-- `IMAGE_REMOVAL`, R288. A program image is removed from the partition's secure LPDDR at a session request. -/
  | imageRemoval (part : Nat) (id : Nat)
  /-- `POWER_LIMIT_SET`, R389. A session request sets the package power limit that the governor enforces. -/
  | powerLimitSet (watts : SessionNat)
  /-- `MOVE`, R19. A move copies a source value to a register or operand port under its guard, with broadcast or type-mismatch trap. -/
  | move (g : Guard) (src : Source) (dst : Dest)
  /-- `ADD_ALU0`, R111. alu0 wrapping 64-bit add of a and t. -/
  | addAlu0 (g : Guard) (src : Source)
  /-- `ADD_ALU1`, R111. alu1 wrapping 64-bit add of a and t. -/
  | addAlu1 (g : Guard) (src : Source)
  /-- `SUB_ALU0`, R111. alu0 wrapping subtract a minus t. -/
  | subAlu0 (g : Guard) (src : Source)
  /-- `SUB_ALU1`, R111. alu1 wrapping subtract a minus t. -/
  | subAlu1 (g : Guard) (src : Source)
  /-- `AND_ALU0`, R111. alu0 bitwise AND. -/
  | andAlu0 (g : Guard) (src : Source)
  /-- `AND_ALU1`, R111. alu1 bitwise AND. -/
  | andAlu1 (g : Guard) (src : Source)
  /-- `OR_ALU0`, R111. alu0 bitwise OR. -/
  | orAlu0 (g : Guard) (src : Source)
  /-- `OR_ALU1`, R111. alu1 bitwise OR. -/
  | orAlu1 (g : Guard) (src : Source)
  /-- `XOR_ALU0`, R111. alu0 bitwise XOR. -/
  | xorAlu0 (g : Guard) (src : Source)
  /-- `XOR_ALU1`, R111. alu1 bitwise XOR. -/
  | xorAlu1 (g : Guard) (src : Source)
  /-- `ANDN_ALU0`, R111. alu0 a AND NOT t. -/
  | andnAlu0 (g : Guard) (src : Source)
  /-- `ANDN_ALU1`, R111. alu1 a AND NOT t. -/
  | andnAlu1 (g : Guard) (src : Source)
  /-- `SHL_ALU0`, R111. alu0 shift left by t[5:0]. -/
  | shlAlu0 (g : Guard) (src : Source)
  /-- `SHL_ALU1`, R111. alu1 shift left by t[5:0]. -/
  | shlAlu1 (g : Guard) (src : Source)
  /-- `SHR_ALU0`, R111. alu0 logical shift right by t[5:0]. -/
  | shrAlu0 (g : Guard) (src : Source)
  /-- `SHR_ALU1`, R111. alu1 logical shift right by t[5:0]. -/
  | shrAlu1 (g : Guard) (src : Source)
  /-- `SAR_ALU0`, R111. alu0 arithmetic shift right by t[5:0]. -/
  | sarAlu0 (g : Guard) (src : Source)
  /-- `SAR_ALU1`, R111. alu1 arithmetic shift right by t[5:0]. -/
  | sarAlu1 (g : Guard) (src : Source)
  /-- `ROL_ALU0`, R111. alu0 rotate left by t[5:0]. -/
  | rolAlu0 (g : Guard) (src : Source)
  /-- `ROL_ALU1`, R111. alu1 rotate left by t[5:0]. -/
  | rolAlu1 (g : Guard) (src : Source)
  /-- `MIN_ALU0`, R111. alu0 signed minimum. -/
  | minAlu0 (g : Guard) (src : Source)
  /-- `MIN_ALU1`, R111. alu1 signed minimum. -/
  | minAlu1 (g : Guard) (src : Source)
  /-- `MAX_ALU0`, R111. alu0 signed maximum. -/
  | maxAlu0 (g : Guard) (src : Source)
  /-- `MAX_ALU1`, R111. alu1 signed maximum. -/
  | maxAlu1 (g : Guard) (src : Source)
  /-- `MINU_ALU0`, R111. alu0 unsigned minimum. -/
  | minuAlu0 (g : Guard) (src : Source)
  /-- `MINU_ALU1`, R111. alu1 unsigned minimum. -/
  | minuAlu1 (g : Guard) (src : Source)
  /-- `MAXU_ALU0`, R111. alu0 unsigned maximum. -/
  | maxuAlu0 (g : Guard) (src : Source)
  /-- `MAXU_ALU1`, R111. alu1 unsigned maximum. -/
  | maxuAlu1 (g : Guard) (src : Source)
  /-- `EQ_ALU0`, R111. alu0 equality compare giving 0 or 1. -/
  | eqAlu0 (g : Guard) (src : Source)
  /-- `EQ_ALU1`, R111. alu1 equality compare giving 0 or 1. -/
  | eqAlu1 (g : Guard) (src : Source)
  /-- `NE_ALU0`, R111. alu0 inequality compare. -/
  | neAlu0 (g : Guard) (src : Source)
  /-- `NE_ALU1`, R111. alu1 inequality compare. -/
  | neAlu1 (g : Guard) (src : Source)
  /-- `LT_ALU0`, R111. alu0 signed less-than. -/
  | ltAlu0 (g : Guard) (src : Source)
  /-- `LT_ALU1`, R111. alu1 signed less-than. -/
  | ltAlu1 (g : Guard) (src : Source)
  /-- `LTU_ALU0`, R111. alu0 unsigned less-than. -/
  | ltuAlu0 (g : Guard) (src : Source)
  /-- `LTU_ALU1`, R111. alu1 unsigned less-than. -/
  | ltuAlu1 (g : Guard) (src : Source)
  /-- `LE_ALU0`, R111. alu0 signed less-or-equal. -/
  | leAlu0 (g : Guard) (src : Source)
  /-- `LE_ALU1`, R111. alu1 signed less-or-equal. -/
  | leAlu1 (g : Guard) (src : Source)
  /-- `LEU_ALU0`, R111. alu0 unsigned less-or-equal. -/
  | leuAlu0 (g : Guard) (src : Source)
  /-- `LEU_ALU1`, R111. alu1 unsigned less-or-equal. -/
  | leuAlu1 (g : Guard) (src : Source)
  /-- `SEL_ALU0`, R112. alu0 selects a when t is nonzero, else b. -/
  | selAlu0 (g : Guard) (src : Source)
  /-- `SEL_ALU1`, R112. alu1 selects a when t is nonzero, else b. -/
  | selAlu1 (g : Guard) (src : Source)
  /-- `CLZ_ALU0`, R112. alu0 count leading zeros of t. -/
  | clzAlu0 (g : Guard) (src : Source)
  /-- `CLZ_ALU1`, R112. alu1 count leading zeros of t. -/
  | clzAlu1 (g : Guard) (src : Source)
  /-- `CTZ_ALU0`, R112. alu0 count trailing zeros of t. -/
  | ctzAlu0 (g : Guard) (src : Source)
  /-- `CTZ_ALU1`, R112. alu1 count trailing zeros of t. -/
  | ctzAlu1 (g : Guard) (src : Source)
  /-- `POPC_ALU0`, R112. alu0 population count of t. -/
  | popcAlu0 (g : Guard) (src : Source)
  /-- `POPC_ALU1`, R112. alu1 population count of t. -/
  | popcAlu1 (g : Guard) (src : Source)
  /-- `SEXT_ALU0`, R112. alu0 sign-extends a from width t. -/
  | sextAlu0 (g : Guard) (src : Source)
  /-- `SEXT_ALU1`, R112. alu1 sign-extends a from width t. -/
  | sextAlu1 (g : Guard) (src : Source)
  /-- `ZEXT_ALU0`, R112. alu0 zero-extends a from width t. -/
  | zextAlu0 (g : Guard) (src : Source)
  /-- `ZEXT_ALU1`, R112. alu1 zero-extends a from width t. -/
  | zextAlu1 (g : Guard) (src : Source)
  /-- `BFX_ALU0`, R112. alu0 extracts a t-bit field of a at position b. -/
  | bfxAlu0 (g : Guard) (src : Source)
  /-- `BFX_ALU1`, R112. alu1 extracts a t-bit field of a at position b. -/
  | bfxAlu1 (g : Guard) (src : Source)
  /-- `BFI_ALU0`, R112. alu0 inserts the low t bits of c into a at position b. -/
  | bfiAlu0 (g : Guard) (src : Source)
  /-- `BFI_ALU1`, R112. alu1 inserts the low t bits of c into a at position b. -/
  | bfiAlu1 (g : Guard) (src : Source)
  /-- `MUL`, R113. Low 64 bits of a times t. -/
  | mul (g : Guard) (src : Source)
  /-- `MULH`, R113. High 64 bits of the signed product. -/
  | mulh (g : Guard) (src : Source)
  /-- `MULHU`, R113. High 64 bits of the unsigned product. -/
  | mulhu (g : Guard) (src : Source)
  /-- `MULW`, R113. 32-bit product sign-extended from bit 31. -/
  | mulw (g : Guard) (src : Source)
  /-- `MADD`, R113. a times t plus b, modulo 2^64. -/
  | madd (g : Guard) (src : Source)
  /-- `DIV`, R114. Signed division truncating toward zero, landing after 20 bundles. -/
  | div (g : Guard) (src : Source)
  /-- `DIVU`, R114. Unsigned division. -/
  | divu (g : Guard) (src : Source)
  /-- `REM`, R114. Signed remainder. -/
  | rem (g : Guard) (src : Source)
  /-- `REMU`, R114. Unsigned remainder. -/
  | remu (g : Guard) (src : Source)
  /-- `JMP`, R116. Taken transfer to an absolute target. -/
  | jmp (g : Guard) (src : Source)
  /-- `BRA`, R116. Taken transfer to a relative target. -/
  | bra (g : Guard) (src : Source)
  /-- `BRZ`, R116. Relative branch taken when a is zero. -/
  | brz (g : Guard) (src : Source)
  /-- `BRNZ`, R116. Relative branch taken when a is nonzero. -/
  | brnz (g : Guard) (src : Source)
  /-- `CALL`, R117. Absolute transfer that writes the return address to LINK. -/
  | call (g : Guard) (src : Source)
  /-- `RET`, R116. Transfer to LINK[17:0]. -/
  | ret (g : Guard) (src : Source)
  /-- `LOOPS`, R118. Starts a hardware loop from the next bundle to a relative loop end. -/
  | loops (g : Guard) (src : Source)
  /-- `LOOPX`, R118. Starts a hardware loop with an explicit start, skipping the body when the count is zero. -/
  | loopx (g : Guard) (src : Source)
  /-- `TRAP`, R120. Raises software trap 0x10 with t and a in TRAPINFO. -/
  | trap (g : Guard) (src : Source)
  /-- `EXIT`, R121. Retires the context; a nonzero status stops and fails the node. -/
  | exit (g : Guard) (src : Source)
  /-- `SPLD`, R179. Loads a dword and its tag from the spill window. -/
  | spld (g : Guard) (src : Source)
  /-- `SPST`, R179. Stores a dword and its tag to the spill window. -/
  | spst (g : Guard) (src : Source)
  /-- `LDB`, R180. Local byte load, zero-extended. -/
  | ldb (g : Guard) (src : Source)
  /-- `LDBS`, R180. Local byte load, sign-extended. -/
  | ldbs (g : Guard) (src : Source)
  /-- `LDH`, R180. Local half load, zero-extended. -/
  | ldh (g : Guard) (src : Source)
  /-- `LDHS`, R180. Local half load, sign-extended. -/
  | ldhs (g : Guard) (src : Source)
  /-- `LDW`, R180. Local word load, zero-extended. -/
  | ldw (g : Guard) (src : Source)
  /-- `LDWS`, R180. Local word load, sign-extended. -/
  | ldws (g : Guard) (src : Source)
  /-- `LDD`, R180. Local dword load. -/
  | ldd (g : Guard) (src : Source)
  /-- `STB`, R181. Local byte store, or pour in the multicast window. -/
  | stb (g : Guard) (src : Source)
  /-- `STH`, R181. Local half store or pour. -/
  | sth (g : Guard) (src : Source)
  /-- `STW`, R181. Local word store or pour. -/
  | stw (g : Guard) (src : Source)
  /-- `STD`, R181. Local dword store or pour. -/
  | std (g : Guard) (src : Source)
  /-- `TCH`, R182. Translates a global virtual address and pins the translation. -/
  | tch (g : Guard) (src : Source)
  /-- `GLD`, R183. Covered global scalar load landing at arrival c. -/
  | gld (g : Guard) (src : Source)
  /-- `GST`, R183. Covered global scalar store. -/
  | gst (g : Guard) (src : Source)
  /-- `AADD`, R184. Atomic add into an accumulator element, returning the old value. -/
  | aadd (g : Guard) (src : Source)
  /-- `AMAX`, R184. Atomic maximum on an accumulator element. -/
  | amax (g : Guard) (src : Source)
  /-- `AMIN`, R184. Atomic minimum on an accumulator element. -/
  | amin (g : Guard) (src : Source)
  /-- `AXCHG`, R184. Atomic exchange on an accumulator element. -/
  | axchg (g : Guard) (src : Source)
  /-- `ACAS`, R184. Atomic compare-and-swap on an accumulator element. -/
  | acas (g : Guard) (src : Source)
  /-- `MFSR`, R123. Reads a special register into sys.x. -/
  | mfsr (g : Guard) (src : Source)
  /-- `MTSR`, R124. Writes a special register, with register-specific effects for FFLAGS, PRIO and VQUOTA. -/
  | mtsr (g : Guard) (src : Source)
  /-- `YIELD`, R125. Makes the context not ready in the following cycle. -/
  | yield (g : Guard) (src : Source)
  /-- `PRIO`, R126. Sets the issue priority and returns the old PRIO. -/
  | prio (g : Guard) (src : Source)
  /-- `SYSC`, R127. Sends a system call to the partition manager, counted on a token. -/
  | sysc (g : Guard) (src : Source)
  /-- `RFT`, R70. Ends a trap handler, restoring the snapshot and retrying or skipping the faulting bundle. -/
  | rft (g : Guard) (src : Source)
  /-- `TOKQ`, R131. Returns a token's count and error bit. -/
  | tokq (g : Guard) (src : Source)
  /-- `TOKC`, R131. Removes unstarted engine commands counted on the named tokens as cancelled. -/
  | tokc (g : Guard) (src : Source)
  /-- `FFLGS`, R132. Returns FFLAGS and clears the masked flags. -/
  | fflgs (g : Guard) (src : Source)
  /-- `SLEEP`, R133. Consumes the wake flag or sleeps until woken or a cycle limit passes. -/
  | sleep (g : Guard) (src : Source)
  /-- `WAKE`, R133. Sets the wake flag of a sibling context. -/
  | wake (g : Guard) (src : Source)
  /-- `CTXQ`, R134. Returns the state of a sibling context. -/
  | ctxq (g : Guard) (src : Source)
  /-- `RDEF`, R248. Clears a sketch entry and reads a descriptor to define it at b+4. -/
  | rdef (g : Guard) (src : Source)
  /-- `RTAG`, R248. Binds a vector register name to a defined sketch entry. -/
  | rtag (g : Guard) (src : Source)
  /-- `RCLR`, R249. Clears a sketch entry. -/
  | rclr (g : Guard) (src : Source)
  /-- `RDROP`, R251. Drops a resident vector name, releasing its storage. -/
  | rdrop (g : Guard) (src : Source)
  /-- `VLD`, R185. Contiguous local vector load. -/
  | vld (g : Guard) (src : Source)
  /-- `VLDS`, R185. Strided local vector load. -/
  | vlds (g : Guard) (src : Source)
  /-- `VLDG`, R185. Gathered local vector load. -/
  | vldg (g : Guard) (src : Source)
  /-- `VST`, R185. Contiguous local vector store. -/
  | vst (g : Guard) (src : Source)
  /-- `VSTS`, R185. Strided local vector store. -/
  | vsts (g : Guard) (src : Source)
  /-- `VSTM`, R185. Masked contiguous vector store. -/
  | vstm (g : Guard) (src : Source)
  /-- `VSTG`, R185. Scattered local vector store. -/
  | vstg (g : Guard) (src : Source)
  /-- `VLDBF`, R186. Loads 128 BF16 elements widened to FP32. -/
  | vldbf (g : Guard) (src : Source)
  /-- `VSTBF`, R186. Stores lanes narrowed to BF16 under FRM. -/
  | vstbf (g : Guard) (src : Source)
  /-- `VLDF8`, R186. Loads 128 FP8 bytes widened to FP32. -/
  | vldf8 (g : Guard) (src : Source)
  /-- `VLDI8`, R186. Loads 128 bytes sign-extended to INT32. -/
  | vldi8 (g : Guard) (src : Source)
  /-- `VLDZ8`, R186. Loads 128 bytes zero-extended. -/
  | vldz8 (g : Guard) (src : Source)
  /-- `VLDX`, R187. Loads 512 bytes unpacked through a pattern register. -/
  | vldx (g : Guard) (src : Source)
  /-- `VLDE`, R188. Expands 128 elements of a sparse vector. -/
  | vlde (g : Guard) (src : Source)
  /-- `VSTP`, R189. Packs one segment of a sparse vector under its reserve. -/
  | vstp (g : Guard) (src : Source)
  /-- `VGLD`, R190. Covered global vector load. -/
  | vgld (g : Guard) (src : Source)
  /-- `VGST`, R190. Covered global vector store. -/
  | vgst (g : Guard) (src : Source)
  /-- `VSTMC`, R191. Pours a vector to the multicast window. -/
  | vstmc (g : Guard) (src : Source)
  /-- `VIADD`, R138. Lane-wise wrapping integer add. -/
  | viadd (g : Guard) (src : Source)
  /-- `VISUB`, R138. Lane-wise wrapping integer subtract. -/
  | visub (g : Guard) (src : Source)
  /-- `VIMUL`, R138. Lane-wise low 32-bit multiply. -/
  | vimul (g : Guard) (src : Source)
  /-- `VIMIN`, R138. Lane-wise signed minimum. -/
  | vimin (g : Guard) (src : Source)
  /-- `VIMAX`, R138. Lane-wise signed maximum. -/
  | vimax (g : Guard) (src : Source)
  /-- `VIMINU`, R138. Lane-wise unsigned minimum. -/
  | viminu (g : Guard) (src : Source)
  /-- `VIMAXU`, R138. Lane-wise unsigned maximum. -/
  | vimaxu (g : Guard) (src : Source)
  /-- `VAND`, R138. Lane-wise AND. -/
  | vand (g : Guard) (src : Source)
  /-- `VOR`, R138. Lane-wise OR. -/
  | vor (g : Guard) (src : Source)
  /-- `VXOR`, R138. Lane-wise XOR. -/
  | vxor (g : Guard) (src : Source)
  /-- `VANDN`, R138. Lane-wise AND NOT. -/
  | vandn (g : Guard) (src : Source)
  /-- `VSHL`, R138. Lane-wise shift left. -/
  | vshl (g : Guard) (src : Source)
  /-- `VSHR`, R138. Lane-wise logical shift right. -/
  | vshr (g : Guard) (src : Source)
  /-- `VSAR`, R138. Lane-wise arithmetic shift right. -/
  | vsar (g : Guard) (src : Source)
  /-- `VIEQ`, R138. Lane-wise equality into a mask. -/
  | vieq (g : Guard) (src : Source)
  /-- `VILT`, R138. Lane-wise signed less-than into a mask. -/
  | vilt (g : Guard) (src : Source)
  /-- `VILTU`, R138. Lane-wise unsigned less-than into a mask. -/
  | viltu (g : Guard) (src : Source)
  /-- `VSEL`, R138. Lane select between a and b by a mask. -/
  | vsel (g : Guard) (src : Source)
  /-- `VIOTA`, R138. Lane numbers plus a start value. -/
  | viota (g : Guard) (src : Source)
  /-- `VPOPM`, R138. Counts set lanes of a mask. -/
  | vpopm (g : Guard) (src : Source)
  /-- `VMAND`, R138. Mask AND. -/
  | vmand (g : Guard) (src : Source)
  /-- `VMOR`, R138. Mask OR. -/
  | vmor (g : Guard) (src : Source)
  /-- `VMXOR`, R138. Mask XOR. -/
  | vmxor (g : Guard) (src : Source)
  /-- `VMNOT`, R138. Mask NOT. -/
  | vmnot (g : Guard) (src : Source)
  /-- `VBEQ8`, R138. Byte-wise equality giving 0xFF or 0x00. -/
  | vbeq8 (g : Guard) (src : Source)
  /-- `VIADDS`, R138. Lane-wise saturating signed add. -/
  | viadds (g : Guard) (src : Source)
  /-- `FADD`, R139. Lane-wise FP32 add under FRM. -/
  | fadd (g : Guard) (src : Source)
  /-- `FSUB`, R139. Lane-wise FP32 subtract. -/
  | fsub (g : Guard) (src : Source)
  /-- `FMUL`, R139. Lane-wise FP32 multiply. -/
  | fmul (g : Guard) (src : Source)
  /-- `FMA`, R139. Fused a times b plus t. -/
  | fma (g : Guard) (src : Source)
  /-- `FMS`, R139. Fused a times b minus t. -/
  | fms (g : Guard) (src : Source)
  /-- `FNMA`, R139. Fused t minus a times b. -/
  | fnma (g : Guard) (src : Source)
  /-- `FMAX`, R140. Lane-wise FP32 maximum. -/
  | fmax (g : Guard) (src : Source)
  /-- `FMIN`, R140. Lane-wise FP32 minimum. -/
  | fmin (g : Guard) (src : Source)
  /-- `FABS`, R140. Clears the sign bit of each lane. -/
  | fabs (g : Guard) (src : Source)
  /-- `FNEG`, R140. Inverts the sign bit of each lane. -/
  | fneg (g : Guard) (src : Source)
  /-- `FEQ`, R140. FP32 equality into a mask. -/
  | feq (g : Guard) (src : Source)
  /-- `FLT`, R140. FP32 less-than into a mask. -/
  | flt (g : Guard) (src : Source)
  /-- `FLE`, R140. FP32 less-or-equal into a mask. -/
  | fle (g : Guard) (src : Source)
  /-- `FUN`, R140. Unordered test into a mask. -/
  | funord (g : Guard) (src : Source)
  /-- `FCLMP`, R140. Clamps lanes between bounds a and b. -/
  | fclmp (g : Guard) (src : Source)
  /-- `FSUBX`, R139. FP32 subtract with minus infinity minus minus infinity giving minus infinity. -/
  | fsubx (g : Guard) (src : Source)
  /-- `HADD`, R141. Packed BF16 add. -/
  | hadd (g : Guard) (src : Source)
  /-- `HMUL`, R141. Packed BF16 multiply. -/
  | hmul (g : Guard) (src : Source)
  /-- `HFMA`, R141. Packed BF16 fused multiply-add. -/
  | hfma (g : Guard) (src : Source)
  /-- `HMAX`, R141. Packed BF16 maximum. -/
  | hmax (g : Guard) (src : Source)
  /-- `CVTFI`, R142. FP32 to INT32 under FRM with saturation. -/
  | cvtfi (g : Guard) (src : Source)
  /-- `CVTIF`, R142. INT32 to FP32 under FRM. -/
  | cvtif (g : Guard) (src : Source)
  /-- `CVTFH`, R142. Packs two FP32 vectors into BF16 halves. -/
  | cvtfh (g : Guard) (src : Source)
  /-- `CVTHF`, R142. Widens packed BF16 halves into two FP32 results. -/
  | cvthf (g : Guard) (src : Source)
  /-- `CVTF8`, R143. Converts FP32 times m to E4M3 into one byte of each lane. -/
  | cvtf8 (g : Guard) (src : Source)
  /-- `CVT8F`, R143. Widens an E4M3 byte of each lane to FP32. -/
  | cvt8f (g : Guard) (src : Source)
  /-- `CVTF5`, R143. Converts FP32 times m to E5M2 into one byte of each lane. -/
  | cvtf5 (g : Guard) (src : Source)
  /-- `CVT5F`, R143. Widens an E5M2 byte of each lane to FP32. -/
  | cvt5f (g : Guard) (src : Source)
  /-- `CVTFP16`, R142. Packs two FP32 vectors into FP16 halves. -/
  | cvtfp16 (g : Guard) (src : Source)
  /-- `CVTP16F`, R142. Widens packed FP16 halves into two FP32 results. -/
  | cvtp16f (g : Guard) (src : Source)
  /-- `QPAL`, R144. Quantises 128 FP32 lanes to four P4 blocks with palette selection. -/
  | qpal (g : Guard) (src : Source)
  /-- `DQPAL`, R144. Decodes four P4 blocks to FP32, checking sidecar parity. -/
  | dqpal (g : Guard) (src : Source)
  /-- `FRND`, R142. Rounds lanes to integral FP32 under FRM. -/
  | frnd (g : Guard) (src : Source)
  /-- `FSCL`, R142. Scales a by 2 to the INT32 exponent t. -/
  | fscl (g : Guard) (src : Source)
  /-- `FXPN`, R142. Extracts the floor log2 exponent as INT32. -/
  | fxpn (g : Guard) (src : Source)
  /-- `EXP2`, R146. Lane-wise 2 to the x. -/
  | exp2 (g : Guard) (src : Source)
  /-- `LOG2`, R146. Lane-wise log2. -/
  | log2 (g : Guard) (src : Source)
  /-- `RCP`, R146. Lane-wise reciprocal. -/
  | rcp (g : Guard) (src : Source)
  /-- `RSQRT`, R146. Lane-wise reciprocal square root. -/
  | rsqrt (g : Guard) (src : Source)
  /-- `SQRT`, R146. Lane-wise square root, correctly rounded under FRM. -/
  | sqrt (g : Guard) (src : Source)
  /-- `TANH`, R146. Lane-wise hyperbolic tangent. -/
  | tanh (g : Guard) (src : Source)
  /-- `SIGM`, R146. Lane-wise logistic sigmoid. -/
  | sigm (g : Guard) (src : Source)
  /-- `RSUM`, R147. Tree sum of enabled FP32 lanes. -/
  | rsum (g : Guard) (src : Source)
  /-- `RMAX`, R147. Maximum of enabled FP32 lanes. -/
  | rmax (g : Guard) (src : Source)
  /-- `RMIN`, R147. Minimum of enabled FP32 lanes. -/
  | rmin (g : Guard) (src : Source)
  /-- `RSUMI`, R147. Exact integer sum of enabled lanes. -/
  | rsumi (g : Guard) (src : Source)
  /-- `RAMAX`, R148. Greatest enabled lane value and its lane number. -/
  | ramax (g : Guard) (src : Source)
  /-- `SCAN`, R149. Inclusive running FP32 sum of enabled lanes. -/
  | scan (g : Guard) (src : Source)
  /-- `PERM`, R150. Permutes lanes of a by index lanes. -/
  | perm (g : Guard) (src : Source)
  /-- `VROT`, R150. Rotates lanes of a. -/
  | vrot (g : Guard) (src : Source)
  /-- `VEXT`, R150. Extracts one lane to a scalar. -/
  | vext (g : Guard) (src : Source)
  /-- `VINS`, R150. Inserts a scalar into one lane. -/
  | vins (g : Guard) (src : Source)
  /-- `VCMP`, R151. Compresses enabled lanes and counts them. -/
  | vcmp (g : Guard) (src : Source)
  /-- `VXPD`, R151. Expands low lanes into enabled lanes. -/
  | vxpd (g : Guard) (src : Source)
  /-- `ZIP`, R150. Interleaves two vectors into two results. -/
  | zip (g : Guard) (src : Source)
  /-- `UNZIP`, R150. De-interleaves two vectors into two results. -/
  | unzip (g : Guard) (src : Source)
  /-- `VBIT`, R152. Tests one bitmap bit per lane into a mask. -/
  | vbit (g : Guard) (src : Source)
  /-- `PSET`, R154. Loads a pattern register from a descriptor, effective at b+4. -/
  | pset (g : Guard) (src : Source)
  /-- `PGET`, R155. Reads a word of a pattern register. -/
  | pget (g : Guard) (src : Source)
  /-- `PUNPK`, R156. Unpacks a bit vector through a pattern. -/
  | punpk (g : Guard) (src : Source)
  /-- `PPACK`, R156. Packs lanes into a bit vector through a pattern. -/
  | ppack (g : Guard) (src : Source)
  /-- `CHK16`, R159. Checks a sparse header against mask bytes. -/
  | chk16 (g : Guard) (src : Source)
  /-- `SPHDR`, R158. Builds a sparse header with count and CRC-8. -/
  | sphdr (g : Guard) (src : Source)
  /-- `MSEL`, R223. Selects the matrix engine in ENGSEL[1:0]. -/
  | msel (g : Guard) (src : Source)
  /-- `MSET`, R224. Writes one matrix engine parameter of the context's set. -/
  | mset (g : Guard) (src : Source)
  /-- `MLDW`, R226. Enters a command that loads a weight tile into the shadow plane. -/
  | mldw (g : Guard) (src : Source)
  /-- `MSTR`, R227. Enters a command that streams activation vectors against the active plane. -/
  | mstr (g : Guard) (src : Source)
  /-- `MDRN`, R229. Enters a command that drains accumulator rows through the epilogue and conversion. -/
  | mdrn (g : Guard) (src : Source)
  /-- `MZERO`, R228. Enters a command that zeroes accumulator rows. -/
  | mzero (g : Guard) (src : Source)
  /-- `MSTAT`, R232. Reports engine state or the last completed status. -/
  | mstat (g : Guard) (src : Source)
  /-- `MCAN`, R233. Removes unstarted matrix commands as cancelled. -/
  | mcan (g : Guard) (src : Source)
  /-- `CSET`, R263. Writes one copy parameter of the selected set. -/
  | cset (g : Guard) (src : Source)
  /-- `CGO`, R263. Enters a copy command with an offset. -/
  | cgo (g : Guard) (src : Source)
  /-- `CSTAT`, R264. Reports status or progress of a token's reported copy. -/
  | cstat (g : Guard) (src : Source)
  /-- `CCAN`, R263. Cancels copy commands of the context on the selected engine. -/
  | ccan (g : Guard) (src : Source)
  /-- `CSEL`, R263. Selects the copy engine in ENGSEL[4:2]. -/
  | csel (g : Guard) (src : Source)
  /-- `GSET`, R276. Writes one glaze parameter. -/
  | gset (g : Guard) (src : Source)
  /-- `GSEND`, R276. Enters a contributing glaze command. -/
  | gsend (g : Guard) (src : Source)
  /-- `GRECV`, R276. Enters a receiving glaze command. -/
  | grecv (g : Guard) (src : Source)
  /-- `GRED`, R276. Enters a glaze command that contributes and receives. -/
  | gred (g : Guard) (src : Source)
  /-- `GCAN`, R275. Cancels blocks of the target receive. -/
  | gcan (g : Guard) (src : Source)
  /-- `GPREC`, R274. Reads precision counters and acquires the reported writes. -/
  | gprec (g : Guard) (src : Source)
  /-- `TSET`, R345. Writes one retouch parameter. -/
  | tset (g : Guard) (src : Source)
  /-- `TWRT`, R337. Enters a retouch command that writes fresco rows. -/
  | twrt (g : Guard) (src : Source)
  /-- `TSTAT`, R346. Reports status or progress of a token's retouch command. -/
  | tstat (g : Guard) (src : Source)
  /-- `TWEAR`, R347. Reports the wear of a fresco row. -/
  | twear (g : Guard) (src : Source)
  /-- `TMAP`, R348. Returns the fresco map entry of a virtual tile. -/
  | tmap (g : Guard) (src : Source)
  /-- `BINIT`, R195. Writes barrier word 0 and reloads the pending counts. -/
  | binit (g : Guard) (src : Source)
  /-- `BARV`, R195. Arrives at a barrier word. -/
  | barv (g : Guard) (src : Source)
  /-- `BEXP`, R195. Adds expected bytes and arrives at a barrier word. -/
  | bexp (g : Guard) (src : Source)
  /-- `BTST`, R195. Reads barrier word 1, observing any flip. -/
  | btst (g : Guard) (src : Source)
  /-- `BWAIT`, R196. Waits until a barrier word's phase differs from the operand. -/
  | bwait (g : Guard) (src : Source)
  /-- `FENCE`, R198. Holds the context until stores, host visibility or all commands have drained. -/
  | fence (g : Guard) (src : Source)
  /-- `TWAIT`, R199. Makes the next bundle await the named tokens. -/
  | twait (g : Guard) (src : Source)
  deriving DecidableEq, Repr

end Sys2Proof
end

