-- ==== Sys2Proof/WellFormed.lean ====
section
/-! DEFINITION. When a term of the syntax is a row of the table with every field in the range its encoding or its subject
admits (R2, R3, R4, R20 to R22, R26). -/

namespace Sys2Proof

/-- R21, R26: register numbers, latch units and immediate codes in range. -/
def Source.wf : Source → Bool
  | .g i => decide (i < 64)
  | .v i => decide (i < 32)
  | .m i => decide (i < 8)
  | .p i => decide (1 ≤ i) && decide (i ≤ 3)
  | .o i => decide (i < 16)
  | .vo i => decide (i < 8)
  | .latch u _ => decide (u < 18)
  | .short i => decide (i < 0xF0)
  | .long0 => true
  | .long1 => true
  | .longBoth => true
  | .long0z => true

/-- R22: register numbers, units and operand ports in range. -/
def Dest.wf : Dest → Bool
  | .port u k => decide (u < 18) && decide (k < 4)
  | .g i => decide (i < 64)
  | .v i => decide (i < 32)
  | .m i => decide (i < 8)
  | .p i => decide (1 ≤ i) && decide (i ≤ 3)
  | .o i => decide (i < 16)
  | .vo i => decide (i < 8)

/-- R2 to R4: units the package has. -/
def ClId.wf (c : ClId) : Bool := decide (c.die < 8) && decide (c.cl < 32)
def CoreId.wf (c : CoreId) : Bool := decide (c.die < 8) && decide (c.cl < 32) && decide (c.core < 4)
def CtxId.wf (c : CtxId) : Bool := decide (c.die < 8) && decide (c.cl < 32) && decide (c.core < 4) && decide (c.ctx < 4)
def EngId.wf (e : EngId) : Bool := decide (e.die < 8) && decide (e.cl < 32) && decide (e.eng < 4)
def DieEng.wfN (e : DieEng) (n : Nat) : Bool := decide (e.die < 8) && decide (e.eng < n)
def Config.hasDie (d : Nat) : Bool := decide (d < 8)
def Config.hasIsland (d i : Nat) : Bool := decide (d < 8) && decide (i < 8)
/-- R4: the 18 Chrolin link ports. -/
def Config.hasPort (p : Nat) : Bool := decide (p < 18)
/-- R2: the two host ports. -/
def Config.hasHostPort (p : Nat) : Bool := decide (p < 2)

/-- The subject of a step or event is a unit of the package; a trigger's or move's fields are in range. -/
def Instr.wf : Instr → Bool
  | .bundleIssue c => c.wf
  | .starvationLead c => c.wf
  | .move _ src dst => src.wf && dst.wf
  | .lineFetch c _ => c.wf
  | .latchLanding c => c.wf
  | .timedDataArrival c _ => c.wf
  | .timedLanding c => c.wf
  | .sketchReplayComplete c => c.wf
  | .sleepTimeout c => c.wf
  | .pourLanding => true
  | .bwaitWake c => c.wf
  | .fenceComplete c => c.wf
  | .pinExpiry c => c.wf
  | .pageWalkComplete c _ => c.wf
  | .syscReply die => Config.hasDie die
  | .addAlu0 _ src => src.wf
  | .addAlu1 _ src => src.wf
  | .subAlu0 _ src => src.wf
  | .subAlu1 _ src => src.wf
  | .andAlu0 _ src => src.wf
  | .andAlu1 _ src => src.wf
  | .orAlu0 _ src => src.wf
  | .orAlu1 _ src => src.wf
  | .xorAlu0 _ src => src.wf
  | .xorAlu1 _ src => src.wf
  | .andnAlu0 _ src => src.wf
  | .andnAlu1 _ src => src.wf
  | .shlAlu0 _ src => src.wf
  | .shlAlu1 _ src => src.wf
  | .shrAlu0 _ src => src.wf
  | .shrAlu1 _ src => src.wf
  | .sarAlu0 _ src => src.wf
  | .sarAlu1 _ src => src.wf
  | .rolAlu0 _ src => src.wf
  | .rolAlu1 _ src => src.wf
  | .minAlu0 _ src => src.wf
  | .minAlu1 _ src => src.wf
  | .maxAlu0 _ src => src.wf
  | .maxAlu1 _ src => src.wf
  | .minuAlu0 _ src => src.wf
  | .minuAlu1 _ src => src.wf
  | .maxuAlu0 _ src => src.wf
  | .maxuAlu1 _ src => src.wf
  | .eqAlu0 _ src => src.wf
  | .eqAlu1 _ src => src.wf
  | .neAlu0 _ src => src.wf
  | .neAlu1 _ src => src.wf
  | .ltAlu0 _ src => src.wf
  | .ltAlu1 _ src => src.wf
  | .ltuAlu0 _ src => src.wf
  | .ltuAlu1 _ src => src.wf
  | .leAlu0 _ src => src.wf
  | .leAlu1 _ src => src.wf
  | .leuAlu0 _ src => src.wf
  | .leuAlu1 _ src => src.wf
  | .selAlu0 _ src => src.wf
  | .selAlu1 _ src => src.wf
  | .clzAlu0 _ src => src.wf
  | .clzAlu1 _ src => src.wf
  | .ctzAlu0 _ src => src.wf
  | .ctzAlu1 _ src => src.wf
  | .popcAlu0 _ src => src.wf
  | .popcAlu1 _ src => src.wf
  | .sextAlu0 _ src => src.wf
  | .sextAlu1 _ src => src.wf
  | .zextAlu0 _ src => src.wf
  | .zextAlu1 _ src => src.wf
  | .bfxAlu0 _ src => src.wf
  | .bfxAlu1 _ src => src.wf
  | .bfiAlu0 _ src => src.wf
  | .bfiAlu1 _ src => src.wf
  | .mul _ src => src.wf
  | .mulh _ src => src.wf
  | .mulhu _ src => src.wf
  | .mulw _ src => src.wf
  | .madd _ src => src.wf
  | .div _ src => src.wf
  | .divu _ src => src.wf
  | .rem _ src => src.wf
  | .remu _ src => src.wf
  | .jmp _ src => src.wf
  | .bra _ src => src.wf
  | .brz _ src => src.wf
  | .brnz _ src => src.wf
  | .call _ src => src.wf
  | .ret _ src => src.wf
  | .loops _ src => src.wf
  | .loopx _ src => src.wf
  | .trap _ src => src.wf
  | .exit _ src => src.wf
  | .spld _ src => src.wf
  | .spst _ src => src.wf
  | .ldb _ src => src.wf
  | .ldbs _ src => src.wf
  | .ldh _ src => src.wf
  | .ldhs _ src => src.wf
  | .ldw _ src => src.wf
  | .ldws _ src => src.wf
  | .ldd _ src => src.wf
  | .stb _ src => src.wf
  | .sth _ src => src.wf
  | .stw _ src => src.wf
  | .std _ src => src.wf
  | .tch _ src => src.wf
  | .gld _ src => src.wf
  | .gst _ src => src.wf
  | .aadd _ src => src.wf
  | .amax _ src => src.wf
  | .amin _ src => src.wf
  | .axchg _ src => src.wf
  | .acas _ src => src.wf
  | .mfsr _ src => src.wf
  | .mtsr _ src => src.wf
  | .yield _ src => src.wf
  | .prio _ src => src.wf
  | .sysc _ src => src.wf
  | .rft _ src => src.wf
  | .tokq _ src => src.wf
  | .tokc _ src => src.wf
  | .fflgs _ src => src.wf
  | .sleep _ src => src.wf
  | .wake _ src => src.wf
  | .ctxq _ src => src.wf
  | .rdef _ src => src.wf
  | .rtag _ src => src.wf
  | .rclr _ src => src.wf
  | .rdrop _ src => src.wf
  | .vld _ src => src.wf
  | .vlds _ src => src.wf
  | .vldg _ src => src.wf
  | .vst _ src => src.wf
  | .vsts _ src => src.wf
  | .vstm _ src => src.wf
  | .vstg _ src => src.wf
  | .vldbf _ src => src.wf
  | .vstbf _ src => src.wf
  | .vldf8 _ src => src.wf
  | .vldi8 _ src => src.wf
  | .vldz8 _ src => src.wf
  | .vldx _ src => src.wf
  | .vlde _ src => src.wf
  | .vstp _ src => src.wf
  | .vgld _ src => src.wf
  | .vgst _ src => src.wf
  | .vstmc _ src => src.wf
  | .viadd _ src => src.wf
  | .visub _ src => src.wf
  | .vimul _ src => src.wf
  | .vimin _ src => src.wf
  | .vimax _ src => src.wf
  | .viminu _ src => src.wf
  | .vimaxu _ src => src.wf
  | .vand _ src => src.wf
  | .vor _ src => src.wf
  | .vxor _ src => src.wf
  | .vandn _ src => src.wf
  | .vshl _ src => src.wf
  | .vshr _ src => src.wf
  | .vsar _ src => src.wf
  | .vieq _ src => src.wf
  | .vilt _ src => src.wf
  | .viltu _ src => src.wf
  | .vsel _ src => src.wf
  | .viota _ src => src.wf
  | .vpopm _ src => src.wf
  | .vmand _ src => src.wf
  | .vmor _ src => src.wf
  | .vmxor _ src => src.wf
  | .vmnot _ src => src.wf
  | .vbeq8 _ src => src.wf
  | .viadds _ src => src.wf
  | .fadd _ src => src.wf
  | .fsub _ src => src.wf
  | .fmul _ src => src.wf
  | .fma _ src => src.wf
  | .fms _ src => src.wf
  | .fnma _ src => src.wf
  | .fmax _ src => src.wf
  | .fmin _ src => src.wf
  | .fabs _ src => src.wf
  | .fneg _ src => src.wf
  | .feq _ src => src.wf
  | .flt _ src => src.wf
  | .fle _ src => src.wf
  | .funord _ src => src.wf
  | .fclmp _ src => src.wf
  | .fsubx _ src => src.wf
  | .hadd _ src => src.wf
  | .hmul _ src => src.wf
  | .hfma _ src => src.wf
  | .hmax _ src => src.wf
  | .cvtfi _ src => src.wf
  | .cvtif _ src => src.wf
  | .cvtfh _ src => src.wf
  | .cvthf _ src => src.wf
  | .cvtf8 _ src => src.wf
  | .cvt8f _ src => src.wf
  | .cvtf5 _ src => src.wf
  | .cvt5f _ src => src.wf
  | .cvtfp16 _ src => src.wf
  | .cvtp16f _ src => src.wf
  | .qpal _ src => src.wf
  | .dqpal _ src => src.wf
  | .frnd _ src => src.wf
  | .fscl _ src => src.wf
  | .fxpn _ src => src.wf
  | .exp2 _ src => src.wf
  | .log2 _ src => src.wf
  | .rcp _ src => src.wf
  | .rsqrt _ src => src.wf
  | .sqrt _ src => src.wf
  | .tanh _ src => src.wf
  | .sigm _ src => src.wf
  | .rsum _ src => src.wf
  | .rmax _ src => src.wf
  | .rmin _ src => src.wf
  | .rsumi _ src => src.wf
  | .ramax _ src => src.wf
  | .scan _ src => src.wf
  | .perm _ src => src.wf
  | .vrot _ src => src.wf
  | .vext _ src => src.wf
  | .vins _ src => src.wf
  | .vcmp _ src => src.wf
  | .vxpd _ src => src.wf
  | .zip _ src => src.wf
  | .unzip _ src => src.wf
  | .vbit _ src => src.wf
  | .pset _ src => src.wf
  | .pget _ src => src.wf
  | .punpk _ src => src.wf
  | .ppack _ src => src.wf
  | .chk16 _ src => src.wf
  | .sphdr _ src => src.wf
  | .msel _ src => src.wf
  | .mset _ src => src.wf
  | .mldw _ src => src.wf
  | .mstr _ src => src.wf
  | .mdrn _ src => src.wf
  | .mzero _ src => src.wf
  | .mstat _ src => src.wf
  | .mcan _ src => src.wf
  | .cset _ src => src.wf
  | .cgo _ src => src.wf
  | .cstat _ src => src.wf
  | .ccan _ src => src.wf
  | .csel _ src => src.wf
  | .gset _ src => src.wf
  | .gsend _ src => src.wf
  | .grecv _ src => src.wf
  | .gred _ src => src.wf
  | .gcan _ src => src.wf
  | .gprec _ src => src.wf
  | .tset _ src => src.wf
  | .twrt _ src => src.wf
  | .tstat _ src => src.wf
  | .twear _ src => src.wf
  | .tmap _ src => src.wf
  | .binit _ src => src.wf
  | .barv _ src => src.wf
  | .bexp _ src => src.wf
  | .btst _ src => src.wf
  | .bwait _ src => src.wf
  | .fence _ src => src.wf
  | .twait _ src => src.wf
  | .mexCommandStart e => e.wf
  | .mldwComplete e => e.wf
  | .streamPromotion e => e.wf
  | .mstrComplete e => e.wf
  | .mzeroComplete e => e.wf
  | .drainRow e => e.wf
  | .mdrnComplete e => e.wf
  | .copyStart e => e.wfN 8
  | .chunkFetch e _ _ => e.wfN 8
  | .chunkWrite e _ => e.wfN 8
  | .copyComplete e _ => e.wfN 8
  | .glazeStart e => e.wfN 2
  | .glazeMatch _ => true
  | .glazeTimeout e _ => e.wfN 2
  | .glazeRoundSend e _ => e.wfN 2
  | .glazePlaneReceive e _ _ _ => e.wfN 2
  | .glazeCancelAck e _ => e.wfN 2
  | .glazeAbort e _ => e.wfN 2
  | .glazeComplete e _ => e.wfN 2
  | .retouchCommandStart e => e.wfN 4
  | .retouchRowStart e => e.wfN 4
  | .writeAndCheckLoop e _ => e.wfN 4
  | .twrtComplete e => e.wfN 4
  | .graphRegistration _ _ _ => true
  | .nodeReady _ => true
  | .placement _ => true
  | .nodeStart _ => true
  | .nodeCommit _ => true
  | .nodeFail _ => true
  | .killedNodeRelease _ => true
  | .quiesceComplete _ => true
  | .swapSaveComplete _ => true
  | .restoreComplete _ => true
  | .savedNodeAccess _ _ => true
  | .islandWake die isl => Config.hasIsland die isl
  | .islandGate die isl => Config.hasIsland die isl
  | .shootdown _ _ _ _ _ => true
  | .shootdownComplete _ => true
  | .shootdownTimeout _ => true
  | .frescoMapChange _ _ _ _ => true
  | .partitionChange _ => true
  | .partitionSwap _ => true
  | .imageLoadRequest _ _ _ => true
  | .lpddrSectorRead _ _ => true
  | .uncorrectableDirtySector _ _ => true
  | .pageRetirementComplete _ _ => true
  | .sramUncorrectable _ => true
  | .correctedErrorRecord die _ => Config.hasDie die
  | .lockstepMismatch c _ => c.wf
  | .viral die _ => Config.hasDie die
  | .viralFlitReceived port => Config.hasPort port
  | .linkSilenceTimeout port => Config.hasPort port
  | .flitReceive port _ => Config.hasPort port
  | .flitResend port _ => Config.hasPort port
  | .resyncTimeout port => Config.hasPort port
  | .keepalive port => Config.hasPort port
  | .routineKeyUpdate port => Config.hasPort port
  | .packageReset _ => true
  | .frescoScan die _ _ => Config.hasDie die
  | .peerSession port _ _ => Config.hasPort port
  | .getVersion port => Config.hasHostPort port
  | .getCapabilities port _ => Config.hasHostPort port
  | .negotiateAlgorithms port _ => Config.hasHostPort port
  | .getDigests port _ => Config.hasHostPort port
  | .getCertificate port _ => Config.hasHostPort port
  | .challenge port _ => Config.hasHostPort port
  | .getMeasurements port _ => Config.hasHostPort port
  | .keyExchange port _ => Config.hasHostPort port
  | .finish port _ => Config.hasHostPort port
  | .heartbeat port _ => Config.hasHostPort port
  | .keyUpdate port _ => Config.hasHostPort port
  | .endSession port _ => Config.hasHostPort port
  | .heartbeatTimeout _ => true
  | .graceExpiry _ => true
  | .installRequest _ _ _ _ _ => true
  | .bucketConfig _ _ _ _ => true
  | .egressBucketRefill _ _ _ => true
  | .logCheckpoint => true
  | .logRead _ _ => true
  | .hostAccess _ => true
  | .portReset port => Config.hasPort port.val
  | .islandControlWrite die isl _ => Config.hasIsland die isl
  | .operatingPointChange die isl => Config.hasIsland die isl.isl
  | .thermalStep die isl _ => Config.hasIsland die isl
  | .overtemperature die isl _ => Config.hasIsland die isl
  | .powerLimitExceeded _ => true
  | .coolantFault _ _ => true
  | .coolantRestore _ _ => true
  | .wearLimitSet die _ => Config.hasDie die
  | .graphUnregistration _ _ => true
  | .imageRemoval _ _ => true
  | .powerLimitSet _ => true

end Sys2Proof
end

