-- ==== Sys2Proof/Decode.lean ====
section
/-! DEFINITION. The decoder of move syllables (R19 to R24, R26, R95), bundle headers (R16) and whole bundles, rejecting by
name; then an encoder written from the same tables. Field values are unit id times 32 plus port (R95). -/

namespace Sys2Proof

/-- Why a syllable is no move or header, by the rule that rejects it. -/
inductive Reject where
  /-- guard code 0b111 (R20) -/
  | guard
  /-- a reserved source level, index, latch select or immediate code (R21, R26) -/
  | source
  /-- a reserved destination level or index (R22) -/
  | dest
  /-- an unused trigger port of an assigned unit (R24) -/
  | port
  /-- a reserved unit id, in the latch source or the destination port (R23) -/
  | unit (u : Nat)
  /-- no header signature (R16) -/
  | signature
  /-- a long-immediate count of 3 (R16) -/
  | count
  /-- reserved header bit 0 set (R16) -/
  | reserved
  deriving DecidableEq, Repr

/-- R20. -/
def decodeGuard (n : Nat) : Option Guard :=
  match n with
  | 0 => some .always
  | 1 => some .p1
  | 2 => some .p2
  | 3 => some .p3
  | 4 => some .notP1
  | 5 => some .notP2
  | 6 => some .notP3
  | _ => none

/-- A main-file index (R21) as a source. -/
def decodeMainSrc (i : Nat) : Except Reject Source :=
  if i < 0x40 then .ok (.g i)
  else if i < 0x60 then .ok (.v (i - 0x40))
  else if i < 0x68 then .ok (.m (i - 0x60))
  else if i < 0x6B then .ok (.p (i - 0x67))
  else .error .source

/-- An operand-file index (R21) as a source. -/
def decodeOperSrc (i : Nat) : Except Reject Source :=
  if i < 0x10 then .ok (.o i) else if i < 0x18 then .ok (.vo (i - 0x10)) else .error .source

/-- A result-latch index (R21): unit id [18:14], latch select [13:11]. A reserved select is an illegal encoding; a reserved
unit is named only when nothing is illegal (R34). -/
def decodeLatchSrc (i : Nat) : Except Reject Source :=
  if 2 ≤ i % 8 then .error .source
  else if 18 ≤ i / 8 then .error (.unit (i / 8))
  else .ok (.latch (i / 8) (i % 8 == 1))

/-- An immediate code (R26). -/
def decodeImm (i : Nat) : Except Reject Source :=
  if i < 0xF0 then .ok (.short i)
  else if i = 0xF0 then .ok .long0
  else if i = 0xF1 then .ok .long1
  else if i = 0xF2 then .ok .longBoth
  else if i = 0xF3 then .ok .long0z
  else .error .source

/-- The source field [20:11] (R21). -/
def decodeSource (n : Nat) : Except Reject Source :=
  if n / 256 = 0 then decodeMainSrc (n % 256)
  else if n / 256 = 1 then decodeOperSrc (n % 256)
  else if n / 256 = 2 then decodeLatchSrc (n % 256)
  else decodeImm (n % 256)

/-- A register destination (R22): level [9:8], index [7:0]. -/
def decodeRegDest (n : Nat) : Except Reject Dest :=
  if n / 256 = 0 then
    if n % 256 < 0x40 then .ok (.g (n % 256))
    else if n % 256 < 0x60 then .ok (.v (n % 256 - 0x40))
    else if n % 256 < 0x68 then .ok (.m (n % 256 - 0x60))
    else if n % 256 < 0x6B then .ok (.p (n % 256 - 0x67))
    else .error .dest
  else if n / 256 = 1 then
    if n % 256 < 0x10 then .ok (.o (n % 256))
    else if n % 256 < 0x18 then .ok (.vo (n % 256 - 0x10))
    else .error .dest
  else .error .dest

/-- The trigger ports of unit 0 (R94, R95). -/
noncomputable def decodeTrigAlu0 (k : Nat) (g : Guard) (src : Source) : Option Instr :=
  match k with
  | 4 => some (.addAlu0 g src)
  | 5 => some (.subAlu0 g src)
  | 6 => some (.andAlu0 g src)
  | 7 => some (.orAlu0 g src)
  | 8 => some (.xorAlu0 g src)
  | 9 => some (.andnAlu0 g src)
  | 10 => some (.shlAlu0 g src)
  | 11 => some (.shrAlu0 g src)
  | 12 => some (.sarAlu0 g src)
  | 13 => some (.rolAlu0 g src)
  | 14 => some (.minAlu0 g src)
  | 15 => some (.maxAlu0 g src)
  | 16 => some (.minuAlu0 g src)
  | 17 => some (.maxuAlu0 g src)
  | 18 => some (.eqAlu0 g src)
  | 19 => some (.neAlu0 g src)
  | 20 => some (.ltAlu0 g src)
  | 21 => some (.ltuAlu0 g src)
  | 22 => some (.leAlu0 g src)
  | 23 => some (.leuAlu0 g src)
  | 24 => some (.selAlu0 g src)
  | 25 => some (.clzAlu0 g src)
  | 26 => some (.ctzAlu0 g src)
  | 27 => some (.popcAlu0 g src)
  | 28 => some (.sextAlu0 g src)
  | 29 => some (.zextAlu0 g src)
  | 30 => some (.bfxAlu0 g src)
  | 31 => some (.bfiAlu0 g src)
  | _ => none

/-- The trigger ports of unit 1 (R94, R95). -/
noncomputable def decodeTrigAlu1 (k : Nat) (g : Guard) (src : Source) : Option Instr :=
  match k with
  | 4 => some (.addAlu1 g src)
  | 5 => some (.subAlu1 g src)
  | 6 => some (.andAlu1 g src)
  | 7 => some (.orAlu1 g src)
  | 8 => some (.xorAlu1 g src)
  | 9 => some (.andnAlu1 g src)
  | 10 => some (.shlAlu1 g src)
  | 11 => some (.shrAlu1 g src)
  | 12 => some (.sarAlu1 g src)
  | 13 => some (.rolAlu1 g src)
  | 14 => some (.minAlu1 g src)
  | 15 => some (.maxAlu1 g src)
  | 16 => some (.minuAlu1 g src)
  | 17 => some (.maxuAlu1 g src)
  | 18 => some (.eqAlu1 g src)
  | 19 => some (.neAlu1 g src)
  | 20 => some (.ltAlu1 g src)
  | 21 => some (.ltuAlu1 g src)
  | 22 => some (.leAlu1 g src)
  | 23 => some (.leuAlu1 g src)
  | 24 => some (.selAlu1 g src)
  | 25 => some (.clzAlu1 g src)
  | 26 => some (.ctzAlu1 g src)
  | 27 => some (.popcAlu1 g src)
  | 28 => some (.sextAlu1 g src)
  | 29 => some (.zextAlu1 g src)
  | 30 => some (.bfxAlu1 g src)
  | 31 => some (.bfiAlu1 g src)
  | _ => none

/-- The trigger ports of unit 2 (R94, R95). -/
noncomputable def decodeTrigMul (k : Nat) (g : Guard) (src : Source) : Option Instr :=
  match k with
  | 4 => some (.mul g src)
  | 5 => some (.mulh g src)
  | 6 => some (.mulhu g src)
  | 7 => some (.mulw g src)
  | 8 => some (.madd g src)
  | 9 => some (.div g src)
  | 10 => some (.divu g src)
  | 11 => some (.rem g src)
  | 12 => some (.remu g src)
  | _ => none

/-- The trigger ports of unit 3 (R94, R95). -/
noncomputable def decodeTrigBr (k : Nat) (g : Guard) (src : Source) : Option Instr :=
  match k with
  | 4 => some (.jmp g src)
  | 5 => some (.bra g src)
  | 6 => some (.brz g src)
  | 7 => some (.brnz g src)
  | 8 => some (.call g src)
  | 9 => some (.ret g src)
  | 10 => some (.loops g src)
  | 11 => some (.loopx g src)
  | 12 => some (.trap g src)
  | 13 => some (.exit g src)
  | _ => none

/-- The trigger ports of unit 4 (R94, R95). -/
noncomputable def decodeTrigLsu (k : Nat) (g : Guard) (src : Source) : Option Instr :=
  match k with
  | 4 => some (.spld g src)
  | 5 => some (.spst g src)
  | 6 => some (.ldb g src)
  | 7 => some (.ldbs g src)
  | 8 => some (.ldh g src)
  | 9 => some (.ldhs g src)
  | 10 => some (.ldw g src)
  | 11 => some (.ldws g src)
  | 12 => some (.ldd g src)
  | 13 => some (.stb g src)
  | 14 => some (.sth g src)
  | 15 => some (.stw g src)
  | 16 => some (.std g src)
  | 17 => some (.tch g src)
  | 18 => some (.gld g src)
  | 19 => some (.gst g src)
  | 20 => some (.aadd g src)
  | 21 => some (.amax g src)
  | 22 => some (.amin g src)
  | 23 => some (.axchg g src)
  | 24 => some (.acas g src)
  | _ => none

/-- The trigger ports of unit 5 (R94, R95). -/
noncomputable def decodeTrigSys (k : Nat) (g : Guard) (src : Source) : Option Instr :=
  match k with
  | 4 => some (.mfsr g src)
  | 5 => some (.mtsr g src)
  | 6 => some (.yield g src)
  | 7 => some (.prio g src)
  | 8 => some (.sysc g src)
  | 9 => some (.rft g src)
  | 10 => some (.tokq g src)
  | 11 => some (.tokc g src)
  | 12 => some (.fflgs g src)
  | 13 => some (.sleep g src)
  | 14 => some (.wake g src)
  | 15 => some (.ctxq g src)
  | 16 => some (.rdef g src)
  | 17 => some (.rtag g src)
  | 18 => some (.rclr g src)
  | 19 => some (.rdrop g src)
  | _ => none

/-- The trigger ports of unit 6 (R94, R95). -/
noncomputable def decodeTrigVls (k : Nat) (g : Guard) (src : Source) : Option Instr :=
  match k with
  | 4 => some (.vld g src)
  | 5 => some (.vlds g src)
  | 6 => some (.vldg g src)
  | 7 => some (.vst g src)
  | 8 => some (.vsts g src)
  | 9 => some (.vstm g src)
  | 10 => some (.vstg g src)
  | 11 => some (.vldbf g src)
  | 12 => some (.vstbf g src)
  | 13 => some (.vldf8 g src)
  | 14 => some (.vldi8 g src)
  | 15 => some (.vldz8 g src)
  | 16 => some (.vldx g src)
  | 17 => some (.vlde g src)
  | 18 => some (.vstp g src)
  | 19 => some (.vgld g src)
  | 20 => some (.vgst g src)
  | 21 => some (.vstmc g src)
  | _ => none

/-- The trigger ports of unit 7 (R94, R95). -/
noncomputable def decodeTrigVal (k : Nat) (g : Guard) (src : Source) : Option Instr :=
  match k with
  | 4 => some (.viadd g src)
  | 5 => some (.visub g src)
  | 6 => some (.vimul g src)
  | 7 => some (.vimin g src)
  | 8 => some (.vimax g src)
  | 9 => some (.viminu g src)
  | 10 => some (.vimaxu g src)
  | 11 => some (.vand g src)
  | 12 => some (.vor g src)
  | 13 => some (.vxor g src)
  | 14 => some (.vandn g src)
  | 15 => some (.vshl g src)
  | 16 => some (.vshr g src)
  | 17 => some (.vsar g src)
  | 18 => some (.vieq g src)
  | 19 => some (.vilt g src)
  | 20 => some (.viltu g src)
  | 21 => some (.vsel g src)
  | 22 => some (.viota g src)
  | 23 => some (.vpopm g src)
  | 24 => some (.vmand g src)
  | 25 => some (.vmor g src)
  | 26 => some (.vmxor g src)
  | 27 => some (.vmnot g src)
  | 28 => some (.vbeq8 g src)
  | 29 => some (.viadds g src)
  | _ => none

/-- The trigger ports of unit 8 (R94, R95). -/
noncomputable def decodeTrigVfa (k : Nat) (g : Guard) (src : Source) : Option Instr :=
  match k with
  | 4 => some (.fadd g src)
  | 5 => some (.fsub g src)
  | 6 => some (.fmul g src)
  | 7 => some (.fma g src)
  | 8 => some (.fms g src)
  | 9 => some (.fnma g src)
  | 10 => some (.fmax g src)
  | 11 => some (.fmin g src)
  | 12 => some (.fabs g src)
  | 13 => some (.fneg g src)
  | 14 => some (.feq g src)
  | 15 => some (.flt g src)
  | 16 => some (.fle g src)
  | 17 => some (.funord g src)
  | 18 => some (.fclmp g src)
  | 19 => some (.fsubx g src)
  | 20 => some (.hadd g src)
  | 21 => some (.hmul g src)
  | 22 => some (.hfma g src)
  | 23 => some (.hmax g src)
  | _ => none

/-- The trigger ports of unit 9 (R94, R95). -/
noncomputable def decodeTrigVfb (k : Nat) (g : Guard) (src : Source) : Option Instr :=
  match k with
  | 4 => some (.cvtfi g src)
  | 5 => some (.cvtif g src)
  | 6 => some (.cvtfh g src)
  | 7 => some (.cvthf g src)
  | 8 => some (.cvtf8 g src)
  | 9 => some (.cvt8f g src)
  | 10 => some (.cvtf5 g src)
  | 11 => some (.cvt5f g src)
  | 12 => some (.cvtfp16 g src)
  | 13 => some (.cvtp16f g src)
  | 14 => some (.qpal g src)
  | 15 => some (.dqpal g src)
  | 16 => some (.frnd g src)
  | 17 => some (.fscl g src)
  | 18 => some (.fxpn g src)
  | _ => none

/-- The trigger ports of unit 10 (R94, R95). -/
noncomputable def decodeTrigXfu (k : Nat) (g : Guard) (src : Source) : Option Instr :=
  match k with
  | 4 => some (.exp2 g src)
  | 5 => some (.log2 g src)
  | 6 => some (.rcp g src)
  | 7 => some (.rsqrt g src)
  | 8 => some (.sqrt g src)
  | 9 => some (.tanh g src)
  | 10 => some (.sigm g src)
  | _ => none

/-- The trigger ports of unit 11 (R94, R95). -/
noncomputable def decodeTrigVrd (k : Nat) (g : Guard) (src : Source) : Option Instr :=
  match k with
  | 4 => some (.rsum g src)
  | 5 => some (.rmax g src)
  | 6 => some (.rmin g src)
  | 7 => some (.rsumi g src)
  | 8 => some (.ramax g src)
  | 9 => some (.scan g src)
  | 10 => some (.perm g src)
  | 11 => some (.vrot g src)
  | 12 => some (.vext g src)
  | 13 => some (.vins g src)
  | 14 => some (.vcmp g src)
  | 15 => some (.vxpd g src)
  | 16 => some (.zip g src)
  | 17 => some (.unzip g src)
  | 18 => some (.vbit g src)
  | _ => none

/-- The trigger ports of unit 12 (R94, R95). -/
noncomputable def decodeTrigTrn (k : Nat) (g : Guard) (src : Source) : Option Instr :=
  match k with
  | 4 => some (.pset g src)
  | 5 => some (.pget g src)
  | 6 => some (.punpk g src)
  | 7 => some (.ppack g src)
  | 8 => some (.chk16 g src)
  | 9 => some (.sphdr g src)
  | _ => none

/-- The trigger ports of unit 13 (R94, R95). -/
noncomputable def decodeTrigMex (k : Nat) (g : Guard) (src : Source) : Option Instr :=
  match k with
  | 4 => some (.msel g src)
  | 5 => some (.mset g src)
  | 6 => some (.mldw g src)
  | 7 => some (.mstr g src)
  | 8 => some (.mdrn g src)
  | 9 => some (.mzero g src)
  | 10 => some (.mstat g src)
  | 11 => some (.mcan g src)
  | _ => none

/-- The trigger ports of unit 14 (R94, R95). -/
noncomputable def decodeTrigCpy (k : Nat) (g : Guard) (src : Source) : Option Instr :=
  match k with
  | 4 => some (.cset g src)
  | 5 => some (.cgo g src)
  | 6 => some (.cstat g src)
  | 7 => some (.ccan g src)
  | 8 => some (.csel g src)
  | _ => none

/-- The trigger ports of unit 15 (R94, R95). -/
noncomputable def decodeTrigGlz (k : Nat) (g : Guard) (src : Source) : Option Instr :=
  match k with
  | 4 => some (.gset g src)
  | 5 => some (.gsend g src)
  | 6 => some (.grecv g src)
  | 7 => some (.gred g src)
  | 8 => some (.gcan g src)
  | 9 => some (.gprec g src)
  | _ => none

/-- The trigger ports of unit 16 (R94, R95). -/
noncomputable def decodeTrigRtc (k : Nat) (g : Guard) (src : Source) : Option Instr :=
  match k with
  | 4 => some (.tset g src)
  | 5 => some (.twrt g src)
  | 6 => some (.tstat g src)
  | 7 => some (.twear g src)
  | 8 => some (.tmap g src)
  | _ => none

/-- The trigger ports of unit 17 (R94, R95). -/
noncomputable def decodeTrigSyn (k : Nat) (g : Guard) (src : Source) : Option Instr :=
  match k with
  | 4 => some (.binit g src)
  | 5 => some (.barv g src)
  | 6 => some (.bexp g src)
  | 7 => some (.btst g src)
  | 8 => some (.bwait g src)
  | 9 => some (.fence g src)
  | 10 => some (.twait g src)
  | _ => none

/-- The instruction of a used trigger port (R24, R95). -/
noncomputable def decodeTrig (u k : Nat) (g : Guard) (src : Source) : Option Instr :=
  match u with
  | 0 => decodeTrigAlu0 k g src
  | 1 => decodeTrigAlu1 k g src
  | 2 => decodeTrigMul k g src
  | 3 => decodeTrigBr k g src
  | 4 => decodeTrigLsu k g src
  | 5 => decodeTrigSys k g src
  | 6 => decodeTrigVls k g src
  | 7 => decodeTrigVal k g src
  | 8 => decodeTrigVfa k g src
  | 9 => decodeTrigVfb k g src
  | 10 => decodeTrigXfu k g src
  | 11 => decodeTrigVrd k g src
  | 12 => decodeTrigTrn k g src
  | 13 => decodeTrigMex k g src
  | 14 => decodeTrigCpy k g src
  | 15 => decodeTrigGlz k g src
  | 16 => decodeTrigRtc k g src
  | 17 => decodeTrigSyn k g src
  | _ => none

/-- Where a move goes (R22): a register or operand port, or a trigger port of a unit. -/
inductive Target where
  | reg (d : Dest)
  | trig (unit port : Nat)
  deriving DecidableEq, Repr

/-- The parts of a move syllable (R19). -/
structure Move where
  g : Guard
  src : Source
  dst : Target
  deriving DecidableEq, Repr

/-- How many instructions each unit has (R94). -/
def unitSize (u : Nat) : Nat := [28, 28, 9, 10, 21, 16, 18, 26, 20, 15, 7, 15, 6, 8, 5, 6, 5, 7].getD u 0

/-- The destination field [10:0] (R22 to R24). -/
def decodeDest (n : Nat) : Except Reject Target :=
  if 1024 ≤ n then
    match decodeRegDest (n - 1024) with
    | .ok x => .ok (.reg x)
    | .error e => .error e
  else if 18 ≤ n / 32 then .error (.unit (n / 32))
  else if n % 32 < 4 then .ok (.reg (.port (n / 32) (n % 32)))
  else if n % 32 ≤ 3 + unitSize (n / 32) then .ok (.trig (n / 32) (n % 32))
  else .error .port

/-- Two verdicts on one move: an illegal encoding comes before a reserved unit (R34). -/
def firstReject (e d : Reject) : Reject :=
  match e, d with
  | .unit u, .unit _ => .unit u
  | .unit _, x => x
  | x, _ => x

/-- The parts of a move syllable, or why it is none (R19 to R24). -/
def parseMove (w : Syllable) : Except Reject Move :=
  match decodeGuard (w.toNat / 2 ^ 21), decodeSource (w.toNat / 2 ^ 11 % 1024), decodeDest (w.toNat % 2048) with
  | none, _, _ => .error .guard
  | some g, .ok src, .ok dst => .ok ⟨g, src, dst⟩
  | some _, .error e, .ok _ => .error e
  | some _, .ok _, .error e => .error e
  | some _, .error e, .error d => .error (firstReject e d)

/-- The instruction a move is. -/
noncomputable def Move.instr (m : Move) : Option Instr :=
  match m.dst with
  | .reg d => some (.move m.g m.src d)
  | .trig u k => decodeTrig u k m.g m.src

/-- A move syllable (R19). -/
noncomputable def decodeMove (w : Syllable) : Except Reject Instr :=
  match parseMove w with
  | .error e => .error e
  | .ok m => match m.instr with
    | some i => .ok i
    | none => .error .port

/-- The fields of a header (R16). -/
structure Header where
  mask : Nat
  await : Nat
  solo : Bool
  longs : Nat
  deriving DecidableEq, Repr

/-- Whether a syllable carries the header signature (R16). -/
def isHeader (w : Syllable) : Bool := w.toNat / 2 ^ 20 == 15

/-- The fields of a header, whatever its legality. -/
def headerFields (w : Syllable) : Header :=
  ⟨w.toNat / 2 ^ 12 % 256, w.toNat / 16 % 256, bit w.toNat 3, w.toNat / 2 % 4⟩

/-- A header syllable, or why it is none (R16, R32). -/
def decodeHeader (w : Syllable) : Except Reject Header :=
  if !isHeader w then .error .signature
  else if (headerFields w).longs = 3 then .error .count
  else if bit w.toNat 0 then .error .reserved
  else .ok (headerFields w)

/-- The slots a mask names, ascending (R16). -/
def slotsOf (mask : Nat) : List Nat := (List.range 8).filter (bit mask ·)

/-- The length of the bundle a header announces, in syllables (R16). A count of 3 is an illegal encoding; its syllables are
counted as the field reads. -/
def Header.length (h : Header) : Nat := 1 + (slotsOf h.mask).length + h.longs

/-! ## The encoder -/

/-- R20. -/
def encodeGuard : Guard → Nat
  | .always => 0
  | .p1 => 1
  | .p2 => 2
  | .p3 => 3
  | .notP1 => 4
  | .notP2 => 5
  | .notP3 => 6

/-- R21, R26. -/
def encodeSource : Source → Nat
  | .g i => i
  | .v i => 0x40 + i
  | .m i => 0x60 + i
  | .p i => 0x67 + i
  | .o i => 256 + i
  | .vo i => 256 + 0x10 + i
  | .latch u y => 512 + 8 * u + (if y then 1 else 0)
  | .short i => 768 + i
  | .long0 => 768 + 0xF0
  | .long1 => 768 + 0xF1
  | .longBoth => 768 + 0xF2
  | .long0z => 768 + 0xF3

/-- R22. -/
def encodeDest : Dest → Nat
  | .port u k => 32 * u + k
  | .g i => 1024 + i
  | .v i => 1024 + 0x40 + i
  | .m i => 1024 + 0x60 + i
  | .p i => 1024 + 0x67 + i
  | .o i => 1024 + 256 + i
  | .vo i => 1024 + 256 + 0x10 + i

/-- The three parts of a move syllable: guard, source and destination field; none for a step or event, which has no bits. -/
def moveParts : Instr → Option (Guard × Source × Nat)
  | .bundleIssue _ => none
  | .starvationLead _ => none
  | .move g src dst => some (g, src, encodeDest dst)
  | .lineFetch _ _ => none
  | .latchLanding _ => none
  | .timedDataArrival _ _ => none
  | .timedLanding _ => none
  | .sketchReplayComplete _ => none
  | .sleepTimeout _ => none
  | .pourLanding => none
  | .bwaitWake _ => none
  | .fenceComplete _ => none
  | .pinExpiry _ => none
  | .pageWalkComplete _ _ => none
  | .syscReply _ => none
  | .addAlu0 g src => some (g, src, 4)
  | .addAlu1 g src => some (g, src, 36)
  | .subAlu0 g src => some (g, src, 5)
  | .subAlu1 g src => some (g, src, 37)
  | .andAlu0 g src => some (g, src, 6)
  | .andAlu1 g src => some (g, src, 38)
  | .orAlu0 g src => some (g, src, 7)
  | .orAlu1 g src => some (g, src, 39)
  | .xorAlu0 g src => some (g, src, 8)
  | .xorAlu1 g src => some (g, src, 40)
  | .andnAlu0 g src => some (g, src, 9)
  | .andnAlu1 g src => some (g, src, 41)
  | .shlAlu0 g src => some (g, src, 10)
  | .shlAlu1 g src => some (g, src, 42)
  | .shrAlu0 g src => some (g, src, 11)
  | .shrAlu1 g src => some (g, src, 43)
  | .sarAlu0 g src => some (g, src, 12)
  | .sarAlu1 g src => some (g, src, 44)
  | .rolAlu0 g src => some (g, src, 13)
  | .rolAlu1 g src => some (g, src, 45)
  | .minAlu0 g src => some (g, src, 14)
  | .minAlu1 g src => some (g, src, 46)
  | .maxAlu0 g src => some (g, src, 15)
  | .maxAlu1 g src => some (g, src, 47)
  | .minuAlu0 g src => some (g, src, 16)
  | .minuAlu1 g src => some (g, src, 48)
  | .maxuAlu0 g src => some (g, src, 17)
  | .maxuAlu1 g src => some (g, src, 49)
  | .eqAlu0 g src => some (g, src, 18)
  | .eqAlu1 g src => some (g, src, 50)
  | .neAlu0 g src => some (g, src, 19)
  | .neAlu1 g src => some (g, src, 51)
  | .ltAlu0 g src => some (g, src, 20)
  | .ltAlu1 g src => some (g, src, 52)
  | .ltuAlu0 g src => some (g, src, 21)
  | .ltuAlu1 g src => some (g, src, 53)
  | .leAlu0 g src => some (g, src, 22)
  | .leAlu1 g src => some (g, src, 54)
  | .leuAlu0 g src => some (g, src, 23)
  | .leuAlu1 g src => some (g, src, 55)
  | .selAlu0 g src => some (g, src, 24)
  | .selAlu1 g src => some (g, src, 56)
  | .clzAlu0 g src => some (g, src, 25)
  | .clzAlu1 g src => some (g, src, 57)
  | .ctzAlu0 g src => some (g, src, 26)
  | .ctzAlu1 g src => some (g, src, 58)
  | .popcAlu0 g src => some (g, src, 27)
  | .popcAlu1 g src => some (g, src, 59)
  | .sextAlu0 g src => some (g, src, 28)
  | .sextAlu1 g src => some (g, src, 60)
  | .zextAlu0 g src => some (g, src, 29)
  | .zextAlu1 g src => some (g, src, 61)
  | .bfxAlu0 g src => some (g, src, 30)
  | .bfxAlu1 g src => some (g, src, 62)
  | .bfiAlu0 g src => some (g, src, 31)
  | .bfiAlu1 g src => some (g, src, 63)
  | .mul g src => some (g, src, 68)
  | .mulh g src => some (g, src, 69)
  | .mulhu g src => some (g, src, 70)
  | .mulw g src => some (g, src, 71)
  | .madd g src => some (g, src, 72)
  | .div g src => some (g, src, 73)
  | .divu g src => some (g, src, 74)
  | .rem g src => some (g, src, 75)
  | .remu g src => some (g, src, 76)
  | .jmp g src => some (g, src, 100)
  | .bra g src => some (g, src, 101)
  | .brz g src => some (g, src, 102)
  | .brnz g src => some (g, src, 103)
  | .call g src => some (g, src, 104)
  | .ret g src => some (g, src, 105)
  | .loops g src => some (g, src, 106)
  | .loopx g src => some (g, src, 107)
  | .trap g src => some (g, src, 108)
  | .exit g src => some (g, src, 109)
  | .spld g src => some (g, src, 132)
  | .spst g src => some (g, src, 133)
  | .ldb g src => some (g, src, 134)
  | .ldbs g src => some (g, src, 135)
  | .ldh g src => some (g, src, 136)
  | .ldhs g src => some (g, src, 137)
  | .ldw g src => some (g, src, 138)
  | .ldws g src => some (g, src, 139)
  | .ldd g src => some (g, src, 140)
  | .stb g src => some (g, src, 141)
  | .sth g src => some (g, src, 142)
  | .stw g src => some (g, src, 143)
  | .std g src => some (g, src, 144)
  | .tch g src => some (g, src, 145)
  | .gld g src => some (g, src, 146)
  | .gst g src => some (g, src, 147)
  | .aadd g src => some (g, src, 148)
  | .amax g src => some (g, src, 149)
  | .amin g src => some (g, src, 150)
  | .axchg g src => some (g, src, 151)
  | .acas g src => some (g, src, 152)
  | .mfsr g src => some (g, src, 164)
  | .mtsr g src => some (g, src, 165)
  | .yield g src => some (g, src, 166)
  | .prio g src => some (g, src, 167)
  | .sysc g src => some (g, src, 168)
  | .rft g src => some (g, src, 169)
  | .tokq g src => some (g, src, 170)
  | .tokc g src => some (g, src, 171)
  | .fflgs g src => some (g, src, 172)
  | .sleep g src => some (g, src, 173)
  | .wake g src => some (g, src, 174)
  | .ctxq g src => some (g, src, 175)
  | .rdef g src => some (g, src, 176)
  | .rtag g src => some (g, src, 177)
  | .rclr g src => some (g, src, 178)
  | .rdrop g src => some (g, src, 179)
  | .vld g src => some (g, src, 196)
  | .vlds g src => some (g, src, 197)
  | .vldg g src => some (g, src, 198)
  | .vst g src => some (g, src, 199)
  | .vsts g src => some (g, src, 200)
  | .vstm g src => some (g, src, 201)
  | .vstg g src => some (g, src, 202)
  | .vldbf g src => some (g, src, 203)
  | .vstbf g src => some (g, src, 204)
  | .vldf8 g src => some (g, src, 205)
  | .vldi8 g src => some (g, src, 206)
  | .vldz8 g src => some (g, src, 207)
  | .vldx g src => some (g, src, 208)
  | .vlde g src => some (g, src, 209)
  | .vstp g src => some (g, src, 210)
  | .vgld g src => some (g, src, 211)
  | .vgst g src => some (g, src, 212)
  | .vstmc g src => some (g, src, 213)
  | .viadd g src => some (g, src, 228)
  | .visub g src => some (g, src, 229)
  | .vimul g src => some (g, src, 230)
  | .vimin g src => some (g, src, 231)
  | .vimax g src => some (g, src, 232)
  | .viminu g src => some (g, src, 233)
  | .vimaxu g src => some (g, src, 234)
  | .vand g src => some (g, src, 235)
  | .vor g src => some (g, src, 236)
  | .vxor g src => some (g, src, 237)
  | .vandn g src => some (g, src, 238)
  | .vshl g src => some (g, src, 239)
  | .vshr g src => some (g, src, 240)
  | .vsar g src => some (g, src, 241)
  | .vieq g src => some (g, src, 242)
  | .vilt g src => some (g, src, 243)
  | .viltu g src => some (g, src, 244)
  | .vsel g src => some (g, src, 245)
  | .viota g src => some (g, src, 246)
  | .vpopm g src => some (g, src, 247)
  | .vmand g src => some (g, src, 248)
  | .vmor g src => some (g, src, 249)
  | .vmxor g src => some (g, src, 250)
  | .vmnot g src => some (g, src, 251)
  | .vbeq8 g src => some (g, src, 252)
  | .viadds g src => some (g, src, 253)
  | .fadd g src => some (g, src, 260)
  | .fsub g src => some (g, src, 261)
  | .fmul g src => some (g, src, 262)
  | .fma g src => some (g, src, 263)
  | .fms g src => some (g, src, 264)
  | .fnma g src => some (g, src, 265)
  | .fmax g src => some (g, src, 266)
  | .fmin g src => some (g, src, 267)
  | .fabs g src => some (g, src, 268)
  | .fneg g src => some (g, src, 269)
  | .feq g src => some (g, src, 270)
  | .flt g src => some (g, src, 271)
  | .fle g src => some (g, src, 272)
  | .funord g src => some (g, src, 273)
  | .fclmp g src => some (g, src, 274)
  | .fsubx g src => some (g, src, 275)
  | .hadd g src => some (g, src, 276)
  | .hmul g src => some (g, src, 277)
  | .hfma g src => some (g, src, 278)
  | .hmax g src => some (g, src, 279)
  | .cvtfi g src => some (g, src, 292)
  | .cvtif g src => some (g, src, 293)
  | .cvtfh g src => some (g, src, 294)
  | .cvthf g src => some (g, src, 295)
  | .cvtf8 g src => some (g, src, 296)
  | .cvt8f g src => some (g, src, 297)
  | .cvtf5 g src => some (g, src, 298)
  | .cvt5f g src => some (g, src, 299)
  | .cvtfp16 g src => some (g, src, 300)
  | .cvtp16f g src => some (g, src, 301)
  | .qpal g src => some (g, src, 302)
  | .dqpal g src => some (g, src, 303)
  | .frnd g src => some (g, src, 304)
  | .fscl g src => some (g, src, 305)
  | .fxpn g src => some (g, src, 306)
  | .exp2 g src => some (g, src, 324)
  | .log2 g src => some (g, src, 325)
  | .rcp g src => some (g, src, 326)
  | .rsqrt g src => some (g, src, 327)
  | .sqrt g src => some (g, src, 328)
  | .tanh g src => some (g, src, 329)
  | .sigm g src => some (g, src, 330)
  | .rsum g src => some (g, src, 356)
  | .rmax g src => some (g, src, 357)
  | .rmin g src => some (g, src, 358)
  | .rsumi g src => some (g, src, 359)
  | .ramax g src => some (g, src, 360)
  | .scan g src => some (g, src, 361)
  | .perm g src => some (g, src, 362)
  | .vrot g src => some (g, src, 363)
  | .vext g src => some (g, src, 364)
  | .vins g src => some (g, src, 365)
  | .vcmp g src => some (g, src, 366)
  | .vxpd g src => some (g, src, 367)
  | .zip g src => some (g, src, 368)
  | .unzip g src => some (g, src, 369)
  | .vbit g src => some (g, src, 370)
  | .pset g src => some (g, src, 388)
  | .pget g src => some (g, src, 389)
  | .punpk g src => some (g, src, 390)
  | .ppack g src => some (g, src, 391)
  | .chk16 g src => some (g, src, 392)
  | .sphdr g src => some (g, src, 393)
  | .msel g src => some (g, src, 420)
  | .mset g src => some (g, src, 421)
  | .mldw g src => some (g, src, 422)
  | .mstr g src => some (g, src, 423)
  | .mdrn g src => some (g, src, 424)
  | .mzero g src => some (g, src, 425)
  | .mstat g src => some (g, src, 426)
  | .mcan g src => some (g, src, 427)
  | .cset g src => some (g, src, 452)
  | .cgo g src => some (g, src, 453)
  | .cstat g src => some (g, src, 454)
  | .ccan g src => some (g, src, 455)
  | .csel g src => some (g, src, 456)
  | .gset g src => some (g, src, 484)
  | .gsend g src => some (g, src, 485)
  | .grecv g src => some (g, src, 486)
  | .gred g src => some (g, src, 487)
  | .gcan g src => some (g, src, 488)
  | .gprec g src => some (g, src, 489)
  | .tset g src => some (g, src, 516)
  | .twrt g src => some (g, src, 517)
  | .tstat g src => some (g, src, 518)
  | .twear g src => some (g, src, 519)
  | .tmap g src => some (g, src, 520)
  | .binit g src => some (g, src, 548)
  | .barv g src => some (g, src, 549)
  | .bexp g src => some (g, src, 550)
  | .btst g src => some (g, src, 551)
  | .bwait g src => some (g, src, 552)
  | .fence g src => some (g, src, 553)
  | .twait g src => some (g, src, 554)
  | .mexCommandStart _ => none
  | .mldwComplete _ => none
  | .streamPromotion _ => none
  | .mstrComplete _ => none
  | .mzeroComplete _ => none
  | .drainRow _ => none
  | .mdrnComplete _ => none
  | .copyStart _ => none
  | .chunkFetch _ _ _ => none
  | .chunkWrite _ _ => none
  | .copyComplete _ _ => none
  | .glazeStart _ => none
  | .glazeMatch _ => none
  | .glazeTimeout _ _ => none
  | .glazeRoundSend _ _ => none
  | .glazePlaneReceive _ _ _ _ => none
  | .glazeCancelAck _ _ => none
  | .glazeAbort _ _ => none
  | .glazeComplete _ _ => none
  | .retouchCommandStart _ => none
  | .retouchRowStart _ => none
  | .writeAndCheckLoop _ _ => none
  | .twrtComplete _ => none
  | .graphRegistration _ _ _ => none
  | .nodeReady _ => none
  | .placement _ => none
  | .nodeStart _ => none
  | .nodeCommit _ => none
  | .nodeFail _ => none
  | .killedNodeRelease _ => none
  | .quiesceComplete _ => none
  | .swapSaveComplete _ => none
  | .restoreComplete _ => none
  | .savedNodeAccess _ _ => none
  | .islandWake _ _ => none
  | .islandGate _ _ => none
  | .shootdown _ _ _ _ _ => none
  | .shootdownComplete _ => none
  | .shootdownTimeout _ => none
  | .frescoMapChange _ _ _ _ => none
  | .partitionChange _ => none
  | .partitionSwap _ => none
  | .imageLoadRequest _ _ _ => none
  | .lpddrSectorRead _ _ => none
  | .uncorrectableDirtySector _ _ => none
  | .pageRetirementComplete _ _ => none
  | .sramUncorrectable _ => none
  | .correctedErrorRecord _ _ => none
  | .lockstepMismatch _ _ => none
  | .viral _ _ => none
  | .viralFlitReceived _ => none
  | .linkSilenceTimeout _ => none
  | .flitReceive _ _ => none
  | .flitResend _ _ => none
  | .resyncTimeout _ => none
  | .keepalive _ => none
  | .routineKeyUpdate _ => none
  | .packageReset _ => none
  | .frescoScan _ _ _ => none
  | .peerSession _ _ _ => none
  | .getVersion _ => none
  | .getCapabilities _ _ => none
  | .negotiateAlgorithms _ _ => none
  | .getDigests _ _ => none
  | .getCertificate _ _ => none
  | .challenge _ _ => none
  | .getMeasurements _ _ => none
  | .keyExchange _ _ => none
  | .finish _ _ => none
  | .heartbeat _ _ => none
  | .keyUpdate _ _ => none
  | .endSession _ _ => none
  | .heartbeatTimeout _ => none
  | .graceExpiry _ => none
  | .installRequest _ _ _ _ _ => none
  | .bucketConfig _ _ _ _ => none
  | .egressBucketRefill _ _ _ => none
  | .logCheckpoint => none
  | .logRead _ _ => none
  | .hostAccess _ => none
  | .portReset _ => none
  | .islandControlWrite _ _ _ => none
  | .operatingPointChange _ _ => none
  | .thermalStep _ _ _ => none
  | .overtemperature _ _ _ => none
  | .powerLimitExceeded _ => none
  | .coolantFault _ _ => none
  | .coolantRestore _ _ => none
  | .wearLimitSet _ _ => none
  | .graphUnregistration _ _ => none
  | .imageRemoval _ _ => none
  | .powerLimitSet _ => none

/-- A move syllable from its parts (R19). -/
def packMove (g : Guard) (src : Source) (f : Nat) : Nat := encodeGuard g * 2 ^ 21 + encodeSource src * 2 ^ 11 + f

/-- The syllable of an instruction that has one. -/
def encode (i : Instr) : Option Syllable :=
  match moveParts i with
  | some (g, src, f) => some (BitVec.ofNat 24 (packMove g src f))
  | none => none

/-- A header syllable from its fields (R16). -/
def encodeHeader (h : Header) : Syllable :=
  BitVec.ofNat 24 (15 * 2 ^ 20 + h.mask * 2 ^ 12 + h.await * 16 + (if h.solo then 8 else 0) + h.longs * 2)

/-- What the decoder reads from an opcode-table word: every row with bits is one 24-bit move syllable. -/
noncomputable def decodeTableWord (nbits w : Nat) : Option Instr :=
  if nbits = 24 ∧ w < 2 ^ 24 then
    match decodeMove (BitVec.ofNat 24 w) with
    | .ok i => some i
    | .error _ => none
  else none

end Sys2Proof
end

