-- ==== Sys2Proof/Machine/Crypto.lean ====
section
/-! DEFINITION. The symmetric standards that the spec names without writing them out: AES-256 (FIPS 197), XTS (IEEE 1619, R12), GCM
(SP 800-38D, R287, R349, R372), SHAKE256 (FIPS 202, R349, R376, R383) and KMAC256 (SP 800-185, R12). All of this file is PRESUMED from
those standards (log entry 14). -/

namespace Sys2Proof.Crypto

def xorBytes (a b : List Byte) : List Byte := List.zipWith (· ^^^ ·) a b

/-! ## AES-256 -/

/-- Doubling in the field of AES. -/
def xtime (b : Byte) : Byte := if b.msb then (b <<< 1) ^^^ 0x1B#8 else b <<< 1
def gmul (a b : Byte) : Byte :=
  ((List.range 8).foldl (fun (r : Byte × Byte) i => (if b.getLsbD i then r.1 ^^^ r.2 else r.1, xtime r.2)) (0#8, a)).1
def gsq (a : Byte) : Byte := gmul a a
/-- The inverse, as the 254th power; 0 for 0. -/
def ginv (a : Byte) : Byte := (List.range 6).foldl (fun r _ => gmul (gsq r) a) a |> gsq
def sbox (a : Byte) : Byte :=
  let b := ginv a
  b ^^^ b.rotateLeft 1 ^^^ b.rotateLeft 2 ^^^ b.rotateLeft 3 ^^^ b.rotateLeft 4 ^^^ 0x63#8
def invSbox (a : Byte) : Byte := ginv (a.rotateLeft 1 ^^^ a.rotateLeft 3 ^^^ a.rotateLeft 6 ^^^ 0x05#8)

/-- The next word of the key schedule, from the first 8 + j. -/
def keyStep (ws : List (List Byte)) (j : Nat) : List (List Byte) :=
  let i := j + 8
  let last := ws.getLastD []
  let t :=
    if i % 8 = 0 then
      let r := (last.drop 1 ++ last.take 1).map sbox
      xorBytes r [(List.range (i / 8 - 1)).foldl (fun c _ => xtime c) 1#8, 0#8, 0#8, 0#8]
    else if i % 8 = 4 then last.map sbox
    else last
  ws ++ [xorBytes (ws.getD j []) t]
/-- The key schedule: 60 words of four bytes. -/
def keyWords (key : List Byte) : List (List Byte) := (List.range 52).foldl keyStep ((List.range 8).map fun i => (key.drop (4 * i)).take 4)
def roundKey (ws : List (List Byte)) (r : Nat) : List Byte := ((ws.drop (4 * r)).take 4).flatten

/-- Byte `r + 4 c` of a block stands in row r and column c. -/
def shiftRows (s : List Byte) : List Byte := (List.range 16).map fun i => s.getD (i % 4 + 4 * ((i / 4 + i % 4) % 4)) 0
def unshiftRows (s : List Byte) : List Byte := (List.range 16).map fun i => s.getD (i % 4 + 4 * ((i / 4 + 4 - i % 4) % 4)) 0
/-- Each column times the circulant matrix with first row `m`. -/
def mixWith (m : List Byte) (s : List Byte) : List Byte :=
  (List.range 16).map fun i => (List.range 4).foldl (fun a k => a ^^^ gmul (m.getD ((k + 4 - i % 4) % 4) 0) (s.getD (i / 4 * 4 + k) 0)) 0#8

def aesEncrypt (key blk : List Byte) : List Byte :=
  let ws := keyWords key
  let s := (List.range 13).foldl (fun s r => xorBytes (mixWith [2, 3, 1, 1] (shiftRows (s.map sbox))) (roundKey ws (r + 1))) (xorBytes blk (roundKey ws 0))
  xorBytes (shiftRows (s.map sbox)) (roundKey ws 14)
def aesDecrypt (key blk : List Byte) : List Byte :=
  let ws := keyWords key
  let s := (List.range 13).foldl (fun s r =>
    mixWith [14, 11, 13, 9] (xorBytes ((unshiftRows s).map invSbox) (roundKey ws (13 - r)))) (xorBytes blk (roundKey ws 14))
  xorBytes ((unshiftRows s).map invSbox) (roundKey ws 0)

/-! ## XTS -/

/-- The tweak of the next block: doubling in the field of 128 bits, little-endian. -/
def nextTweak (t : List Byte) : List Byte :=
  let n := ofBytes t * 2
  toBytes 16 (if 2 ^ 128 ≤ n then (n - 2 ^ 128) ^^^ 0x87 else n)
def xtsBlocks (k1 : List Byte) : Nat → List Byte → List Byte → List Byte
  | 0, _, _ => []
  | n + 1, t, ct => xorBytes (aesDecrypt k1 (xorBytes (ct.take 16) t)) t ++ xtsBlocks k1 n (nextTweak t) (ct.drop 16)
/-- AES-256-XTS decryption of a data unit of whole blocks under a 512-bit key, the data unit's number as a 128-bit little-endian
tweak. -/
def xtsOpen (key : List Byte) (unit : Nat) (ct : List Byte) : List Byte :=
  xtsBlocks (key.take 32) (ct.length / 16) (aesEncrypt (key.drop 32) (toBytes 16 unit)) ct

/-! ## GCM -/

/-- A big-endian number. -/
def ofBytesBE (bs : List Byte) : Nat := ofBytes bs.reverse
def toBytesBE (k v : Nat) : List Byte := (toBytes k v).reverse
/-- The product of GHASH: bit 127 of a block, its first bit, is the constant term. -/
def ghashMul (x y : Nat) : Nat :=
  ((List.range 128).foldl (fun (r : Nat × Nat) i =>
    (if bit x (127 - i) then r.1 ^^^ r.2 else r.1, if bit r.2 0 then (r.2 / 2) ^^^ (0xE1 * 2 ^ 120) else r.2 / 2)) (0, y)).1
def padTo16 (bs : List Byte) : List Byte := bs ++ List.replicate ((16 - bs.length % 16) % 16) 0
def ghashFrom (h : Nat) : Nat → List Byte → Nat → Nat
  | 0, _, acc => acc
  | n + 1, bs, acc => ghashFrom h n (bs.drop 16) (ghashMul (acc ^^^ ofBytesBE (bs.take 16)) h)
def ghash (h : Nat) (bs : List Byte) : Nat := ghashFrom h (bs.length / 16) bs 0
/-- Counter mode from a counter on. -/
def ctrFrom (key nonce : List Byte) : Nat → Nat → List Byte → List Byte
  | 0, _, _ => []
  | n + 1, c, bs => xorBytes (bs.take 16) (aesEncrypt key (nonce ++ toBytesBE 4 c)) ++ ctrFrom key nonce n (c + 1) (bs.drop 16)
def gcmTag (key nonce aad ct : List Byte) : List Byte :=
  let h := ofBytesBE (aesEncrypt key (List.replicate 16 0))
  let s := ghash h (padTo16 aad ++ padTo16 ct ++ toBytesBE 8 (8 * aad.length) ++ toBytesBE 8 (8 * ct.length))
  xorBytes (toBytesBE 16 s) (aesEncrypt key (nonce ++ toBytesBE 4 1))
/-- AES-256-GCM with a 96-bit nonce: the ciphertext and the 16-byte tag after it. -/
def gcmSeal (key nonce aad pt : List Byte) : List Byte :=
  let ct := ctrFrom key nonce ((pt.length + 15) / 16) 2 pt
  ct ++ gcmTag key nonce aad ct
/-- The plaintext of a ciphertext and tag, none when the tag does not match. -/
def gcmOpen (key nonce aad msg : List Byte) : Option (List Byte) :=
  if msg.length < 16 then none
  else
    let ct := msg.take (msg.length - 16)
    if gcmTag key nonce aad ct = msg.drop (msg.length - 16) then some (ctrFrom key nonce ((ct.length + 15) / 16) 2 ct) else none

/-! ## Keccak -/

/-- Lane (x, y) of the state is number x + 5 y. -/
def lane (s : List Dword) (x y : Nat) : Dword := s.getD (x % 5 + 5 * (y % 5)) 0
/-- Rotations of rho, by lane number. -/
def rhoOffsets : List Nat := [0, 1, 62, 28, 27, 36, 44, 6, 55, 20, 3, 10, 43, 25, 39, 41, 45, 15, 21, 8, 18, 2, 61, 56, 14]
def roundConstants : List Dword :=
  [0x0000000000000001, 0x0000000000008082, 0x800000000000808A, 0x8000000080008000, 0x000000000000808B, 0x0000000080000001,
   0x8000000080008081, 0x8000000000008009, 0x000000000000008A, 0x0000000000000088, 0x0000000080008009, 0x000000008000000A] ++
  [0x000000008000808B, 0x800000000000008B, 0x8000000000008089, 0x8000000000008003, 0x8000000000008002, 0x8000000000000080,
   0x000000000000800A, 0x800000008000000A, 0x8000000080008081, 0x8000000000008080, 0x0000000080000001, 0x8000000080008008]
def keccakRound (rc : Dword) (s : List Dword) : List Dword :=
  let c := (List.range 5).map fun x => lane s x 0 ^^^ lane s x 1 ^^^ lane s x 2 ^^^ lane s x 3 ^^^ lane s x 4
  let t := s.zipIdx.map fun (v, i) => v ^^^ c.getD ((i + 4) % 5) 0 ^^^ (c.getD ((i % 5 + 1) % 5) 0).rotateLeft 1
  -- pi moves lane (x + 3 y, x) to (x, y) after rho
  let b := (List.range 25).map fun i =>
    let j := (i % 5 + 3 * (i / 5)) % 5 + 5 * (i % 5)
    (t.getD j 0).rotateLeft (rhoOffsets.getD j 0)
  b.zipIdx.map fun (v, i) =>
    v ^^^ (~~~(lane b (i % 5 + 1) (i / 5)) &&& lane b (i % 5 + 2) (i / 5)) ^^^ (if i = 0 then rc else 0)
def keccakF (s : List Dword) : List Dword := roundConstants.foldl (fun s rc => keccakRound rc s) s
/-- Bytes into the first lanes of the state. -/
def absorbBlock (s : List Dword) (blk : List Byte) : List Dword :=
  keccakF (s.zipIdx.map fun (v, i) => v ^^^ BitVec.ofNat 64 (ofBytes ((blk.drop (8 * i)).take 8)))
def absorbAll : Nat → List Byte → List Dword → List Dword
  | 0, _, s => s
  | n + 1, bs, s => absorbAll n (bs.drop 136) (absorbBlock s (bs.take 136))
def squeeze : Nat → List Dword → List Byte
  | 0, _ => []
  | n + 1, s => (s.flatMap fun v => toBytes 8 v.toNat).take 136 ++ squeeze n (keccakF s)
/-- The sponge of 512 bits of capacity with a domain suffix. -/
def sponge256 (suffix : Byte) (msg : List Byte) (n : Nat) : List Byte :=
  let pad := 136 - msg.length % 136
  let tail : List Byte := if pad = 1 then [suffix ||| 0x80#8] else suffix :: List.replicate (pad - 2) 0 ++ [0x80#8]
  let bs := msg ++ tail
  (squeeze ((n + 135) / 136) (absorbAll (bs.length / 136) bs (List.replicate 25 0))).take n
/-- SHAKE256 with an output of `n` bytes. -/
def shake256 (msg : List Byte) (n : Nat) : List Byte := sponge256 0x1F#8 msg n

/-- The bytes of a length, big-endian, without leading zeros. -/
def lenBytes (v : Nat) : List Byte := toBytesBE (max 1 ((Nat.log2 v + 8) / 8)) v
def leftEncode (v : Nat) : List Byte := BitVec.ofNat 8 (lenBytes v).length :: lenBytes v
def rightEncode (v : Nat) : List Byte := lenBytes v ++ [BitVec.ofNat 8 (lenBytes v).length]
def encodeString (bs : List Byte) : List Byte := leftEncode (8 * bs.length) ++ bs
def bytepad136 (bs : List Byte) : List Byte :=
  let x := leftEncode 136 ++ bs
  x ++ List.replicate ((136 - x.length % 136) % 136) 0
/-- KMAC256 of an input under a key and a customisation string, with an output of `n` bytes. -/
def kmac256 (key x custom : List Byte) (n : Nat) : List Byte :=
  sponge256 0x04#8
    (bytepad136 (encodeString [0x4B, 0x4D, 0x41, 0x43] ++ encodeString custom) ++ bytepad136 (encodeString key) ++ x ++ rightEncode (8 * n)) n

end Sys2Proof.Crypto
end

