-- ==== Sys2Proof/Machine/State.lean ====
section
/-! DEFINITION. The state of one D9 package as plain data: contexts, cores, clusters, engines, memories, nodes, partitions,
dies, islands and ports; what a step can stop with; and the state after reset. Files of many like things are association
lists in which an unlisted key holds that thing's reset value. -/

namespace Sys2Proof.Machine

/-! ## Values -/

/-- A scalar and its poison tag (R27). -/
structure Sc where
  v : Dword
  p : Bool
  deriving DecidableEq, Repr

/-- A 32-bit vector lane and its poison tag (R27, R135). -/
structure Lane where
  v : Word32
  p : Bool
  deriving DecidableEq, Repr

/-- A mask lane and its poison tag (R27, R135). -/
structure MLane where
  v : Bool
  p : Bool
  deriving DecidableEq, Repr

/-- A value of one of the three types of R30; vectors and masks hold 128 lanes. -/
inductive Val where
  | sc (x : Sc)
  | vec (x : List Lane)
  | mask (x : List MLane)
  deriving DecidableEq, Repr

/-- The three types of R30. -/
inductive Ty where
  | s | v | m
  deriving DecidableEq, Repr

def Sc.zero : Sc := ⟨0, false⟩
def Lane.zero : Lane := ⟨0, false⟩
def MLane.zero : MLane := ⟨false, false⟩
def vecZero : List Lane := List.replicate 128 Lane.zero
def maskZero : List MLane := List.replicate 128 MLane.zero
def Val.zero : Ty → Val
  | .s => .sc .zero
  | .v => .vec vecZero
  | .m => .mask maskZero
def Val.ty : Val → Ty
  | .sc _ => .s
  | .vec _ => .v
  | .mask _ => .m

/-! ## A context -/

/-- Where a fixed-latency result lands (R323 kinds 0 to 3). -/
inductive FlightDst where
  | main (idx : Nat)
  | oper (idx : Nat)
  | latch (unit : Nat) (y : Bool)
  | special (idx : Nat)
  /-- flags alone, of a store (R186) -/
  | flags
  deriving DecidableEq, Repr

/-- A fixed-latency result in flight (R53): its landing position on the bundle clock, its flags, the parity record a failing decode writes
when it lands (R145; 0 for none), and the position of the bundle that triggered it, which decides between two results that land in one
latch together (R48). -/
structure Flight where
  land : Nat
  dst : FlightDst
  val : Val
  flags : BitVec 5
  parity : Dword
  issued : Nat
  deriving DecidableEq, Repr

/-- Where a timed request lands (R323). -/
inductive LandDst where
  | latch (unit : Nat)
  | pattern (k : Nat)
  | sketch (k : Nat) (frm : BitVec 2)
  deriving DecidableEq, Repr

/-- What a landing-buffer entry holds. -/
inductive LandData where
  /-- the loaded value, fixed at the order point (R204), and the parity record of a failing sidecar -/
  | value (v : Val) (parity : Dword)
  /-- descriptor bytes and whether any is poisoned (R154, R248) -/
  | desc (bytes : List Byte) (poisoned : Bool)
  /-- a touch whose walk has not ended: its address (R182) -/
  | walk (va : Nat)
  /-- a touch whose walk faulted: address and fault word (R302) -/
  | walkFault (va : Nat) (code : Nat)
  /-- a load that met an integrity failure: address of the first failing byte (R356) -/
  | integrity (va : Nat)
  deriving DecidableEq, Repr

/-- An entry of the landing buffer (R51, R52). `id` names it to later events; `since` is the first wall cycle in which a bundle
can read data that has arrived (R54). -/
structure Landing where
  land : Nat
  issued : Nat
  slot : Nat
  dst : LandDst
  arrived : Bool
  data : LandData
  id : Nat
  since : Nat
  deriving DecidableEq, Repr

/-- A redirect of a taken transfer (R61): the position it decides, its target, and the transferring bundle's header. -/
structure Redirect where
  pos : Nat
  target : Nat
  src : Nat
  deriving DecidableEq, Repr

/-- The residency states of R238. -/
inductive NameSt where
  | unwritten | resident | dropped
  deriving DecidableEq, Repr

/-- A vector register name (R238, R241, R245): state, stored value, bound sketch entry, position of the last access, and
writes in flight that hold its storage. -/
structure VName where
  st : NameSt
  val : List Lane
  bound : Option Nat
  access : Nat
  deriving DecidableEq, Repr

/-- A pattern register (R153, R154): the descriptor bytes, valid and poisoned states. -/
structure Pattern where
  bytes : List Byte
  valid : Bool
  poisoned : Bool
  deriving DecidableEq, Repr

/-- A sketch entry (R242): the descriptor of R243, defined, captured FRM, poisoned. -/
structure Sketch where
  bytes : List Byte
  defined : Bool
  frm : BitVec 2
  poisoned : Bool
  deriving DecidableEq, Repr

/-- A pin (R169): touched address, page size code, leaf entry, its bundle window, and the model's stamp of its making, which tells
pins of new entries from those made before a shootdown (R306). -/
structure Pin where
  va : Nat
  size : Nat
  pte : Dword
  first : Nat
  last : Nat
  born : Nat
  deriving DecidableEq, Repr

/-- A wait token (R55): count, error bit, status word of the first failing command, and the first wall cycle in which a bundle that
awaits it finds it clear (R222). -/
structure Token where
  count : Nat
  err : Bool
  first : Dword
  since : Nat
  deriving DecidableEq, Repr

/-- The trap snapshot of R68; landing and redirect positions are remaining counts relative to the faulting bundle. `calling` is the model's
own: the bundles until the position that the latest CALL decides, if that is to come, and the faulting bundle's address (R117). -/
structure Snap where
  flight : List Flight
  landing : List Landing
  ports : List Val
  latches : List Val
  loopStart : Nat
  loopCnt : Nat
  loopEnd : Nat
  redirects : List Redirect
  twait : Nat
  calling : Option (Nat × Nat)
  deriving DecidableEq, Repr

/-- What has ended a wait in BWAIT (R196, R197): nothing yet, a plain store, or the flip that brought the word to this many. -/
inductive Wake where
  | waiting
  | byStore
  | byFlip (count : Nat)
  deriving DecidableEq, Repr

/-- What a context waits for, or how it ended (R57, R134, R320). -/
inductive Run where
  | notStarted
  | runnable
  /-- waiting in BWAIT on a physical word, its phase operand, the address word, the flips the word had made at the read, and the
  change that has woken it (R196) -/
  | bwait (phys : Nat) (phase : Bool) (word : Nat) (flips : Nat) (wake : Wake)
  /-- waiting for the condition of a FENCE kind (R198) -/
  | fence (kind : Nat)
  /-- stalled by the replay of a vector name, since a wall cycle (R246) -/
  | replay (name : Nat) (began : Nat)
  | retired
  | halted
  deriving DecidableEq, Repr

/-- Sleep of a context (R133), which may stand beside a BWAIT or FENCE of the same bundle. -/
inductive Nap where
  | awake
  /-- asleep until a wall cycle -/
  | till (cycle : Nat)
  /-- asleep without limit -/
  | ever
  deriving DecidableEq, Repr

/-- A pending RFT (R70): the position it takes effect at, its mode, its header address, and TRAPPC as its own bundle saw it (R124). -/
structure RftPend where
  pos : Nat
  mode : Nat
  src : Nat
  pc : Nat
  deriving DecidableEq, Repr

/-- The last command reports of a token on copy, glaze or retouch engines (R264, R346): status and progress words of the
first failure since the error bit was cleared, and of the newest completion. -/
structure Report where
  failed : Option (Dword × Dword)
  last : Option (Dword × Dword)
  deriving DecidableEq, Repr

/-- A receive a context has entered (R267 TARGET, R276): engine, id, issue event, parameters, and its counters once it has
completed. -/
structure Recv where
  eng : Nat
  id : Nat
  cmd : Nat
  par : List Dword
  counters : List Nat
  deriving DecidableEq, Repr

/-- Software-visible special registers that are not derived (R108). -/
structure Special where
  link : Dword
  frm : BitVec 2
  fflags : BitVec 5
  quota : Nat
  trapvec : Nat
  trappc : Nat
  trapcause : Nat
  info0 : Dword
  info1 : Dword
  prio : Nat
  mcwin : BitVec 32
  engsel : BitVec 8
  deriving DecidableEq, Repr

/-- A hardware context (R27, R45 to R73, R108, R242, R320 to R323). -/
structure Ctx where
  run : Run
  nap : Nap
  /-- key of the node it works for, and the logical cluster it stands for (R293) -/
  node : Option Nat
  logical : Nat
  /-- stopped by a kill, a node stop or a pre-emption: issues nothing (R121, R312, R366) -/
  stopped : Bool
  pc : Nat
  /-- header of the bundle whose taken transfer led to pc, if one did (R35) -/
  via : Option Nat
  bclk : Nat
  g : List Sc
  o : List Sc
  p : List (Bool × Bool)
  m : List (List MLane)
  vo : List (List Lane)
  v : List VName
  ports : List Val
  latches : List Val
  flight : List Flight
  landing : List Landing
  redirects : List Redirect
  loopStart : Nat
  loopCnt : Nat
  loopEnd : Nat
  sr : Special
  tokens : List Token
  twait : Nat
  wake : Bool
  /-- not ready in the wall cycle after a YIELD: that cycle (R125) -/
  yieldAt : Option Nat
  parity : Dword
  pats : List Pattern
  sketches : List Sketch
  pins : List Pin
  spill : List Host.Cell
  spillPoison : List Nat
  snap : Option Snap
  rft : Option RftPend
  /-- the position that the latest CALL decides: until the bundle before the last of its delay bundles has issued, LINK follows the
  loop state (R117) -/
  calling : Option Nat
  /-- a pin removed at resume: touched address and fault word (R327) -/
  touchLost : Option (Nat × Nat)
  /-- a failed replay: name, cause and TRAPINFO1 (R246) -/
  replayTrap : Option (Nat × Nat × Nat)
  mexPar : List (List Dword)
  cpyPar : List (List Dword)
  glzPar : List (List Dword)
  rtcPar : List (List Dword)
  mexLast : List Dword
  cpyRep : List Report
  glzRep : List Report
  rtcRep : List Report
  recvs : List Recv
  exitStatus : Word32
  nextId : Nat
  deriving DecidableEq, Repr

/-! ## Cores and clusters -/

/-- An opened or failed line of a fetch buffer (R14). -/
structure FetchLine where
  line : Nat
  failed : Bool
  syl : List Syllable
  deriving DecidableEq, Repr

/-- A core (R14, R45, R58). `done` is one past the last wall cycle in which it issued; `waits` counts each context's
ready cycles without issue; `ready` are the contexts ready in its last cycle (R134). -/
structure Core where
  fetch : List FetchLine
  lead : Option Nat
  waits : List Nat
  done : Nat
  ready : List Nat
  deriving DecidableEq, Repr

/-- A cluster: its node, partition and world, resident area (R165), the image and logical cluster whose text its instruction memory
holds (R288), the tag array and key (R12), and the tick since which it has been free (R388). -/
structure Cluster where
  node : Option Nat
  logical : Nat
  part : Option Nat
  world : Bool
  resident : Nat
  image : Option (Nat × Nat)
  tags : List (Nat × Dword)
  key : List Byte
  freeSince : Nat
  /-- held for a handoff successor (R295): node key -/
  heldFor : Option Nat
  /-- saved node whose image still stands in place here: no other node has taken the cluster since (R315) -/
  keeps : Option Nat
  deriving DecidableEq, Repr

/-! ## Engines -/

/-- A weight plane (R213): its tile, format, states and image bytes, and the error code and detail that a poisoned plane's
load met (R236). -/
structure Plane where
  loaded : Bool
  poisoned : Bool
  tile : Nat
  fmt : Nat
  image : List Host.Cell
  err : Nat
  detail : Nat
  deriving DecidableEq, Repr

/-- The commands of a matrix engine (R221). -/
inductive MexKind where
  | mldw | mstr | mdrn | mzero
  deriving DecidableEq, Repr

/-- An entered matrix command: parameter copy, control word, entry cycle and issue event (R214, R220, R207). -/
structure MexCmd where
  id : Nat
  kind : MexKind
  who : CtxId
  ctl : Nat
  row : Nat
  par : List Dword
  entered : Nat
  seq : Nat
  /-- its issue event among its node's events (R324) -/
  ord : Nat
  deriving DecidableEq, Repr

/-- A started matrix command: start cycle, chunks, vectors or rows done, first error (R222, R236), the plane a load fills or a
stream reads, and the fresco slots of a load's tile (R226). -/
structure MexRun where
  cmd : MexCmd
  start : Nat
  done : Nat
  err : Nat
  detail : Nat
  /-- overrun met: the drain stops (R236, partial) -/
  halted : Bool
  plane : Plane
  slots : List Nat
  deriving DecidableEq, Repr

/-- A matrix engine (R213). `intRows` lists the rows of type INT32. -/
structure Mex where
  act : Plane
  sh : Plane
  intRows : List Nat
  queue : List MexCmd
  runs : List MexRun
  counter : Nat
  deriving DecidableEq, Repr

/-- An entered copy (R254, R263). -/
structure CpyCmd where
  id : Nat
  who : CtxId
  off : Nat
  par : List Dword
  entered : Nat
  seq : Nat
  /-- chunk to start from and bytes already written, after a pre-emption (R265) -/
  chunk : Nat
  written : Nat
  /-- its issue event among its node's events (R324) -/
  ord : Nat
  deriving DecidableEq, Repr

/-- A fetched chunk (R261): its bytes as they are to be written, and for each the egress classes of the guarded pages that it comes
from (R382). -/
structure Chunk where
  bytes : List Byte
  classes : List (List Nat)
  deriving DecidableEq, Repr

/-- A started copy (R261, R262): its barrier word, the Chrolin port of a copy to a peer and the class mask of its peer entry (R310),
the next chunk to write, the bytes written, that chunk once fetched, and its outcome. -/
structure CpyRun where
  cmd : CpyCmd
  bar : Option Nat
  port : Option (Nat × Nat)
  chunk : Nat
  written : Nat
  fetched : Option Chunk
  err : Nat
  detail : Nat
  cancelling : Bool
  refetched : Nat
  replicas : Nat
  deriving DecidableEq, Repr

/-- A copy engine (R255). -/
structure Cpy where
  queue : List CpyCmd
  runs : List CpyRun
  counter : Nat
  deriving DecidableEq, Repr

/-- The roles of a glaze command (R266), coded as the status word codes them. -/
inductive GlzKind where
  | send | recv | red
  deriving DecidableEq, Repr

/-- An entered glaze command (R254, R276); blocks cancelled before the match (R275). -/
structure GlzCmd where
  id : Nat
  kind : GlzKind
  who : CtxId
  par : List Dword
  entered : Nat
  seq : Nat
  pre : List Nat
  /-- its issue event among its node's events (R324) -/
  ord : Nat
  deriving DecidableEq, Repr

/-- A receiver's block (R271): planes received from each contributor, the counter's flag bits [7:5], whether its bytes are
paid, whether a contributor marked it poisoned. -/
structure GlzBlock where
  planes : List Nat
  flag : Nat
  paid : Bool
  poisoned : Bool
  deriving DecidableEq, Repr

/-- A contributor's encoded block (R269): shared exponent, signed mantissas, poison mark. -/
structure GlzEnc where
  exp : Nat
  man : List Int
  poisoned : Bool
  deriving DecidableEq, Repr

/-- A started glaze command (R268 to R275): the ports to its members on other packages with their entries' class masks (R310), its
blocks, and its outcome. -/
structure GlzRun where
  cmd : GlzCmd
  start : Nat
  matched : Bool
  ports : List (Nat × Nat × Nat)
  blocks : List GlzBlock
  err : Nat
  detail : Nat
  cancelled : Bool
  aborted : Bool
  /-- blocks named by a cancel not yet acknowledged -/
  cancelling : List Nat
  /-- restored, and waiting for one of the engine's four places (R255, R326) -/
  paused : Bool
  deriving DecidableEq, Repr

/-- A cancel that acts at the end of the cycle its bundle issued in (R131, R233, R263, R275): issuer, unit and engine, the
trigger value and first block, the command a glaze cancel names, where its count lands, unless a handler's end has discarded
it (R70), and the count's poison tag. -/
structure Cancel where
  who : CtxId
  unit : Nat
  eng : Nat
  t : Nat
  a : Nat
  target : Option Nat
  land : Option Nat
  poison : Bool
  deriving DecidableEq, Repr

/-- A glaze engine (R255). -/
structure Glz where
  queue : List GlzCmd
  runs : List GlzRun
  counter : Nat
  deriving DecidableEq, Repr

/-- A meeting of a group (R266, R268): partition, group, tag, the registered commands (member and issue event), and once it is
matched the contributors as members in rank order, the contributors' M, their encoded blocks and the rounds each has sent; and the blocks
that receivers on other packages have cancelled, as member and block (R275). -/
structure Coll where
  part : Nat
  group : Nat
  tag : Nat
  reg : List (Nat × Nat)
  matched : Bool
  cons : List Nat
  planes : Nat
  enc : List (Nat × List GlzEnc)
  sent : List (Nat × Nat)
  cut : List (Nat × Nat)
  deriving DecidableEq, Repr

/-- An entered retouch command (R336, R345). -/
structure RtcCmd where
  id : Nat
  who : CtxId
  off : Nat
  par : List Dword
  entered : Nat
  seq : Nat
  /-- rows already committed before a pre-emption, the remapped among them, and their digests (R341, R343) -/
  done : Nat
  remapped : Nat
  digests : List (List Byte)
  /-- iterations of the last of those rows, and the greatest count of a verified loop among them (R341, R346) -/
  iters : Nat
  maxIter : Nat
  /-- its issue event among its node's events (R324) -/
  ord : Nat
  deriving DecidableEq, Repr

/-- A serving row of the fresco tier (R333): the row's own physical row, or a spare of its bank. -/
inductive RowRef where
  | own (row : Nat)
  | spare (bank n : Nat)
  deriving DecidableEq, Repr

/-- The row a retouch engine holds (R337): capture cycle, source, target, iterations of this loop, failed loops, the spare taken, and the source
and factor bytes the capture has read with the poison of each (R339). -/
structure RowRun where
  row : Nat
  start : Nat
  src : List Byte
  target : RowRef
  tookSpare : Bool
  iter : Nat
  failed : Nat
  seen : List (Byte × Bool)
  deriving DecidableEq, Repr

/-- A commit of a row: the instant it ended, in 2^-24 of a tick, and what the row held before, for weight loads that read meanwhile (R338). -/
structure RowCommit where
  row : Nat
  ended : Nat
  old : List Byte
  bad : Bool
  deriving DecidableEq, Repr

/-- A started retouch command (R337, R341, R346). -/
structure RtcRun where
  cmd : RtcCmd
  start : Nat
  tile : Nat
  row : Nat
  cur : Option RowRun
  next : Nat
  committed : Nat
  remapped : Nat
  lastIter : Nat
  maxIter : Nat
  err : Nat
  detail : Nat
  finish : Option Nat
  cancelled : Bool
  digests : List (List Byte)
  deriving DecidableEq, Repr

/-- A retouch engine (R335). -/
structure Rtc where
  queue : List RtcCmd
  run : Option RtcRun
  counter : Nat
  nextStart : Nat
  last : Option RowCommit
  deriving DecidableEq, Repr

/-! ## Memory beside the bytes -/

/-- Classes of an uncorrectable-error mark (R354 to R356); `held` is an integrity failure whose sector a partial store has brought into the
second-level cache, so that no later read checks it again. -/
inductive Mark where
  | media | integrity | poison | held
  deriving DecidableEq, Repr

/-- A pour in flight (R172): target scratchpads, offset, data and landing cycle. -/
structure Pour where
  who : CtxId
  targets : List ClId
  off : Nat
  data : List Byte
  due : Nat
  deriving DecidableEq, Repr

/-- A byte of a kept write: its place in the granule, what it replaced (none: no staged byte stood there) and what it wrote. -/
structure PastByte where
  off : Nat
  was : Option Byte
  now : Byte
  deriving DecidableEq, Repr

/-- One write to a granule, kept while some reader may still miss it or an older one there (R207 to R209): the granule, the bytes
written, the memory event it is, its issuer, and for an engine write its command, the part of the command that a barrier update
counts by itself (a glaze block), its token, the barrier phase its bytes were counted to and whether the command has completed.
The writes of a granule stand in the order in which they were performed. -/
structure Past where
  addr : Nat
  bytes : List PastByte
  seq : Nat
  who : CtxId
  engine : Bool
  cmd : Nat
  part : Nat
  tok : Nat
  bar : Option (Nat × Nat)
  done : Bool
  /-- contexts that acquired it, each with the memory event of the acquire (R209) -/
  acq : List (CtxId × Nat)
  all : Bool
  /-- node that staged it, for a write held in an overlay (R364) -/
  stage : Option Nat
  /-- the memory event of the FENCE of kind 2 from which every context has acquired it (R198, R209) -/
  pub : Option Nat
  deriving DecidableEq, Repr

/-- The owner tag of a dirty second-level sector (R360): the host, or partition, graph address, node number and CTXID of the context
that dirtied it. `key` is the model's name of the node. -/
inductive Owner where
  | host
  | node (key part graph idx ctxid : Nat)
  deriving DecidableEq, Repr

/-! ## Nodes and partitions -/

/-- Node states of R286, in the order of their codes. -/
inductive NodeSt where
  | dormant | armed | ready | placed | running | committing | done | failed | killed
  deriving DecidableEq, Repr

/-- A plane as a cluster image records it (R324). -/
structure SavedEng where
  act : Plane
  sh : Plane
  intRows : List Nat
  counter : Nat
  queue : List MexCmd
  deriving DecidableEq, Repr

/-- A saved node (R313 to R325): the clusters it occupied and the image slot above each (R317; 2 or more: moved to LPDDR), the sealed
images there by logical cluster, and what the records of the image hold: contexts, engines and saved commands. Scratchpad and
accumulator bytes lie in memory at the image's own addresses. -/
structure Saved where
  homes : List ClId
  slots : List Nat
  sealed : List (Nat × List Byte)
  ctxs : List (CtxId × Ctx)
  engs : List (EngId × SavedEng)
  copies : List (Nat × CpyCmd)
  glazes : List (DieEng × GlzCmd)
  paused : List (DieEng × GlzRun)
  retouches : List (Nat × RtcCmd)
  handoffOnly : Bool
  order : Nat
  deriving DecidableEq, Repr

/-- Why a placed node's cores have been told to stop. -/
inductive Stop where
  | no
  | exit
  | preempt
  | kill
  deriving DecidableEq, Repr

/-- A graph node as its barista keeps it (R285 to R296). -/
structure Node where
  part : Nat
  graph : Nat
  idx : Nat
  /-- dwords 0x00 to 0x30 of its record as the barista read them (R285) -/
  record : List Nat
  st : NodeSt
  expected : Bool
  attempts : Nat
  firings : Nat
  reason : Nat
  exitSt : Word32
  clusters : List ClId
  /-- clusters held for it as a handoff successor, by logical cluster (R295, R367) -/
  handed : List ClId
  readyAt : Nat
  placedAt : Nat
  noRetry : Bool
  /-- the re-queue of R71 was made in this firing; a double fault was met in it -/
  freed : Bool
  faulted : Bool
  durable : Bool
  kill2 : Bool
  /-- placed by handoff: its scratchpads are its predecessor's (R295, R367) -/
  inherits : Bool
  stop : Stop
  saved : Option Saved
  /-- scratchpads saved for its next firing while another one of it runs or is saved (R295) -/
  laid : Option Saved
  palettes : List Byte
  deriving DecidableEq, Repr

/-- A program image in secure LPDDR (R287, R288). -/
structure Image where
  id : Nat
  bytes : List Byte
  key : List Byte
  digest : List Byte
  deriving DecidableEq, Repr

/-- A request that waits at an egress bucket (R381): a name, its context, its bytes, whether it is a core store, and for such a store
the host bytes that it replaced in memory order, which stand again if it never leaves (R378). A copy all of whose chunks leave here keeps
its place until its last chunk has gone: `stays`; `ready` tells whether its next chunk has been asked for. -/
structure EgressReq where
  id : Nat
  who : CtxId
  bytes : Nat
  store : Bool
  was : List (Nat × Byte)
  ready : Bool
  stays : Bool
  deriving DecidableEq, Repr

/-- A token bucket of the egress governor (R380, R381): rate, burst, level in bytes and the 1,800ths of a byte above it, the tick the level is
of, the requests waiting in order, those let go but not yet sent, and the cycle of its last log entry. -/
structure Bucket where
  rate : Nat
  burst : Nat
  level : Nat
  frac : Nat
  upto : Nat
  waiting : List EgressReq
  granted : List Nat
  logged : Option Nat
  deriving DecidableEq, Repr

/-- A secured session of a partition (R377, R378): its host port, the secret its AES-256-GCM keys come from, heartbeat period and grace
in microseconds, key epoch, the messages received and sent under its keys, the tick of its last message, and the tick in which its grace
period began, if it runs. -/
structure Session where
  port : Nat
  key : List Byte
  period : Nat
  grace : Nat
  keyEpoch : Nat
  received : Nat
  sent : Nat
  heard : Nat
  losing : Option Nat
  deriving DecidableEq, Repr

/-- An LPDDR region of a partition with its world and egress class (R308, R382). -/
structure Region where
  die : Nat
  base : Nat
  size : Nat
  secure : Bool
  cls : Nat
  deriving DecidableEq, Repr

/-- A fault record's eight dwords (R357). -/
abbrev FaultRec := List Dword

/-- The items of a partition that carry a world mark beside clusters, regions and fresco regions (R308). -/
inductive PartItem where
  | share (kind : Nat)
  | group (k : Nat)
  | peer (k : Nat)
  | area (c : ClId)
  deriving DecidableEq, Repr

/-- A partition (R308 to R310, R266, R307, R380). -/
structure Part where
  clusters : List (ClId × Bool)
  regions : List Region
  fresco : List (Nat × Nat × Bool)
  shares : List (Nat × Nat)
  roots : List (Bool × Nat)
  fmap : List ((Bool × Nat) × Dword)
  groups : List (Nat × List Nat)
  peers : List (Nat × List Dword)
  /-- share of each die's staging storage in bytes (R365) -/
  staging : List (Nat × Nat)
  images : List Image
  nextImage : Nat
  ring : List FaultRec
  hostMask : List (Nat × Nat)
  windows : List ((Nat × Nat) × Nat)
  buckets : List (Nat × Bucket)
  noFiring : Bool
  noEgress : Bool
  zeroised : Bool
  /-- resident areas kept while their clusters have left the partition: cluster and size in 16 KiB (R165) -/
  areas : List (ClId × Nat)
  /-- the items of R308 that are marked secure -/
  secureItems : List PartItem
  /-- key under which its images in LPDDR are sealed (R317, R379) -/
  sealKey : List Byte
  deriving DecidableEq, Repr

/-- A page as a partition's tables map it: partition, world, virtual address, frame and bytes. -/
structure Mapped where
  part : Nat
  world : Bool
  va : Nat
  frame : Nat
  bytes : Nat
  deriving DecidableEq, Repr

/-- A shootdown in progress (R306): range, new entries, its tick, the stamp before which pins were made from the old entries, and the
pages that these mapped and the new ones do not. -/
structure Shoot where
  part : Nat
  world : Bool
  lo : Nat
  hi : Nat
  writes : List (Nat × Dword)
  began : Nat
  stamp : Nat
  old : List Mapped
  deriving DecidableEq, Repr

/-- A mapping of a frame: partition, world, 64 KiB virtual page, table address of its leaf, the leaf and its page size code. -/
structure Mapping where
  part : Nat
  world : Bool
  va : Nat
  leafAt : Nat
  leaf : Nat
  size : Nat
  deriving DecidableEq, Repr

/-- A page retirement in progress (R362): the old frame, and the mappings that move with it. -/
structure Retire where
  frame : Nat
  maps : List Mapping
  began : Nat
  deriving DecidableEq, Repr

/-- A SYSC call waiting for the partition manager (R127). -/
structure SysCall where
  who : CtxId
  call : Nat
  arg : Dword
  off : Nat
  tok : Nat
  deriving DecidableEq, Repr

/-! ## The die, the islands, the ports -/

/-- What each die's management core and barista keep. -/
structure Die where
  firmware : List Byte
  started : Bool
  scanned : Bool
  wearLimit : Nat
  root : List Byte
  calls : List SysCall
  ring : List FaultRec
  seq : Nat
  corrected : List (Nat × Nat)
  deriving DecidableEq, Repr

/-- A voltage and frequency island (R387, R388): the setpoint asked for, the effective one in force, the thermal steps, the tick of
the last step, the run of its clock in 1/1800 of a cycle (R5, R45), and the instant its cycle began, in 2^-24 of a tick. -/
structure Island where
  setpoint : Nat
  inForce : Nat
  expert : Bool
  gated : Bool
  steps : Nat
  stepped : Nat
  waking : Bool
  run : Nat
  began : Nat
  deriving DecidableEq, Repr

/-- States of a Chrolin port (R386). -/
inductive PortSt where
  | down | training | up | fenced
  deriving DecidableEq, Repr

/-- A Chrolin port (R372, R373, R386): counters, the replay buffer of unacknowledged flits as they were sent, those to send again, tag
failures on one counter, the tick a resynchronisation began, the link identifier and the key of each direction with the epoch of
their update, the key that flits before counter `keyFrom` were sent under, the ticks of the last valid flit heard and of the last sent, the peer's identity, accepted data of the peer that nothing
has taken yet, and the secret of the session with that package (R379). -/
structure Port where
  st : PortSt
  tx : Nat
  rx : Nat
  replay : List (Nat × List Byte)
  resend : List (Nat × List Byte)
  fails : Nat
  resyncing : Option Nat
  heard : Nat
  sent : Nat
  keyEpoch : Nat
  link : Nat
  txKey : List Byte
  rxKey : List Byte
  oldKey : List Byte
  keyFrom : Nat
  sinceKey : Nat
  retries : Nat
  resyncs : Nat
  fences : Nat
  peer : Nat
  inbox : List (List Byte)
  sentViral : Bool
  secret : List Byte
  deriving DecidableEq, Repr

/-- A provenance log entry (R383). -/
structure LogEntry where
  num : Nat
  kind : Nat
  part : Nat
  time : Nat
  detail : List Byte
  chain : List Byte
  deriving DecidableEq, Repr

/-- A checkpoint of the log (R384): its newest entry, the cycle it was made in, the signature. -/
structure Checkpoint where
  num : Nat
  made : Nat
  sig : List Byte
  deriving DecidableEq, Repr

/-- What the package answers the host (R377, R378, R384, R385). -/
inductive Reply where
  | version
  | capabilities
  | algorithms
  | digests (d : List Byte)
  | certificate (c : List Byte)
  | challengeAuth (sig : List Byte)
  | measurements (ms : List (Nat × List Byte)) (sig : List Byte)
  | keyExchanged (ct sig : List Byte)
  | finished
  | heartbeatAck
  | keyUpdateAck
  | sessionEnded
  | unsupportedRequest
  | sessionRequired
  | entry (e : LogEntry) (final : Option Checkpoint)
  /-- an entry older than the ring holds (R384) -/
  | checkpoint (final : Option Checkpoint)
  | faults (rs : List FaultRec)
  | portStatus (st : PortSt) (retries resyncs fences : Nat)
  | islandControl (w : Nat)
  | coolant (flow inlet : Nat)
  | imageId (id : Nat)
  | imageRejected
  | bytes (a : Nat) (d : List Byte)
  | hostPort (up cxl blocked cxlViral ide : Bool)
  /-- a reply inside a partition's session, with the bytes that AES-256-GCM makes of it -/
  | secured (part : Nat) (r : Reply) (sealed : List Byte)
  deriving DecidableEq, Repr

/-- Free value: the bytes of a reply (R377 lays none out; DESIGN CHOICE, log entry 102). -/
opaque replyBytes : Reply → List Byte

/-- A host read that waits at its bucket (R381): its name, the saved node it reaches, if it is one of R315, its partition, access and port. -/
structure HostRead where
  id : Nat
  node : Option Nat
  part : Nat
  acc : Access
  port : Nat
  deriving DecidableEq, Repr

/-- A host port (R370, R375, R377, R385): its link, whether that is trained for CXL, whether the viral state blocks it and CXL viral is
signalled on it, the key of its IDE stream, none before a session has given one, what it has answered, oldest first, whether
algorithms are negotiated, and a key exchange not finished: partition, period, grace and shared secret. -/
structure HostPort where
  up : Bool
  cxl : Bool
  blocked : Bool
  cxlViral : Bool
  ide : List Byte
  replies : List Reply
  negotiated : Bool
  exchange : Option (Nat × Nat × Nat × List Byte)
  deriving DecidableEq, Repr

/-- The bundle under issue, a field of the model's own: the context, the slot of the bundle's first move, the header's await mask and
solo bit, and the bundle's long immediates (R16). -/
structure Sel where
  who : CtxId
  slot : Nat
  await : Nat
  solo : Bool
  longs : List Syllable
  deriving DecidableEq, Repr

/-- Power and cooling of the package (R389, R390): limit in watts, whether the coolant caps it, whether the package is bare, and the
last readings of flow in mL/min and inlet temperature, and the ticks since which flow has read low, or both in range. -/
structure Power where
  limit : Nat
  capped : Bool
  bare : Bool
  flow : Nat
  inlet : Nat
  low : Option Nat
  fine : Option Nat
  deriving DecidableEq, Repr

structure State where
  /-- package time in ticks of 1/1800 of a microsecond, the cycle of the fastest clock (R5, R387) -/
  cycle : Nat
  /-- the model's own counters: free values used, memory events made, stamps -/
  free : Nat
  seq : Nat
  stamp : Nat
  /-- inputs and chosen events that step runs first, in order -/
  agenda : List Instr
  sel : Sel
  /-- the core that issues next, and the place in the round of cores when none is set -/
  focus : Option CoreId
  turn : Nat
  /-- bytes of the 52-bit physical space (R297) -/
  mem : List Host.Cell
  marks : List (Nat × Mark)
  /-- contents, marks, wear and remap tables of the fresco tier (R171, R332 to R334) -/
  fresco : List Host.Cell
  frescoBad : List Nat
  wear : List (RowRef × Nat)
  remap : List (Nat × Nat)
  retired : List RowRef
  usedSpares : List RowRef
  ctxs : List (CtxId × Ctx)
  cores : List (CoreId × Core)
  clusters : List (ClId × Cluster)
  mex : List (EngId × Mex)
  cpy : List (DieEng × Cpy)
  glz : List (DieEng × Glz)
  rtc : List (DieEng × Rtc)
  colls : List Coll
  pours : List Pour
  cancels : List Cancel
  past : List Past
  /-- memory events each node has made in its firing (R324) -/
  tally : List (Nat × Nat)
  /-- flips each barrier word has made (R193, R197) -/
  flips : List (Nat × Nat)
  /-- staged bytes by node key and physical address (R364), and the CTXID that last staged in each sector (R357) -/
  overlay : List ((Nat × Nat) × Byte)
  stagedBy : List ((Nat × Nat) × Nat)
  /-- dirty second-level sectors: owner, and contents and mark that LPDDR still holds (R360, R361) -/
  dirty : List (Nat × Owner × List Byte × Option Mark)
  /-- compressible bit and format tag each resident line was filled under (R304) -/
  lines : List (Nat × Nat)
  nodes : List Node
  parts : List (Nat × Part)
  sessions : List (Nat × Session)
  shoots : List Shoot
  retires : List Retire
  retiredFrames : List Nat
  /-- 64 KiB pages split out of a larger page by a retirement, with their new leaves (R362) -/
  splits : List ((Nat × Bool × Nat) × Dword)
  ways : List (Nat × Nat)
  dies : List Die
  /-- the ten die-to-die links, up or not, in the order of Config.internalEdges (R2, R375) -/
  edges : List Bool
  islands : List Island
  ports : List Port
  hosts : List HostPort
  /-- host reads that wait at their bucket (R381) -/
  hostReads : List HostRead
  log : List LogEntry
  checkpoints : List Checkpoint
  measures : List (Nat × List Byte)
  power : Power
  viral : Bool
  retained : Option (Nat × FaultRec)
  deriving DecidableEq, Repr

/-! ## Outcomes -/

/-- Why the model stops. -/
inductive Fault where
  /-- A step or event names a die, cluster, core, engine, port or table entry the package does not have (R2 to R4).
  Raised by the event meanings; safe: no unit of that name exists, and step never chooses one. -/
  | noSuchUnit
  deriving DecidableEq, Repr

/-- Why an instruction has no meaning in the model. -/
inductive Refusal where
  /-- The instruction is not modelled. Raised by Dispatch only; safe: nothing runs. -/
  | notModelled (mnemonic : String)
  deriving DecidableEq, Repr

/-! ## Reset values -/

/-- The operand-port types of R94: 18 units, ports a to d. -/
def portTypes : List (List Ty) :=
  let s := [Ty.s, .s, .s, .s]
  [s, s, s, s, s, s, [.v, .s, .s, .m], [.v, .v, .m, .s], [.v, .v, .s, .s], [.v, .s, .v, .s], [.v, .v, .v, .v],
   [.v, .s, .m, .s], [.s, .s, .s, .v], s, s, s, s, s]

def portsZero : List Val := portTypes.flatten.map Val.zero
def latchesZero : List Val := List.replicate 36 (.sc .zero)

/-- Parameter sets at context start (R218, R258, R267, R336). -/
def mexParZero : List Dword :=
  [0, 0x004, 0x3F800000, 0, 0, 1, 0x04, 0, 0, 0, 0, 0, 0, 0x0F01, 0, 0, 0, 0, 0x10000, 0, 0, 0x3F800000,
   0x7F800000FF800000, 0, 0, 0]
def cpyParZero : List Dword := List.replicate 16 0
def glzParZero : List Dword := [0, 0, 0, 2, 0, 0, 0x02, 1, 0, 0x01, 0, 0, 0, 0, 0, 0xFFFF]
def rtcParZero : List Dword := [0, 0, 1, 0, 0, 0, 0, 0, 0]

def Special.start : Special := ⟨0, 0, 0, 16, 0, 0, 0, 0, 0, 0, 0, 0⟩
def Report.none : Report := ⟨Option.none, Option.none⟩
def Pattern.start : Pattern := ⟨[], false, false⟩
def Sketch.cleared : Sketch := ⟨[], false, 0, false⟩
def VName.unwritten : VName := ⟨.unwritten, [], none, 0⟩
def Token.clear : Token := ⟨0, false, 0, 0⟩

/-- A context when its node starts it (R27, R108), but not running yet. -/
def Ctx.start : Ctx where
  run := .notStarted
  nap := .awake
  node := none
  logical := 0
  stopped := false
  pc := 0
  via := none
  bclk := 0
  g := List.replicate 64 .zero
  o := List.replicate 16 .zero
  p := List.replicate 3 (false, false)
  m := List.replicate 8 maskZero
  vo := List.replicate 8 vecZero
  v := List.replicate 32 .unwritten
  ports := portsZero
  latches := latchesZero
  flight := []
  landing := []
  redirects := []
  loopStart := 0
  loopCnt := 0
  loopEnd := 0
  sr := .start
  tokens := List.replicate 8 .clear
  twait := 0
  wake := false
  yieldAt := none
  parity := 0
  pats := List.replicate 8 .start
  sketches := List.replicate 16 .cleared
  pins := []
  spill := []
  spillPoison := []
  snap := none
  rft := none
  calling := none
  touchLost := none
  replayTrap := none
  mexPar := List.replicate 4 mexParZero
  cpyPar := List.replicate 8 cpyParZero
  glzPar := List.replicate 2 glzParZero
  rtcPar := List.replicate 4 rtcParZero
  mexLast := List.replicate 4 0
  cpyRep := List.replicate 8 .none
  glzRep := List.replicate 8 .none
  rtcRep := List.replicate 8 .none
  recvs := []
  exitStatus := 0
  nextId := 0

def Core.start : Core := ⟨[], none, [0, 0, 0, 0], 0, []⟩
def Cluster.start : Cluster := ⟨none, 0, none, false, 0, none, [], [], 0, none, none⟩
def Plane.none : Plane := ⟨false, false, 0, 0, [], 0, 0⟩
def Mex.start : Mex := ⟨.none, .none, [], [], [], 0⟩
def Cpy.start : Cpy := ⟨[], [], 0⟩
def Glz.start : Glz := ⟨[], [], 0⟩
def Rtc.start : Rtc := ⟨[], none, 0, 0, none⟩
/-- The wear limit is 100,000 at reset (R334). -/
def Die.start : Die := ⟨[], false, false, 100000, [], [], [], 0, []⟩
/-- Rate 0 and burst 4 KiB are the defaults (R380); a bucket starts full (DESIGN CHOICE, log entry 7). -/
def Bucket.start : Bucket := ⟨0, 4096, 4096, 0, 0, [], [], none⟩
def Part.empty : Part := ⟨[], [], [], [], [], [], [], [], [], [], 1, [], [], [], [], false, false, false, [], [], []⟩
/-- 25 is the setpoint of the nominal 1.2 GHz at 500 mV (R387; DESIGN CHOICE, log entry 6). -/
def Island.start : Island := ⟨25, 25, false, true, 0, 0, false, 0, 0⟩
def Port.start : Port := ⟨.down, 0, 0, [], [], 0, none, 0, 0, 0, 0, [], [], [], 0, 0, 0, 0, 0, 0, [], false, []⟩
def HostPort.start : HostPort := ⟨false, false, false, false, [], [], false, none⟩

/-- The package right after reset: nothing started, no partition, nothing placed (R375). -/
def State.reset : State where
  cycle := 0
  free := 0
  seq := 0
  stamp := 0
  agenda := []
  sel := ⟨⟨0, 0, 0, 0⟩, 0, 0, false, []⟩
  focus := none
  turn := 0
  mem := []
  marks := []
  fresco := []
  frescoBad := []
  wear := []
  remap := []
  retired := []
  usedSpares := []
  ctxs := []
  cores := []
  clusters := []
  mex := []
  cpy := []
  glz := []
  rtc := []
  colls := []
  pours := []
  cancels := []
  past := []
  tally := []
  flips := []
  overlay := []
  stagedBy := []
  dirty := []
  lines := []
  nodes := []
  parts := []
  sessions := []
  shoots := []
  retires := []
  retiredFrames := []
  splits := []
  ways := []
  dies := List.replicate 8 .start
  edges := List.replicate 10 false
  islands := List.replicate 64 .start
  ports := List.replicate 18 .start
  hosts := List.replicate 2 .start
  hostReads := []
  log := []
  checkpoints := []
  measures := []
  power := ⟨2600, false, false, 2500, 25, none, none⟩
  viral := false
  retained := none

end Sys2Proof.Machine
end

