-- ==== Sys2Proof/Machine/Mem.lean ====
section
/-! DEFINITION. Access to the parts of the state, the bytes of memory in canonical form, uncorrectable-error marks, the
memory order with the engines beside it (R200 to R211), barrier words (R192, R193) and wait tokens (R55). -/

namespace Sys2Proof.Machine

/-! ## Parts of the state -/

def getCtx (s : State) (c : CtxId) : Ctx := (assoc c s.ctxs).getD Ctx.start
def setCtx (c : CtxId) (x : Ctx) (s : State) : State := { s with ctxs := assocSet c x s.ctxs }
/-- Changes a context that the list holds. -/
def updCtx (c : CtxId) (f : Ctx → Ctx) (s : State) : State := setCtx c (f (getCtx s c)) s
def getCore (s : State) (c : CoreId) : Core := (assoc c s.cores).getD Core.start
def setCore (c : CoreId) (x : Core) (s : State) : State := { s with cores := assocSet c x s.cores }
def getCl (s : State) (c : ClId) : Cluster := (assoc c s.clusters).getD Cluster.start
def setCl (c : ClId) (x : Cluster) (s : State) : State := { s with clusters := assocSet c x s.clusters }
def getMex (s : State) (e : EngId) : Mex := (assoc e s.mex).getD Mex.start
def setMex (e : EngId) (x : Mex) (s : State) : State := { s with mex := assocSet e x s.mex }
def getCpy (s : State) (e : DieEng) : Cpy := (assoc e s.cpy).getD Cpy.start
def setCpy (e : DieEng) (x : Cpy) (s : State) : State := { s with cpy := assocSet e x s.cpy }
def getGlz (s : State) (e : DieEng) : Glz := (assoc e s.glz).getD Glz.start
def setGlz (e : DieEng) (x : Glz) (s : State) : State := { s with glz := assocSet e x s.glz }
def getRtc (s : State) (e : DieEng) : Rtc := (assoc e s.rtc).getD Rtc.start
def setRtc (e : DieEng) (x : Rtc) (s : State) : State := { s with rtc := assocSet e x s.rtc }
def getPart (s : State) (p : Nat) : Part := (assoc p s.parts).getD Part.empty
def setPart (p : Nat) (x : Part) (s : State) : State := { s with parts := assocSet p x s.parts }
def getNode (s : State) (n : Nat) : Option Node := s.nodes[n]?
def setNode (n : Nat) (x : Node) (s : State) : State := { s with nodes := s.nodes.set n x }
def getDie (s : State) (d : Nat) : Die := s.dies.getD d Die.start
def setDie (d : Nat) (x : Die) (s : State) : State := { s with dies := s.dies.set d x }

/-- The host ports and what the package answers there. -/
def getHost (s : State) (port : Nat) : HostPort := s.hosts.getD port HostPort.start
def setHost (port : Nat) (h : HostPort) (s : State) : State := { s with hosts := s.hosts.set port h }
def answer (port : Nat) (r : Reply) (s : State) : State := setHost port { getHost s port with replies := (getHost s port).replies ++ [r] } s

def getIsland (s : State) (die isl : Nat) : Island := s.islands.getD (die * 8 + isl) Island.start
def setIsland (die isl : Nat) (x : Island) (s : State) : State := { s with islands := s.islands.set (die * 8 + isl) x }

/-! ## Clocks (R5, R45, R387) -/

/-- The island of a cluster (R3). -/
def islandOf (c : ClId) : Nat := c.cl / 4
/-- An island's clock in MHz at the point in force (R387). -/
def Island.rate (x : Island) : Nat := 1000 + 8 * x.inForce
/-- The wall cycle of a cluster's island: its clock has run that many whole cycles. -/
def clk (s : State) (c : ClId) : Nat := (getIsland s c.die (islandOf c)).run / 1800
/-- Cycles of the nominal 1.2 GHz since package reset, for units that no island holds (R3, R5). -/
def nominal (s : State) : Nat := s.cycle * 2 / 3
/-- Microseconds since package reset. -/
def micros (s : State) : Nat := s.cycle / 1800
/-- Nanoseconds since package reset (R128). -/
def nanos (s : State) : Nat := s.cycle * 5 / 9
/-- One tick of an island's clock; a cycle that begins in it begins at the instant the run reaches a whole cycle. -/
def Island.tick (cycle : Nat) (x : Island) : Island :=
  let next := (x.run + x.rate) / 1800
  { x with run := x.run + x.rate, began := if x.run / 1800 < next then cycle * 2 ^ 24 + (1800 * next - x.run) * 2 ^ 24 / x.rate else x.began }
/-- One tick of every island's clock. -/
def runClocks (s : State) : State := { s with cycle := s.cycle + 1, islands := s.islands.map (Island.tick s.cycle) }

/-- The node, partition and world a context runs in (R308): its cluster's. -/
def nodeOf (s : State) (c : CtxId) : Option Nat := (getCtx s c).node

/-- The name under which the barista, the partition manager and the host stand in memory order: no context of the package. -/
def outside : CtxId := ⟨8, 0, 0, 0⟩
/-- The name of every context whose node's attempt has ended. -/
def departed : CtxId := ⟨8, 0, 0, 1⟩
/-- The name of a context of a saved node, by its logical cluster: it has no place in the package (R313). -/
def parked (n i : Nat) (w : CtxId) : CtxId := ⟨9 + n, i, w.core, w.ctx⟩
def parkedNode (s : State) (w : CtxId) : Option Node := if 9 ≤ w.die then getNode s (w.die - 9) else none
def partOf (s : State) (c : CtxId) : Nat :=
  match parkedNode s c with
  | some d => d.part
  | none => ((getCl s c.clId).part).getD 0
def worldOf (s : State) (c : CtxId) : Bool :=
  match parkedNode s c with
  | some d => bits (d.record.getD 1 0) 42 42 == 1
  | none => (getCl s c.clId).world
/-- Contexts go under other names wherever memory order and the buckets name them; those without a name have departed, and what they
acquired is forgotten. -/
def renameCtxs (f : CtxId → Option CtxId) (s : State) : State :=
  { s with
    past := s.past.map fun p => { p with who := (f p.who).getD departed, acq := p.acq.filterMap fun a => (f a.1).map fun w => (w, a.2) },
    parts := s.parts.map fun x => (x.1, { x.2 with buckets := x.2.buckets.map fun b =>
      (b.1, { b.2 with waiting := b.2.waiting.map fun r => { r with who := (f r.who).getD departed } }) }) }

/-! ## Physical addresses (R297) -/

def physSpad (c : ClId) (off : Nat) : Nat := c.die * 2 ^ 48 + 1 * 2 ^ 45 + c.cl * 2 ^ 40 + off
def physAcc (c : ClId) (off : Nat) : Nat := c.die * 2 ^ 48 + 2 * 2 ^ 45 + c.cl * 2 ^ 40 + off
def physImem (c : ClId) (off : Nat) : Nat := c.die * 2 ^ 48 + 3 * 2 ^ 45 + c.cl * 2 ^ 40 + off
def physHost (a : Nat) : Bool := bit a 51
def physDie (a : Nat) : Nat := bits a 50 48
def physKind (a : Nat) : Nat := bits a 47 45
def physCl (a : Nat) : ClId := ⟨bits a 50 48, bits a 44 40⟩
/-- The offset: [44:0] for LPDDR and the shadow tier, else [39:0]. -/
def physOff (a : Nat) : Nat := if physKind a = 0 ∨ physKind a = 5 then bits a 44 0 else bits a 39 0
/-- The offset limit of a kind (R297); 0 for the reserved kinds. -/
def kindLimit (k : Nat) : Nat := [Config.lpddrBytes, 0x300000, 0x100000, 0xC0000, 0x1000000, 0x18000000].getD k 0
/-- Whether a physical byte exists. -/
def physOk (a : Nat) : Bool :=
  decide (a < 2 ^ 52) && (physHost a || decide (physOff a < kindLimit (physKind a)))
/-- Where the cluster image of a saved node lies (R317, R318): in the shadow tier above its cluster, slot 0 or 1. An image that has moved
to LPDDR (slot 2 or more) is kept at offsets that the tier does not have (DESIGN CHOICE, log entry 29). -/
def imageBase (c : ClId) (slot : Nat) : Nat :=
  c.die * 2 ^ 48 + 5 * 2 ^ 45 + (if slot < 2 then (c.cl * 2 + slot) * 0x600000 else 2 ^ 40 + ((slot - 2) * 32 + c.cl) * 0x600000)
/-- Whether a byte is a scratchpad location of a saved node's image. -/
def inImageSpad (a : Nat) : Bool :=
  !physHost a && physKind a == 5 && decide ((if physOff a < 2 ^ 40 then physOff a else physOff a - 2 ^ 40) % 0x600000 < 0x300000)
def isSpad (a : Nat) : Bool := !physHost a && physKind a == 1
def isAcc (a : Nat) : Bool := !physHost a && physKind a == 2
def isLpddr (a : Nat) : Bool := !physHost a && physKind a == 0

/-! ## Bytes -/

/-- What an address the list does not name reads as (DESIGN CHOICE, log entry 1). -/
def Memory.unlisted : Byte := 0

/-- One byte of a list of cells. -/
def Memory.get : List Host.Cell → Nat → Byte
  | [], _ => Memory.unlisted
  | (a, b) :: r, x => if a = x then b else Memory.get r x

/-- Writes one byte, keeping addresses rising and no entry equal to an unlisted byte. -/
def Memory.set : List Host.Cell → Nat → Byte → List Host.Cell
  | [], x, v => if v = Memory.unlisted then [] else [(x, v)]
  | (a, b) :: r, x, v =>
    if x < a then (if v = Memory.unlisted then (a, b) :: r else (x, v) :: (a, b) :: r)
    else if x = a then (if v = Memory.unlisted then r else (x, v) :: r)
    else (a, b) :: Memory.set r x v

/-- Addresses strictly rising and no listed byte equal to an unlisted one. -/
def Memory.wf : List Host.Cell → Bool
  | [] => true
  | [(_, b)] => decide (b ≠ Memory.unlisted)
  | (a, b) :: (c, d) :: r => decide (b ≠ Memory.unlisted) && decide (a < c) && Memory.wf ((c, d) :: r)

def Memory.gets (m : List Host.Cell) (a n : Nat) : List Byte := (List.range n).map fun i => Memory.get m (a + i)
def Memory.sets (m : List Host.Cell) : Nat → List Byte → List Host.Cell
  | _, [] => m
  | a, b :: bs => Memory.sets (Memory.set m a b) (a + 1) bs
/-- Drops every byte in a range. -/
def Memory.clear (m : List Host.Cell) (lo hi : Nat) : List Host.Cell := m.filter fun x => decide (x.1 < lo) || decide (hi ≤ x.1)

def memBytes (s : State) (a n : Nat) : List Byte := Memory.gets s.mem a n
def memDword (s : State) (a : Nat) : Nat := ofBytes (memBytes s a 8)

/-! ## Marks (R354) -/

/-- The start of the unit that carries one mark: scratchpad granule, accumulator element, else 64-byte sector. -/
def markUnit (a : Nat) : Nat := if isSpad a then a / 16 * 16 else if isAcc a then a / 4 * 4 else a / 64 * 64
def markSize (a : Nat) : Nat := if isSpad a then 16 else if isAcc a then 4 else 64
def markOf (s : State) (a : Nat) : Option Mark := assoc (markUnit a) s.marks
def setMark (a : Nat) (m : Mark) (s : State) : State := { s with marks := assocSet (markUnit a) m s.marks }
def clearMark (a : Nat) (s : State) : State := { s with marks := assocDrop (markUnit a) s.marks }
/-- Whether a byte's data is poisoned. An integrity-failed sector is not: its loads fail (R356). -/
def byteBad (s : State) (a : Nat) : Bool :=
  match markOf s a with
  | some .media => true
  | some .poison => true
  | some .integrity => false
  | some .held => false
  | none => false
/-- Whether a byte's sector has failed its MAC (R355, R356). -/
def macFailed (s : State) (a : Nat) : Bool := markOf s a == some .integrity || markOf s a == some .held

/-- Whether a byte's data is poisoned for a node, or for no node: a byte that the node has staged itself is sound (R354, R364). -/
def viewBad (s : State) (n : Option Nat) (a : Nat) : Bool :=
  match n with
  | some k => (assoc (k, a) s.overlay).isNone && byteBad s a
  | none => byteBad s a

/-- Whether a write of these addresses takes a mark away: one that covers the unit whole (R354), and any store to an accumulator
element for the poison an engine left there (R181). -/
def unmarks (as : List Nat) (u : Nat) (m : Mark) : Bool :=
  let us := (List.range (markSize u)).map (u + ·)
  us.all (as.contains ·) || (isAcc u && m == .poison && us.any (as.contains ·))
/-- The marks after one write of these addresses. A sector that failed its MAC and is written in part is held in the second-level cache, where no
read checks it again (R356). A staged write is none of the ordinary contents and clears no mark of theirs
(R364). -/
def unmark (stage : Option Nat) (as : List Nat) (s : State) : State :=
  match stage with
  | some _ => s
  | none => { s with marks := (s.marks.filter fun x => !unmarks as x.1 x.2).map fun x =>
      if x.2 = .integrity ∧ as.any (fun a => markUnit a == x.1) then (x.1, .held) else x }

/-! ## Who waits at a barrier word (R196) -/

/-- Wakes the contexts waiting on a word. Only the first change after the read counts. -/
def signalWord (w : Nat) (by_ : Wake) (s : State) : State :=
  { s with ctxs := s.ctxs.map fun (k, c) =>
      match c.run with
      | .bwait phys ph word n wake => (k, { c with run := .bwait phys ph word n (if phys = w ∧ wake = .waiting then by_ else wake) })
      | _ => (k, c) }

/-! ## Writes -/

/-- One byte of a write: physical address and byte. -/
abbrev WByte := Nat × Byte

def writeCells (ws : List WByte) (m : List Host.Cell) : List Host.Cell := ws.foldl (fun m w => Memory.set m w.1 w.2) m

/-- Granules of 16 bytes a write touches, ascending. -/
def granules (as : List Nat) : List Nat := sortBy id (as.map fun a => a / 16 * 16).eraseDups

/-- A byte of the ordinary contents, or of a node's staged bytes alone (R364). -/
def layerByte (s : State) (stage : Option Nat) (a : Nat) : Option Byte :=
  match stage with
  | some n => assoc (n, a) s.overlay
  | none => some (Memory.get s.mem a)
/-- A node's view of one byte: its own staged byte over the ordinary contents (R364). -/
def viewByte (s : State) (n : Option Nat) (a : Nat) : Byte :=
  match n with
  | some k => match assoc (k, a) s.overlay with
    | some b => b
    | none => Memory.get s.mem a
  | none => Memory.get s.mem a

/-- Whether a saved node has commands that will read memory again (R324). -/
def Saved.commanded (v : Saved) : Bool :=
  v.engs.any (fun (_, m) => !m.queue.isEmpty) || !v.copies.isEmpty || !v.glazes.isEmpty || !v.paused.isEmpty || !v.retouches.isEmpty
/-- Whether an engine of the package holds a command, or a saved node has one, so that a core write may have to be kept as one an engine
read may miss (R207). -/
def enginesBusy (s : State) : Bool :=
  s.mex.any (fun (_, m) => !m.queue.isEmpty || !m.runs.isEmpty) || s.cpy.any (fun (_, m) => !m.queue.isEmpty || !m.runs.isEmpty)
  || s.glz.any (fun (_, m) => !m.queue.isEmpty || !m.runs.isEmpty) || s.rtc.any (fun (_, m) => !m.queue.isEmpty || m.run.isSome)
  || s.nodes.any fun d => d.saved.any Saved.commanded

/-- The bytes of a write that fall into a granule, as they are kept. -/
def pastBytes (s : State) (stage : Option Nat) (ws : List WByte) (g : Nat) : List PastByte :=
  (List.range 16).filterMap fun i => (assoc (g + i) ws.reverse).map fun v => ⟨i, layerByte s stage (g + i), v⟩
/-- A write in its granules, with `p` for all but the granule and the bytes. -/
def pastOf (s : State) (ws : List WByte) (p : Past) (gs : List Nat) : List Past :=
  gs.map fun g => { p with addr := g, bytes := pastBytes s p.stage ws g }
/-- The granules in which a core write is kept: all while an engine holds a command, else those where an older write is kept. -/
def keptGranules (s : State) (stage : Option Nat) (ws : List WByte) : List Nat :=
  (granules (ws.map (·.1))).filter fun g => enginesBusy s || s.past.any fun p => p.addr == g && p.stage == stage

/-- Contents after a write: plain bytes into memory, staged bytes into a node's overlay. A plain store that changes the phase
bit of a watched barrier word signals its waiters (R196). -/
def putBytes (stage : Option Nat) (ws : List WByte) (s : State) : State :=
  match stage with
  | some n => { s with overlay := ws.foldl (fun o w => assocSet (n, w.1) w.2 o) s.overlay }
  | none =>
    let s1 := { s with mem := writeCells ws s.mem }
    let changed := ws.filterMap fun w =>
      if (isSpad w.1 ∨ inImageSpad w.1) ∧ w.1 % 16 = 15 ∧ bit (Memory.get s.mem w.1).toNat 0 ≠ bit (Memory.get s1.mem w.1).toNat 0
      then some (w.1 / 16 * 16) else none
    changed.eraseDups.foldl (fun s w => signalWord w .byStore s) s1

/-- The next memory event (R201). -/
def bumpSeq (s : State) : State := { s with seq := s.seq + 1 }

/-- Memory events that a context's node has made in its firing (R324). -/
def eventsOf (s : State) (who : CtxId) : Nat := (nodeOf s who).elim 0 fun n => (assoc n s.tally).getD 0
/-- Counts an event for the node of a context. -/
def countEvent (who : CtxId) (s : State) : State :=
  { s with tally := match nodeOf s who with | some n => assocSet n (eventsOf s who + 1) s.tally | none => s.tally }
/-- The next memory event, made by a context. -/
def nodeEvent (who : CtxId) (s : State) : State := countEvent who (bumpSeq s)

/-- What is kept of a write event of a core or of another party in memory order. -/
def corePast (who : CtxId) (stage : Option Nat) (s : State) : Past := ⟨0, [], s.seq + 1, who, false, 0, 0, 0, none, true, [], false, stage, none⟩

/-- One write event of a core or of another party in memory order: takes its place, clears covered marks, and is kept as a
write that engine reads of earlier commands may miss (R207). -/
def coreWrite (who : CtxId) (stage : Option Nat) (ws : List WByte) (s : State) : State :=
  let kept := pastOf s ws (corePast who stage s) (keptGranules s stage ws)
  let s2 := putBytes stage ws (nodeEvent who s)
  unmark stage (ws.map (·.1)) { s2 with past := s2.past ++ kept }

/-- What an engine write belongs to: issuer, issue event, token, and the part of the command it is counted with. -/
structure Writer where
  who : CtxId
  cmd : Nat
  tok : Nat
  part : Nat := 0
  deriving DecidableEq, Repr

/-- Engine writes are made granule by granule (R208): each is kept for readers that have not acquired it. -/
def engineWrite (src : Writer) (stage : Option Nat) (ws : List WByte) (s : State) : State :=
  let kept := pastOf s ws ⟨0, [], s.seq + 1, src.who, true, src.cmd, src.part, src.tok, none, false, [], false, stage, none⟩ (granules (ws.map (·.1)))
  let s1 := putBytes stage ws (bumpSeq s)
  unmark stage (ws.map (·.1)) { s1 with past := s1.past ++ kept }

/-- Marks the units of these addresses as poisoned by an engine (R231, R272). -/
def markAll (as : List Nat) (s : State) : State := as.foldl (fun s a => setMark a .poison s) s

/-! ## Reads -/

/-- How a kept write stands to a reader: seen, seen or missed as a whole, or seen or missed byte by byte. -/
inductive Sight where
  | seen | whole | bytes
  deriving DecidableEq, Repr

/-- A granule before some kept writes, given newest first. -/
def rewind : List Past → List (Option Byte) → List (Option Byte)
  | [], cur => cur
  | p :: ps, cur => rewind ps (p.bytes.foldl (fun c b => c.set b.off b.was) cur)

/-- The kept writes of a granule as they stand to a reader. -/
abbrev Sights := List Past → List (Past × Sight)

/-- Kept writes, oldest first, as far as the reader sees them; the k-th choice says whether it misses an open one. -/
def redo (misses : Nat → Bool) : List (Past × Sight) → Nat → List (Option Byte) → List (Option Byte) × Nat
  | [], k, cur => (cur, k)
  | (p, o) :: ps, k, cur =>
    let put : List (Option Byte) := p.bytes.foldl (fun c b => c.set b.off (some b.now)) cur
    match o with
    | .seen => redo misses ps k put
    | .whole => redo misses ps (k + 1) (if misses k then cur else put)
    | .bytes => redo misses ps (k + p.bytes.length)
        (p.bytes.zipIdx.foldl (fun c (b, i) => if misses (k + i) then c else c.set b.off (some b.now)) cur)

/-- A granule of the ordinary contents, or of a node's staged bytes, as a reader sees it. -/
def layerAt (s : State) (sights : Sights) (misses : Nat → Bool) (stage : Option Nat) (g k : Nat) : List (Option Byte) × Nat :=
  let ps := s.past.filter fun p => p.addr == g && p.stage == stage
  redo misses (sights ps) k (rewind ps.reverse ((List.range 16).map fun i => layerByte s stage (g + i)))

/-- A granule as a reader of a node sees it: its own staged bytes over the ordinary ones (R364). -/
def granuleAt (s : State) (sights : Sights) (misses : Nat → Bool) (n : Option Nat) (g k : Nat) : List Byte × Nat :=
  let o := layerAt s sights misses none g k
  match n with
  | none => (o.1.map (·.getD Memory.unlisted), o.2)
  | some _ =>
    let p := layerAt s sights misses n g o.2
    ((p.1.zip o.1).map fun (a, b) => a.getD (b.getD Memory.unlisted), p.2)

/-- Reads a list of bytes granule by granule, missing open writes where the choice says so. -/
def readGranules (sights : Sights) (misses : Nat → Bool) (n : Option Nat) (as : List Nat) (s : State) : List Byte × State :=
  let r := (granules as).foldl (fun (acc : List (Nat × List Byte) × Nat) g =>
      let o := granuleAt s sights misses n g acc.2
      (acc.1 ++ [(g, o.1)], o.2)) ([], s.free)
  (as.map fun a => ((assoc (a / 16 * 16) r.1).getD []).getD (a % 16) 0, { s with free := r.2 })

/-- The memory event by which a context has acquired an engine write: its own, or the FENCE of kind 2 that acquires it for all (R209). -/
def acquiredAt (who : CtxId) (e : Past) : Option Nat := (assoc who e.acq).or e.pub
/-- Whether a reader has acquired an engine write of a byte by an event that follows a core write (R209). -/
def acquiredAfter (who : CtxId) (w : Past) (off : Nat) (e : Past) : Bool :=
  e.engine && e.bytes.any (fun x => x.off == off) && (acquiredAt who e).any fun n => decide (w.seq ≤ n)
/-- A core write as a reader sees it beside the older writes of its granule. A byte of an older engine write that the reader acquired after
it is that write's (R209); where its writer had acquired that engine write before, the spec's words can be read both ways, and it may be
either's. Accumulators lose no update (R210). (DESIGN CHOICE, log entry 149.) -/
def coreWriteSight (who : CtxId) (before : List Past) (w : Past) : List (Past × Sight) :=
  let stands : PastByte → List Past := fun b => if isAcc w.addr then [] else before.filter (acquiredAfter who w b.off)
  let knew : Past → Bool := fun e => (acquiredAt w.who e).any fun m => decide (m < w.seq)
  [({ w with bytes := w.bytes.filter fun b => (stands b).isEmpty }, .seen),
   ({ w with bytes := w.bytes.filter fun b => !(stands b).isEmpty && (stands b).all knew }, .bytes)]
/-- A core reader sees core writes, and of each engine write it has not acquired the granule before or after (R201, R208, R209). -/
def coreSights (who : CtxId) : Sights := fun ps => ps.zipIdx.flatMap fun (p, i) =>
  if p.engine then [(p, if p.all || (acquiredAt who p).isSome then .seen else .whole)] else coreWriteSight who (ps.take i) p
/-- What a core read finds, apart from the event it is. -/
def coreLook (who : CtxId) (n : Option Nat) (as : List Nat) (s : State) : List Byte × State :=
  readGranules (coreSights who) Config.readsOlder n as s
/-- A core read event. -/
def coreRead (who : CtxId) (n : Option Nat) (as : List Nat) (s : State) : List Byte × State := coreLook who n as (nodeEvent who s)

/-- An engine reader, for a command with issue event `cmd`: core writes before the issue event are seen, of later ones each byte may be
(R207), or each granule where the engine reads so (`later`); of other engines' writes, those its context acquired before the issue event are
seen, others may be (R208). -/
def engineSight (later : Sight) (src : Writer) (p : Past) : Sight :=
  if p.all then .seen
  else if p.engine then
    if p.cmd == src.cmd || (match assoc src.who p.acq with | some q => decide (q < src.cmd) | none => false) then .seen else .whole
  else if p.seq < src.cmd then .seen else later
def engineReadAs (later : Sight) (src : Writer) (n : Option Nat) (as : List Nat) (s : State) : List Byte × State :=
  readGranules (fun ps => ps.map fun p => (p, engineSight later src p)) Config.engineMisses n as s
def engineRead (src : Writer) (n : Option Nat) (as : List Nat) (s : State) : List Byte × State := engineReadAs .bytes src n as s

/-! ## Acquiring (R209) -/

/-- Marks the engine writes `sel` names as acquired by a context. -/
def acquire (who : CtxId) (sel : Past → Bool) (s : State) : State :=
  { s with past := s.past.map fun p => if p.engine && sel p && (assoc who p.acq).isNone then { p with acq := (who, s.seq) :: p.acq } else p }
/-- Whether a kept engine write still stands before a core write for a reader that acquired it later (R209). -/
def overrules (ps : List Past) (e : Past) : Bool :=
  e.engine && ps.any fun w => w.addr == e.addr && w.stage == e.stage && !w.engine && (e.acq.any (fun a => decide (w.seq ≤ a.2)) || e.pub.any fun n => decide (w.seq ≤ n))
/-- Forgets a kept write that every reader sees, once no older one is kept in its granule. -/
def prune (ps : List Past) : List Past :=
  ps.foldl (fun acc p => if p.all && !overrules ps p && !(acc.any fun q => q.addr == p.addr && q.stage == p.stage) then acc else acc ++ [p]) []
/-- The completion of a FENCE of kind 2: from now on every context has acquired the engine writes `sel` names (R209). -/
def acquireAll (sel : Past → Bool) (s : State) : State :=
  { s with past := s.past.map fun p => if p.engine && sel p && p.pub.isNone then { p with pub := some s.seq } else p }
/-- Makes writes visible to every observer (R198). -/
def publish (sel : Past → Bool) (s : State) : State :=
  { s with past := prune (s.past.map fun p => if sel p then { p with all := true } else p) }

/-! ## Barrier words (R192, R193) -/

/-- Flags of an update, in the order of bits [59:57]. -/
structure BarFlags where
  cancelled : Bool
  abort : Bool
  error : Bool
  deriving DecidableEq, Repr
def BarFlags.none : BarFlags := ⟨false, false, false⟩

/-- The fields of word 1 and the initial counts of word 0. -/
structure BarWord where
  initBytes : Nat
  initArr : Nat
  last : Nat
  cancelled : Bool
  abort : Bool
  error : Bool
  phase : Bool
  pb : Nat
  pa : Nat
  deriving DecidableEq, Repr

def barFields (w0 w1 : Nat) : BarWord :=
  ⟨bits w0 55 16, bits w0 15 0, bits w1 63 61, bit w1 59, bit w1 58, bit w1 57, bit w1 56, bits w1 55 16, bits w1 15 0⟩
def b2n (b : Bool) : Nat := if b then 1 else 0
/-- Word 1 from its fields. Bit 60 is reserved: an update writes 0 there (R8). -/
def BarWord.word1 (b : BarWord) : Nat :=
  b.last * 2 ^ 61 + b2n b.cancelled * 2 ^ 59 + b2n b.abort * 2 ^ 58 + b2n b.error * 2 ^ 57
    + b2n b.phase * 2 ^ 56 + b.pb * 2 ^ 16 + b.pa

/-- The arithmetic of one update (R193): the new fields and whether the word flipped. -/
def BarWord.update (b : BarWord) (add : Nat) (arrive : Bool) (sub : Nat) (fl : BarFlags) : BarWord × Bool :=
  let pb1 := b.pb + add
  let e1 := b.error || decide (2 ^ 40 - 1 < pb1)
  let pb1 := min pb1 (2 ^ 40 - 1)
  let e2 := e1 || (arrive && b.pa == 0)
  let pa := if arrive then b.pa - 1 else b.pa
  let e3 := e2 || decide (pb1 < sub)
  let pb := pb1 - sub
  let b1 := { b with pb := pb, pa := pa, error := e3 || fl.error, abort := b.abort || fl.abort, cancelled := b.cancelled || fl.cancelled }
  if (arrive || decide (0 < sub)) && pa == 0 && pb == 0 then
    ({ b1 with phase := !b.phase, last := b2n b1.cancelled * 4 + b2n b1.abort * 2 + b2n b1.error,
               error := false, abort := false, cancelled := false, pa := b.initArr, pb := b.initBytes }, true)
  else (b1, false)

/-- The phase index of a word: the flips it has made. -/
def flipsOf (s : State) (w : Nat) : Nat := (assoc w s.flips).getD 0

/-- Applies one update to the word at a physical scratchpad address as one event, and signals its waiters on a flip. -/
def barUpdate (w add : Nat) (arrive : Bool) (sub : Nat) (fl : BarFlags) (s : State) : State :=
  let r := (barFields (memDword s w) (memDword s (w + 8))).update add arrive sub fl
  let ws := (toBytes 8 r.1.word1).zipIdx.map fun (b, i) => (w + 8 + i, b)
  let kept := pastOf s ws (corePast outside none s) (keptGranules s none ws)
  let s1 := bumpSeq s
  let s2 := { s1 with mem := writeCells ws s1.mem, past := s1.past ++ kept }
  if r.2 then signalWord w (.byFlip (flipsOf s w + 1)) { s2 with flips := assocSet w (flipsOf s w + 1) s2.flips } else s2

/-- Counts engine writes to the phase a word is in, before the update that subtracts them. -/
def countTo (sel : Past → Bool) (w : Nat) (s : State) : State :=
  { s with past := s.past.map fun p => if p.engine && sel p && p.bar.isNone then { p with bar := some (w, flipsOf s w) } else p }

/-- Observing the flip that brought a word to `k` flips acquires the writes counted to the phase it ended and to every earlier one, and
no others (R197, R209). -/
def observeFlips (who : CtxId) (w k : Nat) (s : State) : State :=
  acquire who (fun p => match p.bar with | some (x, j) => x == w && decide (j < k) | none => false) s

/-! ## Tokens (R55) -/

def getTok (c : Ctx) (t : Nat) : Token := c.tokens.getD t .clear
def setTok (t : Nat) (k : Token) (c : Ctx) : Ctx := { c with tokens := c.tokens.set t k }
def tokenUp (t : Nat) (c : Ctx) : Ctx := setTok t { getTok c t with count := (getTok c t).count + 1 } c
/-- A command completes in a wall cycle: the count falls, a failure sets the error bit, and the first failing status is kept (R56); an
awaiting bundle can issue in the cycle after it (R222). -/
def tokenDown (now t : Nat) (failed : Bool) (status : Dword) (c : Ctx) : Ctx :=
  let k := getTok c t
  setTok t ⟨k.count - 1, k.err || failed, if failed && !k.err then status else k.first, now + 1⟩ c
/-- TOKSTAT (R55). -/
def tokStat (c : Ctx) : Nat :=
  (c.tokens.zipIdx.map fun (k, i) => (if k.count = 0 then 0 else 2 ^ i) + (if k.err then 2 ^ (8 + i) else 0)).sum

/-- Whether a context still answers token updates: not after its kill or double fault (R237, R265, R343). -/
def alive (s : State) (c : CtxId) : Bool :=
  match assoc c s.ctxs with
  | none => false
  | some x => match x.node with
    | none => true
    | some n => match getNode s n with
      | some d => decide (d.st ≠ .killed)
      | none => true

/-- Completion seen by the issuing context; a killed context's token updates are discarded. -/
def completeToken (who : CtxId) (t : Nat) (failed : Bool) (status : Dword) (s : State) : State :=
  if alive s who then updCtx who (tokenDown (clk s who.clId) t failed status) s else s

/-- Marks a command's writes as those of a completed command, which an await of its token acquires. -/
def settlePast (cmd : Nat) (s : State) : State :=
  { s with past := s.past.map fun p => if p.engine && p.cmd == cmd then { p with done := true } else p }

end Sys2Proof.Machine
end

