-- ==== Sys2Proof/Machine/Flits.lean ====
section
/-! DEFINITION. Flits as Chrolin ports send them (R372, R373). -/

namespace Sys2Proof.Machine

def getPort18 (s : State) (k : Nat) : Port := s.ports.getD k Port.start
def setPort18 (k : Nat) (p : Port) (s : State) : State := { s with ports := s.ports.set k p }
def portUp (s : State) (k : Nat) : Bool := (getPort18 s k).st == .up

/-- A payload in flits of 232 bytes (R372). -/
def flitsOf : Nat → List Byte → List (List Byte)
  | 0, _ => []
  | k + 1, bs => if bs.isEmpty then [] else bs.take 232 :: flitsOf k (bs.drop 232)
/-- The nonce of a flit (R372): the link identifier, then the counter. -/
def flitNonce (p : Port) (counter : Nat) : List Byte := toBytes 4 p.link ++ toBytes 8 counter
/-- A flit as it is sent (R372): header, ciphertext of 232 bytes and tag. `nack` asks for the next expected flit again (R373). -/
def sealFlit (p : Port) (kind counter : Nat) (nack : Bool) (d : List Byte) : List Byte :=
  let h := toBytes 8 (counter % 2 ^ 16 + kind % 2 ^ 8 * 2 ^ 16 + (Config.ackFields p.rx nack).toNat * 2 ^ 24)
  h ++ Crypto.gcmSeal p.txKey (flitNonce p counter) h (d ++ List.replicate (232 - d.length) 0)
/-- Sends payloads over a port in flits of a type: each takes the next counter and stays in the replay buffer of 1,024 flits until it is
acknowledged (R373). -/
def sendKind (kind : Nat) (nack : Bool) (k : Nat) (ps : List (List Byte)) (s : State) : State :=
  let p := getPort18 s k
  setPort18 k { p with
    tx := p.tx + ps.length, sent := s.cycle, sinceKey := p.sinceKey + ps.length,
    replay := (p.replay ++ ps.zipIdx.map fun (d, i) => (p.tx + i, sealFlit p kind (p.tx + i) nack d)).take 1024 } s
def sendFlits (k : Nat) (ps : List (List Byte)) (s : State) : State := sendKind 0 false k ps s
/-- Whether a port's replay buffer has room for some payloads (R373). -/
def portRoom (s : State) (k n : Nat) : Bool := decide ((getPort18 s k).replay.length + n ≤ 1024)
/-- A message to a peer package, whose payload the spec does not lay out (R268, R275, R310; DESIGN CHOICE, log entry 96): its kind and its
fields. Messages go out over ports that are up and have room. -/
def sendMessage (kind : Nat) (fields : List Nat) (k : Nat) (s : State) : State :=
  let d := Config.peerPayload kind fields
  if portUp s k && portRoom s k ((d.length + 231) / 232) && !s.viral then sendFlits k (flitsOf d.length d) s else s

end Sys2Proof.Machine
end

