-- ==== Sys2Proof/Machine/P4.lean ====
section
/-! DEFINITION. The P4 format and its palette selection (R83 to R87), the sparse layout's codes and CRC-8 (R157, R173, R174),
and the engine's pass, promotion and drain arithmetic (R88 to R90, R230). -/

namespace Sys2Proof.P4

open Sys2Proof.Fp

/-- The four fixed palettes of R86; a level is the E4M3 byte of its value. -/
def fixedPalettes : List (List Byte) :=
  [[0x00, 0x30, 0x38, 0x3C, 0x40, 0x44, 0x48, 0x4C, 0x80, 0xB0, 0xB8, 0xBC, 0xC0, 0xC4, 0xC8, 0xCC],
   [0x00, 0x38, 0x40, 0x44, 0x48, 0x4A, 0x4C, 0x4E, 0xD0, 0xCE, 0xCC, 0xCA, 0xC8, 0xC4, 0xC0, 0xB8],
   [0x00, 0x1C, 0x24, 0x2A, 0x2E, 0x31, 0x34, 0x38, 0xBB, 0xB8, 0xB4, 0xB1, 0xAE, 0xAA, 0xA4, 0x9C],
   [0x00, 0x08, 0x10, 0x18, 0x20, 0x28, 0x30, 0x38, 0x80, 0x88, 0x90, 0x98, 0xA0, 0xA8, 0xB0, 0xB8]]

/-- The 16 level bytes of a selector: a fixed palette, or user table `sel - 4` (R86). -/
def palette (user : List Byte) (sel : Nat) : List Byte :=
  if sel < 4 then fixedPalettes.getD sel [] else (user.drop (16 * (sel - 4))).take 16

/-- The level of a nibble: none for a NaN level. -/
def level (user : List Byte) (sel nib : Nat) : Option (Bool × Dy) :=
  match decode e4m3 ((palette user sel).getD nib 0x7F).toNat with
  | .fin n d => some (n, d)
  | _ => none

/-- Whether the palette has no level that is a number (R86). -/
def emptyPalette (user : List Byte) (sel : Nat) : Bool := (List.range 16).all fun i => (level user sel i).isNone

def parityOf (n : Nat) : Bool := (List.range 11).foldl (fun a i => a != bit n (5 + i)) false
/-- The sidecar of R83 with its parity bit. -/
def sidecar (E sel : Nat) : Nat :=
  let b := E * 256 + sel * 32
  b + (if parityOf b then 16 else 0)
def sidecarOk (s : Nat) : Bool := bit s 4 == parityOf s

/-- Nibble `j` of a block's data bytes (R83). -/
def nibble (data : List Byte) (j : Nat) : Nat :=
  let b := (data.getD (j / 2) 0).toNat
  if j % 2 == 0 then b % 16 else b / 16

/-- The exact value of an element (R85): none is the NaN. -/
def elem (user : List Byte) (data : List Byte) (side j : Nat) : Option (Bool × Dy) :=
  let E := side / 256 % 256
  if E == 255 then none else
  match level user (side / 32 % 8) (nibble data j) with
  | none => none
  | some (n, d) => some (n, d.scale ((E : Int) - 127))

/-- Decode to FP32 (R85). -/
def elem32 (user : List Byte) (data : List Byte) (side j : Nat) : R32 :=
  match elem user data side j with
  | none => ⟨nan32, 0⟩
  | some (n, d) => (packDy fp32 .rne n d).r32

/-- nearest_code of R87: nearest level, then the even code, then the lowest. -/
def nearest (user : List Byte) (sel : Nat) (v : Dy) : Nat :=
  let step (best : Option (Nat × Dy)) (i : Nat) : Option (Nat × Dy) :=
    match level user sel i with
    | none => best
    | some (_, l) =>
      let dist := (v.sub l).abs
      match best with
      | none => some (i, dist)
      | some (bi, bd) =>
        if dist.lt bd then some (i, dist)
        else if bd.lt dist then best
        else if i % 2 == 0 && bi % 2 == 1 then some (i, dist) else best
  match (List.range 16).foldl step none with
  | some (i, _) => i
  | none => 0

/-- Least and greatest number level of a palette. -/
def extremes (user : List Byte) (sel : Nat) : Dy × Dy :=
  let ls := (List.range 16).filterMap fun i => (level user sel i).map (·.2)
  match ls with
  | [] => (⟨0, 0⟩, ⟨0, 0⟩)
  | l :: r => r.foldl (fun (a, b) x => (if x.lt a then x else a, if b.lt x then x else b)) (l, l)

/-- A quantised block: shared exponent, selector, the 32 codes, and what R144's flags need. -/
structure Block where
  E : Nat
  sel : Nat
  codes : List Nat
  flags : Flags
  deriving DecidableEq, Repr

/-- The least exponent whose range holds every input, within a bound (R87). -/
def leastExp (lo hi : Dy) (xs : List Dy) : Option Nat :=
  (List.range 255).find? fun e =>
    let k : Int := (e : Int) - 127
    xs.all fun x => (lo.scale k).le x && x.le (hi.scale k)

/-- The selection rule of R87 on 32 FP32 inputs. An all-zero block takes E = 0 and the lowest code of the level nearest zero;
of two levels as near, the lowest code of either (DESIGN CHOICE, log entry 144). -/
def quantise (user : List Byte) (mask : Nat) (xs : List Word32) : Block :=
  let vs := xs.map dec32
  if vs.any (fun v => match v with | .fin _ _ => false | _ => true) then ⟨255, 0, List.replicate 32 0, 0⟩ else
  let ds := vs.map fun v => match v with | .fin _ d => d | _ => ⟨0, 0⟩
  let cand := (List.range 8).filter fun s => bit mask s && !emptyPalette user s
  let cand := if cand.isEmpty then [0] else cand
  let allZero := ds.all (·.isZero)
  let tryPal (s : Nat) : Nat × List Nat × Dy :=
    let (lo, hi) := extremes user s
    let e := if allZero then 0 else (leastExp lo hi ds).getD 254
    let k : Int := (e : Int) - 127
    let cs := ds.map fun x => nearest user s (x.scale (-k))
    let cs := if allZero then
        let z := nearest user s ⟨0, 0⟩
        let zl := level user s z
        let low := ((List.range 16).find? fun i => match level user s i, zl with
          | some (_, a), some (_, b) => decide ((a.sub b).m = 0) || decide ((a.add b).m = 0)
          | _, _ => false).getD z
        List.replicate 32 low
      else cs
    let err := (List.zip ds cs).foldl (fun acc (x, c) =>
      match level user s c with
      | some (_, l) => let t := x.sub (l.scale k); acc.add (t.mul t)
      | none => acc) (⟨0, 0⟩ : Dy)
    (e, cs, err)
  let best := cand.foldl (fun (b : Option (Nat × Nat × List Nat × Dy)) s =>
    let (e, cs, err) := tryPal s
    match b with
    | none => some (s, e, cs, err)
    | some (_, _, _, be) => if err.lt be then some (s, e, cs, err) else b) none
  match best with
  | none => ⟨0, 0, List.replicate 32 0, 0⟩
  | some (s, e, cs, err) =>
    let (lo, hi) := extremes user s
    let k : Int := (e : Int) - 127
    let satd := !allZero && ds.any fun x => x.lt (lo.scale k) || (hi.scale k).lt x
    ⟨e, s, cs, if satd then fOF ||| fNX else if err.isZero then 0 else fNX⟩

/-- The 16 data bytes of codes (R83). -/
def packCodes (cs : List Nat) : List Byte :=
  (List.range 16).map fun i => BitVec.ofNat 8 (cs.getD (2 * i) 0 + 16 * cs.getD (2 * i + 1) 0)

def Block.data (b : Block) : List Byte := packCodes b.codes
def Block.side (b : Block) : Nat := sidecar b.E b.sel

/-! ## CRC-8 and sparse format codes -/

def crcBit : Nat → Nat → Nat
  | 0, c => c
  | k + 1, c => crcBit k (if c ≥ 128 then (c * 2 % 256) ^^^ 7 else c * 2 % 256)

/-- The CRC-8 of R157. -/
def crc8 (bs : List Byte) : Nat := bs.foldl (fun c b => crcBit 8 (c ^^^ b.toNat)) 0

/-- Element size of a format code (R174); 0 for an invalid code. -/
def codeSize (c : Nat) : Nat :=
  if c == 1 || c == 8 then 4 else if c == 2 || c == 3 || c == 7 then 2
  else if c == 4 || c == 5 || c == 6 then 1 else if c == 9 then 18 else 0

/-- The zero test of R174 on an element's bytes. -/
def codeZero (c : Nat) (bs : List Byte) : Bool :=
  if c == 9 then (bs.take 16).all (· == 0) && (bs.getD 17 0) != 0xFF else bs.all (· == 0)

def countBits (bs : List Byte) : Nat := bs.foldl (fun n b => n + ((List.range 8).filter (bit b.toNat ·)).length) 0
def byteBit (bs : List Byte) (i : Nat) : Bool := bit (bs.getD (i / 8) 0).toNat (i % 8)
/-- Number of set bits at positions below n. -/
def countBelow (bs : List Byte) (n : Nat) : Nat := ((List.range n).filter (byteBit bs ·)).length
/-- Packs booleans into bytes, bit 0 first. -/
def packBits : Nat → List Bool → List Byte
  | 0, _ => []
  | k + 1, l => BitVec.ofNat 8 (((l.take 8).zipIdx.foldl (fun a (b, i) => a + (if b then 2 ^ i else 0)) 0)) :: packBits k (l.drop 8)

/-- The 16 header bytes of R173. -/
def sparseHeader (n z fmt reserve : Nat) (mask : List Byte) : List Byte :=
  let h := toBytes 2 n ++ toBytes 2 z ++ [BitVec.ofNat 8 fmt]
  h ++ [BitVec.ofNat 8 (crc8 (h ++ mask.take ((n + 7) / 8)))] ++ [0, 0] ++ toBytes 4 reserve ++ [0, 0, 0, 0]

/-- The whole sparse vector of some elements, each a byte list (R173). -/
def sparsePack (fmt reserve : Nat) (els : List (List Byte)) : List Byte :=
  let n := els.length
  let nz := els.filter fun e => !codeZero fmt e
  let mask := packBits (ceilTo 16 ((n + 7) / 8)) (els.map fun e => !codeZero fmt e)
  let vals := nz.flatten
  sparseHeader n nz.length fmt reserve mask ++ mask ++ vals ++ List.replicate (ceilTo 16 vals.length - vals.length) 0

/-- Why a sparse vector does not decode, or its dense elements (R188, R259). `bytes` starts at the header. -/
def sparseDecode (p4ok : Bool) (bytes : Nat → Nat → List Byte) (room : Nat) : Option (Nat × Nat × List (List Byte)) :=
  let h := bytes 0 16
  let n := ofBytes (h.take 2)
  let z := ofBytes ((h.drop 2).take 2)
  let fmt := (h.getD 4 0).toNat
  let size := codeSize fmt
  let mb := ceilTo 16 ((n + 7) / 8)
  let mask := bytes 16 mb
  if size == 0 || (fmt == 9 && !p4ok) then none
  else if (h.drop 6).take 2 != [0, 0] || h.drop 12 != [0, 0, 0, 0] then none
  else if crc8 (h.take 5 ++ mask.take ((n + 7) / 8)) != (h.getD 5 0).toNat then none
  else if countBelow mask n != z then none
  else if 16 + mb + ceilTo 16 (z * size) > room then none
  else
    let vals := bytes (16 + mb) (z * size)
    let els := (List.range n).foldl (fun (acc : List (List Byte) × Nat) i =>
      if byteBit mask i then (((vals.drop (acc.2 * size)).take size) :: acc.1, acc.2 + 1)
      else (List.replicate size 0 :: acc.1, acc.2)) ([], 0)
    some (fmt, n, els.1.reverse)

/-! ## Engine pass and promotion (R88 to R90) -/

/-- The 64-bit window of R88, truncating toward zero. -/
def truncWindow (d : Dy) (top : Int) : Dy :=
  let q := top - 62
  if q ≤ d.e then d else
    let s := (q - d.e).toNat
    let k := d.m.natAbs / 2 ^ s
    ⟨if d.m < 0 then -(k : Int) else k, q⟩

/-- One column of a pass (R88): the partial as FP32 bits. -/
def passColumn (as ws : List Fv) : Word32 :=
  let ps := (List.zip as ws).map fun (a, w) => prodV a w
  if ps.any (fun p => match p with | none => true | some .nan => true | _ => false) then nan32 else
  let infs := ps.filterMap fun p => match p with | some (.inf n) => some n | _ => none
  if infs.any (· == true) && infs.any (· == false) then nan32
  else match infs with
    | n :: _ => if n then 0xFF800000#32 else 0x7F800000#32
    | [] =>
      let ds := ps.filterMap fun p => match p with | some (.fin _ d) => if d.isZero then none else some d | _ => none
      match ds with
      | [] => 0
      | d :: r =>
        let top := r.foldl (fun t x => if x.ilog2 > t then x.ilog2 else t) d.ilog2
        let s := ds.foldl (fun acc x => acc.add (truncWindow x top)) (⟨0, 0⟩ : Dy)
        (packDy fp32 .rne false s).r32.v

/-- rne32 of a sum, a product (R89). -/
def radd (a b : Word32) : Word32 := (add32 .rne a b).v
def rmul (a b : Word32) : Word32 := (mul32 .rne a b).v

/-- Promotion into an FP32 element (R89). -/
def promote (add : Bool) (acc partial' sa ts : Word32) : Word32 :=
  let y := rmul partial' (rmul sa ts)
  if add then radd acc y else y

/-- The E4M3 row of a drain: scale and bytes (R230). -/
def drainE4m3 (os : List Word32) : Word32 × List Byte :=
  if os.any (fun o => isNan32 o || isInf32 o) then (nan32, List.replicate os.length 0x7F) else
  let amax := os.foldl (fun m o => max32 m (abs32 o)) 0
  let sc := if amax = 0 then 0x3F800000#32 else
    let q := div32 amax 0x43E00000#32
    max32 q 0x00800000#32
  let m := div32 0x3F800000#32 sc
  (sc, os.map fun o => BitVec.ofNat 8 (toFp8 e4m3 false o m).bits)

end Sys2Proof.P4
end

