-- ==== Sys2Proof/Machine/Walk.lean ====
section
/-! DEFINITION. Translation (R297 to R306, R391): tables, leaves, walks, pins and coverage (R169), permissions (R303), aliases
(R304), and what a store to global or local memory does beside the bytes: staging (R364, R365), owner tags (R360) and durable
writes (R71). -/

namespace Sys2Proof.Machine

/-- A trap a bundle raises (R72). -/
structure Trap where
  cause : Nat
  info0 : Nat
  info1 : Nat
  deriving DecidableEq, Repr

/-! ## Leaves -/

def pageBytes (size : Nat) : Nat := if size = 0 then 0x10000 else if size = 1 then 0x200000 else 0x40000000
def pteValid (e : Nat) : Bool := bit e 0
def pteWrite (e : Nat) : Bool := bit e 1
def pteRead (e : Nat) : Bool := bit e 2
def pteWorld (e : Nat) : Bool := bit e 3
def pteCache (e : Nat) : Nat := bits e 5 4
def ptePolicy (e : Nat) : Nat := bits e 7 6
def pteComp (e : Nat) : Bool := bit e 8
/-- Eviction priority 3 allocates no second-level line on a read miss (R299). -/
def pteNoFill (e : Nat) : Bool := bits e 10 9 == 3
def pteGuard (e : Nat) : Bool := bit e 11
def pteMulti (e : Nat) : Bool := bit e 12
def pteFormat (e : Nat) : Nat := bits e 14 13
def pteLeaf (e : Nat) : Bool := bit e 15
def pteFrame (e : Nat) : Nat := bits e 51 16 * 0x10000
/-- The physical address a leaf of a page size gives. -/
def ptePhys (e size va : Nat) : Nat := pteFrame e / pageBytes size * pageBytes size + va % pageBytes size

/-- The result of a walk (R302). -/
inductive WalkRes where
  | leaf (pte size : Nat)
  /-- level in bits [7:4], kind in [3:0] -/
  | fault (code : Nat)
  deriving DecidableEq, Repr

/-- Whether a byte lies in a resident area that its partition keeps while the cluster is not the partition's (R165). -/
def inArea (p : Part) (a : Nat) : Bool :=
  isSpad a && decide (physOff a < 0x300000) && (match assoc (physCl a) p.areas with | some k => decide (0x300000 ≤ physOff a + 0x4000 * k) | none => false)
/-- The address at which the model keeps a byte: the saved copy of a resident area of partition `part` stands at offsets of its
cluster's scratchpad that no other memory has (DESIGN CHOICE, log entry 79). -/
def keptPhys (part : Nat) (p : Part) (a : Nat) : Nat := if inArea p a then a + (part + 1) * 2 ^ 22 else a
/-- A leaf with its frame where the model keeps it. A page that meets an area ends in it. -/
def keptLeaf (part : Nat) (p : Part) (e size : Nat) : Nat :=
  let last := pteFrame e + 0xFFFF
  if size = 0 ∧ ¬ pteMulti e then e + (keptPhys part p last - last) else e

/-- How many of `n` bytes at an offset of a die's LPDDR lie in a partition's regions, which meet nowhere. -/
def regionBytes (p : Part) (die off n : Nat) : Nat :=
  (p.regions.map fun r => if r.die = die then min (off + n) (r.base + r.size) - max off r.base else 0).sum
/-- Whether a frame of `n` bytes lies in what a partition's tables may map (R302 kind 3, R308). -/
def frameOk (p : Part) (a n : Nat) : Bool :=
  if physHost a then true
  else if physKind a = 0 then decide (physOff a + n ≤ kindLimit 0) && regionBytes p (physDie a) (physOff a) n == n
  else if physKind a = 1 ∨ physKind a = 2 then
    decide (physOff a + n ≤ kindLimit (physKind a)) && (p.clusters.any (fun c => c.1 == physCl a) || (n == 0x10000 && inArea p (a + 0xFFFF)))
  else false

/-- The checks of a leaf in the order of R302's kinds. -/
def leafCheck (p : Part) (world : Bool) (level size e : Nat) : WalkRes :=
  if e / 2 ^ 52 ≠ 0 ∨ pteCache e = 3 ∨ ptePolicy e = 3 ∨ pteFrame e % pageBytes size ≠ 0 ∨ (pteMulti e ∧ ¬ (isSpad (pteFrame e))) then
    .fault (level * 16 + 2)
  else if !frameOk p (pteFrame e) (pageBytes size) then .fault (level * 16 + 3)
  else if pteWorld e && !world then .fault (level * 16 + 4)
  else .leaf e size

/-- One table read: kind 5 when it meets an uncorrectable or integrity error. -/
def tableEntry (s : State) (a : Nat) : Option Nat := if (markOf s a).isSome then none else some (memDword s a)

/-- The dies of a partition: those of its clusters and LPDDR regions. -/
def onPartDie (p : Part) (die : Nat) : Bool := p.clusters.any (fun c => c.1.die == die) || p.regions.any (fun r => r.die == die)
/-- A pointer entry's table (R298, R299), if the entry is a legal pointer: to LPDDR on a die of the partition, a table of 4 KiB at a multiple of
its size. One that is not counts as an entry with a reserved bit set (DEDUCED, log entry 124). -/
def pointerOf (p : Part) (big : Bool) (e : Nat) : Option Nat :=
  let t := bits e 51 8 * 256
  if e / 2 ^ 52 ≠ 0 ∨ bits e 7 1 ≠ 0 ∨ pteLeaf e ∨ !isLpddr t ∨ !onPartDie p (physDie t) ∨ (big ∧ t % 0x1000 ≠ 0) then none else some t

/-- Levels 2 to 4 below a table. `ls` lists (level, low index bit, index bits, page size of a leaf). -/
def walkFrom (s : State) (p : Part) (world : Bool) (va : Nat) : List (Nat × Nat × Nat × Nat) → Nat → WalkRes
  | [], _ => .fault 0x41
  | (lv, lo, w, size) :: r, tbl =>
    match tableEntry s (tbl + 8 * (va / 2 ^ lo % 2 ^ w)) with
    | none => .fault (lv * 16 + 5)
    | some e =>
      if !pteValid e then .fault (lv * 16 + 1)
      else if pteLeaf e then leafCheck p world lv size e
      else if lv = 4 then .fault 0x42
      else match pointerOf p (decide (lv = 2)) e with
        | none => .fault (lv * 16 + 2)
        | some t => walkFrom s p world va r t

/-- The cluster window of a node (R293, R391). -/
def windowBase : Nat := 0xFFFF0000000000
def inWindow (va : Nat) : Bool := decide (windowBase ≤ va) && decide (va < windowBase + 0x8000000)
def windowLeaf (cs : List ClId) (world : Bool) (va : Nat) : WalkRes :=
  let off := va - windowBase
  match cs[off / 0x400000]? with
  | none => .fault 0x31
  | some c =>
    let q := off % 0x400000 / 0x10000 * 0x10000
    let f := if q < 0x300000 then physSpad c q else physAcc c (q - 0x300000)
    .leaf (f + 0x8027 + (if world then 8 else 0)) 0

/-- Whether a larger page has been split for a retirement, so that its 64 KiB pieces are mapped one by one (R362). -/
def pageSplit (s : State) (part : Nat) (world : Bool) (va size : Nat) : Bool :=
  decide (0 < size) &&
    (s.splits.any (fun x => x.1.1 == part && x.1.2.1 == world && decide (x.1.2.2 * 0x10000 / pageBytes size = va / pageBytes size))
      || s.retires.any fun r => r.maps.any fun m => m.part == part && m.world == world && decide (m.va / pageBytes size = va / pageBytes size))
/-- The leaf of one 64 KiB piece of a larger page. -/
def pieceLeaf (e size va : Nat) : Nat := e + va % pageBytes size / 0x10000 * 0x10000

/-- A walk of a virtual address by a context or engine command of a node, or by the barista for one (R298, R302). -/
def walk (s : State) (part : Nat) (world : Bool) (node : Option Nat) (va : Nat) : WalkRes :=
  if 2 ^ 56 ≤ va then .fault 0
  else if inWindow va then
    match node with
    | none => .fault 0x31
    | some n => match getNode s n with
      | none => .fault 0x31
      | some d => windowLeaf d.clusters world va
  else
    let p := getPart s part
    match assoc world p.roots with
    | none => .fault 0x11
    | some root => match tableEntry s (root + 8 * (va / 2 ^ 39)) with
      | none => .fault 0x15
      | some e =>
        if !pteValid e then .fault 0x11
        else match pointerOf p true e with
          | none => .fault 0x12
          | some t => match walkFrom s p world va [(2, 30, 9, 2), (3, 21, 9, 1), (4, 16, 5, 0)] t with
            | .leaf e size => match assoc (part, world, va / 0x10000) s.splits with
              | some l => .leaf l.toNat 0
              | none => if pageSplit s part world va size then .leaf (pieceLeaf e size va) 0 else .leaf (keptLeaf part p e size) size
            | .fault k => .fault k

/-- New walks of a page wait while the page is being retired (R362). -/
def walkWaits (s : State) (part : Nat) (va : Nat) : Bool :=
  s.retires.any fun r => r.maps.any fun m => m.part == part && decide (m.va / 0x10000 = va / 0x10000)

/-! ## Pins (R169) -/

/-- The position from which on a context's pins are still asked: the next bundle's, or that of the BWAIT it waits in, whose coverage does not
lapse meanwhile (R196). -/
def coverFrom (c : Ctx) : Nat :=
  match c.run with
  | .bwait _ _ _ _ _ => c.bclk - 1
  | _ => c.bclk
/-- Whether two pins came from one leaf and cover one page. -/
def samePage (p q : Pin) : Bool := q.size == p.size && q.va / pageBytes q.size == p.va / pageBytes p.size && q.pte == p.pte
/-- Makes a pin: renews the pin of the page, whose window goes on where the new one joins it, or replaces the one whose window ends soonest
when sixteen live (R169). -/
def addPin (pos : Nat) (p : Pin) (ps : List Pin) : List Pin :=
  let live := ps.filter fun q => decide (pos ≤ q.last)
  match live.find? (samePage p) with
  | some q => live.filter (fun x => !samePage p x) ++ [{ p with first := if p.first ≤ q.last + 1 then min q.first p.first else p.first }]
  | none =>
    let kept := if live.length < 16 then live
      else match sortBy (·.last) live with
        | [] => []
        | v :: _ => live.filter (fun q => decide (q ≠ v))
    kept ++ [p]
/-- Whether a pin covers an address. -/
def pinCovers (p : Pin) (va : Nat) : Bool := decide (p.va / pageBytes p.size = va / pageBytes p.size)
/-- Whether a pin covers a page of a range. -/
def pinMeets (lo hi : Nat) (p : Pin) : Bool :=
  let b := p.va / pageBytes p.size * pageBytes p.size
  decide (b < hi) && decide (lo < b + pageBytes p.size)
/-- The pins of a page end with the bundle after position `pos`: a touch at that position does not renew them, because the page is being
remapped or retired (R306, R362). -/
def endPins (pos va : Nat) (ps : List Pin) : List Pin := ps.map fun q => if pinCovers q va then { q with last := min q.last (pos + 1) } else q

/-- The pin that covers a byte for the bundle at a position. -/
def pinFor (c : Ctx) (pos va : Nat) : Option Pin :=
  c.pins.find? fun q => decide (q.first ≤ pos) && decide (pos ≤ q.last) && decide (va / pageBytes q.size = q.va / pageBytes q.size)

/-- A byte reached through a leaf. -/
structure GByte where
  pa : Nat
  pte : Nat
  deriving DecidableEq, Repr

/-- The bytes of a global access, or the address that no pin covers (R176 step 3). -/
def coverBytes (c : Ctx) (pos va n : Nat) : Except Nat (List GByte) :=
  (List.range n).foldr (fun i acc =>
    if 2 ^ 56 ≤ va + i then .error va
    else match pinFor c pos (va + i), acc with
      | some q, .ok r => .ok (⟨ptePhys q.pte.toNat q.size (va + i), q.pte.toNat⟩ :: r)
      | _, _ => .error va) (.ok [])

/-! ## Aliases (R304) -/

/-- The pair a second-level line records. -/
def aliasPair (e : Nat) : Nat := pteFormat e * 2 + b2n (pteComp e)
/-- An access whose leaf's pair differs from that of a line that is still resident: trap 0x0E. Local kinds have no line. -/
def aliasTrap (s : State) (va : Nat) (bs : List GByte) : Option Trap :=
  match bs.find? (fun b => isLpddr b.pa &&
      (match assoc (b.pa / 512) s.lines with | some k => k != aliasPair b.pte | none => false) && Config.lineStays s.seq) with
  | some b => some ⟨0x0E, va, bits b.pa 51 16⟩
  | none => none
/-- The lines an access fills: none of an uncached page, and none on a read at eviction priority 3 (R299). -/
def fillLines (read : Bool) (bs : List GByte) (s : State) : State :=
  { s with lines := bs.foldl (fun l b =>
      if isLpddr b.pa && decide (pteCache b.pte ≠ 2) && !(read && pteNoFill b.pte) then assocSet (b.pa / 512) (aliasPair b.pte) l else l) s.lines }

/-! ## What a store touches beside its bytes -/

/-- A field of a node's record (R285). -/
def recField (d : Node) (w hi lo : Nat) : Nat := bits (d.record.getD w 0) hi lo
def recStaged (d : Node) : Bool := recField d 1 40 40 == 1
def recHandoff (d : Node) : Bool := recField d 1 43 43 == 1

/-- The node that stages a write through a leaf (R300, R364), if any. -/
def stageOf (s : State) (node : Option Nat) (pa pte : Nat) : Option Nat :=
  match node with
  | none => none
  | some n => match getNode s n with
    | none => none
    | some d => if recStaged d && !d.noRetry && isLpddr pa && ptePolicy pte == 2 then some n else none

/-- The node whose overlay a read through a leaf sees: a staged node sees its own staged bytes. -/
def viewOf (node : Option Nat) : Option Nat := node

/-- Start of the resident area of a cluster (R165). -/
def residentFrom (s : State) (c : ClId) : Nat := 0x300000 - 0x4000 * (getCl s c).resident

/-- Whether a write of a node is durable (R71). -/
def durableWrite (s : State) (d : Node) (pa : Nat) : Bool :=
  if isSpad pa then !d.clusters.contains (physCl pa) || decide (residentFrom s (physCl pa) ≤ physOff pa) || d.inherits
  else if isAcc pa then !d.clusters.contains (physCl pa)
  else true
def noteDurable (node : Option Nat) (pas : List Nat) (s : State) : State :=
  match node with
  | none => s
  | some n => match getNode s n with
    | none => s
    | some d => if pas.any (durableWrite s d) then setNode n { d with durable := true } s else s

/-- The bytes and the mark LPDDR holds beneath a sector. -/
def backing (s : State) (sec : Nat) : List Byte × Option Mark :=
  match assoc sec s.dirty with
  | some (_, b) => b
  | none => (memBytes s sec 64, markOf s sec)

/-- CTXID of a context (R108). -/
def ctxidOf (s : State) (c : CtxId) : Nat := (getCtx s c).logical * 16 + c.core * 4 + c.ctx
/-- The tag of what a context of a node writes, by itself or by its commands (R360); `host` for no node. -/
def ownerTag (s : State) (node : Option Nat) (c : CtxId) : Owner :=
  match node with
  | none => .host
  | some n => match getNode s n with
    | some d => .node n d.part d.graph d.idx (ctxidOf s c)
    | none => .host
/-- Whether a tag names the same owner: all contexts of one node share its tag. -/
def Owner.same : Owner → Owner → Bool
  | .host, .host => true
  | .node k _ _ _ _, .node n _ _ _ _ => k == n
  | _, _ => false
/-- The CTXID of a tag, 0 for the host. -/
def Owner.ctxid : Owner → Nat
  | .host => 0
  | .node _ _ _ _ x => x
/-- Whether a write through a leaf stays in the second-level cache: write-through and uncached pages leave no dirty sector. -/
def writesBack (b : GByte) : Bool := ptePolicy b.pte != 1 && pteCache b.pte != 2

/-- Owner tags of the sectors a write goes to (R360). A sector that another owner dirtied is first written back. A write-back write then
dirties the sector for its owner; another write leaves it clean, or goes through to LPDDR beside what its own node keeps dirty. -/
def dirtySectors (own : Owner) (bs : List (GByte × Byte)) (s : State) : State :=
  let secs := ((bs.filter fun b => isLpddr b.1.pa).map fun b => b.1.pa / 64 * 64).eraseDups
  secs.foldl (fun s sec =>
    let here := bs.filter fun b => b.1.pa / 64 * 64 == sec
    let mine : Option (List Byte × Option Mark) := match assoc sec s.dirty with
      | some (o, b) => if o.same own then some b else none
      | none => none
    if here.any fun b => writesBack b.1 then
      { s with dirty := assocSet sec (own, mine.getD (memBytes s sec 64, markOf s sec)) s.dirty }
    else match mine with
      | some (b, m) => { s with dirty := assocSet sec (own, here.foldl (fun l x => l.set (x.1.pa % 64) x.2) b, m) s.dirty }
      | none => { s with dirty := assocDrop sec s.dirty }) s

/-- Sectors of a die that a partition's nodes stage. -/
def stagedSectors (s : State) (part die : Nat) : List Nat :=
  ((s.overlay.filter fun x => decide (physDie x.1.2 = die) && (match getNode s x.1.1 with | some d => d.part == part | none => false)).map
    fun x => x.1.2 / 64 * 64).eraseDups

/-- A node has nothing staged any more. -/
def dropStaged (n : Nat) (s : State) : State :=
  { s with
    overlay := s.overlay.filter (fun x => x.1.1 != n), stagedBy := s.stagedBy.filter (fun x => x.1.1 != n),
    past := s.past.filter (fun p => p.stage != some n) }
/-- The overlays of a node are discarded (R364). -/
def discardOverlays (n : Nat) (s : State) : State := dropStaged n s
/-- Releases the overlays of a node into ordinary contents, one write event per sector (R364). -/
def releaseOverlays (n : Nat) (s : State) : State :=
  let mine := s.overlay.filter fun x => x.1.1 == n
  let secs := sortBy id ((mine.map fun x => x.1.2 / 64 * 64).eraseDups)
  let who := (s.ctxs.find? fun x => x.2.node == some n).elim (⟨0, 0, 0, 0⟩ : CtxId) (·.1)
  let tag : Nat → Owner := fun sec => match getNode s n with
    | some d => .node n d.part d.graph d.idx ((assoc (n, sec) s.stagedBy).getD 0)
    | none => .host
  let s1 := secs.foldl (fun s sec =>
      let ws := (mine.filter fun x => x.1.2 / 64 * 64 == sec).map fun x => (x.1.2, x.2)
      coreWrite who none ws (dirtySectors (tag sec) (ws.map fun w => (⟨w.1, 0⟩, w.2)) s)) s
  dropStaged n s1

/-- The shape of a fault record (R357). -/
def faultRec (seq source cls action low addr synd ecc mac graph node ctxid part loc ns frame : Nat) : FaultRec :=
  [BitVec.ofNat 64 (seq * 2 ^ 32 + source * 2 ^ 24 + cls * 2 ^ 16 + action * 2 ^ 8 + low), BitVec.ofNat 64 addr,
   BitVec.ofNat 64 (synd % 2 ^ 32 * 2 ^ 16 + mac * 2 ^ 8 + ecc), BitVec.ofNat 64 (graph % 2 ^ 56),
   BitVec.ofNat 64 (node % 2 ^ 16 * 2 ^ 32 + ctxid % 512 * 2 ^ 16 + part % 64), BitVec.ofNat 64 loc, BitVec.ofNat 64 ns,
   BitVec.ofNat 64 frame]

/-- An entry of the provenance log (R383), chained to the one before. 0x3F names the package. -/
def logEvent (kind part : Nat) (detail : List Byte) (s : State) : State :=
  let n := s.log.length
  let prev := match s.log.getLast? with | some e => e.chain | none => List.replicate 64 0
  let body := toBytes 8 n ++ toBytes 8 (kind % 2 ^ 16 * 2 ^ 48 + part % 64) ++ toBytes 8 (nanos s) ++ (detail ++ List.replicate 40 0).take 40
  { s with log := s.log ++ [⟨n, kind, part, nanos s, detail.take 40, Crypto.shake256 (prev ++ body) 64⟩] }

/-- Appends a fault record to the owning partition's ring, else to the die's (R358); integrity and fatal records and those of
fenced links also enter the provenance log. -/
def appendFault (die : Nat) (part : Option Nat) (mk : Nat → FaultRec) (logKind : Option Nat) (s : State) : State :=
  let d := getDie s die
  let rec0 := mk d.seq
  let s1 := setDie die { d with seq := (d.seq + 1) % 2 ^ 32 } s
  let s2 := match part with
    | some p => setPart p { getPart s1 p with ring := (getPart s1 p).ring ++ [rec0] } s1
    | none => setDie die { getDie s1 die with ring := (getDie s1 die).ring ++ [rec0] } s1
  match logKind with
  | some k => logEvent k (part.getD 0x3F) (rec0.flatMap fun d => toBytes 8 d.toNat) s2
  | none => s2

/-- The first die on which staging these bytes would exceed a partition's share (R365). -/
def stagingOver (s : State) (part : Nat) (pas : List Nat) : Option Nat :=
  (pas.map physDie).find? fun die =>
    let all := (stagedSectors s part die ++ ((pas.filter fun b => physDie b == die).map fun b => b / 64 * 64)).eraseDups
    decide (min 0x800000 ((assoc die (getPart s part).staging).getD 0) < all.length * 64)

/-- A staged write of a context that overflows on a die: the node's sectors are released on every die, it becomes non-retryable, and a class 0
record of that die is written (R365). -/
def overflowStaging (n die ctxid : Nat) (s : State) : State :=
  match getNode s n with
  | none => s
  | some d =>
    let s1 := setNode n { d with noRetry := true, durable := true } (releaseOverlays n s)
    appendFault die (some d.part)
      (fun q => faultRec q 1 0 8 0 0 0 0 0 d.graph d.idx ctxid d.part 0 (nanos s) 0) none s1

/-- The context that last staged in each of these sectors (R357). -/
def noteStaged (own : Owner) (node : Option Nat) (pas : List Nat) (s : State) : State :=
  match own, node with
  | .node _ _ _ _ x, some n => { s with stagedBy := ((pas.map (· / 64 * 64)).eraseDups).foldl (fun l sec => assocSet (n, sec) x l) s.stagedBy }
  | _, _ => s
/-- One store event of a context or an engine to bytes reached through leaves: staged bytes go to the node's overlay and the
rest to memory; owner tags and durability follow. -/
def storeBytes (write : Option Nat → List WByte → State → State) (own : Owner) (node : Option Nat) (part : Nat)
    (bs : List (GByte × Byte)) (s : State) : State :=
  let st := bs.filter fun b => (stageOf s node b.1.pa b.1.pte).isSome
  let s0 := match node with
    | some n => match stagingOver s part (st.map (·.1.pa)) with
      | some die => overflowStaging n die own.ctxid s
      | none => s
    | none => s
  let staged := bs.filter fun b => (stageOf s0 node b.1.pa b.1.pte).isSome
  let plain := bs.filter fun b => (stageOf s0 node b.1.pa b.1.pte).isNone
  let s1 := if plain.isEmpty then s0 else
    write none (plain.map fun b => (b.1.pa, b.2)) (noteDurable node (plain.map (·.1.pa)) (dirtySectors own plain s0))
  let s2 := if staged.isEmpty then s1 else write node (staged.map fun b => (b.1.pa, b.2)) (noteStaged own node (staged.map (·.1.pa)) s1)
  fillLines false (bs.map (·.1)) s2

/-! ## The egress governor (R380 to R382) -/

/-- The bucket of a port: 0 to 17 the Chrolin ports, 18 and 19 the host ports. -/
def bucketOf (s : State) (part k : Nat) : Bucket := (assoc k (getPart s part).buckets).getD Bucket.start
def setBucket (part k : Nat) (b : Bucket) (s : State) : State :=
  setPart part { getPart s part with buckets := assocSet k b (getPart s part).buckets } s
/-- A bucket after `n` ticks in which nothing leaves it: it fills at its rate up to its burst size. -/
def fill (n : Nat) (b : Bucket) : Bucket :=
  let x := 1800 * b.level + b.frac + b.rate * n
  let full := decide (b.burst ≤ x / 1800)
  { b with level := if full then b.burst else x / 1800, frac := if full then 0 else x % 1800, upto := b.upto + n }
/-- Ticks until the level holds some bytes, or none when it never does. -/
def fillTime (bytes : Nat) (b : Bucket) : Option Nat :=
  if bytes ≤ b.level then some 0
  else if b.rate = 0 ∨ b.burst < bytes then none
  else some ((1800 * bytes - 1800 * b.level - b.frac + b.rate - 1) / b.rate)
/-- `n` ticks of refill in which waiting requests go in order, each when the level holds its bytes; a copy with chunks to come keeps its
place. -/
def serve : List EgressReq → Nat → Bucket → Bucket
  | [], n, b => fill n { b with waiting := [] }
  | r :: rs, n, b =>
    match if r.ready then fillTime r.bytes b else none with
    | none => fill n { b with waiting := r :: rs }
    | some t =>
      if n < t then fill n { b with waiting := r :: rs }
      else
        let b1 := fill t b
        let b2 := { b1 with level := b1.level - r.bytes, granted := if r.store then b1.granted else b1.granted ++ [r.id] }
        if r.stays then fill (n - t) { b2 with waiting := { r with ready := false } :: rs } else serve rs (n - t) b2
/-- Lets waiting requests go while the level holds their bytes. -/
def grantWaiting (l : List EgressReq) (b : Bucket) : Bucket := serve l 0 b
/-- A bucket after some ticks. -/
def refill (held : Bool) (n : Nat) (b : Bucket) : Bucket := if held then fill n b else serve b.waiting n b

/-- Requests in arrival order with one more: in the place its copy keeps, else behind all others. -/
def joinLine (r : EgressReq) (l : List EgressReq) : List EgressReq :=
  if l.any fun q => q.id == r.id then l.map fun q => if q.id = r.id then r else q else l ++ [r]
/-- A request at a bucket: whether it may leave now. One that may not waits behind those before it, and the wait is logged, at
most once a second. -/
def askBucket (part k : Nat) (r : EgressReq) (s : State) : Bool × State :=
  let held := (getPart s part).noEgress
  let b := refill held (s.cycle - (bucketOf s part k).upto) (bucketOf s part k)
  if held then (false, setBucket part k (if b.waiting.any (fun q => q.id == r.id && q.ready) then b else { b with waiting := joinLine r b.waiting }) s)
  else if b.granted.contains r.id then (true, setBucket part k { b with granted := b.granted.filter (· ≠ r.id) } s)
  else if b.waiting.any fun q => q.id == r.id && q.ready then (false, setBucket part k b s)
  else
    let asked := grantWaiting (joinLine r b.waiting) b
    if asked.granted.contains r.id || (r.store && !asked.waiting.any fun q => q.id == r.id) then
      (true, setBucket part k { asked with granted := asked.granted.filter (· ≠ r.id) } s)
    else
      let quiet := match b.logged with | some c => decide (s.cycle < c + 1800000000) | none => false
      let s1 := setBucket part k { asked with logged := if quiet then b.logged else some s.cycle } s
      (false, if quiet then s1 else logEvent 5 part (toBytes 8 k) s1)

/-- Whether memory requests are taken at a host port: its link is up and it is not blocked (R370, R375). -/
def portOpen (s : State) (port : Nat) : Bool := (getHost s port).up && !(getHost s port).blocked
/-- A read by the host of `n` bytes, whose answer leaves through its port's bucket: it is performed when the bucket holds them, else it waits
there (R380, R381). -/
def meteredRead (part port : Nat) (node : Option Nat) (acc : Access) (n : Nat) (perform : State → State) (s : State) : Option State :=
  match s.hostReads.find? fun x => x.node == node && x.acc == acc && x.port == port with
  | some x =>
    if (bucketOf s part (18 + port)).granted.contains x.id then
      let q := askBucket part (18 + port) ⟨x.id, outside, n, false, [], true, false⟩ s
      some (perform { q.2 with hostReads := q.2.hostReads.filter fun y => y.id != x.id })
    else none
  | none =>
    let q := askBucket part (18 + port) ⟨s.seq + 1, outside, n, false, [], true, false⟩ (bumpSeq s)
    some (if q.1 then perform q.2 else { q.2 with hostReads := q.2.hostReads ++ [⟨s.seq + 1, node, part, acc, port⟩] })
/-- The host bucket that a physical address of host memory goes out through (R385). -/
def hostBucket (a : Nat) : Nat := 18 + b2n (bit a 50)
/-- The bytes of a core store that leave through each host port are metered there (R380). The store keeps its order point (R381); `was`
are host bytes and what they held before it. -/
def meterStore (who : CtxId) (was : List (Nat × Byte)) (s : State) : State :=
  [18, 19].foldl (fun s k =>
    let here := was.filter fun x => hostBucket x.1 == k
    if here.isEmpty then s else (askBucket (partOf s who) k ⟨s.seq, who, here.length, true, here, true, false⟩ s).2) s
/-- Stores of a partition that have not left never do: host memory holds again what they would have replaced (R378). -/
def dropStores (part : Nat) (s : State) : State :=
  let held := (getPart s part).buckets.flatMap fun x => x.2.waiting.filter (·.store)
  let undone := (sortBy (·.id) held).reverse.foldl (fun m r => writeCells r.was m) s.mem
  setPart part { getPart s part with buckets := (getPart s part).buckets.map fun x => (x.1, { x.2 with waiting := x.2.waiting.filter fun r => !r.store }) }
    { s with mem := undone }
/-- The requests of a command that has ended wait at no bucket any more (R381). -/
def forgetRequests (part id : Nat) (s : State) : State :=
  setPart part { getPart s part with buckets := (getPart s part).buckets.map fun x =>
    (x.1, { x.2 with waiting := x.2.waiting.filter fun r => r.store || r.id != id, granted := x.2.granted.filter (· ≠ id) }) } s
/-- Whether a context has a store that has not left (R381). -/
def storesWait (who : CtxId) (s : State) : Bool :=
  (getPart s (partOf s who)).buckets.any fun x => x.2.waiting.any fun r => r.store && r.who == who
/-- The egress class of a guarded byte: that of its 2 MiB LPDDR region (R382). A byte that no such region holds has none recorded, which
is class 0, allowed nowhere (DEDUCED, log entry 125). -/
def classOf (p : Part) (a : Nat) : Nat :=
  if !isLpddr a then 0 else ((p.regions.find? fun r => r.die == physDie a && decide (r.base ≤ physOff a) && decide (physOff a < r.base + r.size)).map (·.cls)).getD 0

/-- A store event of a context. -/
def ctxStore (who : CtxId) (bs : List (GByte × Byte)) (s : State) : State :=
  meterStore who ((bs.filter fun b => physHost b.1.pa).map fun b => (b.1.pa, Memory.get s.mem b.1.pa))
    (storeBytes (coreWrite who) (ownerTag s (nodeOf s who) who) (nodeOf s who) (partOf s who) bs s)

/-- A store event of an engine for a command. -/
def engineStore (src : Writer) (bs : List (GByte × Byte)) (s : State) : State :=
  storeBytes (engineWrite src) (ownerTag s (nodeOf s src.who) src.who) (nodeOf s src.who) (partOf s src.who) bs s

end Sys2Proof.Machine
end

