-- ==== Sys2Proof/Machine/Queue.lean ====
section
/-! DEFINITION. What the four kinds of engine command have in common: parameters, byte counts, barrier words (R256), status
words (R235, R264, R341), completion (R234, R262, R273, R341), and the removal of commands that have not started (R131, R233,
R237, R265, R275, R343). -/

namespace Sys2Proof.Machine

/-- A parameter of a set. -/
def param (par : List Dword) (i : Nat) : Nat := (par.getD i 0).toNat
/-- A valid entry of a peer table (R310). -/
def peerEntry (s : State) (part k : Nat) : Option (List Dword) :=
  match assoc k (getPart s part).peers with
  | some e => if bit (param e 3) 0 then some e else none
  | none => none
/-- The lowest port of an entry's mask that is up (R310). -/
def peerPort (s : State) (e : List Dword) : Option Nat := (List.range 18).find? fun i => bit (param e 2) (14 + i) && portUp s i
/-- The port of a command to a peer and the classes its entry allows there, read when the command starts (R310, R382), or its failure. -/
def choosePort (s : State) (part k : Nat) : Except (Nat × Nat) (Nat × Nat) :=
  match peerEntry s part k with
  | none => .error (5, k)
  | some e => match peerPort s e with
    | none => .error (0x0E, 0)
    | some i => .ok (i, bits (param e 2) 39 32)

/-- Whether `n` bytes at a local address lie in scratchpad. -/
def inSpad (a n : Nat) : Bool := decide (a + n ≤ 0x300000)
/-- A local barrier address: 16-aligned in scratchpad (R192). -/
def barOk (a : Nat) : Bool := a % 16 == 0 && inSpad a 16
/-- The word a local BAR parameter names, none when it is 0 or names no valid word (R256). -/
def localBar (c : ClId) (v : Nat) : Option Nat := if v % 2 ^ 22 ≠ 0 ∧ barOk (v % 2 ^ 22) then some (physSpad c (v % 2 ^ 22)) else none

/-- Pays bytes to a barrier word for writes of a context's command, after counting these writes to its phase. -/
def payFor (who : CtxId) (bar : Option Nat) (sel : Past → Bool) (bytes : Nat) (fl : BarFlags) (s : State) : State :=
  match bar with
  | none => s
  | some w => countEvent who (barUpdate w 0 false bytes fl (countTo sel w (noteDurable (nodeOf s who) [w] s)))
/-- Pays bytes for all of a command's writes that are not counted yet. -/
def pay (who : CtxId) (bar : Option Nat) (cmd bytes : Nat) (fl : BarFlags) (s : State) : State :=
  payFor who bar (fun p => p.cmd == cmd) bytes fl s
/-- Notes a durable write of a context's node that has no address of the package (R71). -/
def setDurable (who : CtxId) (s : State) : State :=
  match nodeOf s who with
  | none => s
  | some n => match getNode s n with
    | some d => setNode n { d with durable := true } s
    | none => s
/-- The cycle in which a command enters its queue, when its bundle issues in cycle `now` of the engine's clock: two later on a lockstep
node (R255, R368). -/
def entryCycle (now : Nat) (s : State) (who : CtxId) : Nat :=
  now + (match nodeOf s who with
    | none => 0
    | some n => match getNode s n with
      | some d => if recField d 1 41 41 = 1 then 2 else 0
      | none => 0)
/-- The order in which commands of a die's engine enter: by cycle, then by cluster and core (R255). -/
def entryOrder (entered : Nat) (who : CtxId) : Nat := entered * 128 + who.cl * 4 + who.core
/-- Whether a context's node is stopped to be saved (R312). -/
def savesNode (s : State) (who : CtxId) : Bool :=
  match nodeOf s who with
  | none => false
  | some n => match getNode s n with
    | some d => d.stop == .preempt
    | none => false
/-- Whether an engine may start a command of a context: not in the viral state, nor for a node stopped to be saved (R312,
R370). -/
def mayStart (s : State) (who : CtxId) : Bool := !s.viral && !savesNode s who

/-! ## Matrix commands -/

/-- Weight formats (R215): code, K = 256 flag; tile image bytes. -/
def fmtP4w (wf : Nat) : Bool := bit wf 8
def tileBytes (wf : Nat) : Nat :=
  if bits wf 3 0 = 2 then 32768 else if bits wf 3 0 = 9 then (if fmtP4w wf then 18432 else 9216) else 16384
def tileSlots (wf : Nat) : Nat := (tileBytes wf + 16383) / 16384
/-- MLDW cycles (R215). -/
def tileCycles (wf : Nat) : Nat := (tileBytes wf + 2047) / 2048
def MexKind.code : MexKind → Nat
  | .mldw => 1
  | .mstr => 2
  | .mdrn => 3
  | .mzero => 4
def mexRows (c : MexCmd) : Nat :=
  match c.kind with
  | .mldw => 0
  | .mstr => bits (param c.par 5) 9 0
  | .mdrn => bits (param c.par 0x12) 25 16
  | .mzero => c.ctl
def mexFirst (c : MexCmd) : Nat :=
  match c.kind with
  | .mldw => 0
  | .mstr => bits (param c.par 0x0A) 8 0
  | .mdrn => bits (param c.par 0x12) 8 0
  | .mzero => c.row
/-- Bytes of one drained row and of its sidecars (R230). -/
def drainBytes (par : List Dword) : Nat :=
  let f := bits (param par 0x0D) 3 0
  if f = 1 ∨ f = 8 then 512 else if f = 2 then 256 else if f = 4 then 128 else 64
/-- Bytes a drain counts per row (R231). -/
def drainCount (par : List Dword) : Nat :=
  let f := bits (param par 0x0D) 3 0
  (if bit (param par 0x0D) 16 then bits (param par 0x0E) 31 0 else if f = 9 then 72 else drainBytes par)
    + (if f = 4 ∧ param par 0x11 % 2 ^ 22 ≠ 0 then 4 else 0)
/-- The full byte count of a command (R226 to R231). -/
def mexCount (c : MexCmd) : Nat :=
  match c.kind with
  | .mldw => tileBytes (param c.par 1)
  | .mstr => mexRows c * 512
  | .mdrn => mexRows c * drainCount c.par
  | .mzero => mexRows c * 512
def mexStatus (c : MexCmd) (eng err detail : Nat) (cancelled : Bool) : Nat :=
  c.id * 2 ^ 48 + c.kind.code * 2 ^ 45 + b2n cancelled * 2 ^ 44 + eng * 2 ^ 42 + err * 2 ^ 32 + detail % 2 ^ 32
def mexWriter (c : MexCmd) : Writer := ⟨c.who, c.seq, bits (param c.par 0x18) 2 0, 0⟩

/-- Completion of a matrix command (R234, R222). -/
def completeMex (e : EngId) (c : MexCmd) (err detail : Nat) (cancelled : Bool) (s : State) : State :=
  let st := BitVec.ofNat 64 (mexStatus c e.eng err detail cancelled)
  let s1 := pay c.who (localBar e.clId (param c.par 0x19)) c.seq (mexCount c) ⟨cancelled, false, decide (err ≠ 0)⟩ s
  let s2 := completeToken c.who (bits (param c.par 0x18) 2 0) (decide (err ≠ 0)) st (settlePast c.seq s1)
  if alive s2 c.who then updCtx c.who (fun x => { x with mexLast := x.mexLast.set e.eng st }) s2 else s2

/-- Removes queued matrix commands as cancelled, in order; also how many. -/
def removeMex (e : EngId) (sel : MexCmd → Bool) (s : State) : Nat × State :=
  let m := getMex s e
  let gone := m.queue.filter sel
  (gone.length, gone.foldl (fun s c => completeMex e c 0 0 true s) (setMex e { m with queue := m.queue.filter fun c => !sel c } s))

/-- A fresco row as of the last commit that ended by an instant, and whether it is uncorrectable (R338). -/
def rowAsOf (s : State) (instant row : Nat) : List Byte × Bool :=
  match s.rtc.findSome? fun x => x.2.last.filter fun m => m.row == row && decide (instant < m.ended) with
  | some m => (m.old, m.bad)
  | none => (Memory.gets s.fresco (64 * row) 64, s.frescoBad.contains row)
/-- A weight load reads 2 KiB of its tile in each of its cycles (R215, R226, R338), as it stood when the cycle began: the next chunk, and the
first uncorrectable fresco row it meets (R332). -/
def mldwChunk (began : Nat) (s : State) (e : EngId) (r : MexRun) : MexRun :=
  let fmt := param r.cmd.par 1
  let off := 2048 * r.done
  if r.cmd.kind = .mldw ∧ off < tileBytes fmt ∧ r.start + r.done < clk s e.clId then
    let n := min 2048 (tileBytes fmt - off)
    let base := r.slots.getD (off / 16384) 0 + off % 16384
    let rows := (List.range (n / 64)).map fun i => (base / 64 + i, rowAsOf s began (base / 64 + i))
    let bad := (rows.find? fun k => k.2.2).map (·.1)
    let pl := { r.plane with image := Memory.sets r.plane.image off (rows.flatMap fun k => k.2.1) }
    { r with
      done := r.done + 1,
      plane := match bad with
        | some k => if pl.poisoned then pl else { pl with poisoned := true, err := 0x07, detail := 64 * k % 2 ^ 28 }
        | none => pl }
  else r
/-- The reads of the cycles that end with a tick; `s0` is the state before its clocks went on. -/
def mldwReads (s0 s : State) : State :=
  { s with mex := s.mex.map fun (e, m) => (e, { m with runs := m.runs.map (mldwChunk (getIsland s0 e.die (islandOf e.clId)).began s e) }) }

/-! ## Copies -/

/-- A signed 48-bit step (R258). -/
def step48 (v : Nat) : Int := toSigned 48 v
def cpyCodec (par : List Dword) : Nat := bits (param par 0x0B) 9 8
def cpyReduce (par : List Dword) : Bool := bit (param par 0x0B) 0
def cpyRedFmt (par : List Dword) : Nat := bits (param par 0x0B) 7 4
def cpyRedSize (par : List Dword) : Nat := if cpyRedFmt par = 2 then 2 else 4
def cpyN (par : List Dword) : Nat := bits (param par 0x0C) 15 0
def cpyFmt (par : List Dword) : Nat := bits (param par 0x0C) 23 16
def cpyReserve (par : List Dword) : Nat := bits (param par 0x0C) 63 32
def cpyLen (par : List Dword) : Nat := bits (param par 3) 31 0
def cpyDim (par : List Dword) (i : Nat) : Nat := bits (param par 4) (16 * i + 15) (16 * i) + 1
def cpyUnits (par : List Dword) : Nat := cpyDim par 0 * cpyDim par 1 * cpyDim par 2
/-- Bytes of a dense vector of N elements; P4 in packed form (R175). -/
def denseBytes (fmt n : Nat) : Nat := if fmt = 9 then 16 * n + ceilTo 8 (2 * n) else n * P4.codeSize fmt
/-- Source bytes a unit reads from dense memory, and destination bytes it accounts for (R259). -/
def cpySrcBytes (par : List Dword) : Nat := if cpyCodec par = 2 then denseBytes (cpyFmt par) (cpyN par) else cpyLen par
def cpyDstBytes (par : List Dword) : Nat :=
  if cpyCodec par = 1 then denseBytes (cpyFmt par) (cpyN par)
  else if cpyCodec par = 2 then cpyReserve par
  else if cpyReduce par then cpyLen par / cpyRedSize par * 4 else cpyLen par
def cpyTotal (par : List Dword) : Nat := cpyUnits par * cpyDstBytes par
/-- A physical scratchpad byte from an address word, for a barrier (R256): the word, or the error code. -/
def barWord (s : State) (who : CtxId) (w : Nat) : Except Nat (Option Nat) :=
  if w = 0 then .ok none
  else if !bit w 63 then
    if barOk w then .ok (some (physSpad who.clId w)) else .error 0x03
  else if w % 16 ≠ 0 then .error 0x03
  else match walk s (partOf s who) (worldOf s who) (nodeOf s who) (bits w 62 0) with
    | .fault k => .error (if k % 16 = 4 then 0x05 else 0x04)
    | .leaf e size =>
      if !(pteRead e && pteWrite e) || pteMulti e then .error 0x06
      else if isSpad (pteFrame e) then .ok (some (ptePhys e size (bits w 62 0))) else .error 0x03
def cpyBar (s : State) (c : CpyCmd) : Option Nat := match barWord s c.who (param c.par 0x0E) with | .ok w => w | .error _ => none
def cpyTok (c : CpyCmd) : Nat := bits (param c.par 0x0D) 2 0
def cpyWriter (c : CpyCmd) : Writer := ⟨c.who, c.seq, cpyTok c, 0⟩
def cpyStatus (c : CpyCmd) (eng err detail : Nat) (cancelled : Bool) : Nat :=
  c.id * 2 ^ 48 + 5 * 2 ^ 45 + b2n cancelled * 2 ^ 44 + eng * 2 ^ 41 + err * 2 ^ 32 + detail % 2 ^ 32

/-- Adds a completed command to the reports of its token (R264, R346). -/
def addReport (t : Nat) (failed : Bool) (st pr : Dword) (rs : List Report) : List Report :=
  let r := rs.getD t .none
  rs.set t ⟨if failed && r.failed.isNone then some (st, pr) else r.failed, some (st, pr)⟩

/-- Bytes the first chunks of a copy have subtracted (R261, R262). -/
def cpyCounted (par : List Dword) (chunk : Nat) : Nat := min (cpyTotal par) (chunk * if cpyCodec par = 0 then 4096 else cpyDstBytes par)
/-- Completion of a copy before its chunk `chunk` (R262). -/
def completeCpy (e : DieEng) (c : CpyCmd) (bar : Option Nat) (chunk written err detail : Nat) (failedChunk : Option Nat) (cancelled : Bool) (s : State) : State :=
  let st := BitVec.ofNat 64 (cpyStatus c e.eng err detail cancelled)
  let pr := BitVec.ofNat 64 (failedChunk.getD 0xFFFFFF % 2 ^ 24 * 2 ^ 40 + written % 2 ^ 40)
  let rest := cpyTotal c.par - cpyCounted c.par chunk
  let s1 := if err = 0 ∧ !cancelled then s else pay c.who bar c.seq rest ⟨cancelled, false, decide (err ≠ 0)⟩ s
  let s2 := completeToken c.who (cpyTok c) (decide (err ≠ 0)) st (settlePast c.seq s1)
  if alive s2 c.who then updCtx c.who (fun x => { x with cpyRep := addReport (cpyTok c) (decide (err ≠ 0)) st pr x.cpyRep }) s2 else s2

def removeCpy (e : DieEng) (sel : CpyCmd → Bool) (s : State) : Nat × State :=
  let m := getCpy s e
  let gone := m.queue.filter sel
  (gone.length, gone.foldl (fun s c => completeCpy e c (cpyBar s c) c.chunk c.written 0 0 none true s)
    (setCpy e { m with queue := m.queue.filter fun c => !sel c } s))

/-! ## Glaze commands -/

def glzGroup (par : List Dword) : Nat := bits (param par 0) 3 0
def glzTag (par : List Dword) : Nat := bits (param par 1) 15 0
def glzSelf (par : List Dword) : Nat := bits (param par 2) 5 0
def glzForm (par : List Dword) : Nat := bits (param par 3) 1 0
def glzSrc (par : List Dword) : Nat := bits (param par 5) 21 0
def glzSfmt (par : List Dword) : Nat := bits (param par 6) 3 0
def glzNblk (par : List Dword) : Nat := bits (param par 7) 15 0
def glzDst (par : List Dword) : Nat := bits (param par 8) 21 0
def glzCentred (par : List Dword) : Bool := bit (param par 9) 16
def glzDsize (par : List Dword) : Nat := if bits (param par 9) 3 0 = 2 then 2 else 4
def glzPcnt (par : List Dword) : Nat := bits (param par 0x0A) 21 0
def glzTok (par : List Dword) : Nat := bits (param par 0x0C) 2 0
/-- M (R269). -/
def glzPlanes (par : List Dword) : Nat := if glzSfmt par = 1 then 24 else 16
/-- p* (R267). -/
def glzThresh (par : List Dword) : Nat := if bits (param par 0x0B) 4 0 = 0 then glzPlanes par else bits (param par 0x0B) 4 0
/-- The members of a command's group (R266). -/
def glzMembers (s : State) (c : GlzCmd) : List Nat := (assoc (glzGroup c.par) (getPart s (partOf s c.who)).groups).getD []
/-- Contributing members in rank order (R267, R270): the set bits of CMASK, whatever the group. -/
def glzCons (s : State) (c : GlzCmd) : List Nat :=
  if param c.par 4 = 0 then (if glzForm c.par = 0 then [0] else List.range (glzMembers s c).length)
  else (List.range 64).filter fun i => bit (param c.par 4) i
/-- Destination blocks of a receive (R270). -/
def glzBlocks (s : State) (c : GlzCmd) : Nat := if glzForm c.par = 1 then glzNblk c.par * (glzCons s c).length else glzNblk c.par
def glzBar (c : GlzCmd) : Option Nat := localBar c.who.clId (param c.par 0x0D)
/-- The reads of a glaze command, and the writes of a block of it, which the block's own payment counts (R273). -/
def glzReader (c : GlzCmd) : Writer := ⟨c.who, c.seq, glzTok c.par, 0⟩
def glzWriter (c : GlzCmd) (k : Nat) : Writer := ⟨c.who, c.seq, glzTok c.par, k⟩
def GlzKind.code : GlzKind → Nat
  | .send => 0
  | .recv => 1
  | .red => 2
def GlzKind.receives : GlzKind → Bool
  | .send => false
  | .recv => true
  | .red => true
def GlzKind.contributes : GlzKind → Bool
  | .send => true
  | .recv => false
  | .red => true
def glzStatus (c : GlzCmd) (eng err detail : Nat) (cancelled aborted : Bool) : Nat :=
  c.id * 2 ^ 48 + 6 * 2 ^ 45 + b2n cancelled * 2 ^ 44 + b2n aborted * 2 ^ 43 + eng * 2 ^ 42 + c.kind.code * 2 ^ 40 + err * 2 ^ 32 + detail % 2 ^ 32

/-- Writes a block's counter byte, as an engine write that is always clean (R272). -/
def writeCounter (c : GlzCmd) (k v : Nat) (s : State) : State :=
  if inSpad (glzPcnt c.par + k) 1 then
    engineStore (glzWriter c k) [(⟨physSpad c.who.clId (glzPcnt c.par + k), 0⟩, BitVec.ofNat 8 v)] s
  else s

/-- A block pays its destination bytes, which counts what is written of this block and of no other (R209, R273). -/
def payBlock (c : GlzCmd) (k : Nat) (fl : BarFlags) (s : State) : State :=
  payFor c.who (glzBar c) (fun p => p.cmd == c.seq && p.part == k) (128 * glzDsize c.par) fl s

/-- Completion of a glaze command's token and reports (R273). -/
def completeGlz (e : DieEng) (c : GlzCmd) (err detail : Nat) (cancelled aborted poison : Bool) (s : State) : State :=
  let st := BitVec.ofNat 64 (glzStatus c e.eng err detail cancelled aborted)
  let bad := decide (err ≠ 0) || aborted || poison
  let s2 := completeToken c.who (glzTok c.par) bad st (settlePast c.seq s)
  if alive s2 c.who then updCtx c.who (fun x => { x with glzRep := addReport (glzTok c.par) bad st 0 x.glzRep }) s2 else s2

/-- The counters of a receive that has ended stay with its context (R276). -/
def keepCounters (c : GlzCmd) (ks : List Nat) (s : State) : State :=
  if c.kind.receives then updCtx c.who (fun x => { x with recvs := x.recvs.map fun r => if r.cmd = c.seq then { r with counters := ks } else r }) s else s

/-- Cancels a block before any plane of it: counter written with cancelled set and p = 0, its bytes paid (R275). -/
def cancelBlock (c : GlzCmd) (k : Nat) (s : State) : State := payBlock c k ⟨true, false, false⟩ (writeCounter c k 0x40 s)

def removeGlz (e : DieEng) (sel : GlzCmd → Bool) (s : State) : Nat × State :=
  let m := getGlz s e
  let gone := m.queue.filter sel
  (gone.length, gone.foldl (fun s c =>
      let s1 := if c.kind.receives then
          ((List.range (glzBlocks s c)).filter fun k => !c.pre.contains k).foldl (fun s k => cancelBlock c k s) s
        else s
      keepCounters c (List.replicate (glzBlocks s c) 0x40) (completeGlz e c 0 0 true false false s1))
    (setGlz e { m with queue := m.queue.filter fun c => !sel c } s))

/-- Changes every started glaze command, paused ones of saved nodes included. -/
def mapGlzRuns (f : GlzRun → GlzRun) (s : State) : State :=
  { s with
    glz := s.glz.map fun (e, g) => (e, { g with runs := g.runs.map f }),
    nodes := s.nodes.map fun d => { d with saved := d.saved.map fun v => { v with paused := v.paused.map fun (e, r) => (e, f r) } } }
/-- An abort reaches the registered commands of a collective (R275). -/
def abortRegs (k : Coll) (err detail : Nat) (s : State) : State :=
  mapGlzRuns (fun r => if !r.aborted && k.reg.any (fun x => x.2 == r.cmd.seq) then { r with aborted := true, err := err, detail := detail } else r) s
/-- The packages that hold other members of a group learn of an abort (kind 1), a cancel (kind 2) or a member's new engine (kind 5), each over the port that its peer entry
gives (R275, R310, R326). -/
def tellMembers (kind part group tag : Nat) (fields : List Nat) (s : State) : State :=
  let far := ((assoc group (getPart s part).groups).getD []).filterMap fun m =>
    if bits m 31 16 = 0xFFFF then none else match choosePort s part (bits m 31 16) with | .ok i => some i.1 | .error _ => none
  far.eraseDups.foldl (fun s k => sendMessage kind ([part, group, tag] ++ fields) k s) s
/-- Whether the abort of a collective is news to one of its commands. -/
def abortIsNews (k : Coll) (s : State) : Bool :=
  let news : GlzRun → Bool := fun r => !r.aborted && k.reg.any fun x => x.2 == r.cmd.seq
  s.glz.any (fun x => x.2.runs.any news) || s.nodes.any fun d => d.saved.any fun v => v.paused.any fun x => news x.2
/-- Aborts the collective a command is registered with, for a cause on this package, and tells the other members. -/
def abortColl (cmd err detail : Nat) (s : State) : State :=
  match s.colls.find? fun k => k.reg.any fun x => x.2 == cmd with
  | some k =>
    let s1 := abortRegs k err detail s
    if abortIsNews k s then tellMembers 1 k.part k.group k.tag [b2n (err == 0x0F)] s1 else s1
  | none => s
/-- Aborts the collectives that a removed command of a killed member would have met (R275, Removal). -/
def abortPeers (c : GlzCmd) (s : State) : State :=
  (s.colls.filter fun k => !k.matched && k.part == partOf s c.who && k.group == glzGroup c.par && k.tag == glzTag c.par
    && !k.reg.any (fun x => x.1 == glzSelf c.par)).foldl (fun s k => abortRegs k 0x0E 0 s)
      (tellMembers 1 (partOf s c.who) (glzGroup c.par) (glzTag c.par) [0] s)

/-- Blocks of a receive that a cancel of `n` blocks from `a` newly names. -/
def namedBlocks (total a n : Nat) (taken : Nat → Bool) : List Nat := ((List.range total).filter fun k => decide (a ≤ k) && decide (k < a + n)).filter fun k => !taken k

/-- GCAN on the receive with an issue event, at the end of its cycle (R275): before the match the blocks are cancelled at once,
after it the contributors are told. -/
def cancelGlz (e : DieEng) (target a n : Nat) (s : State) : Nat × State :=
  let g := getGlz s e
  match g.queue.find? fun c => c.seq == target with
  | some c =>
    let ks := namedBlocks (glzBlocks s c) a n c.pre.contains
    (ks.length, ks.foldl (fun s k => cancelBlock c k s)
      (setGlz e { g with queue := g.queue.map fun x => if x.seq = target then { x with pre := x.pre ++ ks } else x } s))
  | none =>
    match g.runs.find? fun r => r.cmd.seq == target with
    | none => (0, s)
    | some r =>
      let ks := namedBlocks r.blocks.length a n fun k => (r.blocks.getD k ⟨[], 0, false, false⟩).flag != 0 || r.cancelling.contains k
      let upd : GlzRun → State := fun r' => setGlz e { g with runs := g.runs.map fun x => if x.cmd.seq = target then r' else x } s
      if ks.isEmpty then (0, s)
      else if r.matched then (ks.length, tellMembers 2 (partOf s r.cmd.who) (glzGroup r.cmd.par) (glzTag r.cmd.par) (glzSelf r.cmd.par :: ks)
        (upd { r with cancelling := r.cancelling ++ ks }))
      else (ks.length, ks.foldl (fun s k => cancelBlock r.cmd k s) (upd { r with
        cancelled := true,
        blocks := r.blocks.zipIdx.map fun (b, k) => if ks.contains k then { b with flag := 0x40, paid := true } else b }))

/-! ## Retouch commands -/

def rtcTok (c : RtcCmd) : Nat := bits (param c.par 7) 2 0
def rtcCount (c : RtcCmd) : Nat := bits (param c.par 2) 8 0
def rtcBar (c : RtcCmd) : Option Nat := localBar c.who.clId (param c.par 8)
def rtcWriter (c : RtcCmd) : Writer := ⟨c.who, c.seq, rtcTok c, 0⟩
def rtcStatus (c : RtcCmd) (eng err detail : Nat) (cancelled : Bool) : Nat :=
  c.id * 2 ^ 48 + 7 * 2 ^ 45 + b2n cancelled * 2 ^ 44 + eng * 2 ^ 42 + err * 2 ^ 32 + detail % 2 ^ 32
/-- The detail of a status word without error: rows remapped and the greatest iteration count (R341). -/
def rtcDetail (remapped maxIter : Nat) : Nat := remapped % 2 ^ 16 * 2 ^ 16 + maxIter % 256 * 2 ^ 8
def rtcProgress (rows iters st remapped : Nat) : Nat := rows % 2 ^ 16 * 2 ^ 48 + iters % 256 * 2 ^ 40 + st * 2 ^ 32 + remapped % 2 ^ 16 * 2 ^ 16

/-- Completion of a retouch command (R341): the rest of its bytes, the token, the reports and a log entry: the digest in detail bytes 0x18 to
0x37 (R383), then virtual tile, first row, rows committed and rows remapped in the eight bytes that are left (DESIGN CHOICE, log entry 127). -/
def completeRtc (e : DieEng) (c : RtcCmd) (rows remapped iters err detail : Nat) (cancelled : Bool) (digests : List (List Byte)) (s : State) : State :=
  let st := BitVec.ofNat 64 (rtcStatus c e.eng err detail cancelled)
  let pr := BitVec.ofNat 64 (rtcProgress rows iters 3 remapped)
  let rest := 64 * rtcCount c - 64 * rows
  let s1 := if err = 0 ∧ !cancelled then s else pay c.who (rtcBar c) c.seq rest ⟨cancelled, false, decide (err ≠ 0)⟩ s
  let s2 := completeToken c.who (rtcTok c) (decide (err ≠ 0)) st (settlePast c.seq s1)
  let s3 := if alive s2 c.who then updCtx c.who (fun x => { x with rtcRep := addReport (rtcTok c) (decide (err ≠ 0)) st pr x.rtcRep }) s2 else s2
  logEvent 2 (partOf s3 c.who)
    (Crypto.shake256 digests.flatten 32
      ++ toBytes 8 (bits (param c.par 0) 31 0 * 2 ^ 32 + (bits (param c.par 1) 7 0 + c.off) % 2 ^ 10 * 2 ^ 20 + rows % 2 ^ 10 * 2 ^ 10 + remapped % 2 ^ 10)) s3

def removeRtc (e : DieEng) (sel : RtcCmd → Bool) (s : State) : Nat × State :=
  let m := getRtc s e
  let gone := m.queue.filter sel
  (gone.length, gone.foldl (fun s c => completeRtc e c c.done c.remapped c.iters 0 (rtcDetail c.remapped c.maxIter) true c.digests s)
    (setRtc e { m with queue := m.queue.filter fun c => !sel c } s))

/-! ## Cancels at the end of a cycle -/

/-- The newest command of a list by issue event. -/
def newest {α : Type} (seq : α → Nat) (xs : List α) : Option α := (sortBy seq xs).getLast?

/-- MCAN (R233). -/
def cancelMex (e : EngId) (who : CtxId) (t : Nat) (s : State) : Nat × State :=
  let mine := (getMex s e).queue.filter fun c => c.who == who
  removeMex e (fun c => if t = 0 then c.who == who else if t = 1 then (newest MexCmd.seq mine).map (·.seq) == some c.seq else true) s

/-- CCAN (R263): queued copies are removed, started ones take no new chunk. -/
def cancelCpy (e : DieEng) (who : CtxId) (t : Nat) (s : State) : Nat × State :=
  let m := getCpy s e
  let mine := (m.queue ++ m.runs.map (·.cmd)).filter fun c => c.who == who
  let sel : CpyCmd → Bool := fun c => c.who == who &&
    (if t % 4 = 0 then true else if t % 4 = 1 then (newest CpyCmd.seq mine).map (·.seq) == some c.seq else cpyTok c == bits t 6 4)
  let r := removeCpy e sel s
  let hit : CpyRun → Bool := fun r => sel r.cmd && !r.cancelling
  let m2 := getCpy r.2 e
  (r.1 + (m2.runs.filter hit).length, setCpy e { m2 with runs := m2.runs.map fun x => if hit x then { x with cancelling := true } else x } r.2)

/-! ## A killed context's commands -/

/-- What happens to the outstanding commands of the contexts `sel` names when they are killed: queued ones are removed as
cancelled; started copies stop as under CCAN, started glaze commands abort, a started retouch command ends after its row
(R237, R265, R275, R343). -/
def killCommands (sel : CtxId → Bool) (s : State) : State :=
  let s1 := s.mex.foldl (fun s (e, _) => (removeMex e (fun c => sel c.who) s).2) s
  let s2 := s1.cpy.foldl (fun s (e, _) =>
    let s := (removeCpy e (fun c => sel c.who) s).2
    setCpy e { getCpy s e with runs := (getCpy s e).runs.map fun r => if sel r.cmd.who then { r with cancelling := true } else r } s) s1
  let s3 := s2.glz.foldl (fun s (e, _) =>
    let gone := (getGlz s e).queue.filter fun c => sel c.who
    let s := gone.foldl (fun s c => abortPeers c s) (removeGlz e (fun c => sel c.who) s).2
    ((getGlz s e).runs.filter fun r => sel r.cmd.who).foldl (fun s r => abortColl r.cmd.seq 0x0E 0 s) s) s2
  s3.rtc.foldl (fun s (e, _) =>
    let s := (removeRtc e (fun c => sel c.who) s).2
    setRtc e { getRtc s e with run := (getRtc s e).run.map fun r => if sel r.cmd.who then { r with cancelled := true } else r } s) s3

/-- Whether any engine holds a command of these contexts, or a pour of theirs has not landed (R205, R291). -/
def hasCommands (sel : CtxId → Bool) (s : State) : Bool :=
  s.pours.any (fun p => sel p.who) || s.mex.any (fun (_, m) => m.queue.any (fun c => sel c.who) || m.runs.any (fun r => sel r.cmd.who))
  || s.cpy.any (fun (_, m) => m.queue.any (fun c => sel c.who) || m.runs.any (fun r => sel r.cmd.who))
  || s.glz.any (fun (_, m) => m.queue.any (fun c => sel c.who) || m.runs.any (fun r => sel r.cmd.who))
  || s.rtc.any (fun (_, m) => m.queue.any (fun c => sel c.who) || (match m.run with | some r => sel r.cmd.who | none => false))
def hasStarted (sel : CtxId → Bool) (s : State) : Bool :=
  s.mex.any (fun (_, m) => m.runs.any (fun r => sel r.cmd.who))
  || s.cpy.any (fun (_, m) => m.runs.any (fun r => sel r.cmd.who))
  || s.glz.any (fun (_, m) => m.runs.any (fun r => sel r.cmd.who))
  || s.rtc.any (fun (_, m) => match m.run with | some r => sel r.cmd.who | none => false)
/-- Removes queued commands of the contexts `sel` names from every engine as cancelled; also how many. -/
def removeQueued (selM : MexCmd → Bool) (selC : CpyCmd → Bool) (selG : GlzCmd → Bool) (selR : RtcCmd → Bool) (s : State) : Nat × State :=
  let f1 := s.mex.foldl (fun (a : Nat × State) (x : EngId × Mex) => let r := removeMex x.1 selM a.2; (a.1 + r.1, r.2)) (0, s)
  let f2 := s.cpy.foldl (fun (a : Nat × State) (x : DieEng × Cpy) => let r := removeCpy x.1 selC a.2; (a.1 + r.1, r.2)) f1
  let f3 := s.glz.foldl (fun (a : Nat × State) (x : DieEng × Glz) => let r := removeGlz x.1 selG a.2; (a.1 + r.1, r.2)) f2
  s.rtc.foldl (fun (a : Nat × State) (x : DieEng × Rtc) => let r := removeRtc x.1 selR a.2; (a.1 + r.1, r.2)) f3

/-- A cancel acts and its count lands at the bundle after its own. -/
def applyCancel (s : State) (k : Cancel) : State :=
  let named : CtxId → Nat → Bool := fun w t => w == k.who && bit (k.t % 256) t
  let r := if k.unit = 5 then
      removeQueued (fun c => named c.who (bits (param c.par 0x18) 2 0)) (fun c => named c.who (cpyTok c))
        (fun c => named c.who (glzTok c.par)) (fun c => named c.who (rtcTok c)) s
    else if k.unit = 13 then cancelMex ⟨k.who.die, k.who.cl, k.eng⟩ k.who k.t s
    else if k.unit = 14 then cancelCpy ⟨k.who.die, k.eng⟩ k.who k.t s
    else match k.target with
      | some c => cancelGlz ⟨k.who.die, k.eng⟩ c k.a k.t s
      | none => (0, s)
  match k.land with
  | some p => updCtx k.who (fun c => { c with flight := c.flight ++ [⟨p, .latch k.unit false, .sc ⟨BitVec.ofNat 64 r.1, k.poison⟩, 0, 0, p - 1⟩] }) r.2
  | none => r.2
def applyCancels (s : State) : State := s.cancels.foldl applyCancel { s with cancels := [] }

end Sys2Proof.Machine
end

