-- ==== Sys2Proof/Machine/Capture.lean ====
section
/-! DEFINITION. The capture of a row by a retouch engine: what it reads, and what it finds (R337, R339, R340). -/

namespace Sys2Proof.Machine

open Sys2Proof.Fp

/-! ## Parameters (R336) -/

def rtcTile (c : RtcCmd) : Nat := bits (param c.par 0) 31 0
def rtcFirst (c : RtcCmd) : Nat := bits (param c.par 1) 7 0 + c.off
def rtcSrc (c : RtcCmd) : Nat := bits (param c.par 3) 21 0
def rtcFmt (c : RtcCmd) : Nat := bits (param c.par 4) 3 0
def rtcSmooth (c : RtcCmd) : Nat := bits (param c.par 5) 21 0

/-! ## Rows, wear and spares (R333, R334) -/

/-- The bank of a logical row, by its row number: fresco address / 64. -/
def bankOf (row : Nat) : Nat := row / 262144
def servingRow (s : State) (row : Nat) : RowRef :=
  match assoc row s.remap with
  | some n => .spare (bankOf row) n
  | none => .own row
def wearOf (s : State) (r : RowRef) : Nat := (assoc r s.wear).getD 0
/-- The lowest free spare of a bank. -/
def freeSpare (s : State) (bank : Nat) : Option Nat :=
  (List.range 5243).find? fun n => !s.usedSpares.contains (.spare bank n) && !s.retired.contains (.spare bank n)

/-! ## Smoothing (R340) -/

/-- An element of a plain format from its bytes. -/
def plainFv (fmt : Nat) (bs : List Byte) : Fv :=
  if fmt = 2 then decode bf16 (ofBytes bs) else if fmt = 4 then decode e4m3 (ofBytes bs) else if fmt = 5 then decode e5m2 (ofBytes bs)
  else .fin (bit (ofBytes bs) 7) (Dy.ofInt (toSigned 8 (ofBytes bs)))
/-- A finite product rounded to nearest and saturated at the format's maximum (R340). -/
def saturate (f : Fmt) (neg : Bool) (d : Dy) : Nat := if overMax f neg d then f.signBit neg + f.maxBits else (packDy f .rne neg d).bits
/-- One smoothed element: format, its bytes, its factor. -/
def smoothElem (fmt : Nat) (bs : List Byte) (factor : Word32) : List Byte :=
  let f := if fmt = 2 then bf16 else if fmt = 4 then e4m3 else e5m2
  let n := if fmt = 2 then 2 else 1
  match prodV (plainFv fmt bs) (dec32 factor) with
  | some (.fin neg d) =>
    if fmt = 6 then
      let z := (toInt .rne neg d).1
      toBytes 1 (wrapInt 8 (if z < -128 then -128 else if 127 < z then 127 else z))
    else toBytes n (saturate f neg d)
  | some (.inf neg) => if fmt = 6 then [if neg then 0x80 else 0x7F] else toBytes n (f.signBit neg + f.maxBits)
  | _ => if fmt = 6 then [0] else toBytes n f.nanBits
/-- A smoothed source row. -/
def smoothRow (fmt row : Nat) (src : List Byte) (factors : List Word32) : List Byte :=
  if fmt = 0 then src
  else if fmt = 2 then (List.range 32).flatMap fun e => smoothElem fmt ((src.drop (2 * e)).take 2) (factors.getD (64 * row % 256 / 2 + e) 0)
  else (List.range 64).flatMap fun e => smoothElem fmt ((src.drop e).take 1) (factors.getD (64 * row % 128 + e) 0)


/-! ## Reading (R339) -/

/-- The source bytes of row `j` of a command and the factors, each with its poison, as the engine finds them now. -/
def rtcLook (c : RtcCmd) (j : Nat) (s : State) : List (Byte × Bool) × State :=
  let look (a n : Nat) (s : State) : List (Byte × Bool) × State :=
    let as := (List.range n).map fun i => physSpad c.who.clId (a + i)
    let r := engineReadAs .whole (rtcWriter c) none as s
    (r.1.zip (as.map (byteBad s)), r.2)
  let d := look (rtcSrc c + 64 * j) 64 s
  let f := if rtcFmt c = 0 then ([], d.2) else look (rtcSmooth c) 512 d.2
  (d.1 ++ f.1, f.2)
/-- The row's new contents from the bytes read. -/
def rowSource (c : RtcCmd) (row : Nat) (seen : List (Byte × Bool)) : List Byte :=
  let bs := seen.map (·.1)
  smoothRow (rtcFmt c) row (bs.take 64) ((List.range 128).map fun i => (BitVec.ofNat 32 (ofBytes ((bs.drop (64 + 4 * i)).take 4)) : Word32))
/-- Each granule is read once, before or now (R339). -/
def mixReads (k : Nat) (before now : List (Byte × Bool)) : List (Byte × Bool) :=
  (before.zip now).zipIdx.map fun (x, i) => if Config.engineMisses (k + i / 16) then x.1 else x.2
def updRtc (e : DieEng) (r : RtcRun) (s : State) : State := setRtc e { getRtc s e with run := some r } s
def useSpare (b n : Nat) (s : State) : State := { s with usedSpares := .spare b n :: s.usedSpares }
/-- The command ends because of its row `j`, after that many iterations on it. -/
def RtcRun.stop (r : RtcRun) (err at0 iters : Nat) : RtcRun := { r with err := err, detail := r.next, cur := none, finish := some at0, lastIter := iters }


/-- The capture goes on through a tick of a row's cycles s to s + 7; in cycle s + 7 it finds a poisoned byte, or that the row is worn and takes
a spare, if one is free (R337). `n0` is the cycle of the tick. -/
def captureTick (n0 : Nat) (e : DieEng) (r : RtcRun) (u : RowRun) (s : State) : State :=
  if u.start + 7 < n0 then s
  else
    let x := rtcLook r.cmd r.next s
    let seen := mixReads x.2.free u.seen x.1
    let u1 := { u with seen := seen, src := rowSource r.cmd (r.row + r.next) seen }
    let s1 := updRtc e { r with cur := some u1 } { x.2 with free := x.2.free + (seen.length + 15) / 16 }
    if nominal s < u.start + 7 then s1
    else if seen.any (·.2) then updRtc e (r.stop 9 (u.start + 9) 0) s1
    else if u.tookSpare || decide (wearOf s u.target < (getDie s e.die).wearLimit) then s1
    else match freeSpare s (bankOf u.row) with
      | none => updRtc e (r.stop 0x11 (u.start + 9) 0) s1
      | some n => updRtc e { r with cur := some { u1 with target := .spare (bankOf u.row) n, tookSpare := true } } (useSpare (bankOf u.row) n s1)
/-- The captures in progress through a tick that began in nominal cycle `n0`. -/
def captureReads (n0 : Nat) (s : State) : State :=
  s.rtc.foldl (fun s x => match (getRtc s x.1).run with
    | some r => (match r.cur with | some u => captureTick n0 x.1 r u s | none => s)
    | none => s) s

end Sys2Proof.Machine
end

