-- ==== Sys2Proof/Machine/Ops.lean ====
section
/-! DEFINITION. The named operations on a context: vector names and the quota (R238 to R247), landing (R47, R48, R80, R154,
R248), instruction lines (R12, R14), taking a trap and returning from one (R68 to R71), retirement (R121) and the kill of a
node (R366). -/

namespace Sys2Proof.Machine

/-! ## Sketches and vector names -/

/-- The bytes of step `i` of a descriptor (R243). -/
def sketchStep (bs : List Byte) (i : Nat) : List Nat := ((bs.drop (8 + 8 * i)).take 8).map (·.toNat)
def sketchCount (bs : List Byte) : Nat := (bs.getD 0 0).toNat
/-- Vector registers v0 to v31 a descriptor names as sources. -/
def sketchSources (bs : List Byte) : List Nat :=
  ((List.range (min (sketchCount bs) 4)).flatMap fun i => ((sketchStep bs i).drop 2).take 5).filter (· < 0x20)

def getV (c : Ctx) (n : Nat) : VName := c.v.getD n .unwritten
def setV (n : Nat) (x : VName) (c : Ctx) : Ctx := { c with v := c.v.set n x }
def getSketch (c : Ctx) (e : Nat) : Sketch := c.sketches.getD e .cleared

/-- Whether a write to a vector name is in flight, in the context or in its trap snapshot (R240). -/
def vInFlight (c : Ctx) (n : Nat) : Bool :=
  let hit : Flight → Bool := fun f => f.dst == .main (0x40 + n)
  c.flight.any hit || (match c.snap with | some s => s.flight.any hit | none => false)

/-- Whether a name holds pool storage. -/
def vHolds (c : Ctx) (n : Nat) : Bool := (getV c n).st == .resident || vInFlight c n
def residentCount (c : Ctx) : Nat := ((List.range 32).filter (vHolds c)).length

/-- A live sketch is defined and bound by some name (R242); `none` when the name is not bound to one. -/
def liveSketch (c : Ctx) (n : Nat) : Option Sketch :=
  match (getV c n).bound with
  | none => none
  | some e => if (getSketch c e).defined then some (getSketch c e) else none

/-- The replay depth of a name (R247), cut off at 3 levels. -/
def depthOf (c : Ctx) : Nat → Nat → Nat
  | 0, _ => 3
  | fuel + 1, n =>
    if (getV c n).st ≠ .dropped then 0
    else match (getV c n).bound with
      | none => 0
      | some e =>
        if (getSketch c e).defined then
          1 + ((sketchSources (getSketch c e).bytes).map (depthOf c fuel)).foldl max 0
        else 1
def replayDepth (c : Ctx) (n : Nat) : Nat := depthOf c 4 n
/-- Whether a dropped name lies deeper than two levels (R247). -/
def deepName (c : Ctx) (n : Nat) : Bool := decide ((getV c n).st = .dropped) && decide (2 < replayDepth c n)
/-- Whether a change that concerns name `t` leaves it, or another name that was not so, dropped and deeper than two levels (R247). -/
def tooDeep (t : Nat) (before after : Ctx) : Bool := (List.range 32).any fun n => deepName after n && (n == t || !deepName before n)

/-- Named by a live sketch as a source (R244). -/
def vPinned (c : Ctx) (n : Nat) : Bool :=
  (List.range 32).any fun k => match liveSketch c k with
    | some sk => (sketchSources sk.bytes).contains n
    | none => false

/-- R241. `busy` are the names the bundle being issued reads or writes. -/
def droppable (c : Ctx) (busy : List Nat) (n : Nat) : Bool :=
  (getV c n).st == .resident && (liveSketch c n).isSome && !vPinned c n && !vInFlight c n && !busy.contains n
    && decide (replayDepth (setV n { getV c n with st := .dropped, val := [] } c) n ≤ 2)

/-- The name eviction takes: the droppable name accessed longest ago, the lowest number among equals. -/
def evictee (c : Ctx) (busy : List Nat) : Option Nat := (sortBy (fun n => (getV c n).access) ((List.range 32).filter (droppable c busy))).head?
def dropName (n : Nat) (c : Ctx) : Ctx := setV n { getV c n with st := .dropped, val := [] } c

/-- R240 steps 1 to 4 for one name: the context with a register made free for it, or none. -/
def takeStorage (busy : List Nat) (n : Nat) (c : Ctx) : Option Ctx :=
  if vHolds c n then some c
  else if residentCount c < c.sr.quota then some c
  else match evictee c busy with
    | some k => some (dropName k c)
    | none => none

/-- Drops droppable names until the count fits the quota (R239). The names that the bundle reads or writes at which the new quota takes
effect may be among them (DESIGN CHOICE, log entry 163). -/
def shrinkTo : Nat → Ctx → Ctx
  | 0, c => c
  | fuel + 1, c =>
    if residentCount c ≤ c.sr.quota then c
    else match evictee c [] with
      | some k => shrinkTo fuel (dropName k c)
      | none => c

/-- VQUOTA as MFSR reads it (R239); `busy` are the names its bundle reads or writes, which are not droppable (R241). -/
def vquotaWord (busy : List Nat) (c : Ctx) : Nat :=
  ((List.range 32).filter (droppable c busy)).length * 2 ^ 16 + residentCount c * 2 ^ 8 + c.sr.quota

/-- What a read of a vector name gives when no replay is needed (R238). -/
def readV (c : Ctx) (n : Nat) : List Lane := if (getV c n).st = .resident then (getV c n).val else vecZero

/-- Whether a read of a name needs a replay first (R246). -/
def needsReplay (c : Ctx) (n : Nat) : Bool := (getV c n).st == .dropped && (getV c n).bound.isSome

/-! ## Descriptors -/

/-- Whether an instruction is a legal step of a sketch, and the ports a to d it reads (R243, R102 to R105). -/
def stepReads (unit port : Nat) : Option (List Bool) :=
  let a := [true, false, false, false]
  let ab := [true, true, false, false]
  let no := [false, false, false, false]
  match unit with
  | 7 => if 4 ≤ port ∧ port ≤ 17 then some a else if port = 22 then some no else if port = 28 ∨ port = 29 then some a else none
  | 8 =>
    if 4 ≤ port ∧ port ≤ 6 then some a else if 7 ≤ port ∧ port ≤ 9 then some ab else if port = 10 ∨ port = 11 then some a
    else if port = 12 ∨ port = 13 then some no else if port = 18 then some ab else if port = 19 ∨ port = 20 ∨ port = 21 ∨ port = 23 then some a
    else if port = 22 then some ab else none
  | 9 =>
    if port = 4 ∨ port = 5 then some no else if port = 6 ∨ port = 12 then some a else if port = 8 ∨ port = 10 then some [true, true, true, false]
    else if port = 9 ∨ port = 11 then some a else if port = 16 ∨ port = 18 then some no else if port = 17 then some a else none
  | 10 => if 4 ≤ port ∧ port ≤ 10 then some no else none
  | _ => none

/-- The type of the trigger value of a legal sketch step (R103 to R105). -/
def stepTrigger (unit port : Nat) : Ty :=
  if unit = 7 ∧ port = 22 then .s else if unit = 9 ∧ (port = 8 ∨ port = 9 ∨ port = 10 ∨ port = 11) then .s else .v

/-- Whether a specifier may stand where a value of this type is read, in step `i` (R243). -/
def specOk (ty : Ty) (i sp : Nat) : Bool :=
  if sp < 0x20 ∨ (0x30 ≤ sp ∧ sp < 0x38) then decide (ty = .v)
  else if 0x20 ≤ sp ∧ sp < 0x23 then decide (sp - 0x20 < i) && decide (ty = .v)
  else decide (0x40 ≤ sp) && decide (sp < 0x44)

/-- Whether a sketch descriptor is valid (R243). -/
def sketchOk (bs : List Byte) : Bool :=
  let n := sketchCount bs
  decide (1 ≤ n) && decide (n ≤ 4) && ((bs.drop 1).take 7).all (· == 0) &&
  (List.range 4).all fun i =>
    let st := sketchStep bs i
    if n ≤ i then st.all (· == 0)
    else match stepReads (st.getD 0 0) (st.getD 1 0) with
      | none => false
      | some rs =>
        st.getD 7 0 == 0 && specOk (stepTrigger (st.getD 0 0) (st.getD 1 0)) i (st.getD 6 0) &&
        (rs.zipIdx.all fun (r, k) =>
          let sp := st.getD (2 + k) 0
          if r then specOk ((portTypes.getD (st.getD 0 0) []).getD k .s) i sp else sp == 0xFF)

/-- Pattern descriptors (R153): the period P, the field count F and the half of field `j`. -/
def patPeriod (bs : List Byte) : Nat := ofBytes (bs.take 2)
def patCount (bs : List Byte) : Nat := (bs.getD 2 0).toNat
def patHalf (bs : List Byte) (j : Nat) : Nat := ofBytes ((bs.drop (8 + 2 * j)).take 2)
def patShift (bs : List Byte) (j : Nat) : Nat := bits (patHalf bs j) 14 8
def patWidth (bs : List Byte) (j : Nat) : Nat := bits (patHalf bs j) 4 0 + 1
def patSigned (bs : List Byte) (j : Nat) : Bool := bit (patHalf bs j) 15
/-- A pattern descriptor is valid (R153). -/
def patternOk (bs : List Byte) : Bool :=
  decide (1 ≤ patPeriod bs) && decide (patPeriod bs ≤ 128) && decide (1 ≤ patCount bs) && decide (patCount bs ≤ 32)
    && ((bs.drop 3).take 5).all (· == 0)
    && (List.range (patCount bs)).all fun j => bits (patHalf bs j) 7 5 == 0 && decide (patShift bs j + patWidth bs j ≤ patPeriod bs)

/-! ## Special registers (R108) -/

/-- A CALL whose delay bundles a snapshot holds no longer decides LINK: something later has written it (R117). -/
def noCall (c : Ctx) : Ctx := { c with calling := none, snap := c.snap.map fun sn => { sn with calling := none } }

/-- Writes the listed fields of a special register. Indices 0x113 and 0x213 stand for the fields of ENGSEL that MSEL and CSEL
write (R109). -/
def writeSr (i : Nat) (v : Nat) (c : Ctx) : Ctx :=
  match i with
  | 0x04 => noCall { c with sr := { c.sr with link := BitVec.ofNat 64 (v % 2 ^ 18) } }
  | 0x05 => { c with loopCnt := v % 2 ^ 32 }
  | 0x06 => { c with loopEnd := v % 2 ^ 18 }
  | 0x07 => { c with sr := { c.sr with frm := BitVec.ofNat 2 v } }
  | 0x08 => { c with sr := { c.sr with fflags := BitVec.ofNat 5 v } }
  | 0x09 => shrinkTo 32 { c with sr := { c.sr with quota := v % 64 } }
  | 0x0A => { c with sr := { c.sr with trapvec := v % 2 ^ 18 } }
  | 0x0B => { c with sr := { c.sr with trappc := v % 2 ^ 18 } }
  | 0x0C => { c with sr := { c.sr with trapcause := v % 2 ^ 8 } }
  | 0x0D => { c with sr := { c.sr with info0 := BitVec.ofNat 64 v } }
  | 0x0E => { c with sr := { c.sr with info1 := BitVec.ofNat 64 v } }
  | 0x10 => { c with sr := { c.sr with prio := v % 8 } }
  | 0x12 => { c with sr := { c.sr with mcwin := BitVec.ofNat 32 v } }
  | 0x13 => { c with sr := { c.sr with engsel := BitVec.ofNat 8 v } }
  | 0x113 => { c with sr := { c.sr with engsel := BitVec.ofNat 8 (c.sr.engsel.toNat / 4 * 4 + v % 4) } }
  | 0x213 => { c with sr := { c.sr with engsel := BitVec.ofNat 8 (c.sr.engsel.toNat / 32 * 32 + v % 8 * 4 + c.sr.engsel.toNat % 4) } }
  | _ => c

def engMex (c : Ctx) : Nat := bits c.sr.engsel.toNat 1 0
def engCpy (c : Ctx) : Nat := bits c.sr.engsel.toNat 4 2
def engGlz (c : Ctx) : Nat := bits c.sr.engsel.toNat 5 5
def engRtc (c : Ctx) : Nat := bits c.sr.engsel.toNat 7 6

/-! ## Landing -/

def latchIx (unit : Nat) (y : Bool) : Nat := unit * 2 + b2n y
def valSc : Val → Sc
  | .sc x => x
  | .vec _ => .zero
  | .mask _ => .zero
def valVec : Val → List Lane
  | .sc _ => vecZero
  | .vec x => x
  | .mask _ => vecZero
def valMask : Val → List MLane
  | .sc _ => maskZero
  | .vec _ => maskZero
  | .mask x => x

/-- A main-file write becomes visible (R28, R47, R245). -/
def landMain (i : Nat) (v : Val) (c : Ctx) : Ctx :=
  if i < 0x40 then { c with g := c.g.set i (valSc v) }
  else if i < 0x60 then setV (i - 0x40) { getV c (i - 0x40) with st := .resident, val := valVec v, bound := none } c
  else if i < 0x68 then { c with m := c.m.set (i - 0x60) (valMask v) }
  else { c with p := c.p.set (i - 0x68) (decide ((valSc v).v ≠ 0), (valSc v).p) }

/-- The address of the first sidecar that failed stays until a trap (R65). -/
def noteParity (a : Dword) (c : Ctx) : Ctx := if c.parity = 0 then { c with parity := a } else c

/-- One fixed-latency result lands, without its flags. -/
def landFixed (f : Flight) (c : Ctx) : Ctx :=
  let c := noteParity f.parity c
  match f.dst with
  | .main i => landMain i f.val c
  | .oper i => if i < 0x10 then { c with o := c.o.set i (valSc f.val) } else { c with vo := c.vo.set (i - 0x10) (valVec f.val) }
  | .latch u y => { c with latches := c.latches.set (latchIx u y) f.val }
  | .special i => writeSr i (valSc f.val).v.toNat c
  | .flags => c

/-- One timed request lands (R51, R154, R248). The bytes of an invalid pattern descriptor stand in the register, for PGET to show (DESIGN
CHOICE, log entry 145). A sketch definition that would leave a dropped name deeper than two levels, which R247 forbids, leaves its entry
cleared, as an invalid one does (DESIGN CHOICE, log entry 150). -/
def landTimed (l : Landing) (c : Ctx) : Ctx :=
  match l.dst, l.data with
  | .latch u, .value v par => noteParity par { c with latches := c.latches.set (latchIx u false) v }
  | .pattern k, .desc bs bad =>
    { c with pats := c.pats.set k ⟨bs, patternOk bs, bad⟩ }
  | .sketch k frm, .desc bs bad =>
    let defined := { c with sketches := c.sketches.set k ⟨bs, true, frm, bad⟩ }
    if sketchOk bs && !tooDeep 32 c defined then defined else { c with sketches := c.sketches.set k .cleared }
  | _, _ => c

/-- A timed request or a fixed-latency result that lands. -/
inductive Due where
  | timed (l : Landing)
  | fixed (f : Flight)
/-- The position of the bundle that triggered it. -/
def Due.issued : Due → Nat
  | .timed l => l.issued
  | .fixed f => f.issued
/-- Whether it defines a sketch entry. Definitions are tested against the names as the other results of their position leave them
(R247, R248). -/
def Due.defines : Due → Bool
  | .timed l => match l.dst with
    | .sketch _ _ => true
    | _ => false
  | .fixed _ => false
def landOne : Due → Ctx → Ctx
  | .timed l => landTimed l
  | .fixed f => landFixed f
/-- What lands at one position, in the order in which it was triggered, so that a latch keeps the result triggered last (R48);
definitions of sketches come last. -/
def dueAt (q : Nat) (c : Ctx) : List Due :=
  sortBy (fun x => b2n x.defines) <| sortBy Due.issued ((c.landing.filter fun l => l.land == q).map Due.timed ++ (c.flight.filter fun f => f.land == q).map Due.fixed)
/-- Everything that lands at one position, then the flags (R80). -/
def landAt (q : Nat) (c : Ctx) : Ctx :=
  let c1 := { c with landing := c.landing.filter (fun l => l.land != q), flight := c.flight.filter (fun f => f.land != q) }
  let c2 := (dueAt q c).foldl (fun c x => landOne x c) c1
  { c2 with sr := { c2.sr with fflags := (c.flight.filter fun f => f.land == q).foldl (fun a f => a ||| f.flags) c2.sr.fflags } }

/-- Lands everything due at or before a position, position by position. -/
def landDue (p : Nat) (c : Ctx) : Ctx :=
  let qs := (c.landing.map (·.land) ++ c.flight.map (·.land)).filter (fun q => decide (q ≤ p))
  (sortBy id qs.eraseDups).foldl (fun c q => landAt q c) c

/-- Whether a timed request due at this position has no data that a bundle of this cycle can read: none has arrived, or it arrived
in this same cycle (R54). -/
def frozen (now : Nat) (c : Ctx) : Bool := c.landing.any fun l => decide (l.land ≤ c.bclk) && !(l.arrived && decide (l.since ≤ now))

/-- The context as the bundle at its position sees it. -/
def seen (c : Ctx) : Ctx := landDue c.bclk c

/-! ## Instruction lines (R11 to R15) -/

/-- The syllables of opened line bytes (R10). -/
def lineSyls : List Byte → List Syllable
  | a :: b :: c :: r => BitVec.ofNat 24 (a.toNat + 256 * b.toNat + 65536 * c.toNat) :: lineSyls r
  | _ => []

/-- The tag of a line (R12). -/
def lineTag (key : List Byte) (n : Nat) (ct : List Byte) : Nat :=
  ofBytes (Crypto.kmac256 key (toBytes 4 n ++ ct) [0x4A, 0x44, 0x59, 0x20, 0x49, 0x4D, 0x45, 0x4D] 8)
/-- A line as it enters a fetch buffer: checked against its tag and decrypted, or failed (R12, R14). -/
def openLine (s : State) (c : ClId) (n : Nat) : FetchLine :=
  let ct := memBytes s (physImem c (48 * n)) 48
  let k := (getCl s c).key
  match assoc n (getCl s c).tags with
  | none => ⟨n, true, []⟩
  | some t =>
    if lineTag k n ct = t.toNat then
      ⟨n, false, lineSyls (Crypto.xtsOpen k n ct)⟩
    else ⟨n, true, []⟩

/-- A line of a core's fetch buffer. -/
def bufLine (s : State) (c : CoreId) (n : Nat) : Option FetchLine := (getCore s c).fetch.find? fun l => l.line == n
/-- A syllable through the fetch buffer: none while the line is not there; some none when it failed. -/
def fetchSyl (s : State) (c : CoreId) (a : Nat) : Option (Option Syllable) :=
  match bufLine s c (a / 16) with
  | none => none
  | some l => if l.failed then some none else some (some (l.syl.getD (a % 16) 0))
/-- A syllable looked at ahead of its fetch; none when its line fails. -/
def peekSyl (s : State) (c : CoreId) (a : Nat) : Option Syllable :=
  let l := (bufLine s c (a / 16)).getD (openLine s c.clId (a / 16))
  if l.failed then none else some (l.syl.getD (a % 16) 0)

/-! ## Nodes -/

def NodeSt.code : NodeSt → Nat
  | .dormant => 0
  | .armed => 1
  | .ready => 2
  | .placed => 3
  | .running => 4
  | .committing => 5
  | .done => 6
  | .failed => 7
  | .killed => 8
def nodeWorld (d : Node) : Bool := recField d 1 42 42 == 1
/-- The status dword (R286). -/
def statusDword (d : Node) : Nat :=
  d.exitSt.toNat * 2 ^ 32 + d.firings % 256 * 2 ^ 24 + d.attempts % 256 * 2 ^ 16 + d.reason * 2 ^ 8 + d.st.code
/-- The LPDDR byte behind an address of a graph, through the partition's tables of either world, the non-secure first (R284; DEDUCED, log
entry 126): records are read, and their status written, there. -/
def graphPhys (s : State) (part va : Nat) : Option Nat :=
  [false, true].findSome? fun world => match walk s part world none va with
    | .fault _ => none
    | .leaf e size => if isLpddr (pteFrame e) then some (ptePhys e size va) else none
/-- A barista's store of a dword at an address of a graph, one event (R286). In the second-level cache it belongs to no node (R360). -/
def baristaStore (d : Node) (va v : Nat) (s : State) : State :=
  match graphPhys s d.part va with
  | none => s
  | some a =>
    let ws := (toBytes 8 v).zipIdx.map fun (b, i) => (a + i, b)
    coreWrite outside none ws (dirtySectors .host (ws.map fun w => (⟨w.1, 0⟩, w.2)) s)
/-- A node's state change with its status store. -/
def setState (n : Nat) (d : Node) (s : State) : State := baristaStore d (d.graph + 64 * d.idx + 0x38) (statusDword d) (setNode n d s)

/-- Changes every context of a node. -/
def mapNodeCtxs (n : Nat) (f : CtxId → Ctx → Ctx) (s : State) : State :=
  { s with ctxs := s.ctxs.map fun (k, c) => if c.node = some n then (k, f k c) else (k, c) }
def isOfNode (s : State) (n : Nat) (c : CtxId) : Bool := nodeOf s c == some n

/-- Everything memory holds in a range is gone. -/
def eraseRange (lo n : Nat) (s : State) : State :=
  let out : Nat → Bool := fun a => decide (a < lo) || decide (lo + n ≤ a)
  { s with
    mem := Memory.clear s.mem lo (lo + n), marks := s.marks.filter fun x => out x.1, past := s.past.filter fun p => out p.addr,
    flips := s.flips.filter fun x => out x.1 }
/-- Bytes of a cluster image (R316, R318). -/
def imageBytes : Nat := 0x600000
/-- The image of a node is discarded: its slots are free. -/
def dropImages (v : Saved) (s : State) : State := (v.homes.zip v.slots).foldl (fun s x => eraseRange (imageBase x.1 x.2) imageBytes s) s

/-- The scratchpads of a handoff successor that is killed while saved stay for its replay (R367). -/
def keptImage (d : Node) : Option Saved :=
  d.saved.bind fun v => if (d.inherits || v.handoffOnly) && !v.slots.isEmpty then some ⟨v.homes, v.slots, v.sealed, [], [], [], [], [], [], true, v.order⟩ else none
/-- The saved commands of a node that is killed while saved end as for a killed context, apart from what lay in its image, which is discarded
(R265, R275, R328, R343). -/
def dropSaved (n : Nat) (d : Node) (s : State) : State :=
  match d.saved with
  | none => s
  | some v =>
    let s1 := v.copies.foldl (fun (s : State) (x : Nat × CpyCmd) =>
      completeCpy ⟨x.2.who.die, x.1⟩ x.2 (if bit (param x.2.par 0x0E) 63 then cpyBar s x.2 else none) x.2.chunk x.2.written 0 0 none true s) s
    let s2 := v.glazes.foldl (fun (s : State) (x : DieEng × GlzCmd) => abortPeers x.2 s) s1
    let s3 := v.paused.foldl (fun (s : State) (x : DieEng × GlzRun) => abortColl x.2.cmd.seq 0x0E 0 (forgetRequests d.part x.2.cmd.seq s)) s2
    let s4 : State := { s3 with
      colls := (s3.colls.map fun k => { k with reg := k.reg.filter fun y => !v.paused.any (fun x => x.2.cmd.seq == y.2) }).filter fun k => !k.reg.isEmpty }
    let s5 := v.retouches.foldl (fun (s : State) (x : Nat × RtcCmd) =>
      completeRtc ⟨0, x.1⟩ { x.2 with par := x.2.par.set 8 0 } x.2.done x.2.remapped x.2.iters 0 (rtcDetail x.2.remapped x.2.maxIter) true x.2.digests s) s4
    let s6 := renameCtxs (fun w => if w.die = 9 + n then none else some w) s5
    if (keptImage d).isSome then s6 else dropImages v s6

/-- The kill of a node (R366): its contexts stop, its staged writes are discarded, its commands end as for a killed context.
`double` says that a double fault kills it (R71). -/
def killNode (n : Nat) (double : Bool) (s : State) : State :=
  match getNode s n with
  | none => s
  | some d =>
    if d.st = .running ∨ d.st = .placed ∨ d.st = .committing ∨ d.saved.isSome then
      let s0 := dropSaved n d s
      let s1 := setState n { d with st := .killed, kill2 := double, stop := .kill, saved := keptImage d } s0
      let s2 := discardOverlays n (mapNodeCtxs n (fun _ c => { c with stopped := true }) s1)
      killCommands (isOfNode s2 n) s2
    else s

/-- What becomes of a killed node: re-queued, or the reason it fails with. A node that a staging overflow has made non-retryable fails with
reason 6 for a double fault too (R71, R365; DESIGN CHOICE, log entry 155). -/
def killVerdict (s : State) (d : Node) : Option Nat :=
  let retry := decide (d.attempts - b2n d.freed < recField d 1 39 36 + 1)
  if (getPart s d.part).zeroised then some 2
  else if d.noRetry then some 6
  else if d.kill2 then
    (if d.faulted then some 3 else if !d.durable then none else if retry then none else some 3)
  else if retry then none else some 2

/-! ## Fault records (R357, R358) -/

/-- The raw syndrome of an error is not published. -/
def freshSyndrome (s : State) : Nat × State := ((Config.syndrome s.free).toNat, { s with free := s.free + 1 })
/-- A record without an owner node. -/
def plainRecord (die source cls action low addr ecc mac loc : Nat) (part logKind : Option Nat) (s : State) : State :=
  let y := freshSyndrome s
  appendFault die part (fun q => faultRec q source cls action low addr y.1 ecc mac 0 0 0 (part.getD 0) loc (nanos s) 0) logKind y.2
/-- Kills a node for an error and records it (R361, R366): action 3 when it is to be re-queued, else 4. -/
def killFor (n die source cls low addr ecc ctxid loc frame : Nat) (s : State) (mac : Nat := 0) (logKind : Option Nat := none) : State :=
  match getNode s n with
  | none => s
  | some d =>
    let act := if (killVerdict s d).isNone then 3 else 4
    let low1 := low + (if s.overlay.any (fun x => x.1.1 == n) then 4 else 0)
    let y := freshSyndrome s
    appendFault die (some d.part) (fun q => faultRec q source cls act low1 addr y.1 ecc mac d.graph d.idx ctxid d.part loc (nanos s) frame) logKind
      (killNode n false y.2)
/-- Whether a node is running, placed, committing, or saved in the midst of its firing (R361). One for whose next firing only handed-over scratchpads
are saved is none of these. -/
def killable (s : State) (n : Nat) : Bool :=
  match getNode s n with
  | some d => d.st == .running || d.st == .placed || d.st == .committing || d.saved.any (!·.handoffOnly)
  | none => false
/-- The kill of a node whose image does not open (R325, R328): its tag fails, which is an integrity event, or its header is of another
revision. -/
def killImage (n : Nat) (tag : Bool) (s : State) : State :=
  let die := (((getNode s n).bind (·.saved)).bind (·.homes.head?)).elim 0 (·.die)
  if tag then killFor n die 6 3 0 0 0 0 0 0 s 2 (some 6) else killFor n die 6 0 0 0 0 0 0 0 s 0 (some 6)

/-! ## Traps -/

/-- A context that takes a double fault halts and its node is killed (R71). -/
def doubleFault (who : CtxId) (s : State) : State :=
  let s1 := updCtx who (fun c => { c with
    run := .halted, nap := .awake, flight := [], redirects := [], rft := none, calling := none, touchLost := none, replayTrap := none }) s
  match nodeOf s who with
  | some n => killNode n true s1
  | none => s1

/-- The snapshot of a context at its position (R68): results and requests with their remaining counts. -/
def snapshot (c : Ctx) : Snap where
  flight := c.flight.map fun f => { f with land := f.land - c.bclk }
  landing := c.landing.map fun l => { l with land := l.land - c.bclk }
  ports := c.ports
  latches := c.latches
  loopStart := c.loopStart
  loopCnt := c.loopCnt
  loopEnd := c.loopEnd
  redirects := c.redirects.map fun r => { r with pos := r.pos - c.bclk }
  twait := c.twait
  calling := c.calling.bind fun q => if c.bclk < q then some (q - c.bclk, c.pc) else none

/-- The context after trap entry: `c` as it stood before anything landed at the faulting bundle (R65, R68, R72). -/
def trapCtx (t : Trap) (c : Ctx) : Ctx :=
  { c with
    snap := some (snapshot c), flight := [], landing := [], redirects := [], twait := 0, rft := none, calling := none,
    touchLost := none, replayTrap := none, parity := 0, via := none, pc := c.sr.trapvec,
    sr := { c.sr with trappc := c.pc, trapcause := t.cause, info0 := BitVec.ofNat 64 t.info0, info1 := BitVec.ofNat 64 t.info1 } }

/-- Taking a trap (R68), or a double fault when the snapshot slot is occupied (R71). -/
def trapEnter (who : CtxId) (t : Trap) (s : State) : State :=
  if (getCtx s who).snap.isSome then doubleFault who s else updCtx who (trapCtx t) s

/-- The landing-buffer entries a context has taken and not released at position `p`: its own, and those of its snapshot whose
data has not arrived (R52, R68). -/
def bufferUse (c : Ctx) (p : Nat) : Nat :=
  (c.landing.filter fun l => decide (p < l.land)).length
    + (match c.snap with | some sn => (sn.landing.filter fun l => !l.arrived).length | none => 0)

/-- The counts of cancels triggered in a handler are results in flight, which never land once it has ended (R70). -/
def dropCounts (who : CtxId) (s : State) : State :=
  { s with cancels := s.cancels.map fun k => if k.who = who then { k with land := none } else k }

/-- Where an RFT resumes (R70): at the TRAPPC that its bundle saw (R124), or behind the bundle there; none when that is no bundle. Flow goes
behind a skipped bundle in sequence, so a syllable there without the signature is trap 0x01 (DESIGN CHOICE, log entry 153). -/
def resumeAt (s : State) (who : CtxId) (r : RftPend) : Option Nat :=
  if r.mode ≠ 1 then some r.pc
  else match peekSyl s who.coreId r.pc with
    | some w => if isHeader w then some ((r.pc + (headerFields w).length) % 2 ^ 18) else none
    | none => none
/-- The end of a handler (R70), once the bundles h, h+1 and h+2 of its RFT have issued: discards its fixed results in flight, lets
its timed requests go on, restores the snapshot and resumes. Captured requests and the handler's own may then hold more than 16
landing-buffer entries together (DESIGN CHOICE, log entry 141). -/
def finishRft (who : CtxId) (s : State) : State :=
  let c := getCtx s who
  match c.rft, c.snap with
  | some r, some sn =>
    let mode := r.mode
    let dest := resumeAt s who r
    let at0 := if mode = 1 then 1 else 0
    let rs := sn.redirects.map fun r => { r with pos := r.pos + c.bclk - at0 }
    let due := (rs.filter fun r => decide (r.pos ≤ c.bclk)).getLast?
    let c1 := { c with
      snap := none, rft := none, calling := sn.calling.map fun k => k.1 + c.bclk - at0,
      flight := sn.flight.map fun f => { f with land := f.land + c.bclk - at0 },
      landing := (sn.landing.map fun l => { l with land := l.land + c.bclk - at0 }) ++ c.landing,
      ports := sn.ports, latches := sn.latches, loopStart := sn.loopStart, loopCnt := sn.loopCnt, loopEnd := sn.loopEnd,
      redirects := rs.filter fun r => decide (c.bclk < r.pos),
      twait := if mode = 0 then c.twait ||| sn.twait else c.twait,
      pc := dest.getD r.pc, via := if mode = 1 ∧ dest.isSome then none else some r.src }
    let c2 := match due with
      | some d => if dest.isNone then c1 else { c1 with pc := d.target, via := some d.src }
      | none => c1
    setCtx who c2 (dropCounts who s)
  | _, _ => s

/-! ## Retirement (R121) -/

/-- The context after EXIT with a status. -/
def retireCtx (status : Word32) (c : Ctx) : Ctx :=
  { c with run := .retired, nap := .awake, exitStatus := status, flight := [], landing := [], redirects := [], snap := none, rft := none,
           calling := none, v := List.replicate 32 .unwritten, twait := 0, touchLost := none, replayTrap := none }

/-- EXIT of a context: a nonzero status stops the node's other contexts and removes their queued commands. -/
def retire (who : CtxId) (status : Word32) (s : State) : State :=
  let s1 := updCtx who (retireCtx status) s
  if status = 0 then s1
  else match nodeOf s who with
    | none => s1
    | some n => match getNode s1 n with
      | none => s1
      | some d =>
        let s2 := setNode n { d with stop := .exit, exitSt := status } s1
        let s3 := mapNodeCtxs n (fun k c => if k = who then c else { c with stopped := true }) s2
        let other : CtxId → Bool := fun k => isOfNode s3 n k && decide (k ≠ who)
        (removeQueued (fun c => other c.who) (fun c => other c.who) (fun c => other c.who) (fun c => other c.who) s3).2

/-! ## Wall time (R45, R172) -/

/-- A pour lands as one event of every receiving scratchpad. -/
def landPour (p : Pour) (s : State) : State :=
  coreWrite p.who none (p.targets.flatMap fun c => p.data.zipIdx.map fun (b, i) => (physSpad c (p.off + i), b)) s

/-- When, from the start of this tick, an island's cycle `n` ends, in 2^-24 of a tick: exact enough to order the ends of cycles of any two
islands, whose rates are whole and at most 1800. -/
def cycleEnd (s : State) (c : ClId) (n : Nat) : Nat :=
  let x := getIsland s c.die (islandOf c)
  (1800 * (n + 1) - x.run) * 2 ^ 24 / x.rate
/-- Whether this tick is the last of the island's cycle. -/
def lastTick (s : State) (c : ClId) : Bool :=
  let x := getIsland s c.die (islandOf c)
  decide (x.run / 1800 < (x.run + x.rate) / 1800)
/-- The landing instant of a pour, which is the end of its landing cycle (R205). -/
def pourEnd (s : State) (p : Pour) : Nat := cycleEnd s p.who.clId p.due
/-- The pours land whose landing instant in this tick is before `upto`, in the order of these instants. -/
def landPours (upto : Nat) (s : State) : State :=
  let due := sortBy (pourEnd s) (s.pours.filter fun p => decide (pourEnd s p < upto))
  due.foldl (fun s p => landPour p s) { s with pours := s.pours.filter fun p => !decide (pourEnd s p < upto) }

/-- The end of a tick: cancels act, the pours of the tick land, the clocks go on, and weight loads and row captures read their part. -/
def tick (s : State) : State :=
  let s1 := landPours (2 ^ 24 + 1) (applyCancels s)
  captureReads (nominal s) (mldwReads s1 (runClocks s1))

/-! ## Events -/

/-- An event: what it does when it is due, nothing when it is not; a fault when the package has no such subject. -/
def eventStep (named : Bool) (r : Option State) (s : State) : Host.Outcome State Fault Refusal :=
  if named then .next (r.getD s) else .fault .noSuchUnit

end Sys2Proof.Machine
end

