-- ==== Sys2Proof/Machine/Operands.lean ====
section
/-! DEFINITION. What a move reads and writes: source values and types (R21, R26, R30), broadcast and mismatch (R31), guards
(R20), operand ports (R24, R25) and the points where poison traps (R64, R65). -/

namespace Sys2Proof.Machine

/-- The low 64 bits of an integer. -/
def dwordOf (z : Int) : Dword := BitVec.ofInt 64 z

/-- An immediate's value (R26): short codes and the four long forms. -/
def immWord (longs : List Syllable) : Source → Dword
  | .short i => if i < 0x80 then BitVec.ofNat 64 i else dwordOf ((i : Int) - 0xF0)
  | .long0 => dwordOf (toSigned 24 (longs.getD 0 0).toNat)
  | .long1 => dwordOf (toSigned 24 (longs.getD 1 0).toNat)
  | .longBoth => dwordOf (toSigned 48 ((longs.getD 0 0).toNat * 2 ^ 24 + (longs.getD 1 0).toNat))
  | .long0z => BitVec.ofNat 64 (longs.getD 0 0).toNat
  | _ => 0

/-- How many long immediates a source needs the header to provide (R26). -/
def longNeed : Source → Nat
  | .long0 => 1
  | .long0z => 1
  | .long1 => 2
  | .longBoth => 2
  | _ => 0

/-- A latch's value; a latch that has had no landing holds a scalar zero (R30, R97). -/
def readLatch (c : Ctx) (unit : Nat) (y : Bool) : Val := c.latches.getD (latchIx unit y) (.sc .zero)

/-- A predicate read as a scalar 0 or 1 (R21). -/
def readP (c : Ctx) (i : Nat) : Sc :=
  let x := c.p.getD (i - 1) (false, false)
  ⟨if x.1 then 1 else 0, x.2⟩

/-- The value of a source as the bundle sees it (R21, R26). -/
def readSrc (c : Ctx) (longs : List Syllable) : Source → Val
  | .g i => .sc (c.g.getD i .zero)
  | .v i => .vec (readV c i)
  | .m i => .mask (c.m.getD i maskZero)
  | .p i => .sc (readP c i)
  | .o i => .sc (c.o.getD i .zero)
  | .vo i => .vec (c.vo.getD i vecZero)
  | .latch u y => readLatch c u y
  | .short i => .sc ⟨immWord longs (.short i), false⟩
  | .long0 => .sc ⟨immWord longs .long0, false⟩
  | .long1 => .sc ⟨immWord longs .long1, false⟩
  | .longBoth => .sc ⟨immWord longs .longBoth, false⟩
  | .long0z => .sc ⟨immWord longs .long0z, false⟩

/-- The type of a source (R30). -/
def srcTy (c : Ctx) : Source → Ty
  | .v _ => .v
  | .vo _ => .v
  | .m _ => .m
  | .latch u y => (readLatch c u y).ty
  | _ => .s

/-- The type of an operand port (R94). -/
def portTy (unit k : Nat) : Ty := (portTypes.getD unit []).getD k .s

/-- The type of a register or operand-port destination (R30). -/
def destTy : Dest → Ty
  | .port u k => portTy u k
  | .v _ => .v
  | .vo _ => .v
  | .m _ => .m
  | _ => .s

/-- Whether a source of one type may go to a destination of another (R31). -/
def Ty.takes (dst src : Ty) : Bool := decide (src = .s) || decide (src = dst)

/-- The value a destination of a type receives (R31): a scalar is broadcast with its tag. -/
def broadcast (dst : Ty) (v : Val) : Val :=
  match dst, v with
  | .s, v => v
  | .v, .sc x => .vec (List.replicate 128 ⟨x.v.setWidth 32, x.p⟩)
  | .v, v => v
  | .m, .sc x => .mask (List.replicate 128 ⟨bit x.v.toNat 0, x.p⟩)
  | .m, v => v

/-- The predicate a guard reads, and the value it wants (R20). -/
def guardOf : Guard → Option (Nat × Bool)
  | .always => none
  | .p1 => some (1, true)
  | .p2 => some (2, true)
  | .p3 => some (3, true)
  | .notP1 => some (1, false)
  | .notP2 => some (2, false)
  | .notP3 => some (3, false)
def guardPasses (c : Ctx) (g : Guard) : Bool :=
  match guardOf g with
  | none => true
  | some (i, b) => (c.p.getD (i - 1) (false, false)).1 == b
def guardPoisoned (c : Ctx) (g : Guard) : Bool :=
  match guardOf g with
  | none => false
  | some (i, _) => (c.p.getD (i - 1) (false, false)).2

/-- The main-file index of a source or destination, for the bank limits (R29). -/
def mainRead : Source → Option Nat
  | .g i => some i
  | .v i => some (0x40 + i)
  | .m i => some (0x60 + i)
  | .p i => some (0x67 + i)
  | _ => none
def mainWrite : Dest → Option Nat
  | .g i => some i
  | .v i => some (0x40 + i)
  | .m i => some (0x60 + i)
  | .p i => some (0x67 + i)
  | _ => none

/-- Where a move to a register lands, and after how many bundles (R47); none for an operand port. -/
def destFlight : Dest → Option (FlightDst × Nat)
  | .port _ _ => none
  | .g i => some (.main i, 2)
  | .v i => some (.main (0x40 + i), 2)
  | .m i => some (.main (0x60 + i), 2)
  | .p i => some (.main (0x67 + i), 2)
  | .o i => some (.oper i, 1)
  | .vo i => some (.oper (0x10 + i), 1)

/-- An operand port's value. -/
def getPort (c : Ctx) (unit k : Nat) : Val := c.ports.getD (unit * 4 + k) (Val.zero (portTy unit k))
def setPort (unit k : Nat) (v : Val) (c : Ctx) : Ctx := { c with ports := c.ports.set (unit * 4 + k) v }

/-! ## Poison (R63 to R65) -/

def Val.poisoned : Val → Bool
  | .sc x => x.p
  | .vec x => x.any (·.p)
  | .mask x => x.any (·.p)

/-- The trap at one of the five points: 0x0B with the sidecar parity record when that is nonzero (R65). -/
def poisonTrap (c : Ctx) (point slot : Nat) : Trap :=
  if c.parity = 0 then ⟨0x08, point, slot⟩ else ⟨0x0B, point, c.parity.toNat⟩

end Sys2Proof.Machine
end

