-- ==== Sys2Proof/Machine/Flags.lean ====
section
/-! DEFINITION. Rounding modes and the sticky flags (R77 to R80): the mode a trigger reads, and the flags of a vector as the OR
over the lanes it computes, poisoned or not. -/

namespace Sys2Proof.Machine

/-- The rounding mode a trigger reads: FRM as its bundle sees it (R77, R78). -/
def frmOf (c : Ctx) : Fp.Rm := .ofFrm c.sr.frm

/-- The OR of the flags of every computed lane (R79). -/
def orFlags (fs : List (BitVec 5)) : BitVec 5 := fs.foldl (· ||| ·) 0

/-- A lane of an FP32 result with the flags it raised. -/
structure FLane where
  lane : Lane
  fl : BitVec 5
  deriving DecidableEq, Repr

/-- A computed FP32 lane; its tag does not hide its flags. -/
def flane (r : Fp.R32) (p : Bool) : FLane := ⟨⟨r.v, p⟩, r.fl⟩
def fVal (ls : List FLane) : Val := .vec (ls.map (·.lane))
def fFlags (ls : List FLane) : BitVec 5 := orFlags (ls.map (·.fl))

end Sys2Proof.Machine
end

