-- ==== Sys2Proof/Machine/Issue.lean ====
section
/-! DEFINITION. Issue of one bundle: fetch (R14 to R17), readiness (R55 to R57), the order of causes (R34, R66, R67), reads,
port writes and register moves (R18, R25, R47), vector storage (R240), the triggered operations in unit order (R202) and the
flow that follows (R61, R62, R117 to R119, R130). A trigger instruction is an `OpDef`; its family file gives it. -/

namespace Sys2Proof.Machine

/-! ## Operations -/

/-- What a triggered operation reads: the context as its bundle sees it, the operands, and the bundle's own facts. -/
structure OpIn where
  who : CtxId
  slot : Nat
  /-- header address and length of the bundle -/
  h : Nat
  len : Nat
  /-- the bundle's position on the bundle clock -/
  pos : Nat
  c0 : Ctx
  a : Val
  b : Val
  c : Val
  d : Val
  t : Val
  /-- trigger fields of the bundle whose guards pass -/
  trigs : List Nat
  /-- vector names the bundle reads or writes (R241) -/
  busy : List Nat

/-- One trigger instruction: the type of its trigger port, the capacities it takes (R52, R53), the token it raises and whether
its queue is full (R55, R57), and what it does or which trap it raises. -/
structure OpDef where
  ty : Ty
  land : Nat := 0
  vecs : Nat := 0
  scs : Nat := 0
  tok : OpIn → Option Nat := fun _ => none
  full : OpIn → State → Bool := fun _ _ => false
  run : OpIn → State → Except Trap State
  /-- the lanes of a vector result alone, for a step of a sketch (R243, R246) -/
  step : Option (OpIn → Except Trap (List Lane)) := none

def OpIn.aN (x : OpIn) : Nat := (valSc x.a).v.toNat
def OpIn.bN (x : OpIn) : Nat := (valSc x.b).v.toNat
def OpIn.cN (x : OpIn) : Nat := (valSc x.c).v.toNat
def OpIn.dN (x : OpIn) : Nat := (valSc x.d).v.toNat
def OpIn.tN (x : OpIn) : Nat := (valSc x.t).v.toNat
def OpIn.aP (x : OpIn) : Bool := (valSc x.a).p
def OpIn.bP (x : OpIn) : Bool := (valSc x.b).p
def OpIn.cP (x : OpIn) : Bool := (valSc x.c).p
def OpIn.dP (x : OpIn) : Bool := (valSc x.d).p
def OpIn.tP (x : OpIn) : Bool := (valSc x.t).p
/-- Trap 0x01 by an operand value (R122, R137). -/
def OpIn.illegal (x : OpIn) : Trap := ⟨0x01, x.slot, 0⟩
def OpIn.poison (x : OpIn) (point : Nat) : Trap := poisonTrap x.c0 point x.slot

/-- Refuses with a trap when a condition holds. -/
def trapIf (b : Bool) (t : Trap) : Except Trap Unit := if b then .error t else .ok ()

def pushFlight (who : CtxId) (f : Flight) (s : State) : State := updCtx who (fun c => { c with flight := c.flight ++ [f] }) s

/-- Lands a value in a unit's latch x at a latency, with flags (R47, R80). -/
def landX (x : OpIn) (unit lat : Nat) (v : Val) (fl : BitVec 5) (s : State) : State :=
  pushFlight x.who ⟨x.pos + lat, .latch unit false, v, fl, 0, x.pos⟩ s
def landY (x : OpIn) (unit lat : Nat) (v : Val) (s : State) : State :=
  pushFlight x.who ⟨x.pos + lat, .latch unit true, v, 0, 0, x.pos⟩ s
/-- Lands a scalar in latch x. -/
def landSc (x : OpIn) (unit lat v : Nat) (p : Bool) (s : State) : State := landX x unit lat (.sc ⟨BitVec.ofNat 64 v, p⟩) 0 s
/-- A special-register write, seen from the next bundle (R47, R53). -/
def landSpecial (x : OpIn) (i v : Nat) (s : State) : State :=
  pushFlight x.who ⟨x.pos + 1, .special i, .sc ⟨BitVec.ofNat 64 v, false⟩, 0, 0, x.pos⟩ s

/-- Takes a landing-buffer entry, whose data is there already or not (R51, R52). -/
def enterBuffer (arrived : Bool) (x : OpIn) (delta : Nat) (dst : LandDst) (data : LandData) (s : State) : State :=
  updCtx x.who (fun c => { c with
    landing := c.landing ++ [⟨x.pos + delta, x.pos, x.slot, dst, arrived, data, c.nextId, 0⟩], nextId := c.nextId + 1 }) s
/-- A timed request whose data is still to arrive. -/
def takeEntry (x : OpIn) (delta : Nat) (dst : LandDst) (data : LandData) (s : State) : State := enterBuffer false x delta dst data s
/-- A timed request that is served at once (R305). -/
def takeHit (x : OpIn) (delta : Nat) (dst : LandDst) (data : LandData) (s : State) : State := enterBuffer true x delta dst data s
/-- The arrival delta of an operand (R51). -/
def arrival (n : Nat) : Nat := if n < 16 then 16 else if 4095 < n then 4095 else n

/-! ## Bundles -/

/-- A move in its slot, field by field, with the operation its trigger names. -/
structure SlotMove where
  slot : Nat
  g : Option Guard
  src : Except Reject Source
  dst : Except Reject Target
  field : Nat
  op : Option OpDef

/-- A fetched bundle: header address and fields, whether the header carries its signature and is legal, whether the bundle
lies inside instruction memory, its moves and long immediates (R16, R32). -/
structure Bundle where
  h : Nat
  hdr : Header
  sig : Bool
  legal : Bool
  fits : Bool
  moves : List SlotMove
  longs : List Syllable

/-- What fetch finds at a context's pc. -/
inductive Fetched where
  | missing (line : Nat)
  | failed (line : Nat)
  | got (b : Bundle)

/-- The operation of a legal destination. -/
def opOf (ops : Nat → Option OpDef) (d : Except Reject Target) (field : Nat) : Option OpDef :=
  match d with
  | .ok (.trig _ _) => ops field
  | _ => none

/-- A move syllable in its slot (R19). -/
def slotMove (ops : Nat → Option OpDef) (slot : Nat) (w : Syllable) : SlotMove :=
  let d := decodeDest (w.toNat % 2048)
  ⟨slot, decodeGuard (w.toNat / 2 ^ 21), decodeSource (w.toNat / 2 ^ 11 % 1024), d, w.toNat % 2048, opOf ops d (w.toNat % 2048)⟩

/-- The syllables at these addresses; the first line that is missing or failed otherwise. -/
def fetchAll (s : State) (c : CoreId) : List Nat → Except Fetched (List Syllable)
  | [] => .ok []
  | a :: r =>
    match fetchSyl s c a, fetchAll s c r with
    | none, _ => .error (.missing (a / 16))
    | some _, .error (.missing l) => .error (.missing l)
    | some none, _ => .error (.failed (a / 16))
    | some (some _), .error e => .error e
    | some (some w), .ok ws => .ok (w :: ws)

/-- The bundle at a context's pc through its core's fetch buffer (R14, R16). A header with the illegal long-immediate count 3 is
taken to have three long immediates: they belong to the bundle's extent, and references to the first two count as provided
(DESIGN CHOICE, log entry 115). -/
def fetchBundle (ops : Nat → Option OpDef) (s : State) (who : CtxId) : Fetched :=
  let h := (getCtx s who).pc
  match fetchSyl s who.coreId h with
  | none => .missing (h / 16)
  | some none => .failed (h / 16)
  | some (some w) =>
    if !isHeader w then .got ⟨h, headerFields w, false, false, true, [], []⟩
    else
      let hdr := headerFields w
      let fits := decide (h + hdr.length ≤ 2 ^ 18)
      match fetchAll s who.coreId ((List.range (hdr.length - 1)).map (h + 1 + ·) |>.filter (· < 2 ^ 18)) with
      | .error e => e
      | .ok ws =>
        let slots := slotsOf hdr.mask
        .got ⟨h, hdr, true, decide (hdr.longs ≠ 3) && !bit w.toNat 0, fits,
          (slots.zip ws).map fun (k, m) => slotMove ops k m, ws.drop slots.length⟩

/-! ## Encoding faults (R32 to R34) -/

def badUnit {α : Type} : Except Reject α → Option Nat
  | .error (.unit u) => some u
  | _ => none
def badField {α : Type} : Except Reject α → Bool
  | .error (.unit _) => false
  | .error _ => true
  | .ok _ => false

/-- A move whose own fields are illegal, or that wants a long immediate the header does not provide. -/
def SlotMove.illegal (longs : Nat) (m : SlotMove) : Bool :=
  m.g.isNone || badField m.src || badField m.dst || (match m.src with | .ok x => decide (longs < longNeed x) | .error _ => false)

/-- Equal for two moves that name one destination or trigger one unit. -/
def SlotMove.key (m : SlotMove) : Nat :=
  match m.dst with
  | .ok (.trig u _) => 4096 + u
  | _ => m.field
def SlotMove.dup (ms : List SlotMove) (m : SlotMove) : Bool := ms.any fun x => x.slot != m.slot && x.key == m.key

def SlotMove.reads (m : SlotMove) : Option Nat := match m.src with | .ok x => mainRead x | .error _ => none
def SlotMove.writes (m : SlotMove) : Option Nat := match m.dst with | .ok (.reg d) => mainWrite d | _ => none

/-- How many of these indices lie in the bank of `i` (R29). -/
def inBank (i : Nat) (l : List Nat) : Nat := (l.filter fun j => j % 4 == i % 4).length

/-- The first move, in ascending slot order, that exceeds a bank limit (R29). -/
def bankFault : List SlotMove → List Nat → List Nat → Option Nat
  | [], _, _ => none
  | m :: r, rd, wr =>
    let rd' := match m.reads with | some i => if rd.contains i then rd else i :: rd | none => rd
    let wr' := match m.writes with | some i => i :: wr | none => wr
    let crowded := (match m.reads with | some i => decide (2 < inBank i rd') | none => false)
      || (match m.writes with | some i => decide (2 < inBank i wr') | none => false)
    if crowded then some m.slot else bankFault r rd' wr'

/-- The slot trap 0x01 reports for an encoding fault: 0xFF when only the header or the extent is at fault; none when the bundle
has no encoding fault. -/
def encFault (b : Bundle) : Option Nat :=
  let bank := bankFault b.moves [] []
  match b.moves.find? fun m => m.illegal b.hdr.longs || m.dup b.moves || bank == some m.slot with
  | some m => some m.slot
  | none => if b.legal && b.fits then none else some 0xFF

/-! ## Moves that take effect -/

/-- A move that is legal throughout. -/
structure Live where
  slot : Nat
  g : Guard
  src : Source
  dst : Target
  field : Nat
  op : Option OpDef

def SlotMove.live (m : SlotMove) : Option Live :=
  match m.g, m.src, m.dst with
  | some g, .ok src, .ok dst => some ⟨m.slot, g, src, dst, m.field, m.op⟩
  | _, _, _ => none

def Live.ty (m : Live) : Ty :=
  match m.dst with
  | .reg d => destTy d
  | .trig _ _ => match m.op with | some o => o.ty | none => .s
def Live.val (c : Ctx) (longs : List Syllable) (m : Live) : Val := broadcast m.ty (readSrc c longs m.src)
def Live.mismatch (c : Ctx) (m : Live) : Bool := !(m.ty.takes (srcTy c m.src))

/-- The moves of a bundle whose guards pass. -/
def passing (c : Ctx) (b : Bundle) : List Live := (b.moves.filterMap SlotMove.live).filter fun m => guardPasses c m.g

/-- Capacities a move takes: landing entries, vector or mask results, scalar results (R52, R53). -/
def Live.cost (m : Live) : Nat × Nat × Nat :=
  match m.dst with
  | .reg (.port _ _) => (0, 0, 0)
  | .reg d => if destTy d = .s then (0, 0, 1) else (0, 1, 0)
  | .trig _ _ => match m.op with | some o => (o.land, o.vecs, o.scs) | none => (0, 0, 0)

/-- Results in flight at a position, by kind (R53). The flags of a store, which land without a result, do not count (DESIGN CHOICE, log entry
142). -/
def flightVecs (c : Ctx) (p : Nat) : Nat := (c.flight.filter fun f => decide (p < f.land) && f.dst != .flags && f.val.ty != .s).length
def flightScs (c : Ctx) (p : Nat) : Nat := (c.flight.filter fun f => decide (p < f.land) && f.dst != .flags && f.val.ty == .s).length

/-- The lowest slot whose move finds no capacity, and its kind (R34, R52, R53). A move with a reserved unit takes none (DESIGN CHOICE, log
entry 138). -/
def capFault : List Live → Nat × Nat × Nat → Option (Nat × Nat)
  | [], _ => none
  | m :: r, (a, v, x) =>
    let k := m.cost
    if 16 < a + k.1 ∧ 0 < k.1 then some (m.slot, 1)
    else if 24 < v + k.2.1 ∧ 0 < k.2.1 then some (m.slot, 2)
    else if 64 < x + k.2.2 ∧ 0 < k.2.2 then some (m.slot, 3)
    else capFault r (a + k.1, v + k.2.1, x + k.2.2)

/-! ## The bundle's view -/

/-- The operand ports with the bundle's own writes (R25). -/
def withPorts (longs : List Syllable) (c : Ctx) (ms : List Live) : Ctx :=
  ms.foldl (fun acc m => match m.dst with | .reg (.port u k) => setPort u k (m.val c longs) acc | _ => acc) c

def trigFields (ms : List Live) : List Nat := ms.filterMap fun m => match m.dst with | .trig _ _ => some m.field | .reg _ => none

/-- Vector names a list of moves writes, ascending, and reads. -/
def vWrites (ms : List Live) : List Nat :=
  sortBy id (ms.filterMap fun m => match m.dst with | .reg (.v n) => some n | _ => none)
def vReads (ms : List Live) : List Nat := ms.filterMap fun m => match m.src with | .v n => some n | _ => none
/-- The names that eviction leaves to a bundle (R241). -/
def busyNames (ms : List Live) : List Nat := vReads ms ++ vWrites ms

/-- What the operation of a trigger move reads. -/
def opIn (who : CtxId) (b : Bundle) (c : Ctx) (ms : List Live) (m : Live) : OpIn :=
  let c1 := withPorts b.longs c ms
  let u := m.field / 32
  ⟨who, m.slot, b.h, b.hdr.length, c.bclk, c1, getPort c1 u 0, getPort c1 u 1, getPort c1 u 2, getPort c1 u 3, m.val c b.longs, trigFields ms,
    busyNames ms⟩

/-- The triggers of a bundle with their operations, in the order of R202's list: by ascending unit id. An RDEF therefore does not see a
store by vls of its own bundle (DEDUCED, log entry 160). -/
def triggers (who : CtxId) (b : Bundle) (c : Ctx) (ms : List Live) : List (OpDef × OpIn) :=
  (sortBy (·.field) ms).filterMap fun m => match m.op with | some o => some (o, opIn who b c ms m) | none => none

/-! ## Readiness (R55 to R57) -/

/-- Tokens a bundle awaits: its header's and those a TWAIT of the bundle before named (R56). -/
def awaited (c : Ctx) (b : Bundle) : Nat := if b.sig then b.hdr.await ||| c.twait else c.twait
def tokensClear (now : Nat) (c : Ctx) (mask : Nat) : Bool :=
  (List.range 8).all fun t => !bit mask t || ((getTok c t).count == 0 && decide ((getTok c t).since ≤ now))

/-- Whether some command of the bundle finds its queue full or would raise a token count above 15. -/
def blocked (s : State) (c : Ctx) (os : List (OpDef × OpIn)) : Bool :=
  os.any (fun x => x.1.full x.2 s) ||
  (List.range 8).any fun t =>
    let n := (os.filter fun x => x.1.tok x.2 == some t).length
    decide (0 < n) && decide (15 < (getTok c t).count + n)

/-- Whether a context may try its next bundle at all. -/
def awake (s : State) (who : CtxId) (c : Ctx) : Bool :=
  c.run == .runnable && c.nap == .awake && !c.stopped && !s.viral && c.yieldAt != some (clk s who.clId) && !frozen (clk s who.clId) c

/-- Names a bundle reads that need a replay first, ascending (R246). -/
def replayNames (c : Ctx) (ms : List Live) : List Nat :=
  sortBy id ((ms.filterMap fun m => match m.src with | .v n => if needsReplay c n then some n else none | _ => none).eraseDups)

/-! ## Judging a bundle -/

/-- What becomes of a bundle in a cycle. -/
inductive Verdict where
  /-- not ready -/
  | wait
  /-- ready but for the replay of a name (R246) -/
  | stall (name : Nat)
  /-- a trap, from the context as it stood before anything landed at the bundle (R68) -/
  | trap (t : Trap) (c : Ctx)
  /-- no fault that comes before those of the triggered operations -/
  | go

def dropEntry (l : Landing) (c : Ctx) : Ctx := { c with landing := c.landing.filter fun x => x.id != l.id }

/-- The due touch whose walk faulted (R182), and the due load with an integrity failure that decides (R34, R356). -/
def dueWalkFault (c : Ctx) : Option (Landing × Nat × Nat) :=
  c.landing.findSome? fun l => match l.data with
    | .walkFault va k => if l.land ≤ c.bclk then some (l, va, k) else none
    | _ => none
def dueIntegrity (c : Ctx) : Option (Landing × Nat) :=
  (sortBy (fun l => l.issued * 16 + l.slot) c.landing).findSome? fun l => match l.data with
    | .integrity va => if l.land ≤ c.bclk then some (l, va) else none
    | _ => none

/-- The awaited token that trap 0x0C reports: the lowest-numbered one whose error bit is set (R56; which of several the spec leaves open,
DESIGN CHOICE, log entry 154). -/
def tokenError (c : Ctx) (mask : Nat) : Option Nat := (List.range 8).find? fun t => bit mask t && (getTok c t).err
/-- Trap 0x0C clears the error bit; the reports that date from it begin anew (R56, R264). -/
def clearError (t : Nat) (c : Ctx) : Ctx :=
  let fresh : List Report → List Report := fun rs => rs.set t ⟨none, (rs.getD t .none).last⟩
  { setTok t { getTok c t with err := false, first := 0 } c with cpyRep := fresh c.cpyRep, glzRep := fresh c.glzRep, rtcRep := fresh c.rtcRep }

/-- Causes 2 to 4 of R34, which the bits of the bundle do not decide. -/
def outerTrap (c : Ctx) : Option (Trap × Ctx) :=
  match c.touchLost with
  | some (va, k) => some (⟨0x0F, va, k⟩, c)
  | none =>
    match dueWalkFault c with
    | some (l, va, k) => some (⟨0x05, va, k⟩, dropEntry l c)
    | none =>
      match dueIntegrity c with
      | some (l, va) => some (⟨0x06, va, 4⟩, dropEntry l c)
      | none => none

/-- Causes 5 to 8 of R34. `c` is the context as the bundle sees it. A first syllable without the signature that no transfer led to, a
context's entry point included, is trap 0x01 with TRAPINFO0 0xFF (DESIGN CHOICE for the entry point, log entry 121). -/
def bitsTrap (c : Ctx) (b : Bundle) : Option Trap :=
  if !b.sig then some (match c.via with | some h => ⟨0x04, h, 0⟩ | none => ⟨0x01, 0xFF, 0⟩)
  else
    match encFault b with
    | some k => some ⟨0x01, k, 0⟩
    | none =>
      match capFault (passing c b) (bufferUse c c.bclk, flightVecs c c.bclk, flightScs c c.bclk) with
      | some (k, kind) => some ⟨0x01, k, kind⟩
      | none =>
        match b.moves.find? fun m => (badUnit m.src).isSome || (badUnit m.dst).isSome with
        | some m => some ⟨0x02, m.slot, (match badUnit m.src with | some u => u | none => (badUnit m.dst).getD 0)⟩
        | none =>
          match (b.moves.filterMap SlotMove.live).find? (Live.mismatch c) with
          | some m => some ⟨0x03, m.slot, m.field⟩
          | none => none

/-- The verdict on what fetch found, up to cause 10 of R34. A bundle any of whose syllables lie in a failed line raises 0x11 once TWAIT's
tokens are clear, without waiting for the tokens of a header that lies in a good line (DESIGN CHOICE, log entry 122). -/
def judge (s : State) (who : CtxId) (f : Fetched) : Verdict :=
  let c := getCtx s who
  if !awake s who c then .wait
  else
    match f with
    | .missing _ => .wait
    | .failed l => if tokensClear (clk s who.clId) c c.twait then .trap ⟨0x11, l, 0⟩ c else .wait
    | .got b =>
      let cs := seen c
      let ms := passing cs b
      if !tokensClear (clk s who.clId) c (awaited c b) || blocked s cs (triggers who b cs ms) then .wait
      else
        match outerTrap c with
        | some (t, c') => .trap t c'
        | none =>
          match bitsTrap cs b with
          | some t => .trap t c
          | none =>
            match c.replayTrap with
            | some (n, cause, i1) => .trap ⟨cause, n, i1⟩ c
            | none =>
              match replayNames cs ms with
              | n :: _ => .stall n
              | [] =>
                match tokenError c (awaited c b) with
                | some t => .trap ⟨0x0C, t, (getTok c t).first.toNat⟩ (clearError t c)
                | none => .go

/-! ## Performing a bundle -/

/-- Puts a register move in flight. -/
def moveFlight (longs : List Syllable) (c0 : Ctx) (m : Live) (c : Ctx) : Ctx :=
  match m.dst with
  | .reg d => match destFlight d with
    | some (f, l) => { c with flight := c.flight ++ [⟨c0.bclk + l, f, m.val c0 longs, 0, 0, c0.bclk⟩] }
    | none => c
  | .trig _ _ => c

/-- Storage for every vector name the bundle writes, in ascending register number, each write put in flight with it (R240);
the context, or the name for which none is left. -/
def takeAll (longs : List Syllable) (c0 : Ctx) (ms : List Live) (busy : List Nat) : List Nat → Ctx → Except Nat Ctx
  | [], c => .ok c
  | n :: r, c =>
    match takeStorage busy n c with
    | none => .error n
    | some c' => takeAll longs c0 ms busy r ((ms.filter fun m => m.dst == .reg (.v n)).foldl (fun c m => moveFlight longs c0 m c) c')

/-- A name's last access is this bundle (R241). -/
def touchNames (ns : List Nat) (c : Ctx) : Ctx := ns.foldl (fun c n => setV n { getV c n with access := c.bclk } c) c

/-- The LOOPEND decision of a bundle from the loop state before it: the count afterwards, and whether the loop returns (R62). -/
def loopStep (c : Ctx) (h : Nat) : Nat × Bool :=
  if h = c.loopEnd ∧ c.loopCnt ≠ 0 then (c.loopCnt - 1, decide (c.loopCnt - 1 ≠ 0)) else (c.loopCnt, false)

/-- The context the operations of a bundle start from: landed, its moves in flight, its own effects on flow done. -/
def begin (b : Bundle) (cs : Ctx) (ms : List Live) : Except Nat Ctx :=
  let busy := busyNames ms
  match takeAll b.longs cs ms busy (vWrites ms) cs with
  | .error n => .error n
  | .ok c1 =>
    let c2 := (ms.filter fun m => match m.dst with | .reg (.v _) => false | _ => true).foldl (fun c m => moveFlight b.longs cs m c) c1
    .ok { touchNames busy (withPorts b.longs c2 ms) with twait := 0, touchLost := none, replayTrap := none, loopCnt := (loopStep cs b.h).1 }

/-- Runs operations in order; a failing one leaves the state and its slot and trap are noted. -/
def runOps : List (OpDef × OpIn) → State → List (Nat × Trap) → State × List (Nat × Trap)
  | [], s, ts => (s, ts)
  | (o, x) :: r, s, ts =>
    match o.run x s with
    | .ok s' => runOps r s' ts
    | .error t => runOps r s (ts ++ [(x.slot, t)])

/-- The trap of the lowest slot, and in one slot the first of the list: poisoned guards and the quota stand before the operations, a rank
that R34 leaves open (DESIGN CHOICE, log entry 139). -/
def lowest (ts : List (Nat × Trap)) : Option Trap := ((sortBy (·.1) ts).head?).map (·.2)

/-- Guards on poisoned predicates: point 1 at their slots (R64). -/
def guardTraps (c : Ctx) (b : Bundle) : List (Nat × Trap) :=
  (b.moves.filterMap SlotMove.live).filterMap fun m => if guardPoisoned c m.g then some (m.slot, poisonTrap c 1 m.slot) else none

/-- VQUOTA exhausted (R240). -/
def quotaTrap (c : Ctx) (ms : List Live) (n : Nat) : Nat × Trap :=
  (((ms.find? fun m => m.dst == .reg (.v n)).map (·.slot)).getD 0, ⟨0x09, n, vquotaWord (busyNames ms) c⟩)

/-! ## The flow that follows -/

/-- The redirect that decides a position, the latest triggered. -/
def redirectAt (c : Ctx) (q : Nat) : Option Redirect := (c.redirects.filter fun r => r.pos == q).getLast?

/-- Two bundles ahead of a CALL: where flow would stand after the bundle that issues as b+2 (R117). `cnt` is LOOPCNT, `last`
the position of the CALL's own redirect, which does not count. -/
def flowOn (s : State) (core : CoreId) (c : Ctx) (last : Nat) : Nat → Nat → Nat → Nat → Option Nat
  | 0, pc, _, _ => some pc
  | k + 1, pc, cnt, q =>
    match peekSyl s core pc with
    | none => none
    | some w =>
      if !isHeader w then none
      else
        let hit := decide (pc = c.loopEnd) && decide (cnt ≠ 0)
        let cnt' := if hit then cnt - 1 else cnt
        let next := match redirectAt c (q + 1) with
          | some r => if q + 1 = last then (if hit ∧ cnt' ≠ 0 then c.loopStart else (pc + (headerFields w).length) % 2 ^ 18) else r.target
          | none => if hit ∧ cnt' ≠ 0 then c.loopStart else (pc + (headerFields w).length) % 2 ^ 18
        flowOn s core c last k next cnt' (q + 1)

/-- Where flow goes after a bundle: the next pc, and the header of the transfer that leads there, if one does (R61, R62). -/
def flowAfter (c cs : Ctx) (h len : Nat) : Nat × Option Nat :=
  match redirectAt c (cs.bclk + 1) with
  | some r => (r.target, some r.src)
  | none => if (loopStep cs h).2 then (cs.loopStart, some h) else ((h + len) % 2 ^ 18, none)

/-- The address that flow reaches `k` bundles after the one at `c`'s pc, for a CALL that decides position `last` (R117), from the
context after a bundle; none where a bundle on the way cannot be decoded. -/
def linkAhead (s : State) (who : CtxId) (c : Ctx) (last k : Nat) : Option Nat :=
  let cl := landDue c.bclk c
  flowOn s who.coreId { c with loopEnd := cl.loopEnd, loopStart := cl.loopStart } last k c.pc cl.loopCnt c.bclk

/-- How far ahead a bundle settles LINK: past both delay bundles when it triggers CALL (destination field 104); past the second one
when it is the first delay bundle and triggers MTSR, LOOPS or LOOPX, which change the loop state that the second one is tested
against (R117, R119). -/
def linkReach (c : Ctx) (q : Nat) (fields : List Nat) : Option Nat :=
  if fields.contains 104 then some 2
  else if c.calling = some (q + 1) ∧ (fields.contains 165 ∨ fields.contains 106 ∨ fields.contains 107) then some 1
  else none

/-- A bundle at position q - 1 settles LINK, from the context after it. A RET of the same bundle goes where LINK then points. -/
def settleLink (who : CtxId) (q k : Nat) (fields : List Nat) (c : Ctx) (s : State) : Ctx × State :=
  let r : Nat × State := match linkAhead s who c (q + k) k with
    | some a => (a, s)
    | none => ((Config.openLink s.free).toNat, { s with free := s.free + 1 })
  ({ noCall c with
      calling := some (q + k), sr := { c.sr with link := BitVec.ofNat 64 r.1 },
      redirects := if fields.contains 105 then c.redirects.map fun x => if x.pos = q + 2 then { x with target := r.1 } else x else c.redirects },
    r.2)

/-- The end of a handler, with LINK settled again for a CALL whose delay bundles the snapshot was taken in, where the resumed flow is not the
one that CALL saw: a bundle was skipped, or TRAPPC was changed (R117; DEDUCED, log entry 53). The flow is that of the end of the
handler, a redirect due there included (R70), but for CALL's own. -/
def endHandler (who : CtxId) (s : State) : State :=
  let c := getCtx s who
  let t := finishRft who s
  match c.rft, c.snap.bind (·.calling) with
  | some r, some (n, at0) => match resumeAt s who r with
    | none => t
    | some pc =>
      if r.mode ≠ 1 ∧ pc = at0 then t
      else
        let x := getCtx t who
        let k := if r.mode = 1 then n - 1 else n
        let y := settleLink who x.bclk k [] (if k = 0 then { x with pc := pc } else x) t
        setCtx who { y.1 with pc := x.pc } y.2
  | _, _ => t

/-- The end of a bundle with these trigger fields: the clock, the next pc and how it was reached (R61, R62), CALL's LINK (R117), and
the end of a handler. An RFT that takes effect decides what follows, whatever redirect is due there (DESIGN CHOICE, log entry 117). -/
def finish (who : CtxId) (b : Bundle) (cs : Ctx) (fields : List Nat) (s : State) : State :=
  let c := getCtx s who
  let q := cs.bclk + 1
  if c.run = .retired ∨ c.run = .halted then setCtx who { c with bclk := q } s
  else
    let flow := flowAfter c cs b.h b.hdr.length
    let c1 := { c with bclk := q, pc := flow.1, via := flow.2, redirects := c.redirects.filter fun r => decide (q < r.pos) }
    let r := match linkReach c q fields with
      | some k => settleLink who q k fields c1 s
      | none => (c1, s)
    let s2 := setCtx who r.1 r.2
    match r.1.rft with
    | some p => if p.pos = q then endHandler who s2 else s2
    | none => s2

/-- What issuing a bundle comes to that no earlier cause of R34 stops: the trap its operations raise, if they do, and else the state
they leave. -/
def performed (who : CtxId) (b : Bundle) (s : State) : Option Trap × State :=
  let c := getCtx s who
  let cs := seen c
  let ms := passing cs b
  let os := triggers who b cs ms
  let start : Ctx × List (Nat × Trap) := match begin b cs ms with
    | .ok c1 => (c1, guardTraps cs b)
    | .error n => (cs, guardTraps cs b ++ [quotaTrap cs ms n])
  let mask := awaited c b
  let s1 := acquire who (fun p => p.who == who && p.done && bit mask p.tok) (setCtx who start.1 s)
  let r := runOps os s1 start.2
  (lowest r.2, r.1)
/-- Issues such a bundle: takes the trap its operations raise, or commits it. -/
def perform (who : CtxId) (b : Bundle) (s : State) : State :=
  match performed who b s with
  | (some t, _) => trapEnter who t s
  | (none, s') => finish who b (seen (getCtx s who)) (trigFields (passing (seen (getCtx s who)) b)) s'

/-- One attempt at what fetch found. -/
def attempt (who : CtxId) (f : Fetched) (s : State) : State :=
  match judge s who f, f with
  | .wait, _ => s
  | .stall n, _ => updCtx who (fun c => { c with run := .replay n (clk s who.clId) }) s
  | .trap t c, _ => trapEnter who t (setCtx who c s)
  | .go, .got b => perform who b s
  | .go, _ => s

/-! ## One move by itself -/

/-- The bundle that one move makes with the header fields and long immediates under selection. -/
def lone (s : State) (m : SlotMove) : Bundle :=
  let n := s.sel.longs.length
  ⟨(getCtx s s.sel.who).pc, ⟨2 ^ s.sel.slot, s.sel.await, s.sel.solo, n⟩, true, decide (n ≤ 2),
    decide ((getCtx s s.sel.who).pc + 2 + n ≤ 2 ^ 18), [m], s.sel.longs⟩

/-- A trigger instruction: the bundle of its one move issues in the selected context. -/
def issueOne (op : OpDef) (field : Nat) (g : Guard) (src : Source) (s : State) : State :=
  attempt s.sel.who (.got (lone s ⟨s.sel.slot, some g, .ok src, .ok (.trig (field / 32) (field % 32)), field, some op⟩)) s

/-- MOVE: a bundle of one move that starts no operation. -/
def issueMove (g : Guard) (src : Source) (d : Dest) (s : State) : State :=
  attempt s.sel.who (.got (lone s ⟨s.sel.slot, some g, .ok src, .ok (.reg d), encodeDest d, none⟩)) s

/-- `MOVE`, R19, R31: the source's value goes to a register or operand port. -/
def execMove (g : Guard) (src : Source) (d : Dest) (s : State) : Host.Outcome State Fault Refusal := .next (issueMove g src d s)

end Sys2Proof.Machine
end

