-- ==== Sys2Proof/Machine/Alu.lean ====
section
/-! DEFINITION. The 64-bit integer units alu0 and alu1 (R111, R112). -/

namespace Sys2Proof.Machine

/-! ## Integer functions of R111 and R112 -/

def flagOf (b : Bool) : Dword := if b then 1 else 0
def aluAdd (a t : Dword) : Dword := a + t
def aluSub (a t : Dword) : Dword := a - t
def aluAnd (a t : Dword) : Dword := a &&& t
def aluOr (a t : Dword) : Dword := a ||| t
def aluXor (a t : Dword) : Dword := a ^^^ t
def aluAndn (a t : Dword) : Dword := a &&& ~~~t
def aluShl (a t : Dword) : Dword := a <<< (t.toNat % 64)
def aluShr (a t : Dword) : Dword := a >>> (t.toNat % 64)
def aluSar (a t : Dword) : Dword := a.sshiftRight (t.toNat % 64)
def aluRol (a t : Dword) : Dword := a.rotateLeft (t.toNat % 64)
def aluMin (a t : Dword) : Dword := if a.toInt ≤ t.toInt then a else t
def aluMax (a t : Dword) : Dword := if t.toInt ≤ a.toInt then a else t
def aluMinu (a t : Dword) : Dword := if a.toNat ≤ t.toNat then a else t
def aluMaxu (a t : Dword) : Dword := if t.toNat ≤ a.toNat then a else t
def aluEq (a t : Dword) : Dword := flagOf (decide (a = t))
def aluNe (a t : Dword) : Dword := flagOf (decide (a ≠ t))
def aluLt (a t : Dword) : Dword := flagOf (decide (a.toInt < t.toInt))
def aluLtu (a t : Dword) : Dword := flagOf (decide (a.toNat < t.toNat))
def aluLe (a t : Dword) : Dword := flagOf (decide (a.toInt ≤ t.toInt))
def aluLeu (a t : Dword) : Dword := flagOf (decide (a.toNat ≤ t.toNat))
def aluSel (a b t : Dword) : Dword := if t ≠ 0 then a else b
def aluClz (t : Dword) : Dword := BitVec.ofNat 64 (if t.toNat = 0 then 64 else 63 - Nat.log2 t.toNat)
def aluCtz (t : Dword) : Dword := BitVec.ofNat 64 (((List.range 64).find? fun i => bit t.toNat i).getD 64)
def aluPopc (t : Dword) : Dword := BitVec.ofNat 64 ((List.range 64).filter fun i => bit t.toNat i).length
/-- The width operand: any larger value counts as 64. -/
def aluWidth (t : Dword) : Nat := min t.toNat 64
def aluSext (a t : Dword) : Dword := if aluWidth t = 0 then 0 else dwordOf (toSigned (aluWidth t) a.toNat)
def aluZext (a t : Dword) : Dword := BitVec.ofNat 64 (a.toNat % 2 ^ aluWidth t)
def aluBfx (a b t : Dword) : Dword := BitVec.ofNat 64 (a.toNat / 2 ^ (b.toNat % 64) % 2 ^ aluWidth t)
def aluBfi (a b c t : Dword) : Dword :=
  let m : Dword := BitVec.ofNat 64 ((2 ^ aluWidth t - 1) * 2 ^ (b.toNat % 64))
  (a &&& ~~~m) ||| (BitVec.ofNat 64 (c.toNat * 2 ^ (b.toNat % 64)) &&& m)

/-! ## Shapes of scalar instructions: one scalar in latch x, poisoned when a value read is (R110) -/

def OpIn.aD (x : OpIn) : Dword := (valSc x.a).v
def OpIn.bD (x : OpIn) : Dword := (valSc x.b).v
def OpIn.cD (x : OpIn) : Dword := (valSc x.c).v
def OpIn.tD (x : OpIn) : Dword := (valSc x.t).v
def scalarOp (unit lat : Nat) (f : OpIn → Dword) (p : OpIn → Bool) : OpDef where
  ty := .s
  scs := 1
  run := fun x s => .ok (landX x unit lat (.sc ⟨f x, p x⟩) 0 s)
def opT (unit lat : Nat) (f : Dword → Dword) : OpDef := scalarOp unit lat (fun x => f x.tD) OpIn.tP
def opAT (unit lat : Nat) (f : Dword → Dword → Dword) : OpDef := scalarOp unit lat (fun x => f x.aD x.tD) fun x => x.aP || x.tP
def opABT (unit lat : Nat) (f : Dword → Dword → Dword → Dword) : OpDef :=
  scalarOp unit lat (fun x => f x.aD x.bD x.tD) fun x => x.aP || x.bP || x.tP
def opABCT (unit lat : Nat) (f : Dword → Dword → Dword → Dword → Dword) : OpDef :=
  scalarOp unit lat (fun x => f x.aD x.bD x.cD x.tD) fun x => x.aP || x.bP || x.cP || x.tP

/-- `ADD_ALU0`, R111. alu0 wrapping 64-bit add of a and t. -/
def defAddAlu0 : OpDef :=
  opAT 0 1 aluAdd
def execAddAlu0 (g : Guard) (src : Source) (s : State) : Host.Outcome State Fault Refusal := .next (issueOne defAddAlu0 4 g src s)

/-- `SUB_ALU0`, R111. alu0 wrapping subtract a minus t. -/
def defSubAlu0 : OpDef :=
  opAT 0 1 aluSub
def execSubAlu0 (g : Guard) (src : Source) (s : State) : Host.Outcome State Fault Refusal := .next (issueOne defSubAlu0 5 g src s)

/-- `AND_ALU0`, R111. alu0 bitwise AND. -/
def defAndAlu0 : OpDef :=
  opAT 0 1 aluAnd
def execAndAlu0 (g : Guard) (src : Source) (s : State) : Host.Outcome State Fault Refusal := .next (issueOne defAndAlu0 6 g src s)

/-- `OR_ALU0`, R111. alu0 bitwise OR. -/
def defOrAlu0 : OpDef :=
  opAT 0 1 aluOr
def execOrAlu0 (g : Guard) (src : Source) (s : State) : Host.Outcome State Fault Refusal := .next (issueOne defOrAlu0 7 g src s)

/-- `XOR_ALU0`, R111. alu0 bitwise XOR. -/
def defXorAlu0 : OpDef :=
  opAT 0 1 aluXor
def execXorAlu0 (g : Guard) (src : Source) (s : State) : Host.Outcome State Fault Refusal := .next (issueOne defXorAlu0 8 g src s)

/-- `ANDN_ALU0`, R111. alu0 a AND NOT t. -/
def defAndnAlu0 : OpDef :=
  opAT 0 1 aluAndn
def execAndnAlu0 (g : Guard) (src : Source) (s : State) : Host.Outcome State Fault Refusal := .next (issueOne defAndnAlu0 9 g src s)

/-- `SHL_ALU0`, R111. alu0 shift left by t[5:0]. -/
def defShlAlu0 : OpDef :=
  opAT 0 1 aluShl
def execShlAlu0 (g : Guard) (src : Source) (s : State) : Host.Outcome State Fault Refusal := .next (issueOne defShlAlu0 10 g src s)

/-- `SHR_ALU0`, R111. alu0 logical shift right by t[5:0]. -/
def defShrAlu0 : OpDef :=
  opAT 0 1 aluShr
def execShrAlu0 (g : Guard) (src : Source) (s : State) : Host.Outcome State Fault Refusal := .next (issueOne defShrAlu0 11 g src s)

/-- `SAR_ALU0`, R111. alu0 arithmetic shift right by t[5:0]. -/
def defSarAlu0 : OpDef :=
  opAT 0 1 aluSar
def execSarAlu0 (g : Guard) (src : Source) (s : State) : Host.Outcome State Fault Refusal := .next (issueOne defSarAlu0 12 g src s)

/-- `ROL_ALU0`, R111. alu0 rotate left by t[5:0]. -/
def defRolAlu0 : OpDef :=
  opAT 0 1 aluRol
def execRolAlu0 (g : Guard) (src : Source) (s : State) : Host.Outcome State Fault Refusal := .next (issueOne defRolAlu0 13 g src s)

/-- `MIN_ALU0`, R111. alu0 signed minimum. -/
def defMinAlu0 : OpDef :=
  opAT 0 1 aluMin
def execMinAlu0 (g : Guard) (src : Source) (s : State) : Host.Outcome State Fault Refusal := .next (issueOne defMinAlu0 14 g src s)

/-- `MAX_ALU0`, R111. alu0 signed maximum. -/
def defMaxAlu0 : OpDef :=
  opAT 0 1 aluMax
def execMaxAlu0 (g : Guard) (src : Source) (s : State) : Host.Outcome State Fault Refusal := .next (issueOne defMaxAlu0 15 g src s)

/-- `MINU_ALU0`, R111. alu0 unsigned minimum. -/
def defMinuAlu0 : OpDef :=
  opAT 0 1 aluMinu
def execMinuAlu0 (g : Guard) (src : Source) (s : State) : Host.Outcome State Fault Refusal := .next (issueOne defMinuAlu0 16 g src s)

/-- `MAXU_ALU0`, R111. alu0 unsigned maximum. -/
def defMaxuAlu0 : OpDef :=
  opAT 0 1 aluMaxu
def execMaxuAlu0 (g : Guard) (src : Source) (s : State) : Host.Outcome State Fault Refusal := .next (issueOne defMaxuAlu0 17 g src s)

/-- `EQ_ALU0`, R111. alu0 equality compare giving 0 or 1. -/
def defEqAlu0 : OpDef :=
  opAT 0 1 aluEq
def execEqAlu0 (g : Guard) (src : Source) (s : State) : Host.Outcome State Fault Refusal := .next (issueOne defEqAlu0 18 g src s)

/-- `NE_ALU0`, R111. alu0 inequality compare. -/
def defNeAlu0 : OpDef :=
  opAT 0 1 aluNe
def execNeAlu0 (g : Guard) (src : Source) (s : State) : Host.Outcome State Fault Refusal := .next (issueOne defNeAlu0 19 g src s)

/-- `LT_ALU0`, R111. alu0 signed less-than. -/
def defLtAlu0 : OpDef :=
  opAT 0 1 aluLt
def execLtAlu0 (g : Guard) (src : Source) (s : State) : Host.Outcome State Fault Refusal := .next (issueOne defLtAlu0 20 g src s)

/-- `LTU_ALU0`, R111. alu0 unsigned less-than. -/
def defLtuAlu0 : OpDef :=
  opAT 0 1 aluLtu
def execLtuAlu0 (g : Guard) (src : Source) (s : State) : Host.Outcome State Fault Refusal := .next (issueOne defLtuAlu0 21 g src s)

/-- `LE_ALU0`, R111. alu0 signed less-or-equal. -/
def defLeAlu0 : OpDef :=
  opAT 0 1 aluLe
def execLeAlu0 (g : Guard) (src : Source) (s : State) : Host.Outcome State Fault Refusal := .next (issueOne defLeAlu0 22 g src s)

/-- `LEU_ALU0`, R111. alu0 unsigned less-or-equal. -/
def defLeuAlu0 : OpDef :=
  opAT 0 1 aluLeu
def execLeuAlu0 (g : Guard) (src : Source) (s : State) : Host.Outcome State Fault Refusal := .next (issueOne defLeuAlu0 23 g src s)

/-- `SEL_ALU0`, R112. alu0 selects a when t is nonzero, else b. -/
def defSelAlu0 : OpDef :=
  opABT 0 1 aluSel
def execSelAlu0 (g : Guard) (src : Source) (s : State) : Host.Outcome State Fault Refusal := .next (issueOne defSelAlu0 24 g src s)

/-- `CLZ_ALU0`, R112. alu0 count leading zeros of t. -/
def defClzAlu0 : OpDef :=
  opT 0 1 aluClz
def execClzAlu0 (g : Guard) (src : Source) (s : State) : Host.Outcome State Fault Refusal := .next (issueOne defClzAlu0 25 g src s)

/-- `CTZ_ALU0`, R112. alu0 count trailing zeros of t. -/
def defCtzAlu0 : OpDef :=
  opT 0 1 aluCtz
def execCtzAlu0 (g : Guard) (src : Source) (s : State) : Host.Outcome State Fault Refusal := .next (issueOne defCtzAlu0 26 g src s)

/-- `POPC_ALU0`, R112. alu0 population count of t. -/
def defPopcAlu0 : OpDef :=
  opT 0 1 aluPopc
def execPopcAlu0 (g : Guard) (src : Source) (s : State) : Host.Outcome State Fault Refusal := .next (issueOne defPopcAlu0 27 g src s)

/-- `SEXT_ALU0`, R112. alu0 sign-extends a from width t. -/
def defSextAlu0 : OpDef :=
  opAT 0 1 aluSext
def execSextAlu0 (g : Guard) (src : Source) (s : State) : Host.Outcome State Fault Refusal := .next (issueOne defSextAlu0 28 g src s)

/-- `ZEXT_ALU0`, R112. alu0 zero-extends a from width t. -/
def defZextAlu0 : OpDef :=
  opAT 0 1 aluZext
def execZextAlu0 (g : Guard) (src : Source) (s : State) : Host.Outcome State Fault Refusal := .next (issueOne defZextAlu0 29 g src s)

/-- `BFX_ALU0`, R112. alu0 extracts a t-bit field of a at position b. -/
def defBfxAlu0 : OpDef :=
  opABT 0 1 aluBfx
def execBfxAlu0 (g : Guard) (src : Source) (s : State) : Host.Outcome State Fault Refusal := .next (issueOne defBfxAlu0 30 g src s)

/-- `BFI_ALU0`, R112. alu0 inserts the low t bits of c into a at position b. -/
def defBfiAlu0 : OpDef :=
  opABCT 0 1 aluBfi
def execBfiAlu0 (g : Guard) (src : Source) (s : State) : Host.Outcome State Fault Refusal := .next (issueOne defBfiAlu0 31 g src s)

/-- `ADD_ALU1`, R111. alu1 wrapping 64-bit add of a and t. -/
def defAddAlu1 : OpDef :=
  opAT 1 1 aluAdd
def execAddAlu1 (g : Guard) (src : Source) (s : State) : Host.Outcome State Fault Refusal := .next (issueOne defAddAlu1 36 g src s)

/-- `SUB_ALU1`, R111. alu1 wrapping subtract a minus t. -/
def defSubAlu1 : OpDef :=
  opAT 1 1 aluSub
def execSubAlu1 (g : Guard) (src : Source) (s : State) : Host.Outcome State Fault Refusal := .next (issueOne defSubAlu1 37 g src s)

/-- `AND_ALU1`, R111. alu1 bitwise AND. -/
def defAndAlu1 : OpDef :=
  opAT 1 1 aluAnd
def execAndAlu1 (g : Guard) (src : Source) (s : State) : Host.Outcome State Fault Refusal := .next (issueOne defAndAlu1 38 g src s)

/-- `OR_ALU1`, R111. alu1 bitwise OR. -/
def defOrAlu1 : OpDef :=
  opAT 1 1 aluOr
def execOrAlu1 (g : Guard) (src : Source) (s : State) : Host.Outcome State Fault Refusal := .next (issueOne defOrAlu1 39 g src s)

/-- `XOR_ALU1`, R111. alu1 bitwise XOR. -/
def defXorAlu1 : OpDef :=
  opAT 1 1 aluXor
def execXorAlu1 (g : Guard) (src : Source) (s : State) : Host.Outcome State Fault Refusal := .next (issueOne defXorAlu1 40 g src s)

/-- `ANDN_ALU1`, R111. alu1 a AND NOT t. -/
def defAndnAlu1 : OpDef :=
  opAT 1 1 aluAndn
def execAndnAlu1 (g : Guard) (src : Source) (s : State) : Host.Outcome State Fault Refusal := .next (issueOne defAndnAlu1 41 g src s)

/-- `SHL_ALU1`, R111. alu1 shift left by t[5:0]. -/
def defShlAlu1 : OpDef :=
  opAT 1 1 aluShl
def execShlAlu1 (g : Guard) (src : Source) (s : State) : Host.Outcome State Fault Refusal := .next (issueOne defShlAlu1 42 g src s)

/-- `SHR_ALU1`, R111. alu1 logical shift right by t[5:0]. -/
def defShrAlu1 : OpDef :=
  opAT 1 1 aluShr
def execShrAlu1 (g : Guard) (src : Source) (s : State) : Host.Outcome State Fault Refusal := .next (issueOne defShrAlu1 43 g src s)

/-- `SAR_ALU1`, R111. alu1 arithmetic shift right by t[5:0]. -/
def defSarAlu1 : OpDef :=
  opAT 1 1 aluSar
def execSarAlu1 (g : Guard) (src : Source) (s : State) : Host.Outcome State Fault Refusal := .next (issueOne defSarAlu1 44 g src s)

/-- `ROL_ALU1`, R111. alu1 rotate left by t[5:0]. -/
def defRolAlu1 : OpDef :=
  opAT 1 1 aluRol
def execRolAlu1 (g : Guard) (src : Source) (s : State) : Host.Outcome State Fault Refusal := .next (issueOne defRolAlu1 45 g src s)

/-- `MIN_ALU1`, R111. alu1 signed minimum. -/
def defMinAlu1 : OpDef :=
  opAT 1 1 aluMin
def execMinAlu1 (g : Guard) (src : Source) (s : State) : Host.Outcome State Fault Refusal := .next (issueOne defMinAlu1 46 g src s)

/-- `MAX_ALU1`, R111. alu1 signed maximum. -/
def defMaxAlu1 : OpDef :=
  opAT 1 1 aluMax
def execMaxAlu1 (g : Guard) (src : Source) (s : State) : Host.Outcome State Fault Refusal := .next (issueOne defMaxAlu1 47 g src s)

/-- `MINU_ALU1`, R111. alu1 unsigned minimum. -/
def defMinuAlu1 : OpDef :=
  opAT 1 1 aluMinu
def execMinuAlu1 (g : Guard) (src : Source) (s : State) : Host.Outcome State Fault Refusal := .next (issueOne defMinuAlu1 48 g src s)

/-- `MAXU_ALU1`, R111. alu1 unsigned maximum. -/
def defMaxuAlu1 : OpDef :=
  opAT 1 1 aluMaxu
def execMaxuAlu1 (g : Guard) (src : Source) (s : State) : Host.Outcome State Fault Refusal := .next (issueOne defMaxuAlu1 49 g src s)

/-- `EQ_ALU1`, R111. alu1 equality compare giving 0 or 1. -/
def defEqAlu1 : OpDef :=
  opAT 1 1 aluEq
def execEqAlu1 (g : Guard) (src : Source) (s : State) : Host.Outcome State Fault Refusal := .next (issueOne defEqAlu1 50 g src s)

/-- `NE_ALU1`, R111. alu1 inequality compare. -/
def defNeAlu1 : OpDef :=
  opAT 1 1 aluNe
def execNeAlu1 (g : Guard) (src : Source) (s : State) : Host.Outcome State Fault Refusal := .next (issueOne defNeAlu1 51 g src s)

/-- `LT_ALU1`, R111. alu1 signed less-than. -/
def defLtAlu1 : OpDef :=
  opAT 1 1 aluLt
def execLtAlu1 (g : Guard) (src : Source) (s : State) : Host.Outcome State Fault Refusal := .next (issueOne defLtAlu1 52 g src s)

/-- `LTU_ALU1`, R111. alu1 unsigned less-than. -/
def defLtuAlu1 : OpDef :=
  opAT 1 1 aluLtu
def execLtuAlu1 (g : Guard) (src : Source) (s : State) : Host.Outcome State Fault Refusal := .next (issueOne defLtuAlu1 53 g src s)

/-- `LE_ALU1`, R111. alu1 signed less-or-equal. -/
def defLeAlu1 : OpDef :=
  opAT 1 1 aluLe
def execLeAlu1 (g : Guard) (src : Source) (s : State) : Host.Outcome State Fault Refusal := .next (issueOne defLeAlu1 54 g src s)

/-- `LEU_ALU1`, R111. alu1 unsigned less-or-equal. -/
def defLeuAlu1 : OpDef :=
  opAT 1 1 aluLeu
def execLeuAlu1 (g : Guard) (src : Source) (s : State) : Host.Outcome State Fault Refusal := .next (issueOne defLeuAlu1 55 g src s)

/-- `SEL_ALU1`, R112. alu1 selects a when t is nonzero, else b. -/
def defSelAlu1 : OpDef :=
  opABT 1 1 aluSel
def execSelAlu1 (g : Guard) (src : Source) (s : State) : Host.Outcome State Fault Refusal := .next (issueOne defSelAlu1 56 g src s)

/-- `CLZ_ALU1`, R112. alu1 count leading zeros of t. -/
def defClzAlu1 : OpDef :=
  opT 1 1 aluClz
def execClzAlu1 (g : Guard) (src : Source) (s : State) : Host.Outcome State Fault Refusal := .next (issueOne defClzAlu1 57 g src s)

/-- `CTZ_ALU1`, R112. alu1 count trailing zeros of t. -/
def defCtzAlu1 : OpDef :=
  opT 1 1 aluCtz
def execCtzAlu1 (g : Guard) (src : Source) (s : State) : Host.Outcome State Fault Refusal := .next (issueOne defCtzAlu1 58 g src s)

/-- `POPC_ALU1`, R112. alu1 population count of t. -/
def defPopcAlu1 : OpDef :=
  opT 1 1 aluPopc
def execPopcAlu1 (g : Guard) (src : Source) (s : State) : Host.Outcome State Fault Refusal := .next (issueOne defPopcAlu1 59 g src s)

/-- `SEXT_ALU1`, R112. alu1 sign-extends a from width t. -/
def defSextAlu1 : OpDef :=
  opAT 1 1 aluSext
def execSextAlu1 (g : Guard) (src : Source) (s : State) : Host.Outcome State Fault Refusal := .next (issueOne defSextAlu1 60 g src s)

/-- `ZEXT_ALU1`, R112. alu1 zero-extends a from width t. -/
def defZextAlu1 : OpDef :=
  opAT 1 1 aluZext
def execZextAlu1 (g : Guard) (src : Source) (s : State) : Host.Outcome State Fault Refusal := .next (issueOne defZextAlu1 61 g src s)

/-- `BFX_ALU1`, R112. alu1 extracts a t-bit field of a at position b. -/
def defBfxAlu1 : OpDef :=
  opABT 1 1 aluBfx
def execBfxAlu1 (g : Guard) (src : Source) (s : State) : Host.Outcome State Fault Refusal := .next (issueOne defBfxAlu1 62 g src s)

/-- `BFI_ALU1`, R112. alu1 inserts the low t bits of c into a at position b. -/
def defBfiAlu1 : OpDef :=
  opABCT 1 1 aluBfi
def execBfiAlu1 (g : Guard) (src : Source) (s : State) : Host.Outcome State Fault Refusal := .next (issueOne defBfiAlu1 63 g src s)

end Sys2Proof.Machine
end

