-- ==== Sys2Proof/Machine/Br.lean ====
section
/-! DEFINITION. Control transfers, hardware loops, TRAP and EXIT (R115 to R121). CALL writes LINK as its bundle ends (Issue.lean). -/

namespace Sys2Proof.Machine

/-- A taken transfer of bundle b decides b+3; in a delay bundle of an RFT it is illegal (R61, R130). -/
def takeTransfer (x : OpIn) (target : Nat) (s : State) : Except Trap State :=
  if x.c0.rft.isSome then .error x.illegal
  else .ok (updCtx x.who (fun c => { c with redirects := c.redirects ++ [⟨x.pos + 3, target % 2 ^ 18, x.h⟩] }) s)
/-- A relative address (R115, R118). -/
def relative (x : OpIn) (v : Dword) : Nat := (((x.h : Int) + v.toInt) % (2 ^ 18 : Nat)).toNat

/-- JMP, BRA, CALL: always taken to a target from t. -/
def jumpOp (target : OpIn → Nat) : OpDef where
  ty := .s
  run := fun x s => if x.tP then .error (x.poison 1) else takeTransfer x (target x) s
/-- BRZ and BRNZ: taken to the relative target when the test of a holds (R116). -/
def branchOp (test : Dword → Bool) : OpDef where
  ty := .s
  run := fun x s =>
    if x.aP || x.tP then .error (x.poison 1) else if test x.aD then takeTransfer x (relative x x.tD) s else .ok s
/-- RET: taken to LINK; t is ignored. -/
def retOp : OpDef where
  ty := .s
  run := fun x s => takeTransfer x (x.c0.sr.link.toNat) s
/-- The loop state of LOOPS and LOOPX, in force from the next bundle (R118). -/
def setLoop (x : OpIn) (start : Nat) (s : State) : State :=
  updCtx x.who (fun c => { c with loopCnt := x.aN % 2 ^ 32, loopEnd := relative x x.tD, loopStart := start % 2 ^ 18 }) s
def loopsOp : OpDef where
  ty := .s
  run := fun x s => if x.aP || x.tP then .error (x.poison 1) else .ok (setLoop x (x.h + x.len) s)
/-- Where LOOPX goes past its body: behind the bundle at LOOPEND when a header stands there. -/
def loopExit (s : State) (core : CoreId) (e : Nat) : Nat :=
  match peekSyl s core e with
  | some w => if isHeader w then e + (headerFields w).length else e
  | none => e
def loopxOp : OpDef where
  ty := .s
  run := fun x s =>
    if x.aP || x.bP || x.tP then .error (x.poison 1)
    else
      let s1 := setLoop x (relative x x.bD) s
      if x.aN % 2 ^ 32 = 0 then takeTransfer x (loopExit s x.who.coreId (relative x x.tD)) s1 else .ok s1

/-- `JMP`, R116. Taken transfer to an absolute target. -/
def defJmp : OpDef :=
  jumpOp fun x => x.tN % 2 ^ 18
def execJmp (g : Guard) (src : Source) (s : State) : Host.Outcome State Fault Refusal := .next (issueOne defJmp 100 g src s)

/-- `BRA`, R116. Taken transfer to a relative target. -/
def defBra : OpDef :=
  jumpOp fun x => relative x x.tD
def execBra (g : Guard) (src : Source) (s : State) : Host.Outcome State Fault Refusal := .next (issueOne defBra 101 g src s)

/-- `BRZ`, R116. Relative branch taken when a is zero. -/
def defBrz : OpDef :=
  branchOp fun a => decide (a = 0)
def execBrz (g : Guard) (src : Source) (s : State) : Host.Outcome State Fault Refusal := .next (issueOne defBrz 102 g src s)

/-- `BRNZ`, R116. Relative branch taken when a is nonzero. -/
def defBrnz : OpDef :=
  branchOp fun a => decide (a ≠ 0)
def execBrnz (g : Guard) (src : Source) (s : State) : Host.Outcome State Fault Refusal := .next (issueOne defBrnz 103 g src s)

/-- `CALL`, R117. Absolute transfer that writes the return address to LINK. -/
def defCall : OpDef :=
  jumpOp fun x => x.tN % 2 ^ 18
def execCall (g : Guard) (src : Source) (s : State) : Host.Outcome State Fault Refusal := .next (issueOne defCall 104 g src s)

/-- `RET`, R116. Transfer to LINK[17:0]. -/
def defRet : OpDef :=
  retOp
def execRet (g : Guard) (src : Source) (s : State) : Host.Outcome State Fault Refusal := .next (issueOne defRet 105 g src s)

/-- `LOOPS`, R118. Starts a hardware loop from the next bundle to a relative loop end. -/
def defLoops : OpDef :=
  loopsOp
def execLoops (g : Guard) (src : Source) (s : State) : Host.Outcome State Fault Refusal := .next (issueOne defLoops 106 g src s)

/-- `LOOPX`, R118. Starts a hardware loop with an explicit start, skipping the body when the count is zero. -/
def defLoopx : OpDef :=
  loopxOp
def execLoopx (g : Guard) (src : Source) (s : State) : Host.Outcome State Fault Refusal := .next (issueOne defLoopx 107 g src s)

/-- `TRAP`, R120. Raises software trap 0x10 with t and a in TRAPINFO. -/
def defTrap : OpDef :=
  { ty := .s, run := fun x _ => .error ⟨0x10, x.tN, x.aN⟩ }
def execTrap (g : Guard) (src : Source) (s : State) : Host.Outcome State Fault Refusal := .next (issueOne defTrap 108 g src s)

/-- `EXIT`, R121. Retires the context; a nonzero status stops and fails the node. -/
def defExit : OpDef :=
  { ty := .s, run := fun x s => .ok (retire x.who (if x.tP then 0xFFFFFFFF else x.tD.setWidth 32) s) }
def execExit (g : Guard) (src : Source) (s : State) : Host.Outcome State Fault Refusal := .next (issueOne defExit 109 g src s)

end Sys2Proof.Machine
end

