-- ==== Sys2Proof/Machine/Mex.lean ====
section
/-! DEFINITION. The matrix unit mex (R223 to R225, R232, R233): parameters, commands into the queue, reports and cancels. -/

namespace Sys2Proof.Machine

/-! ## Selecting an engine (R109, R223, R263) -/

/-- The write of an ENGSEL field, seen from the next bundle. Beside an MTSR of ENGSEL in the same bundle the spec does not say
which write stays (DESIGN CHOICE, log entry 17). -/
def selectField (x : OpIn) (i v : Nat) (s : State) : State :=
  if (getCtx s x.who).flight.any fun f => f.dst == .special 0x13 && f.land == x.pos + 1 then
    let s1 := { s with free := s.free + 1 }
    if Config.mtsrStays s.free then s1 else landSpecial x i v s1
  else landSpecial x i v s

/-! ## Commands -/

/-- The engine ENGSEL names and the parameter set a command copies (R214). -/
def mexOf (x : OpIn) : EngId := ⟨x.who.die, x.who.cl, engMex x.c0⟩
def mexSet (x : OpIn) : List Dword := x.c0.mexPar.getD (engMex x.c0) mexParZero

/-- A command enters its engine's queue: its token count rises, its issue event takes its place, and its entry word lands in
the next bundle (R207, R220, R225). -/
def enterMex (x : OpIn) (kind : MexKind) (ctl row : Nat) (s : State) : State :=
  let e := mexOf x
  let m := getMex s e
  let s1 := nodeEvent x.who s
  let s2 := setMex e { m with
    queue := insertBy (·.entered) ⟨m.counter, kind, x.who, ctl, row, mexSet x, entryCycle (clk s x.who.clId) s x.who, s1.seq, eventsOf s1 x.who⟩ m.queue, counter := (m.counter + 1) % 2 ^ 16 } s1
  landSc x 13 1 (m.counter * 2 ^ 16 + (m.queue.length + 1) * 2 ^ 8 + e.eng) false
    (updCtx x.who (tokenUp (bits (param (mexSet x) 0x18) 2 0)) s2)

/-- A matrix command whose operands `bad` calls illegal (R225). -/
def mexCommand (kind : MexKind) (usesA : Bool) (bad : OpIn → Bool) (ctl row : OpIn → Nat) : OpDef where
  ty := .s
  scs := 1
  tok := fun x => some (bits (param (mexSet x) 0x18) 2 0)
  full := fun x s => decide (4 ≤ (getMex s (mexOf x)).queue.length)
  run := fun x s =>
    if (usesA && x.aP) || x.tP then .error (x.poison 4)
    else if bad x then .error x.illegal
    else .ok (enterMex x kind (ctl x) (row x) s)

def mselOp : OpDef where
  ty := .s
  scs := 2
  run := fun x s =>
    if x.tP then .error (x.poison 4)
    else if 3 < x.tN then .error x.illegal
    else .ok (selectField x 0x113 x.tN (landSc x 13 1 (engMex x.c0) false s))

def msetOp : OpDef where
  ty := .s
  scs := 1
  run := fun x s =>
    if x.aP || x.tP then .error (x.poison 4)
    else if 0x19 < x.aN then .error x.illegal
    else .ok (landSc x 13 1 (param (mexSet x) x.aN) false
      (updCtx x.who (fun c => { c with mexPar := c.mexPar.set (engMex x.c0) ((mexSet x).set x.aN x.tD) }) s))

/-! ## Reports and cancels -/

/-- The commands of a pipe: MSTR and MZERO share the stream pipe (R213). -/
def MexKind.pipe : MexKind → Nat
  | .mldw => 0
  | .mstr => 1
  | .mzero => 1
  | .mdrn => 2
/-- Cycles a command occupies its pipe (R222): a BF16 stream takes two for each vector. -/
def mexBusy (c : MexCmd) : Nat :=
  match c.kind with
  | .mldw => tileCycles (param c.par 1)
  | .mstr => mexRows c * (if bits (param c.par 6) 3 0 = 2 then 2 else 1)
  | .mdrn => mexRows c
  | .mzero => mexRows c
/-- Whether a started command still occupies a pipe in this cycle. -/
def pipeBusy (now : Nat) (m : Mex) (p : Nat) : Bool := m.runs.any fun r => r.cmd.kind.pipe == p && decide (now < r.start + mexBusy r.cmd)

/-- The report word of an engine (R232). -/
def mstatWord (now : Nat) (m : Mex) : Nat :=
  m.act.tile * 2 ^ 32 + b2n m.act.loaded * 2 ^ 11 + b2n m.act.poisoned * 2 ^ 10 + b2n m.sh.loaded * 2 ^ 9 + b2n m.sh.poisoned * 2 ^ 8
    + b2n (pipeBusy now m 2) * 32 + b2n (pipeBusy now m 1) * 16 + b2n (pipeBusy now m 0) * 8 + m.queue.length

def mstatOp : OpDef where
  ty := .s
  scs := 1
  run := fun x s =>
    if x.tP then .error (x.poison 4)
    else if 1 < x.tN then .error x.illegal
    else .ok (landSc x 13 2 (if x.tN = 0 then mstatWord (clk s x.who.clId) (getMex s (mexOf x)) else (x.c0.mexLast.getD (engMex x.c0) 0).toNat) false s)

def mcanOp : OpDef where
  ty := .s
  scs := 1
  run := fun x s =>
    if x.tP then .error (x.poison 4)
    else if 2 < x.tN then .error x.illegal
    else .ok { s with cancels := s.cancels ++ [⟨x.who, 13, engMex x.c0, x.tN, 0, none, some (x.pos + 1), false⟩] }

/-- `MSEL`, R223. Selects the matrix engine in ENGSEL[1:0]. -/
def defMsel : OpDef :=
  mselOp
def execMsel (g : Guard) (src : Source) (s : State) : Host.Outcome State Fault Refusal := .next (issueOne defMsel 420 g src s)

/-- `MSET`, R224. Writes one matrix engine parameter of the context's set. -/
def defMset : OpDef :=
  msetOp
def execMset (g : Guard) (src : Source) (s : State) : Host.Outcome State Fault Refusal := .next (issueOne defMset 421 g src s)

/-- `MLDW`, R226. Enters a command that loads a weight tile into the shadow plane. -/
def defMldw : OpDef :=
  mexCommand .mldw false (fun x => x.tN / 2 ^ 32 != 0) OpIn.tN (fun _ => 0)
def execMldw (g : Guard) (src : Source) (s : State) : Host.Outcome State Fault Refusal := .next (issueOne defMldw 422 g src s)

/-- `MSTR`, R227. Enters a command that streams activation vectors against the active plane. -/
def defMstr : OpDef :=
  mexCommand .mstr false (fun x => x.tN / 4 != 0) OpIn.tN (fun _ => 0)
def execMstr (g : Guard) (src : Source) (s : State) : Host.Outcome State Fault Refusal := .next (issueOne defMstr 423 g src s)

/-- `MDRN`, R229. Enters a command that drains accumulator rows through the epilogue and conversion. -/
def defMdrn : OpDef :=
  mexCommand .mdrn false (fun x => x.tN / 2 != 0) OpIn.tN (fun _ => 0)
def execMdrn (g : Guard) (src : Source) (s : State) : Host.Outcome State Fault Refusal := .next (issueOne defMdrn 424 g src s)

/-- `MZERO`, R228. Enters a command that zeroes accumulator rows. -/
def defMzero : OpDef :=
  mexCommand .mzero true (fun x => decide (511 < x.aN) || x.tN == 0 || decide (512 < x.aN + x.tN)) OpIn.tN OpIn.aN
def execMzero (g : Guard) (src : Source) (s : State) : Host.Outcome State Fault Refusal := .next (issueOne defMzero 425 g src s)

/-- `MSTAT`, R232. Reports engine state or the last completed status. -/
def defMstat : OpDef :=
  mstatOp
def execMstat (g : Guard) (src : Source) (s : State) : Host.Outcome State Fault Refusal := .next (issueOne defMstat 426 g src s)

/-- `MCAN`, R233. Removes unstarted matrix commands as cancelled. -/
def defMcan : OpDef :=
  mcanOp
def execMcan (g : Guard) (src : Source) (s : State) : Host.Outcome State Fault Refusal := .next (issueOne defMcan 427 g src s)

end Sys2Proof.Machine
end

