-- ==== Sys2Proof/Machine/Cpy.lean ====
section
/-! DEFINITION. The copy unit cpy (R254, R255, R263, R264). -/

namespace Sys2Proof.Machine

/-! ## Queue shares (R308) -/

/-- The name of an engine in a partition's list of queue shares: die, kind (0 copy, 1 glaze, 2 retouch) and number. -/
def shareKey (die kind eng : Nat) : Nat := die * 64 + kind * 16 + eng
/-- Whether a queue of some depth takes no more commands of a partition. An unlisted share is the whole queue. -/
def queueFull (s : State) (x : OpIn) (kind eng depth : Nat) (owners : List CtxId) : Bool :=
  let p := partOf s x.who
  decide (depth ≤ owners.length) ||
    decide ((assoc (shareKey x.who.die kind eng) (getPart s p).shares).getD depth ≤ (owners.filter fun w => partOf s w == p).length)

/-! ## The copy unit -/

def cpyOf (x : OpIn) : DieEng := ⟨x.who.die, engCpy x.c0⟩
def cpySet (x : OpIn) : List Dword := x.c0.cpyPar.getD (engCpy x.c0) cpyParZero

def csetOp : OpDef where
  ty := .s
  scs := 1
  run := fun x s =>
    if x.aP || x.tP then .error (x.poison 4)
    else if 0x0F < x.aN then .error x.illegal
    else .ok (landSc x 14 1 (param (cpySet x) x.aN) false
      (updCtx x.who (fun c => { c with cpyPar := c.cpyPar.set (engCpy x.c0) ((cpySet x).set x.aN x.tD) }) s))

/-- CGO: a copy enters its engine's queue (R254, R255, R263). -/
def enterCpy (x : OpIn) (s : State) : State :=
  let e := cpyOf x
  let m := getCpy s e
  let s1 := nodeEvent x.who s
  let s2 := setCpy e { m with
    queue := insertBy (fun c => entryOrder c.entered c.who) ⟨m.counter, x.who, x.tN, cpySet x, entryCycle (nominal s) s x.who, s1.seq, 0, 0, eventsOf s1 x.who⟩ m.queue, counter := (m.counter + 1) % 2 ^ 16 } s1
  landSc x 14 1 (m.counter * 2 ^ 16 + (m.queue.length + 1) * 2 ^ 8 + e.eng) false
    (updCtx x.who (tokenUp (bits (param (cpySet x) 0x0D) 2 0)) s2)

def cgoOp : OpDef where
  ty := .s
  scs := 1
  tok := fun x => some (bits (param (cpySet x) 0x0D) 2 0)
  full := fun x s => queueFull s x 0 (engCpy x.c0) 32 ((getCpy s (cpyOf x)).queue.map (·.who))
  run := fun x s =>
    if x.tP then .error (x.poison 4)
    else if x.tN / 2 ^ 40 ≠ 0 then .error x.illegal
    else .ok (enterCpy x s)

/-- The reported command's words (R264): the first failure since the error bit was cleared, else the newest completion. -/
def reported (rs : List Report) (t : Nat) : Option (Dword × Dword) :=
  match (rs.getD t .none).failed with
  | some w => some w
  | none => (rs.getD t .none).last
def reportWord (w : Option (Dword × Dword)) (progress : Bool) : Nat :=
  match w with
  | none => 0
  | some (st, pr) => if progress then pr.toNat else st.toNat

def cstatOp : OpDef where
  ty := .s
  scs := 1
  run := fun x s =>
    if x.tP then .error (x.poison 4)
    else if x.tN / 16 ≠ 0 then .error x.illegal
    else .ok (landSc x 14 2 (reportWord (reported x.c0.cpyRep (x.tN % 8)) (bit x.tN 3)) false s)

def ccanOp : OpDef where
  ty := .s
  scs := 1
  run := fun x s =>
    if x.tP then .error (x.poison 4)
    else if x.tN % 4 = 3 ∨ x.tN / 2 ^ 7 ≠ 0 ∨ bits x.tN 3 2 ≠ 0 then .error x.illegal
    else .ok { s with cancels := s.cancels ++ [⟨x.who, 14, engCpy x.c0, x.tN, 0, none, some (x.pos + 1), false⟩] }

def cselOp : OpDef where
  ty := .s
  scs := 2
  run := fun x s =>
    if x.tP then .error (x.poison 4)
    else if 7 < x.tN then .error x.illegal
    else .ok (selectField x 0x213 x.tN (landSc x 14 1 (engCpy x.c0) false s))

/-- `CSET`, R263. Writes one copy parameter of the selected set. -/
def defCset : OpDef :=
  csetOp
def execCset (g : Guard) (src : Source) (s : State) : Host.Outcome State Fault Refusal := .next (issueOne defCset 452 g src s)

/-- `CGO`, R263. Enters a copy command with an offset. -/
def defCgo : OpDef :=
  cgoOp
def execCgo (g : Guard) (src : Source) (s : State) : Host.Outcome State Fault Refusal := .next (issueOne defCgo 453 g src s)

/-- `CSTAT`, R264. Reports status or progress of a token's reported copy. -/
def defCstat : OpDef :=
  cstatOp
def execCstat (g : Guard) (src : Source) (s : State) : Host.Outcome State Fault Refusal := .next (issueOne defCstat 454 g src s)

/-- `CCAN`, R263. Cancels copy commands of the context on the selected engine. -/
def defCcan : OpDef :=
  ccanOp
def execCcan (g : Guard) (src : Source) (s : State) : Host.Outcome State Fault Refusal := .next (issueOne defCcan 455 g src s)

/-- `CSEL`, R263. Selects the copy engine in ENGSEL[4:2]. -/
def defCsel : OpDef :=
  cselOp
def execCsel (g : Guard) (src : Source) (s : State) : Host.Outcome State Fault Refusal := .next (issueOne defCsel 456 g src s)

end Sys2Proof.Machine
end

