-- ==== Sys2Proof/Machine/Cycle.lean ====
section
/-! DEFINITION. One cycle of a core: which context leads, which bundle merges, and the counts that decide it (R57 to R60). The
table of operations is a parameter, which Bundles.lean supplies. -/

namespace Sys2Proof.Machine

def Verdict.ready : Verdict → Bool
  | .wait => false
  | .stall _ => false
  | .trap _ _ => true
  | .go => true

/-- The four contexts of a core with what fetch finds for each. -/
def coreFetch (ops : Nat → Option OpDef) (c : CoreId) (s : State) : List (Nat × Fetched) :=
  (List.range 4).map fun k => (k, fetchBundle ops s (c.ctxId k))

/-- Contexts whose next bundle needs a replay begin it (R246). -/
def beginStalls (ops : Nat → Option OpDef) (c : CoreId) (s : State) : State :=
  (List.range 4).foldl (fun s k => match judge s (c.ctxId k) (fetchBundle ops s (c.ctxId k)) with
    | .stall n => updCtx (c.ctxId k) (fun x => { x with run := .replay n (clk s c.clId) }) s
    | _ => s) s

/-- Contexts ready in this cycle, ascending. -/
def readyList (ops : Nat → Option OpDef) (c : CoreId) (s : State) : List Nat :=
  (List.range 4).filter fun k => (judge s (c.ctxId k) (fetchBundle ops s (c.ctxId k))).ready

/-- The issue priority that governs a cycle (R58). -/
def prioOf (s : State) (c : CoreId) (k : Nat) : Nat := (seen (getCtx s (c.ctxId k))).sr.prio

/-- Step 3 of R58: the highest priority, then the lowest number. -/
def byPriority (s : State) (c : CoreId) (ks : List Nat) : Option Nat := (sortBy (fun k => 7 - prioOf s c k) ks).head?

/-- A core as this cycle finds it: who led in the cycle before, and the waits up to it. Where the core had no cycle before this one no
bundle led, and no context was ready (R58). -/
def lately (s : State) (c : CoreId) : Core :=
  let x := getCore s c
  if x.done = clk s c.clId then x else { x with lead := none, waits := [0, 0, 0, 0] }

/-- Step 1 of R58: a context that has waited 64 cycles, the longest first, then the lowest number. -/
def starved (s : State) (c : CoreId) (ks : List Nat) : Option Nat :=
  let w : Nat → Nat := fun k => (lately s c).waits.getD k 0
  let m := (ks.map w).foldl max 0
  (ks.filter fun k => decide (64 ≤ w k) && w k == m).head?

/-- The lead (R58). -/
def chooseLead (s : State) (c : CoreId) (ks : List Nat) : Option Nat :=
  match starved s c ks with
  | some k => some k
  | none =>
    match (lately s c).lead with
    | some k => if ks.contains k then some k else byPriority s c ks
    | none => byPriority s c ks

/-- Units that a bundle triggers and vector registers that it reads, whatever its guards (R59; DESIGN CHOICE, log entry 140). -/
def bundleUnits (b : Bundle) : List Nat := b.moves.filterMap fun m => match m.dst with | .ok (.trig u _) => some u | _ => none
def bundleVReads (b : Bundle) : Nat := ((b.moves.filterMap fun m => match m.src with | .ok (.v n) => some n | _ => none).eraseDups).length

/-- Whether two bundles may issue together (R59). A bundle of which no header is known, because its line failed or its first syllable
lacks the signature, neither merges nor lets another merge: R59's conditions speak of headers (DESIGN CHOICE, log entry 116). -/
def mayMerge : Fetched → Fetched → Bool
  | .got a, .got b =>
    a.sig && b.sig && (a.hdr.mask &&& b.hdr.mask) == 0 && (bundleUnits a).all (fun u => !(bundleUnits b).contains u)
      && !a.hdr.solo && !b.hdr.solo && decide (bundleVReads a + bundleVReads b ≤ 8)
  | _, _ => false

/-- The lead and the merged context of a cycle, if any (R58, R59). -/
def choose (ops : Nat → Option OpDef) (c : CoreId) (s : State) : Option Nat × Option Nat :=
  let ks := readyList ops c s
  match chooseLead s c ks with
  | none => (none, none)
  | some k =>
    match byPriority s c (ks.filter (· ≠ k)) with
    | none => (some k, none)
    | some m => (some k, if mayMerge (fetchBundle ops s (c.ctxId k)) (fetchBundle ops s (c.ctxId m)) then some m else none)

/-- A core that has issued in this wall cycle issues next in the next one. A core's cycle stands where its island's cycle ends: in the last
of its ticks, of which it has at most two (R387), and after every pour whose landing instant is before that end (R205). -/
def openCycle (c : CoreId) (s : State) : State :=
  let wait : State → State := fun t => if clk t c.clId < (getCore t c).done || !lastTick t c.clId then tick t else t
  let t := wait (wait (wait s))
  landPours (cycleEnd t c.clId (clk t c.clId)) t

/-- What the core notes of a cycle: who leads, how long the others have waited, that its cycle is over (R58). -/
def noteCycle (c : CoreId) (ks : List Nat) (lead merged : Option Nat) (s : State) : State :=
  let x := lately s c
  setCore c { x with
    lead := lead, done := clk s c.clId + 1, ready := ks,
    waits := (List.range 4).map fun k => if ks.contains k && lead != some k && merged != some k then x.waits.getD k 0 + 1 else 0 } s

/-- Everything of a cycle that comes before the chosen bundles issue. -/
def prepare (ops : Nat → Option OpDef) (c : CoreId) (s : State) : State :=
  let s1 := beginStalls ops c (openCycle c s)
  let ch := choose ops c s1
  noteCycle c (readyList ops c s1) ch.1 ch.2 s1

/-- The contexts that a cycle lets issue, in memory order (R60). -/
def issuers (ops : Nat → Option OpDef) (c : CoreId) (s : State) : List CtxId :=
  let s1 := beginStalls ops c (openCycle c s)
  let ch := choose ops c s1
  (ch.1.toList ++ ch.2.toList).map c.ctxId

/-- The context and the bundle that issue next, kept as the state's selection: the slot of the bundle's first move, its header fields and
its long immediates (the model's own field). -/
def selected (k : CtxId) (f : Fetched) (s : State) : State :=
  match f with
  | .got b => { s with sel := ⟨k, (b.moves.head?.map (·.slot)).getD 0, b.hdr.await, b.hdr.solo, b.longs⟩ }
  | _ => s

/-- One cycle of a core (R57 to R60). -/
def coreCycle (ops : Nat → Option OpDef) (c : CoreId) (s : State) : State :=
  let s1 := prepare ops c s
  (issuers ops c s).foldl (fun t k => attempt k (fetchBundle ops s1 k) (selected k (fetchBundle ops s1 k) t)) s1

end Sys2Proof.Machine
end

