-- ==== Sys2Proof/Machine/Glz.lean ====
section
/-! DEFINITION. The glaze unit glz (R254, R255, R267, R274 to R276). -/

namespace Sys2Proof.Machine

def glzOf (x : OpIn) : DieEng := ⟨x.who.die, engGlz x.c0⟩
def glzSet (x : OpIn) : List Dword := x.c0.glzPar.getD (engGlz x.c0) glzParZero

def gsetOp : OpDef where
  ty := .s
  scs := 1
  run := fun x s =>
    if x.aP || x.tP then .error (x.poison 4)
    else if 0x0F < x.aN then .error x.illegal
    else .ok (landSc x 15 1 (param (glzSet x) x.aN) false
      (updCtx x.who (fun c => { c with glzPar := c.glzPar.set (engGlz x.c0) ((glzSet x).set x.aN x.tD) }) s))

/-- A context notes a receive it enters, so that TARGET can name it (R267, R276). -/
def noteRecv (eng id cmd : Nat) (par : List Dword) (c : Ctx) : Ctx :=
  { c with recvs := c.recvs.filter (fun r => !(r.eng == eng && r.id == id)) ++ [⟨eng, id, cmd, par, []⟩] }

/-- A glaze command enters its engine's queue (R254, R255, R276). -/
def enterGlz (x : OpIn) (kind : GlzKind) (s : State) : State :=
  let e := glzOf x
  let m := getGlz s e
  let s1 := nodeEvent x.who s
  let s2 := setGlz e { m with
    queue := insertBy (fun c => entryOrder c.entered c.who) ⟨m.counter, kind, x.who, glzSet x, entryCycle (nominal s) s x.who, s1.seq, [], eventsOf s1 x.who⟩ m.queue, counter := (m.counter + 1) % 2 ^ 16 } s1
  let s3 := if kind.receives then updCtx x.who (noteRecv e.eng m.counter s1.seq (glzSet x)) s2 else s2
  landSc x 15 1 (m.counter * 2 ^ 16 + (m.queue.length + 1) * 2 ^ 8 + e.eng) false (updCtx x.who (tokenUp (glzTok (glzSet x))) s3)

def glzCommand (kind : GlzKind) : OpDef where
  ty := .s
  scs := 1
  tok := fun x => some (glzTok (glzSet x))
  full := fun x s => queueFull s x 1 (engGlz x.c0) 16 ((getGlz s (glzOf x)).queue.map (·.who))
  run := fun x s =>
    if x.tP then .error (x.poison 4)
    else if x.tN ≠ 0 then .error x.illegal
    else .ok (enterGlz x kind s)

/-- The receive that TARGET names (R267). -/
def targetRecv (x : OpIn) : Option Recv :=
  let id := bits (param (glzSet x) 0x0F) 15 0
  let mine := x.c0.recvs.filter fun r => r.eng == engGlz x.c0
  if id = 0xFFFF then mine.getLast? else mine.find? fun r => r.id == id

def gcanOp : OpDef where
  ty := .s
  scs := 1
  run := fun x s =>
    if x.aP || x.tP then .error (x.poison 4)
    else if x.tN = 0 ∨ 0x3FFFFF < x.aN ∨ 0x400000 < x.tN then .error x.illegal
    else .ok { s with cancels := s.cancels ++ [⟨x.who, 15, engGlz x.c0, x.tN, x.aN, (targetRecv x).map (·.cmd), some (x.pos + 1), false⟩] }

/-- A block's counter (R271). -/
def GlzBlock.count (b : GlzBlock) : Nat :=
  match b.planes with
  | [] => 0
  | p :: ps => ps.foldl min p
def GlzBlock.counter (b : GlzBlock) : Nat := b.flag + b.count
/-- The counters of a receive: those of its started command, of its queued one, or of its completion. -/
def recvCounters (s : State) (x : OpIn) (r : Recv) : List Nat :=
  let g := getGlz s ⟨x.who.die, r.eng⟩
  match g.runs.find? fun u => u.cmd.seq == r.cmd with
  | some u => u.blocks.map GlzBlock.counter
  | none => match g.queue.find? fun c => c.seq == r.cmd with
    | some c => (List.range (glzBlocks s c)).map fun k => if c.pre.contains k then 0x40 else 0
    | none => r.counters
/-- GPREC: lands the counters and acquires the writes of the blocks it reports (R274, R276). -/
def gprecOp : OpDef where
  ty := .s
  scs := 1
  run := fun x s =>
    if x.aP || x.tP then .error (x.poison 4)
    else if x.tN = 0 ∨ 8 < x.tN ∨ 0x3FFFFF < x.aN then .error x.illegal
    else match targetRecv x with
      | none => .ok (landSc x 15 2 0 false s)
      | some r =>
        let ks := (recvCounters s x r).drop x.aN |>.take x.tN
        let base := physSpad x.who.clId (glzDst r.par + 128 * glzDsize r.par * x.aN)
        let inside : Past → Bool := fun p =>
          p.cmd == r.cmd && decide (base ≤ p.addr) && decide (p.addr < base + 128 * glzDsize r.par * ks.length)
        .ok (landSc x 15 2 (ofBytes (ks.map (BitVec.ofNat 8))) false (acquire x.who inside s))

/-- `GSET`, R276. Writes one glaze parameter. -/
def defGset : OpDef :=
  gsetOp
def execGset (g : Guard) (src : Source) (s : State) : Host.Outcome State Fault Refusal := .next (issueOne defGset 484 g src s)

/-- `GSEND`, R276. Enters a contributing glaze command. -/
def defGsend : OpDef :=
  glzCommand .send
def execGsend (g : Guard) (src : Source) (s : State) : Host.Outcome State Fault Refusal := .next (issueOne defGsend 485 g src s)

/-- `GRECV`, R276. Enters a receiving glaze command. -/
def defGrecv : OpDef :=
  glzCommand .recv
def execGrecv (g : Guard) (src : Source) (s : State) : Host.Outcome State Fault Refusal := .next (issueOne defGrecv 486 g src s)

/-- `GRED`, R276. Enters a glaze command that contributes and receives. -/
def defGred : OpDef :=
  glzCommand .red
def execGred (g : Guard) (src : Source) (s : State) : Host.Outcome State Fault Refusal := .next (issueOne defGred 487 g src s)

/-- `GCAN`, R275. Cancels blocks of the target receive. -/
def defGcan : OpDef :=
  gcanOp
def execGcan (g : Guard) (src : Source) (s : State) : Host.Outcome State Fault Refusal := .next (issueOne defGcan 488 g src s)

/-- `GPREC`, R274. Reads precision counters and acquires the reported writes. -/
def defGprec : OpDef :=
  gprecOp
def execGprec (g : Guard) (src : Source) (s : State) : Host.Outcome State Fault Refusal := .next (issueOne defGprec 489 g src s)

end Sys2Proof.Machine
end

