-- ==== Sys2Proof/Machine/Access.lean ====
section
/-! DEFINITION. What the memory instructions share: the local map (R161 to R163), address words (R177), coverage and permission
(R169, R303), the checks of R176 step by step, loads and stores as memory events (R178), and pours (R172, R301). -/

namespace Sys2Proof.Machine

/-! ## The local map -/

/-- Whether `n` bytes at a local address lie in accumulator space, or in the multicast window (R161). -/
def inAcc (a n : Nat) : Bool := decide (0x400000 ≤ a) && decide (a + n ≤ 0x500000)
def inWin (a n : Nat) : Bool := decide (0x800000 ≤ a) && decide (a + n ≤ 0x900000)
/-- Whether bytes at a local address may be loaded. -/
def loadable (a n : Nat) : Bool := inSpad a n || inAcc a n
/-- The physical byte behind a local address of scratchpad or accumulator space (R163, R297). -/
def physLocal (c : ClId) (a : Nat) : Nat := if a < 0x300000 then physSpad c a else physAcc c (a - 0x400000)
def localBytes (c : ClId) (a n : Nat) : List GByte := (List.range n).map fun i => ⟨physLocal c (a + i), 0⟩

/-! ## Checks of R176 -/

def noTouch (x : OpIn) (va : Nat) : Trap := ⟨0x07, va, x.slot⟩
def misaligned (a n : Nat) : Trap := ⟨0x12, a, n⟩
def noPermit (a kind : Nat) : Trap := ⟨0x06, a, kind⟩

/-- The first failing lane of a list of lane addresses, in lane order. -/
def firstFail (ok : Nat → Bool) (as : List Nat) : Option Nat := as.find? fun a => !ok a
/-- Steps 3 and 4 of R176 for local lanes: alignment first, then the map. -/
def localCheck (as : List Nat) (n align kind : Nat) (row : Nat → Nat → Bool) : Except Trap Unit :=
  match firstFail (fun a => a % align == 0) as with
  | some a => .error (misaligned a align)
  | none =>
    match firstFail (fun a => row a n) as with
    | some a => .error (noPermit a kind)
    | none => .ok ()

/-- Permission of a global access through its leaves: 0 load, 1 store, 2 atomic (R162, R301, R303). -/
def permitted (kind : Nat) (bs : List GByte) : Bool :=
  bs.all fun b =>
    if kind = 0 then pteRead b.pte && !pteMulti b.pte
    else if kind = 1 then pteWrite b.pte
    else pteRead b.pte && pteWrite b.pte && !pteMulti b.pte

/-- Coverage of the lanes of a global access (R176 step 3). -/
def coverLanes (x : OpIn) (n : Nat) : List Nat → Except Trap (List (List GByte))
  | [] => .ok []
  | a :: r =>
    match coverBytes x.c0 x.pos a n with
    | .error va => .error (noTouch x va)
    | .ok bs => match coverLanes x n r with
      | .ok l => .ok (bs :: l)
      | .error t => .error t

/-- Steps 3 to 5 of R176 for global lanes, then the alias check of R304. -/
def globalCheck (x : OpIn) (s : State) (as : List Nat) (n align kind : Nat) : Except Trap (List (List GByte)) :=
  match coverLanes x n as with
  | .error t => .error t
  | .ok ls =>
    match firstFail (fun a => a % align == 0) as with
    | some a => .error (misaligned a align)
    | none =>
      match (as.zip ls).find? fun l => !permitted kind l.2 with
      | some l => .error (noPermit l.1 kind)
      | none =>
        match (as.zip ls).findSome? fun l => aliasTrap s l.1 l.2 with
        | some t => .error t
        | none => .ok ls

/-- The virtual address of an address word's global form (R177). -/
def wordGlobal (t : Nat) : Option Nat := if bit t 63 then some (t % 2 ^ 63) else none

/-! ## Loads -/

/-- Whether any of these bytes carries an uncorrectable-error mark to a context (R178). -/
def anyBad (s : State) (who : CtxId) (bs : List GByte) : Bool := bs.any fun b => viewBad s (nodeOf s who) b.pa
/-- The position of the first byte in an integrity-failed sector (R356). -/
def firstIntegrity (s : State) (bs : List GByte) : Option Nat := bs.findIdx? fun b => macFailed s b.pa

/-- One read event of a context. -/
def ctxRead (x : OpIn) (bs : List GByte) (s : State) : List Byte × State :=
  let r := coreRead x.who (nodeOf s x.who) (bs.map (·.pa)) s
  (r.1, fillLines true bs r.2)
/-- Several read events in order. R202 lets events of other contexts fall between them; the model always makes the events of one
instruction adjacent (DESIGN CHOICE, log entry 119). -/
def ctxReads (x : OpIn) : List (List GByte) → State → List (List Byte) × State
  | [], s => ([], s)
  | bs :: r, s =>
    let a := ctxRead x bs s
    let z := ctxReads x r a.2
    (a.1 :: z.1, z.2)

/-- A scalar load's entry: its value with tag, or the integrity failure it meets. -/
def scalarData (s : State) (who : CtxId) (va : Nat) (bs : List GByte) (v : Dword) : LandData :=
  match firstIntegrity s bs with
  | some i => .integrity (va + i)
  | none => .value (.sc ⟨v, anyBad s who bs⟩) 0

/-- Bytes as a scalar, zero- or sign-extended. -/
def extendBytes (signed : Bool) (bs : List Byte) : Dword :=
  if signed then dwordOf (toSigned (8 * bs.length) (ofBytes bs)) else BitVec.ofNat 64 (ofBytes bs)

/-- The 128 lanes of 512 bytes, each poisoned when one of its bytes is. -/
def lanesOf (bytes : List Byte) (bad : List Bool) : List Lane :=
  (List.range 128).map fun l => ⟨BitVec.ofNat 32 (ofBytes ((bytes.drop (4 * l)).take 4)), ((bad.drop (4 * l)).take 4).any id⟩

/-! ## Stores and pours -/

/-- One store event of a context. -/
def storeAt (x : OpIn) (bs : List GByte) (data : List Byte) (s : State) : State := ctxStore x.who (bs.zip data) s

/-- Clusters that receive a pour: those of the node whose logical number MCWIN names (R172). -/
def pourTargets (x : OpIn) (s : State) : List ClId :=
  match x.c0.node with
  | none => []
  | some n => match getNode s n with
    | none => []
    | some d => (d.clusters.zipIdx.filter fun (_, i) => bit x.c0.sr.mcwin.toNat i).map (·.1)

/-- A pour issues: its bytes land 24 cycles later (R172). -/
def pour (x : OpIn) (off : Nat) (data : List Byte) (s : State) : State :=
  match pourTargets x s with
  | [] => s
  | ts =>
    let s1 := noteDurable (nodeOf s x.who) (ts.flatMap fun c => (List.range data.length).map fun i => physSpad c (off + i)) s
    { s1 with pours := s1.pours ++ [⟨x.who, ts, off, data, clk s x.who.clId + 24⟩] }

/-- A global store: a pour through a multicast leaf, else a store (R301). -/
def globalStore (x : OpIn) (bs : List GByte) (data : List Byte) (s : State) : State :=
  match bs with
  | [] => s
  | b :: _ => if pteMulti b.pte then pour x (physOff b.pa) data s else storeAt x bs data s

/-- The bytes of a lane. -/
def laneBytes (l : Lane) : List Byte := toBytes 4 l.v.toNat
def laneAt (v : List Lane) (l : Nat) : Lane := v.getD l .zero
def maskAt (v : List MLane) (l : Nat) : MLane := v.getD l .zero

end Sys2Proof.Machine
end

