-- ==== Sys2Proof/Machine/Lsu.lean ====
section
/-! DEFINITION. The scalar memory unit lsu (R179 to R184). -/

namespace Sys2Proof.Machine

/-! ## Spill windows (R167, R179) -/

/-- SPLD: the dword and its tag, landing in the next bundle. -/
def spldOp : OpDef where
  ty := .s
  scs := 1
  run := fun x s =>
    if x.tP then .error (x.poison 2)
    else if x.tN % 8 ≠ 0 ∨ 0x3FF8 < x.tN then .error ⟨0x14, x.tN, x.slot⟩
    else
      let c := getCtx s x.who
      .ok (landSc x 4 1 (ofBytes (Memory.gets c.spill x.tN 8)) (c.spillPoison.contains x.tN) s)

/-- SPST: the dword with its tag; no poison point of its own. -/
def spstOp : OpDef where
  ty := .s
  run := fun x s =>
    if x.tP then .error (x.poison 2)
    else if x.tN % 8 ≠ 0 ∨ 0x3FF8 < x.tN then .error ⟨0x14, x.tN, x.slot⟩
    else .ok (updCtx x.who (fun c => { c with
      spill := Memory.sets c.spill x.tN (toBytes 8 x.aN),
      spillPoison := if x.aP then (if c.spillPoison.contains x.tN then c.spillPoison else x.tN :: c.spillPoison)
        else c.spillPoison.filter (· ≠ x.tN) }) s)

/-! ## Local scalars (R180, R181) -/

def localLoad (n : Nat) (signed : Bool) : OpDef where
  ty := .s
  land := 1
  run := fun x s =>
    if x.tP then .error (x.poison 2)
    else match localCheck [x.tN] n n 0 loadable with
      | .error t => .error t
      | .ok _ =>
        let bs := localBytes x.who.clId x.tN n
        let r := ctxRead x bs s
        .ok (takeEntry x 5 (.latch 4) (scalarData s x.who x.tN bs (extendBytes signed r.1)) r.2)

def localStore (n : Nat) : OpDef where
  ty := .s
  run := fun x s =>
    if x.tP then .error (x.poison 2)
    else match localCheck [x.tN] n n 1 (fun a n => loadable a n || inWin a n) with
      | .error t => .error t
      | .ok _ =>
        if x.aP then .error (x.poison 0)
        else if inWin x.tN n then .ok (pour x (x.tN - 0x800000) (toBytes n x.aN) s)
        else .ok (storeAt x (localBytes x.who.clId x.tN n) (toBytes n x.aN) s)

/-! ## Touch and global scalars (R182, R183) -/

/-- Whether a mapping change or a retirement of the page of an address is not finished, so that a touch ends its pins (R306, R362). The page
is that of the pins that cover the address, or its 64 KiB. -/
def remapping (s : State) (part : Nat) (world : Bool) (ps : List Pin) (va : Nat) : Bool :=
  walkWaits s part va || s.shoots.any fun k => k.part == part && k.world == world &&
    (pinMeets k.lo k.hi ⟨va, 0, 0, 0, 0, 0⟩ || ps.any fun p => pinCovers p va && pinMeets k.lo k.hi p)
/-- The dword TCH lands (R182). -/
def touchWord (e size : Nat) : Nat := b2n (pteWorld e) * 32 + b2n (pteGuard e) * 16 + b2n (pteWrite e) * 8 + b2n (pteRead e) * 4 + size
/-- The live pins of a cluster, each of which locks an entry of the TLB that its cores share (R305): those of the context itself, then of the
others. A stopped context holds none (R306). -/
def lockedPins (x : OpIn) (s : State) : List Pin :=
  (x.c0.pins.filter fun p => decide (x.pos ≤ p.last))
    ++ (s.ctxs.filter fun y => y.1.clId == x.who.clId && y.1 != x.who && y.2.node.isSome && !y.2.stopped).flatMap fun y =>
      y.2.pins.filter fun p => decide (coverFrom y.2 ≤ p.last)
/-- The pin that serves a touch without a walk: a live one of the cluster, of a page that is not being remapped (R305). -/
def touchHit (x : OpIn) (s : State) : Option Pin :=
  if remapping s (partOf s x.who) (worldOf s x.who) (lockedPins x s) x.tN then none
  else (lockedPins x s).find? fun p => pinCovers p x.tN

/-- TCH: a hit lands two bundles later; else the result of a walk does, which PAGE_WALK_COMPLETE ends. -/
def tchOp : OpDef where
  ty := .s
  land := 1
  run := fun x s =>
    if x.tP then .error (x.poison 2)
    else if 2 ^ 56 ≤ x.tN then .error ⟨0x05, x.tN, 0⟩
    else match touchHit x s with
      | some p => .ok (updCtx x.who (fun c => { c with
          pins := addPin x.pos ⟨x.tN, p.size, p.pte, x.pos + 2, x.pos + 2047, p.born⟩ c.pins })
          (takeHit x 2 (.latch 4) (.value (.sc ⟨BitVec.ofNat 64 (touchWord p.pte.toNat p.size), false⟩) 0) s))
      | none => .ok (takeEntry x 2 (.latch 4) (.walk x.tN)
          (if remapping s (partOf s x.who) (worldOf s x.who) x.c0.pins x.tN then updCtx x.who (fun c => { c with pins := endPins x.pos x.tN c.pins }) s else s))

def gldOp : OpDef where
  ty := .s
  land := 1
  run := fun x s =>
    if x.aP || x.cP || x.tP then .error (x.poison 2)
    else if 8 ≤ x.aN then .error x.illegal
    else
      let n := 2 ^ (x.aN % 4)
      match globalCheck x s [x.tN] n n 0 with
      | .error t => .error t
      | .ok ls =>
        let bs := ls.flatten
        let r := ctxRead x bs s
        .ok (takeEntry x (arrival x.cN) (.latch 4) (scalarData s x.who x.tN bs (extendBytes (bit x.aN 2) r.1)) r.2)

def gstOp : OpDef where
  ty := .s
  run := fun x s =>
    if x.bP || x.tP then .error (x.poison 2)
    else if 4 ≤ x.bN then .error x.illegal
    else
      let n := 2 ^ x.bN
      match globalCheck x s [x.tN] n n 1 with
      | .error t => .error t
      | .ok ls => if x.aP then .error (x.poison 0) else .ok (globalStore x ls.flatten (toBytes n x.aN) s)

/-! ## Atomics (R184, R210) -/

/-- The element an atomic's address word names, and the landing delta. The alias trap of R304 comes before the kind test (DESIGN
CHOICE, log entry 51). -/
def atomicTarget (x : OpIn) (s : State) : Except Trap (List GByte × Nat) :=
  match wordGlobal x.tN with
  | some va =>
    match globalCheck x s [va] 4 4 2 with
    | .error t => .error t
    | .ok ls => if ls.flatten.all fun b => isAcc b.pa then .ok (ls.flatten, arrival x.cN) else .error (noPermit va 2)
  | none =>
    match localCheck [x.tN] 4 4 2 inAcc with
    | .error t => .error t
    | .ok _ => .ok (localBytes x.who.clId x.tN 4, 8)

/-- Whether the row of an accumulator element is of type INT32 (R213, R223). -/
def intElement (s : State) (pa : Nat) : Bool :=
  (getMex s ⟨physDie pa, (physCl pa).cl, physOff pa / 0x40000⟩).intRows.contains (physOff pa % 0x40000 / 0x200)

/-- An atomic: `f` gives the new element from the row type and the old one, or none where it writes nothing; `keeps` says that
a poisoned element stays poisoned. -/
def atomicOp (keeps usesB : Bool) (f : OpIn → Bool → Word32 → Option Word32) : OpDef where
  ty := .s
  land := 1
  run := fun x s =>
    if x.aP || (usesB && x.bP) || x.cP || x.tP then .error (x.poison 3)
    else match atomicTarget x s with
      | .error t => .error t
      | .ok (bs, delta) =>
        let pa := (bs.map (·.pa)).headD 0
        let old : Word32 := BitVec.ofNat 32 (ofBytes (memBytes s pa 4))
        let bad := byteBad s pa
        let s1 := match f x (intElement s pa) old with
          | some v =>
            let s2 := storeAt x bs (toBytes 4 v.toNat) s
            if bad && keeps then setMark pa .poison s2 else s2
          | none => nodeEvent x.who s
        .ok (takeEntry x delta (.latch 4) (.value (.sc ⟨old.setWidth 64, bad⟩) 0) s1)

def OpIn.aW (x : OpIn) : Word32 := x.aD.setWidth 32
def atomAdd (int : Bool) (old a : Word32) : Word32 :=
  if int then BitVec.ofInt 32 (sat32 (old.toInt + a.toInt)) else P4.radd old a
def atomMax (int : Bool) (old a : Word32) : Word32 := if int then (if a.toInt ≤ old.toInt then old else a) else Fp.max32 old a
def atomMin (int : Bool) (old a : Word32) : Word32 := if int then (if old.toInt ≤ a.toInt then old else a) else Fp.min32 old a

/-- `SPLD`, R179. Loads a dword and its tag from the spill window. -/
def defSpld : OpDef :=
  spldOp
def execSpld (g : Guard) (src : Source) (s : State) : Host.Outcome State Fault Refusal := .next (issueOne defSpld 132 g src s)

/-- `SPST`, R179. Stores a dword and its tag to the spill window. -/
def defSpst : OpDef :=
  spstOp
def execSpst (g : Guard) (src : Source) (s : State) : Host.Outcome State Fault Refusal := .next (issueOne defSpst 133 g src s)

/-- `LDB`, R180. Local byte load, zero-extended. -/
def defLdb : OpDef :=
  localLoad 1 false
def execLdb (g : Guard) (src : Source) (s : State) : Host.Outcome State Fault Refusal := .next (issueOne defLdb 134 g src s)

/-- `LDBS`, R180. Local byte load, sign-extended. -/
def defLdbs : OpDef :=
  localLoad 1 true
def execLdbs (g : Guard) (src : Source) (s : State) : Host.Outcome State Fault Refusal := .next (issueOne defLdbs 135 g src s)

/-- `LDH`, R180. Local half load, zero-extended. -/
def defLdh : OpDef :=
  localLoad 2 false
def execLdh (g : Guard) (src : Source) (s : State) : Host.Outcome State Fault Refusal := .next (issueOne defLdh 136 g src s)

/-- `LDHS`, R180. Local half load, sign-extended. -/
def defLdhs : OpDef :=
  localLoad 2 true
def execLdhs (g : Guard) (src : Source) (s : State) : Host.Outcome State Fault Refusal := .next (issueOne defLdhs 137 g src s)

/-- `LDW`, R180. Local word load, zero-extended. -/
def defLdw : OpDef :=
  localLoad 4 false
def execLdw (g : Guard) (src : Source) (s : State) : Host.Outcome State Fault Refusal := .next (issueOne defLdw 138 g src s)

/-- `LDWS`, R180. Local word load, sign-extended. -/
def defLdws : OpDef :=
  localLoad 4 true
def execLdws (g : Guard) (src : Source) (s : State) : Host.Outcome State Fault Refusal := .next (issueOne defLdws 139 g src s)

/-- `LDD`, R180. Local dword load. -/
def defLdd : OpDef :=
  localLoad 8 false
def execLdd (g : Guard) (src : Source) (s : State) : Host.Outcome State Fault Refusal := .next (issueOne defLdd 140 g src s)

/-- `STB`, R181. Local byte store, or pour in the multicast window. -/
def defStb : OpDef :=
  localStore 1
def execStb (g : Guard) (src : Source) (s : State) : Host.Outcome State Fault Refusal := .next (issueOne defStb 141 g src s)

/-- `STH`, R181. Local half store or pour. -/
def defSth : OpDef :=
  localStore 2
def execSth (g : Guard) (src : Source) (s : State) : Host.Outcome State Fault Refusal := .next (issueOne defSth 142 g src s)

/-- `STW`, R181. Local word store or pour. -/
def defStw : OpDef :=
  localStore 4
def execStw (g : Guard) (src : Source) (s : State) : Host.Outcome State Fault Refusal := .next (issueOne defStw 143 g src s)

/-- `STD`, R181. Local dword store or pour. -/
def defStd : OpDef :=
  localStore 8
def execStd (g : Guard) (src : Source) (s : State) : Host.Outcome State Fault Refusal := .next (issueOne defStd 144 g src s)

/-- `TCH`, R182. Translates a global virtual address and pins the translation. -/
def defTch : OpDef :=
  tchOp
def execTch (g : Guard) (src : Source) (s : State) : Host.Outcome State Fault Refusal := .next (issueOne defTch 145 g src s)

/-- `GLD`, R183. Covered global scalar load landing at arrival c. -/
def defGld : OpDef :=
  gldOp
def execGld (g : Guard) (src : Source) (s : State) : Host.Outcome State Fault Refusal := .next (issueOne defGld 146 g src s)

/-- `GST`, R183. Covered global scalar store. -/
def defGst : OpDef :=
  gstOp
def execGst (g : Guard) (src : Source) (s : State) : Host.Outcome State Fault Refusal := .next (issueOne defGst 147 g src s)

/-- `AADD`, R184. Atomic add into an accumulator element, returning the old value. -/
def defAadd : OpDef :=
  atomicOp true false fun x int old => some (atomAdd int old x.aW)
def execAadd (g : Guard) (src : Source) (s : State) : Host.Outcome State Fault Refusal := .next (issueOne defAadd 148 g src s)

/-- `AMAX`, R184. Atomic maximum on an accumulator element. -/
def defAmax : OpDef :=
  atomicOp true false fun x int old => some (atomMax int old x.aW)
def execAmax (g : Guard) (src : Source) (s : State) : Host.Outcome State Fault Refusal := .next (issueOne defAmax 149 g src s)

/-- `AMIN`, R184. Atomic minimum on an accumulator element. -/
def defAmin : OpDef :=
  atomicOp true false fun x int old => some (atomMin int old x.aW)
def execAmin (g : Guard) (src : Source) (s : State) : Host.Outcome State Fault Refusal := .next (issueOne defAmin 150 g src s)

/-- `AXCHG`, R184. Atomic exchange on an accumulator element. -/
def defAxchg : OpDef :=
  atomicOp false false fun x _ _ => some x.aW
def execAxchg (g : Guard) (src : Source) (s : State) : Host.Outcome State Fault Refusal := .next (issueOne defAxchg 151 g src s)

/-- `ACAS`, R184. Atomic compare-and-swap on an accumulator element. -/
def defAcas : OpDef :=
  atomicOp false true fun x _ old => if old = x.bD.setWidth 32 then some x.aW else none
def execAcas (g : Guard) (src : Source) (s : State) : Host.Outcome State Fault Refusal := .next (issueOne defAcas 152 g src s)

end Sys2Proof.Machine
end

