-- ==== Sys2Proof/Machine/Mul.lean ====
section
/-! DEFINITION. The multiply and divide unit (R113, R114). -/

namespace Sys2Proof.Machine

/-! ## R113 and R114 -/

def mulLow (a t : Dword) : Dword := a * t
/-- Bits [127:64] of the exact signed product. -/
def mulHigh (a t : Dword) : Dword := dwordOf (a.toInt * t.toInt / (2 ^ 64 : Nat))
def mulHighU (a t : Dword) : Dword := BitVec.ofNat 64 (a.toNat * t.toNat / 2 ^ 64)
def mulWord (a t : Dword) : Dword := dwordOf (toSigned 32 (a.toNat % 2 ^ 32 * (t.toNat % 2 ^ 32)))
def mulAdd (a b t : Dword) : Dword := a * t + b
/-- Quotient and remainder of two integers, rounding toward zero; a divisor of zero gives all ones and the dividend. -/
def divRem (n d : Int) (a : Dword) : Dword × Dword :=
  if d = 0 then (0xFFFFFFFFFFFFFFFF, a) else (dwordOf (n.tdiv d), dwordOf (n - n.tdiv d * d))
def divS (a t : Dword) : Dword := (divRem a.toInt t.toInt a).1
def remS (a t : Dword) : Dword := (divRem a.toInt t.toInt a).2
def divU (a t : Dword) : Dword := (divRem a.toNat t.toNat a).1
def remU (a t : Dword) : Dword := (divRem a.toNat t.toNat a).2

/-- `MUL`, R113. Low 64 bits of a times t. -/
def defMul : OpDef :=
  opAT 2 3 mulLow
def execMul (g : Guard) (src : Source) (s : State) : Host.Outcome State Fault Refusal := .next (issueOne defMul 68 g src s)

/-- `MULH`, R113. High 64 bits of the signed product. -/
def defMulh : OpDef :=
  opAT 2 3 mulHigh
def execMulh (g : Guard) (src : Source) (s : State) : Host.Outcome State Fault Refusal := .next (issueOne defMulh 69 g src s)

/-- `MULHU`, R113. High 64 bits of the unsigned product. -/
def defMulhu : OpDef :=
  opAT 2 3 mulHighU
def execMulhu (g : Guard) (src : Source) (s : State) : Host.Outcome State Fault Refusal := .next (issueOne defMulhu 70 g src s)

/-- `MULW`, R113. 32-bit product sign-extended from bit 31. -/
def defMulw : OpDef :=
  opAT 2 3 mulWord
def execMulw (g : Guard) (src : Source) (s : State) : Host.Outcome State Fault Refusal := .next (issueOne defMulw 71 g src s)

/-- `MADD`, R113. a times t plus b, modulo 2^64. -/
def defMadd : OpDef :=
  opABT 2 3 mulAdd
def execMadd (g : Guard) (src : Source) (s : State) : Host.Outcome State Fault Refusal := .next (issueOne defMadd 72 g src s)

/-- `DIV`, R114. Signed division truncating toward zero, landing after 20 bundles. -/
def defDiv : OpDef :=
  opAT 2 20 divS
def execDiv (g : Guard) (src : Source) (s : State) : Host.Outcome State Fault Refusal := .next (issueOne defDiv 73 g src s)

/-- `DIVU`, R114. Unsigned division. -/
def defDivu : OpDef :=
  opAT 2 20 divU
def execDivu (g : Guard) (src : Source) (s : State) : Host.Outcome State Fault Refusal := .next (issueOne defDivu 74 g src s)

/-- `REM`, R114. Signed remainder. -/
def defRem : OpDef :=
  opAT 2 20 remS
def execRem (g : Guard) (src : Source) (s : State) : Host.Outcome State Fault Refusal := .next (issueOne defRem 75 g src s)

/-- `REMU`, R114. Unsigned remainder. -/
def defRemu : OpDef :=
  opAT 2 20 remU
def execRemu (g : Guard) (src : Source) (s : State) : Host.Outcome State Fault Refusal := .next (issueOne defRemu 76 g src s)

end Sys2Proof.Machine
end

