-- ==== Sys2Proof/Machine/Rtc.lean ====
section
/-! DEFINITION. The retouch unit rtc (R335, R336, R344 to R348). -/

namespace Sys2Proof.Machine

def rtcOf (x : OpIn) : DieEng := ⟨x.who.die, engRtc x.c0⟩
def rtcSet (x : OpIn) : List Dword := x.c0.rtcPar.getD (engRtc x.c0) rtcParZero

def tsetOp : OpDef where
  ty := .s
  scs := 1
  run := fun x s =>
    if x.aP || x.tP then .error (x.poison 4)
    else if 8 < x.aN then .error x.illegal
    else .ok (landSc x 16 1 (param (rtcSet x) x.aN) false
      (updCtx x.who (fun c => { c with rtcPar := c.rtcPar.set (engRtc x.c0) ((rtcSet x).set x.aN x.tD) }) s))

/-- TWRT: a command enters its engine's queue (R335, R345). -/
def enterRtc (x : OpIn) (s : State) : State :=
  let e := rtcOf x
  let m := getRtc s e
  let s1 := nodeEvent x.who s
  let s2 := setRtc e { m with
    queue := insertBy (fun c => entryOrder c.entered c.who) ⟨m.counter, x.who, x.tN, rtcSet x, entryCycle (nominal s) s x.who, s1.seq, 0, 0, [], 0, 0, eventsOf s1 x.who⟩ m.queue, counter := (m.counter + 1) % 2 ^ 16 } s1
  landSc x 16 1 (m.counter * 2 ^ 16 + (m.queue.length + 1) * 2 ^ 8 + e.eng) false
    (updCtx x.who (tokenUp (bits (param (rtcSet x) 7) 2 0)) s2)

def twrtOp : OpDef where
  ty := .s
  scs := 1
  tok := fun x => some (bits (param (rtcSet x) 7) 2 0)
  full := fun x s => queueFull s x 2 (engRtc x.c0) 8 ((getRtc s (rtcOf x)).queue.map (·.who))
  run := fun x s =>
    if x.tP then .error (x.poison 4)
    else if x.tN / 2 ^ 8 ≠ 0 then .error x.illegal
    else .ok (enterRtc x s)

/-- The iteration limit of a command (R336). -/
def rtcLimit (c : RtcCmd) : Nat := if bits (param c.par 6) 3 0 = 0 then 8 else bits (param c.par 6) 3 0
/-- Iterations whose outcome is known on the row in progress, over all its loops (R337, R346). -/
def rowIters (c : RtcCmd) (u : RowRun) : Nat := rtcLimit c * u.failed + u.iter
/-- The words of a command that has not completed (R341, R346): those of a started one, else those of a queued one. An error shows from the cycle
in which it is found, two before the command completes (R337); an iteration counts from the cycle after its last. -/
def runWords (s : State) (e : DieEng) (r : RtcRun) : Dword × Dword :=
  let st := match r.cur with
    | some u => if nominal s < u.start + 8 then 1 else 2
    | none => 1
  let found := r.finish.any fun f => decide (f ≤ nominal s + 2)
  let err := if found then r.err else 0
  (BitVec.ofNat 64 (rtcStatus r.cmd e.eng err (if err = 0 then rtcDetail r.remapped r.maxIter else r.detail) r.cancelled),
   BitVec.ofNat 64 (rtcProgress r.committed (match r.cur with | some u => rowIters r.cmd u + b2n (decide (u.start + 8 + 256 * (rowIters r.cmd u + 1) ≤ nominal s)) | none => r.lastIter) st r.remapped))
def queuedWords (e : DieEng) (c : RtcCmd) : Dword × Dword :=
  (BitVec.ofNat 64 (rtcStatus c e.eng 0 (rtcDetail c.remapped c.maxIter) false), BitVec.ofNat 64 (rtcProgress c.done c.iters 0 c.remapped))

/-- The oldest uncompleted retouch command of a context on a token, on the selected engine (R335, R346). -/
def pendingRtc (s : State) (x : OpIn) (t : Nat) : Option (Dword × Dword) :=
  let e := rtcOf x
  let m := getRtc s e
  let cs := (match m.run with | some r => [(r.cmd, runWords s e r)] | none => []) ++ m.queue.map fun c => (c, queuedWords e c)
  ((sortBy (fun p => p.1.seq) (cs.filter fun p => p.1.who == x.who && rtcTok p.1 == t)).head?).map (·.2)

def tstatOp : OpDef where
  ty := .s
  scs := 1
  run := fun x s =>
    if x.tP then .error (x.poison 4)
    else if x.tN / 16 ≠ 0 then .error x.illegal
    else
      let w := match pendingRtc s x (x.tN % 8) with
        | some w => some w
        | none => reported x.c0.rtcRep (x.tN % 8)
      .ok (landSc x 16 2 (reportWord w (bit x.tN 3)) false s)

/-! ## The fresco tier as a program sees it (R333, R334, R344) -/

def isSpare : RowRef → Bool
  | .own _ => false
  | .spare _ _ => true

/-- The clusters of a context's node, in logical order. -/
def nodeClusters (s : State) (x : OpIn) : List ClId :=
  match x.c0.node with
  | none => []
  | some n => match getNode s n with
    | some d => d.clusters
    | none => []
/-- The physical fresco address behind a node fresco address (R344). -/
def nodeFresco (s : State) (x : OpIn) (a : Nat) : Option Nat :=
  ((nodeClusters s x)[bits a 34 30]?).map fun c => c.die * 2 ^ 35 + (c.cl * 4 + bits a 29 28) * 2 ^ 28 + a % 2 ^ 28

def twearOp : OpDef where
  ty := .s
  scs := 1
  run := fun x s =>
    if x.tP then .error (x.poison 4)
    else if x.tN / 2 ^ 35 ≠ 0 then .error x.illegal
    else match nodeFresco s x x.tN with
      | none => .error x.illegal
      | some f =>
        if x.tN % 64 ≠ 0 then .error ⟨0x12, x.tN, 64⟩
        else
          let r := servingRow s (f / 64)
          .ok (landSc x 16 2 (b2n (freeSpare s (bankOf (f / 64))).isNone * 2 ^ 49 + b2n (isSpare r) * 2 ^ 48
            + (getDie s (f / 2 ^ 35)).wearLimit * 2 ^ 24 + wearOf s r) false s)

/-- A fresco map entry (R307); none when the tile is unmapped. -/
def frescoEntry (s : State) (part : Nat) (world : Bool) (v : Nat) : Option Nat :=
  if 2 ^ 24 ≤ v then none
  else match assoc (world, v) (getPart s part).fmap with
    | some e => if bit e.toNat 0 then some e.toNat else none
    | none => none

/-- The word of TMAP (R348). -/
def tmapWord (s : State) (x : OpIn) (e : Nat) : Nat :=
  let f := bits e 39 16 * 2 ^ 14
  let c : ClId := ⟨bits f 37 35, bits f 34 28 / 4⟩
  let low := b2n (bit e 2) * 4 + b2n (bit e 1) * 2 + 1
  match (nodeClusters s x).findIdx? (· = c) with
  | some i => (4 * i + bits f 29 28) * 2 ^ 28 + f % 2 ^ 28 + low
  | none => 8 + low
def tmapOp : OpDef where
  ty := .s
  scs := 1
  run := fun x s =>
    if x.tP then .error (x.poison 4)
    else if x.tN / 2 ^ 32 ≠ 0 then .error x.illegal
    else .ok (landSc x 16 2 (match frescoEntry s (partOf s x.who) (worldOf s x.who) x.tN with | some e => tmapWord s x e | none => 0) false s)

/-- `TSET`, R345. Writes one retouch parameter. -/
def defTset : OpDef :=
  tsetOp
def execTset (g : Guard) (src : Source) (s : State) : Host.Outcome State Fault Refusal := .next (issueOne defTset 516 g src s)

/-- `TWRT`, R337. Enters a retouch command that writes fresco rows. -/
def defTwrt : OpDef :=
  twrtOp
def execTwrt (g : Guard) (src : Source) (s : State) : Host.Outcome State Fault Refusal := .next (issueOne defTwrt 517 g src s)

/-- `TSTAT`, R346. Reports status or progress of a token's retouch command. -/
def defTstat : OpDef :=
  tstatOp
def execTstat (g : Guard) (src : Source) (s : State) : Host.Outcome State Fault Refusal := .next (issueOne defTstat 518 g src s)

/-- `TWEAR`, R347. Reports the wear of a fresco row. -/
def defTwear : OpDef :=
  twearOp
def execTwear (g : Guard) (src : Source) (s : State) : Host.Outcome State Fault Refusal := .next (issueOne defTwear 519 g src s)

/-- `TMAP`, R348. Returns the fresco map entry of a virtual tile. -/
def defTmap : OpDef :=
  tmapOp
def execTmap (g : Guard) (src : Source) (s : State) : Host.Outcome State Fault Refusal := .next (issueOne defTmap 520 g src s)

end Sys2Proof.Machine
end

