-- ==== Sys2Proof/Machine/Syn.lean ====
section
/-! DEFINITION. The synchronisation unit syn (R192 to R199). -/

namespace Sys2Proof.Machine

/-- The address of an address word as traps report it: all its bits but bit 63, which the spec calls the address without more (R177;
DESIGN CHOICE, log entry 146). -/
def wordAddr (t : Nat) : Nat := t % 2 ^ 63
def misuse (x : OpIn) (kind : Nat) : Trap := ⟨0x0D, wordAddr x.tN, kind⟩

/-- The barrier word an address word names: its physical address, after steps 3 to 5 of R176 (R194). `kind` is the access kind
of its permission test. The alias trap of R304 comes before misuse kind 2 (DESIGN CHOICE, log entry 51). -/
def barTarget (x : OpIn) (s : State) (kind : Nat) : Except Trap Nat :=
  match wordGlobal x.tN with
  | some va =>
    match globalCheck x s [va] 16 16 kind with
    | .error t => .error t
    | .ok ls =>
      let pa := (ls.flatten.map (·.pa)).headD 0
      if isSpad pa then .ok pa else .error (misuse x 2)
  | none =>
    if x.tN % 16 ≠ 0 then .error (misaligned x.tN 16)
    else if inSpad x.tN 16 then .ok (physSpad x.who.clId x.tN)
    else .error (misuse x 2)

/-- The status of BINIT, BARV and BEXP: 1 for the local form (R194). -/
def synStatus (x : OpIn) (s : State) : State := landSc x 17 1 (if bit x.tN 63 then 0 else 1) false s

/-- BINIT: word 0 and the pending counts, the phase kept, bits [63:57] cleared (R195). -/
def binitOp : OpDef where
  ty := .s
  scs := 1
  run := fun x s =>
    if x.aP || x.tP then .error (x.poison 4)
    else if x.aN / 2 ^ 56 ≠ 0 ∨ x.aN = 0 then .error (misuse x 1)
    else match barTarget x s 2 with
      | .error t => .error t
      | .ok w =>
        let b := barFields x.aN (memDword s (w + 8))
        let w1 := b2n b.phase * 2 ^ 56 + b.initBytes * 2 ^ 16 + b.initArr
        let ws := (toBytes 8 x.aN ++ toBytes 8 w1).zipIdx.map fun (v, i) => (w + i, v)
        .ok (synStatus x (coreWrite x.who none ws (noteDurable (nodeOf s x.who) [w] s)))

/-- BARV and BEXP: an arrival with bytes added before it (R193, R195). -/
def arriveOp (bytes : Bool) : OpDef where
  ty := .s
  scs := 1
  run := fun x s =>
    if (bytes && x.aP) || x.tP then .error (x.poison 4)
    else if bytes && decide (2 ^ 40 ≤ x.aN) then .error (misuse x 4)
    else match barTarget x s 2 with
      | .error t => .error t
      | .ok w => .ok (synStatus x (countEvent x.who (barUpdate w (if bytes then x.aN else 0) true 0 .none (noteDurable (nodeOf s x.who) [w] s))))

/-- BTST: word 1 at its read event, which observes earlier flips (R195, R197). -/
def btstOp : OpDef where
  ty := .s
  land := 1
  run := fun x s =>
    if x.cP || x.tP then .error (x.poison 4)
    else match barTarget x s 0 with
      | .error t => .error t
      | .ok w =>
        let bs : List GByte := (List.range 8).map fun i => ⟨w + 8 + i, 0⟩
        let r := ctxRead x bs s
        let s1 := observeFlips x.who w (flipsOf r.2 w) r.2
        .ok (takeEntry x (if bit x.tN 63 then arrival x.cN else 5) (.latch 17) (.value (.sc ⟨BitVec.ofNat 64 (ofBytes r.1), anyBad s x.who bs⟩) 0) s1)

/-- A context that is to wait; EXIT of the same bundle has retired it for good (R121). -/
def waitFor (r : Run) (c : Ctx) : Ctx := if c.run = .retired then c else { c with run := r }

/-- BWAIT: continues when the phase differs from a[0], else waits for a change (R196). -/
def bwaitOp : OpDef where
  ty := .s
  run := fun x s =>
    if x.aP || x.tP then .error (x.poison 4)
    else if 1 < x.aN then .error (misuse x 3)
    else match barTarget x s 0 with
      | .error t => .error t
      | .ok w =>
        let phase := bit (memDword s (w + 8)) 56
        let s1 := nodeEvent x.who s
        .ok (if phase ≠ (x.aN == 1) then observeFlips x.who w (flipsOf s1 w) s1
          else updCtx x.who (waitFor (.bwait w (x.aN == 1) x.tN (flipsOf s1 w) .waiting)) s1)

def fenceOp : OpDef where
  ty := .s
  run := fun x s =>
    if x.tP then .error (x.poison 4)
    else if 2 < x.tN then .error x.illegal
    else .ok (updCtx x.who (waitFor (.fence x.tN)) s)

def twaitOp : OpDef where
  ty := .s
  run := fun x s =>
    if x.tP then .error (x.poison 4)
    else .ok (updCtx x.who (fun c => { c with twait := x.tN % 256 }) s)

/-- `BINIT`, R195. Writes barrier word 0 and reloads the pending counts. -/
def defBinit : OpDef :=
  binitOp
def execBinit (g : Guard) (src : Source) (s : State) : Host.Outcome State Fault Refusal := .next (issueOne defBinit 548 g src s)

/-- `BARV`, R195. Arrives at a barrier word. -/
def defBarv : OpDef :=
  arriveOp false
def execBarv (g : Guard) (src : Source) (s : State) : Host.Outcome State Fault Refusal := .next (issueOne defBarv 549 g src s)

/-- `BEXP`, R195. Adds expected bytes and arrives at a barrier word. -/
def defBexp : OpDef :=
  arriveOp true
def execBexp (g : Guard) (src : Source) (s : State) : Host.Outcome State Fault Refusal := .next (issueOne defBexp 550 g src s)

/-- `BTST`, R195. Reads barrier word 1, observing any flip. -/
def defBtst : OpDef :=
  btstOp
def execBtst (g : Guard) (src : Source) (s : State) : Host.Outcome State Fault Refusal := .next (issueOne defBtst 551 g src s)

/-- `BWAIT`, R196. Waits until a barrier word's phase differs from the operand. -/
def defBwait : OpDef :=
  bwaitOp
def execBwait (g : Guard) (src : Source) (s : State) : Host.Outcome State Fault Refusal := .next (issueOne defBwait 552 g src s)

/-- `FENCE`, R198. Holds the context until stores, host visibility or all commands have drained. -/
def defFence : OpDef :=
  fenceOp
def execFence (g : Guard) (src : Source) (s : State) : Host.Outcome State Fault Refusal := .next (issueOne defFence 553 g src s)

/-- `TWAIT`, R199. Makes the next bundle await the named tokens. -/
def defTwait : OpDef :=
  twaitOp
def execTwait (g : Guard) (src : Source) (s : State) : Host.Outcome State Fault Refusal := .next (issueOne defTwait 554 g src s)

end Sys2Proof.Machine
end

