-- ==== Sys2Proof/Machine/Sys.lean ====
section
/-! DEFINITION. The context and system unit sys (R122 to R134), with the sketch instructions (R248 to R251). -/

namespace Sys2Proof.Machine

/-! ## Special registers (R108, R109) -/

/-- CTXID and PLACE from where a context stands. -/
def ctxidWord (x : OpIn) : Nat := x.c0.logical * 16 + x.who.core * 4 + x.who.ctx
def placeWord (x : OpIn) : Nat := x.c0.logical * 2 ^ 8 + x.who.core * 2 ^ 4 + x.who.ctx
def nodeidWord (x : OpIn) (s : State) : Nat :=
  match x.c0.node with
  | none => 0
  | some n => match getNode s n with
    | some d => d.idx % 2 ^ 32
    | none => 0

/-- LINK as the bundle sees it (R123). The first delay bundle of a CALL may itself change the loop state that decides LINK (R117). -/
def linkWord (x : OpIn) (s : State) : Nat :=
  let c := getCtx s x.who
  if x.c0.calling = some (x.pos + 2) ∧ (x.trigs.contains 106 ∨ x.trigs.contains 107) then
    (linkAhead s x.who { c with bclk := x.pos + 1, pc := (flowAfter c x.c0 x.h x.len).1 } (x.pos + 2) 1).getD x.c0.sr.link.toNat
  else x.c0.sr.link.toNat

/-- A special register as the bundle sees it (R123). -/
def readSr (x : OpIn) (s : State) (i : Nat) : Nat :=
  match i with
  | 0x00 => ctxidWord x
  | 0x01 => nodeidWord x s
  | 0x02 => placeWord x
  | 0x03 => x.pos
  | 0x04 => linkWord x s
  | 0x05 => x.c0.loopCnt
  | 0x06 => x.c0.loopEnd
  | 0x07 => x.c0.sr.frm.toNat
  | 0x08 => x.c0.sr.fflags.toNat
  | 0x09 => vquotaWord x.busy x.c0
  | 0x0A => x.c0.sr.trapvec
  | 0x0B => x.c0.sr.trappc
  | 0x0C => x.c0.sr.trapcause
  | 0x0D => x.c0.sr.info0.toNat
  | 0x0E => x.c0.sr.info1.toNat
  | 0x0F => tokStat x.c0
  | 0x10 => x.c0.sr.prio
  | 0x11 => b2n (worldOf s x.who)
  | 0x12 => x.c0.sr.mcwin.toNat
  | 0x13 => x.c0.sr.engsel.toNat
  | 0x14 => clk s x.who.clId
  | _ => 0

def mfsrOp : OpDef where
  ty := .s
  scs := 1
  run := fun x s =>
    if 0x14 < x.tN % 256 then .error x.illegal else .ok (landSc x 5 1 (readSr x s (x.tN % 256)) x.tP s)

/-- Registers MTSR cannot write: those marked RO and indices without a register (R109, R124). -/
def srReadOnly (i : Nat) : Bool := [0x00, 0x01, 0x02, 0x03, 0x0F, 0x11, 0x14].contains i || decide (0x14 < i)

/-- The pool registers the other contexts of the core may hold (R239). -/
def othersQuota (s : State) (who : CtxId) : Nat :=
  (((List.range 4).filter (· ≠ who.ctx)).map fun k =>
    let c := seen (getCtx s (who.coreId.ctxId k))
    match c.run with
    | .notStarted => 0
    | .retired => 0
    | .halted => 0
    | _ => max c.sr.quota (residentCount c)).sum

/-- MTSR beside another write of the same register in its bundle: LOOPS or LOOPX of the loop registers. The spec does not say
which stays (DESIGN CHOICE, log entry 17). -/
def loopClash (x : OpIn) (i : Nat) : Bool := (i == 0x05 || i == 0x06) && (x.trigs.contains 106 || x.trigs.contains 107)

def mtsrOp : OpDef where
  ty := .s
  scs := 1
  run := fun x s =>
    let i := x.aN % 256
    if x.aP || x.tP then .error (x.poison 4)
    else if srReadOnly i then .error x.illegal
    else if i = 0x09 ∧ (32 < x.tN % 64 ∨ 64 < x.tN % 64 + othersQuota s x.who) then .error x.illegal
    else if i = 0x04 ∧ x.trigs.contains 104 then .ok s
    else if loopClash x i then
      let s1 := { s with free := s.free + 1 }
      .ok (if Config.mtsrStays s.free then landSpecial x i x.tN s1 else s1)
    else .ok (landSpecial x i x.tN s)

def yieldOp : OpDef where
  ty := .s
  run := fun x s => .ok (updCtx x.who (fun c => { c with yieldAt := some (clk s x.who.clId + 1) }) s)

/-- PRIO. Poison comes before the range (DESIGN CHOICE, log entry 157). -/
def prioOp : OpDef where
  ty := .s
  scs := 2
  run := fun x s =>
    if x.tP then .error (x.poison 4)
    else if 7 < x.tN then .error x.illegal
    else .ok (landSpecial x 0x10 x.tN (landSc x 5 1 x.c0.sr.prio false s))

/-- SYSC: a call enters the die's queue of 64 on a token (R127). Poison first (log entry 48), then the reserved bits, then the offset
(DESIGN CHOICE, log entry 118). -/
def syscOp : OpDef where
  ty := .s
  tok := fun x => some (bits x.tN 18 16)
  full := fun x s => decide (64 ≤ (getDie s x.who.die).calls.length)
  run := fun x s =>
    if x.aP || x.bP || x.tP then .error (x.poison 4)
    else if x.tN / 2 ^ 19 ≠ 0 then .error x.illegal
    else if x.bN % 8 ≠ 0 ∨ 0x3FF0 < x.bN then .error ⟨0x14, x.bN, x.slot⟩
    else
      let d := getDie s x.who.die
      .ok (updCtx x.who (tokenUp (bits x.tN 18 16))
        (setDie x.who.die { d with calls := d.calls ++ [⟨x.who, x.tN % 2 ^ 16, x.aD, x.bN, bits x.tN 18 16⟩] } s))

/-- RFT: the handler ends after two delay bundles (R70, R130). Poison comes before the other checks (DESIGN CHOICE, log entry 157). -/
def rftOp : OpDef where
  ty := .s
  run := fun x s =>
    if x.tP then .error (x.poison 1)
    else if 1 < x.tN ∨ x.c0.snap.isNone ∨ x.c0.rft.isSome then .error x.illegal
    else .ok (updCtx x.who (fun c => { c with rft := some ⟨x.pos + 3, x.tN, x.h, x.c0.sr.trappc⟩ }) s)

def tokqOp : OpDef where
  ty := .s
  scs := 1
  run := fun x s =>
    if 7 < x.tN then .error x.illegal
    else
      let k := getTok x.c0 x.tN
      .ok (landSc x 5 1 (b2n k.err * 16 + k.count) x.tP s)

/-- TOKC: at the end of the cycle, removes this context's commands that have not started from the engine queues (R131, R233). -/
def tokcOp : OpDef where
  ty := .s
  scs := 1
  run := fun x s => .ok { s with cancels := s.cancels ++ [⟨x.who, 5, 0, x.tN, 0, none, some (x.pos + 1), x.tP⟩] }

def fflgsOp : OpDef where
  ty := .s
  scs := 2
  run := fun x s =>
    let old := x.c0.sr.fflags
    .ok (landSpecial x 0x08 (old &&& ~~~(BitVec.ofNat 5 x.tN)).toNat (landSc x 5 1 old.toNat x.tP s))

/-- SLEEP: a context that EXIT of the same bundle has retired does not sleep (R121). -/
def sleepOp : OpDef where
  ty := .s
  run := fun x s =>
    let n := x.tN % 2 ^ 32
    .ok (updCtx x.who (fun c =>
      if c.run = .retired then c
      else if c.wake then { c with wake := false } else { c with nap := if n = 0 then .ever else .till (clk s x.who.clId + n) }) s)

def wakeCtx (c : Ctx) : Ctx :=
  match c.nap with
  | .awake => { c with wake := true }
  | _ => { c with nap := .awake, wake := false }
def wakeOp : OpDef where
  ty := .s
  run := fun x s => if 3 < x.tN then .error x.illegal else .ok (updCtx (x.who.coreId.ctxId x.tN) wakeCtx s)

/-- The state code of CTXQ (R134). A sibling that YIELD alone keeps from being ready has code 2, and one that sleeps has code 3 though a BWAIT
or a FENCE of its last bundle waits too (DESIGN CHOICE, log entry 156). -/
def ctxCode (s : State) (x : OpIn) (k : Nat) : Nat :=
  if k = x.who.ctx then 1
  else
    let c := getCtx s (x.who.coreId.ctxId k)
    match c.run with
    | .notStarted => 0
    | .retired => 4
    | .halted => 5
    | .runnable => if c.nap ≠ .awake then 3 else if (getCore s x.who.coreId).ready.contains k then 1 else 2
    | .bwait _ _ _ _ _ => if c.nap ≠ .awake then 3 else 2
    | .fence _ => if c.nap ≠ .awake then 3 else 2
    | .replay _ _ => 2
/-- CTXQ. In a merged bundle it sees its core's lead of the same cycle after the lead's bundle (DESIGN CHOICE, log entry 143). -/
def ctxqOp : OpDef where
  ty := .s
  scs := 1
  run := fun x s =>
    if 3 < x.tN then .error x.illegal
    else
      let c := if x.tN = x.who.ctx then x.c0 else seen (getCtx s (x.who.coreId.ctxId x.tN))
      .ok (landSc x 5 1 (c.bclk % 2 ^ 32 * 2 ^ 32 + c.sr.prio * 2 ^ 16 + tokStat c % 256 * 2 ^ 8 + b2n c.wake * 16
        + b2n c.snap.isSome * 8 + ctxCode s x x.tN) x.tP s)

/-! ## The sketch instructions (R248 to R251) -/

/-- RDEF: clears the entry and reads the descriptor, which defines it four bundles later. -/
def rdefOp : OpDef where
  ty := .s
  land := 1
  run := fun x s =>
    if x.aP || x.tP then .error (x.poison 2)
    else if 15 < x.aN then .error x.illegal
    else if x.tN % 8 ≠ 0 then .error ⟨0x12, x.tN, 8⟩
    else if 0x300000 < x.tN + 72 then .error x.illegal
    else
      let as := (List.range 72).map fun i => physSpad x.who.clId (x.tN + i)
      let r := coreRead x.who (nodeOf s x.who) as s
      let s1 := updCtx x.who (fun c => { c with sketches := c.sketches.set x.aN .cleared }) r.2
      .ok (takeEntry x 4 (.sketch x.aN x.c0.sr.frm) (.desc r.1 (as.any (byteBad s))) s1)

/-- The context with a name bound; an unwritten name becomes one that is computed when first read (R248). -/
def bindName (n e : Nat) (c : Ctx) : Ctx :=
  let v := getV c n
  setV n { v with bound := some e, st := if v.st = .unwritten then .dropped else v.st } c

/-- RTAG: the depth rule looks at the names as the bundle's own evictions leave them (R247). -/
def rtagOp : OpDef where
  ty := .s
  run := fun x s =>
    if x.aP || x.tP then .error (x.poison 2)
    else if 15 < x.aN ∨ 31 < x.tN then .error x.illegal
    else
      let sk := getSketch x.c0 x.aN
      if !sk.defined || (sketchSources sk.bytes).contains x.tN || tooDeep x.tN (getCtx s x.who) (bindName x.tN x.aN (getCtx s x.who)) then .error x.illegal
      else .ok (updCtx x.who (bindName x.tN x.aN) s)

def rclrOp : OpDef where
  ty := .s
  run := fun x s =>
    if x.tP then .error (x.poison 2)
    else if 15 < x.tN then .error x.illegal
    else .ok (updCtx x.who (fun c => { c with sketches := c.sketches.set x.tN .cleared }) s)

def rdropOp : OpDef where
  ty := .s
  run := fun x s =>
    if x.tP then .error (x.poison 2)
    else if 31 < x.tN then .error x.illegal
    else .ok (updCtx x.who (fun c =>
      if (getV c x.tN).st = .resident ∧ !vInFlight c x.tN ∧ !tooDeep x.tN c (dropName x.tN c) then dropName x.tN c else c) s)

/-- `MFSR`, R123. Reads a special register into sys.x. -/
def defMfsr : OpDef :=
  mfsrOp
def execMfsr (g : Guard) (src : Source) (s : State) : Host.Outcome State Fault Refusal := .next (issueOne defMfsr 164 g src s)

/-- `MTSR`, R124. Writes a special register, with register-specific effects for FFLAGS, PRIO and VQUOTA. -/
def defMtsr : OpDef :=
  mtsrOp
def execMtsr (g : Guard) (src : Source) (s : State) : Host.Outcome State Fault Refusal := .next (issueOne defMtsr 165 g src s)

/-- `YIELD`, R125. Makes the context not ready in the following cycle. -/
def defYield : OpDef :=
  yieldOp
def execYield (g : Guard) (src : Source) (s : State) : Host.Outcome State Fault Refusal := .next (issueOne defYield 166 g src s)

/-- `PRIO`, R126. Sets the issue priority and returns the old PRIO. -/
def defPrio : OpDef :=
  prioOp
def execPrio (g : Guard) (src : Source) (s : State) : Host.Outcome State Fault Refusal := .next (issueOne defPrio 167 g src s)

/-- `SYSC`, R127. Sends a system call to the partition manager, counted on a token. -/
def defSysc : OpDef :=
  syscOp
def execSysc (g : Guard) (src : Source) (s : State) : Host.Outcome State Fault Refusal := .next (issueOne defSysc 168 g src s)

/-- `RFT`, R70. Ends a trap handler, restoring the snapshot and retrying or skipping the faulting bundle. -/
def defRft : OpDef :=
  rftOp
def execRft (g : Guard) (src : Source) (s : State) : Host.Outcome State Fault Refusal := .next (issueOne defRft 169 g src s)

/-- `TOKQ`, R131. Returns a token's count and error bit. -/
def defTokq : OpDef :=
  tokqOp
def execTokq (g : Guard) (src : Source) (s : State) : Host.Outcome State Fault Refusal := .next (issueOne defTokq 170 g src s)

/-- `TOKC`, R131. Removes unstarted engine commands counted on the named tokens as cancelled. -/
def defTokc : OpDef :=
  tokcOp
def execTokc (g : Guard) (src : Source) (s : State) : Host.Outcome State Fault Refusal := .next (issueOne defTokc 171 g src s)

/-- `FFLGS`, R132. Returns FFLAGS and clears the masked flags. -/
def defFflgs : OpDef :=
  fflgsOp
def execFflgs (g : Guard) (src : Source) (s : State) : Host.Outcome State Fault Refusal := .next (issueOne defFflgs 172 g src s)

/-- `SLEEP`, R133. Consumes the wake flag or sleeps until woken or a cycle limit passes. -/
def defSleep : OpDef :=
  sleepOp
def execSleep (g : Guard) (src : Source) (s : State) : Host.Outcome State Fault Refusal := .next (issueOne defSleep 173 g src s)

/-- `WAKE`, R133. Sets the wake flag of a sibling context. -/
def defWake : OpDef :=
  wakeOp
def execWake (g : Guard) (src : Source) (s : State) : Host.Outcome State Fault Refusal := .next (issueOne defWake 174 g src s)

/-- `CTXQ`, R134. Returns the state of a sibling context. -/
def defCtxq : OpDef :=
  ctxqOp
def execCtxq (g : Guard) (src : Source) (s : State) : Host.Outcome State Fault Refusal := .next (issueOne defCtxq 175 g src s)

/-- `RDEF`, R248. Clears a sketch entry and reads a descriptor to define it at b+4. -/
def defRdef : OpDef :=
  rdefOp
def execRdef (g : Guard) (src : Source) (s : State) : Host.Outcome State Fault Refusal := .next (issueOne defRdef 176 g src s)

/-- `RTAG`, R248. Binds a vector register name to a defined sketch entry. -/
def defRtag : OpDef :=
  rtagOp
def execRtag (g : Guard) (src : Source) (s : State) : Host.Outcome State Fault Refusal := .next (issueOne defRtag 177 g src s)

/-- `RCLR`, R249. Clears a sketch entry. -/
def defRclr : OpDef :=
  rclrOp
def execRclr (g : Guard) (src : Source) (s : State) : Host.Outcome State Fault Refusal := .next (issueOne defRclr 178 g src s)

/-- `RDROP`, R251. Drops a resident vector name, releasing its storage. -/
def defRdrop : OpDef :=
  rdropOp
def execRdrop (g : Guard) (src : Source) (s : State) : Host.Outcome State Fault Refusal := .next (issueOne defRdrop 179 g src s)

end Sys2Proof.Machine
end

