-- ==== Sys2Proof/Machine/Lanes.lean ====
section
/-! DEFINITION. Lane shapes (R135 to R137) and the pattern unpacking and packing of R156, which trn and VLDX share. -/

namespace Sys2Proof.Machine

def OpIn.aV (x : OpIn) : List Lane := valVec x.a
def OpIn.bV (x : OpIn) : List Lane := valVec x.b
def OpIn.cV (x : OpIn) : List Lane := valVec x.c
def OpIn.dV (x : OpIn) : List Lane := valVec x.d
def OpIn.tV (x : OpIn) : List Lane := valVec x.t
def OpIn.cM (x : OpIn) : List MLane := valMask x.c
def OpIn.dM (x : OpIn) : List MLane := valMask x.d
def OpIn.tM (x : OpIn) : List MLane := valMask x.t

/-- A vector by lane number, and a mask by lane number. -/
def vecOf (f : Nat → Lane) : List Lane := (List.range 128).map f
def maskOf (f : Nat → MLane) : List MLane := (List.range 128).map f

/-- Byte `j` of a vector (R135). -/
def vecByte (v : List Lane) (j : Nat) : Nat := (laneAt v (j / 4)).v.toNat / 2 ^ (8 * (j % 4)) % 256
def vecBytes (v : List Lane) : List Byte := (v.map laneBytes).flatten
/-- Bit `n` of the 4,096-bit vector. -/
def vecBit (v : List Lane) (n : Nat) : Bool := bit (laneAt v (n / 32)).v.toNat (n % 32)
/-- Half `h` of a lane. -/
def half (w : Word32) (h : Nat) : Nat := w.toNat / 2 ^ (16 * h) % 2 ^ 16

/-! ## Patterns (R153 to R156) -/

def getPat (c : Ctx) (k : Nat) : Pattern := c.pats.getD k .start

/-- Bit position of the field that lane `l` carries. -/
def patBase (bs : List Byte) (l : Nat) : Nat := l / patCount bs * patPeriod bs + patShift bs (l % patCount bs)

/-- PUNPK: each lane is its field, extended; poisoned with any lane that holds a bit of it. -/
def patUnpack (p : Pattern) (t : List Lane) : List Lane :=
  let whole := ofBytes (vecBytes t)
  vecOf fun l =>
    let base := patBase p.bytes l
    let w := patWidth p.bytes (l % patCount p.bytes)
    let f := whole / 2 ^ base % 2 ^ w
    let v : Word32 := if patSigned p.bytes (l % patCount p.bytes) then BitVec.ofInt 32 (toSigned w f) else BitVec.ofNat 32 f
    ⟨v, p.poisoned || ((List.range 128).any fun k => (laneAt t k).p && decide (base < 32 * k + 32) && decide (32 * k < base + w))⟩

/-- One lane of PPACK put over what lower lanes packed. -/
def packField (bs : List Byte) (t : List Lane) (acc : Nat) (l : Nat) : Nat :=
  let base := patBase bs l
  let w := patWidth bs (l % patCount bs)
  if 4096 ≤ base then acc
  else acc / 2 ^ (base + w) * 2 ^ (base + w) + (laneAt t l).v.toNat % 2 ^ w * 2 ^ base + acc % 2 ^ base

/-- PPACK: lanes in ascending order, the higher winning on overlap. A bit is supplied by the lane that packed it last. -/
def patPack (p : Pattern) (t : List Lane) : List Lane :=
  let whole := (List.range 128).foldl (packField p.bytes t) 0 % 2 ^ 4096
  vecOf fun k =>
    let supplied : Nat → Bool := fun n =>
      match ((List.range 128).filter fun l =>
        decide (patBase p.bytes l ≤ n) && decide (n < patBase p.bytes l + patWidth p.bytes (l % patCount p.bytes))).getLast? with
      | some l => (laneAt t l).p
      | none => false
    ⟨BitVec.ofNat 32 (whole / 2 ^ (32 * k)),
      p.poisoned || (t.any (·.p) && (List.range 32).any fun i => supplied (32 * k + i))⟩

end Sys2Proof.Machine
end

