-- ==== Sys2Proof/Machine/Val.lean ====
section
/-! DEFINITION. The vector integer and logic unit val (R138) and the shapes of lane instructions. -/

namespace Sys2Proof.Machine

/-! ## Shapes of lane instructions -/

/-- One vector in latch x, and the same lanes for a sketch step. -/
def laneOp (unit lat : Nat) (ty : Ty) (bad : OpIn → Bool) (f : OpIn → List FLane) : OpDef where
  ty := ty
  vecs := 1
  run := fun x s => if bad x then .error x.illegal else .ok (landX x unit lat (fVal (f x)) (fFlags (f x)) s)
  step := some fun x => if bad x then .error x.illegal else .ok ((f x).map (·.lane))

def plain (v : Word32) (p : Bool) : FLane := ⟨⟨v, p⟩, 0⟩
/-- Lane-wise over a and t. -/
def zipAT (f : Word32 → Word32 → Word32) (x : OpIn) : List FLane :=
  (List.range 128).map fun l => plain (f (laneAt x.aV l).v (laneAt x.tV l).v) ((laneAt x.aV l).p || (laneAt x.tV l).p)
/-- A mask in latch x. -/
def maskOp (unit lat : Nat) (ty : Ty) (f : OpIn → List MLane) : OpDef where
  ty := ty
  vecs := 1
  run := fun x s => .ok (landX x unit lat (.mask (f x)) 0 s)
def cmpAT (f : Word32 → Word32 → Bool) (x : OpIn) : List MLane :=
  maskOf fun l => ⟨f (laneAt x.aV l).v (laneAt x.tV l).v, (laneAt x.aV l).p || (laneAt x.tV l).p⟩
def zipMask (f : Bool → Bool → Bool) (x : OpIn) : List MLane :=
  maskOf fun l => ⟨f (maskAt x.cM l).v (maskAt x.tM l).v, (maskAt x.cM l).p || (maskAt x.tM l).p⟩

/-! ## R138 -/

def valOp (f : Word32 → Word32 → Word32) : OpDef := laneOp 7 2 .v (fun _ => false) (zipAT f)
def viMin (a t : Word32) : Word32 := if a.toInt ≤ t.toInt then a else t
def viMax (a t : Word32) : Word32 := if t.toInt ≤ a.toInt then a else t
def viMinu (a t : Word32) : Word32 := if a.toNat ≤ t.toNat then a else t
def viMaxu (a t : Word32) : Word32 := if t.toNat ≤ a.toNat then a else t
def viShl (a t : Word32) : Word32 := a <<< (t.toNat % 32)
def viShr (a t : Word32) : Word32 := a >>> (t.toNat % 32)
def viSar (a t : Word32) : Word32 := a.sshiftRight (t.toNat % 32)
def viAdds (a t : Word32) : Word32 := BitVec.ofInt 32 (sat32 (a.toInt + t.toInt))
/-- Byte by byte: 0xFF where equal. -/
def viBeq8 (a t : Word32) : Word32 :=
  BitVec.ofNat 32 (((List.range 4).map fun j => if a.toNat / 2 ^ (8 * j) % 256 = t.toNat / 2 ^ (8 * j) % 256 then 255 * 2 ^ (8 * j) else 0).sum)
def vselOp : OpDef where
  ty := .m
  vecs := 1
  run := fun x s => .ok (landX x 7 2 (.vec (vecOf fun l =>
    ⟨if (maskAt x.tM l).v then (laneAt x.aV l).v else (laneAt x.bV l).v,
      (laneAt x.aV l).p || (laneAt x.bV l).p || (maskAt x.tM l).p⟩)) 0 s)
def viotaOp : OpDef :=
  laneOp 7 2 .s (fun _ => false) fun x => (List.range 128).map fun l => plain (BitVec.ofNat 32 (x.tN + l)) x.tP
def vpopmOp : OpDef where
  ty := .m
  scs := 1
  run := fun x s => .ok (landSc x 7 2 (x.tM.filter (·.v)).length (x.tM.any (·.p)) s)
def vmnotOp : OpDef := maskOp 7 2 .m fun x => maskOf fun l => ⟨!(maskAt x.tM l).v, (maskAt x.tM l).p⟩

/-- `VIADD`, R138. Lane-wise wrapping integer add. -/
def defViadd : OpDef :=
  valOp (· + ·)
def execViadd (g : Guard) (src : Source) (s : State) : Host.Outcome State Fault Refusal := .next (issueOne defViadd 228 g src s)

/-- `VISUB`, R138. Lane-wise wrapping integer subtract. -/
def defVisub : OpDef :=
  valOp (· - ·)
def execVisub (g : Guard) (src : Source) (s : State) : Host.Outcome State Fault Refusal := .next (issueOne defVisub 229 g src s)

/-- `VIMUL`, R138. Lane-wise low 32-bit multiply. -/
def defVimul : OpDef :=
  valOp (· * ·)
def execVimul (g : Guard) (src : Source) (s : State) : Host.Outcome State Fault Refusal := .next (issueOne defVimul 230 g src s)

/-- `VIMIN`, R138. Lane-wise signed minimum. -/
def defVimin : OpDef :=
  valOp viMin
def execVimin (g : Guard) (src : Source) (s : State) : Host.Outcome State Fault Refusal := .next (issueOne defVimin 231 g src s)

/-- `VIMAX`, R138. Lane-wise signed maximum. -/
def defVimax : OpDef :=
  valOp viMax
def execVimax (g : Guard) (src : Source) (s : State) : Host.Outcome State Fault Refusal := .next (issueOne defVimax 232 g src s)

/-- `VIMINU`, R138. Lane-wise unsigned minimum. -/
def defViminu : OpDef :=
  valOp viMinu
def execViminu (g : Guard) (src : Source) (s : State) : Host.Outcome State Fault Refusal := .next (issueOne defViminu 233 g src s)

/-- `VIMAXU`, R138. Lane-wise unsigned maximum. -/
def defVimaxu : OpDef :=
  valOp viMaxu
def execVimaxu (g : Guard) (src : Source) (s : State) : Host.Outcome State Fault Refusal := .next (issueOne defVimaxu 234 g src s)

/-- `VAND`, R138. Lane-wise AND. -/
def defVand : OpDef :=
  valOp (· &&& ·)
def execVand (g : Guard) (src : Source) (s : State) : Host.Outcome State Fault Refusal := .next (issueOne defVand 235 g src s)

/-- `VOR`, R138. Lane-wise OR. -/
def defVor : OpDef :=
  valOp (· ||| ·)
def execVor (g : Guard) (src : Source) (s : State) : Host.Outcome State Fault Refusal := .next (issueOne defVor 236 g src s)

/-- `VXOR`, R138. Lane-wise XOR. -/
def defVxor : OpDef :=
  valOp (· ^^^ ·)
def execVxor (g : Guard) (src : Source) (s : State) : Host.Outcome State Fault Refusal := .next (issueOne defVxor 237 g src s)

/-- `VANDN`, R138. Lane-wise AND NOT. -/
def defVandn : OpDef :=
  valOp fun a t => a &&& ~~~t
def execVandn (g : Guard) (src : Source) (s : State) : Host.Outcome State Fault Refusal := .next (issueOne defVandn 238 g src s)

/-- `VSHL`, R138. Lane-wise shift left. -/
def defVshl : OpDef :=
  valOp viShl
def execVshl (g : Guard) (src : Source) (s : State) : Host.Outcome State Fault Refusal := .next (issueOne defVshl 239 g src s)

/-- `VSHR`, R138. Lane-wise logical shift right. -/
def defVshr : OpDef :=
  valOp viShr
def execVshr (g : Guard) (src : Source) (s : State) : Host.Outcome State Fault Refusal := .next (issueOne defVshr 240 g src s)

/-- `VSAR`, R138. Lane-wise arithmetic shift right. -/
def defVsar : OpDef :=
  valOp viSar
def execVsar (g : Guard) (src : Source) (s : State) : Host.Outcome State Fault Refusal := .next (issueOne defVsar 241 g src s)

/-- `VIEQ`, R138. Lane-wise equality into a mask. -/
def defVieq : OpDef :=
  maskOp 7 2 .v (cmpAT fun a t => decide (a = t))
def execVieq (g : Guard) (src : Source) (s : State) : Host.Outcome State Fault Refusal := .next (issueOne defVieq 242 g src s)

/-- `VILT`, R138. Lane-wise signed less-than into a mask. -/
def defVilt : OpDef :=
  maskOp 7 2 .v (cmpAT fun a t => decide (a.toInt < t.toInt))
def execVilt (g : Guard) (src : Source) (s : State) : Host.Outcome State Fault Refusal := .next (issueOne defVilt 243 g src s)

/-- `VILTU`, R138. Lane-wise unsigned less-than into a mask. -/
def defViltu : OpDef :=
  maskOp 7 2 .v (cmpAT fun a t => decide (a.toNat < t.toNat))
def execViltu (g : Guard) (src : Source) (s : State) : Host.Outcome State Fault Refusal := .next (issueOne defViltu 244 g src s)

/-- `VSEL`, R138. Lane select between a and b by a mask. -/
def defVsel : OpDef :=
  vselOp
def execVsel (g : Guard) (src : Source) (s : State) : Host.Outcome State Fault Refusal := .next (issueOne defVsel 245 g src s)

/-- `VIOTA`, R138. Lane numbers plus a start value. -/
def defViota : OpDef :=
  viotaOp
def execViota (g : Guard) (src : Source) (s : State) : Host.Outcome State Fault Refusal := .next (issueOne defViota 246 g src s)

/-- `VPOPM`, R138. Counts set lanes of a mask. -/
def defVpopm : OpDef :=
  vpopmOp
def execVpopm (g : Guard) (src : Source) (s : State) : Host.Outcome State Fault Refusal := .next (issueOne defVpopm 247 g src s)

/-- `VMAND`, R138. Mask AND. -/
def defVmand : OpDef :=
  maskOp 7 2 .m (zipMask (· && ·))
def execVmand (g : Guard) (src : Source) (s : State) : Host.Outcome State Fault Refusal := .next (issueOne defVmand 248 g src s)

/-- `VMOR`, R138. Mask OR. -/
def defVmor : OpDef :=
  maskOp 7 2 .m (zipMask (· || ·))
def execVmor (g : Guard) (src : Source) (s : State) : Host.Outcome State Fault Refusal := .next (issueOne defVmor 249 g src s)

/-- `VMXOR`, R138. Mask XOR. -/
def defVmxor : OpDef :=
  maskOp 7 2 .m (zipMask (· != ·))
def execVmxor (g : Guard) (src : Source) (s : State) : Host.Outcome State Fault Refusal := .next (issueOne defVmxor 250 g src s)

/-- `VMNOT`, R138. Mask NOT. -/
def defVmnot : OpDef :=
  vmnotOp
def execVmnot (g : Guard) (src : Source) (s : State) : Host.Outcome State Fault Refusal := .next (issueOne defVmnot 251 g src s)

/-- `VBEQ8`, R138. Byte-wise equality giving 0xFF or 0x00. -/
def defVbeq8 : OpDef :=
  valOp viBeq8
def execVbeq8 (g : Guard) (src : Source) (s : State) : Host.Outcome State Fault Refusal := .next (issueOne defVbeq8 252 g src s)

/-- `VIADDS`, R138. Lane-wise saturating signed add. -/
def defViadds : OpDef :=
  valOp viAdds
def execViadds (g : Guard) (src : Source) (s : State) : Host.Outcome State Fault Refusal := .next (issueOne defViadds 253 g src s)

end Sys2Proof.Machine
end

