-- ==== Sys2Proof/Machine/Vfa.lean ====
section
/-! DEFINITION. The vector float unit vfa (R139 to R141). -/

namespace Sys2Proof.Machine

/-! ## R139 to R141 -/

def never (_ : OpIn) : Bool := false
/-- A rounding instruction over a and t, and over a, b and t. -/
def vfa2 (f : Fp.Rm → Word32 → Word32 → Fp.R32) : OpDef :=
  laneOp 8 4 .v never fun x => (List.range 128).map fun l =>
    flane (f (frmOf x.c0) (laneAt x.aV l).v (laneAt x.tV l).v) ((laneAt x.aV l).p || (laneAt x.tV l).p)
def vfa3 (f : Fp.Rm → Word32 → Word32 → Word32 → Fp.R32) : OpDef :=
  laneOp 8 4 .v never fun x => (List.range 128).map fun l =>
    flane (f (frmOf x.c0) (laneAt x.aV l).v (laneAt x.bV l).v (laneAt x.tV l).v)
      ((laneAt x.aV l).p || (laneAt x.bV l).p || (laneAt x.tV l).p)
/-- A selection over a and t; no rounding, no flags. -/
def vfaSel (f : Word32 → Word32 → Word32) : OpDef := laneOp 8 4 .v never (zipAT f)
def vfa1 (f : Word32 → Word32) : OpDef :=
  laneOp 8 4 .v never fun x => (List.range 128).map fun l => plain (f (laneAt x.tV l).v) (laneAt x.tV l).p
def fclmpOp : OpDef :=
  laneOp 8 4 .v never fun x => (List.range 128).map fun l =>
    plain (Fp.fclmp32 (laneAt x.tV l).v (laneAt x.aV l).v (laneAt x.bV l).v) ((laneAt x.aV l).p || (laneAt x.bV l).p || (laneAt x.tV l).p)

/-- Two packed BF16 results as one lane with their flags. -/
def packH (lo hi : Fp.Res) : Fp.R32 := ⟨BitVec.ofNat 32 (lo.bits % 2 ^ 16 + hi.bits % 2 ^ 16 * 2 ^ 16), lo.flags ||| hi.flags⟩
def vfh2 (f : Fp.Rm → Nat → Nat → Fp.Res) : OpDef :=
  vfa2 fun rm a t => packH (f rm (half a 0) (half t 0)) (f rm (half a 1) (half t 1))
def vfh3 (f : Fp.Rm → Nat → Nat → Nat → Fp.Res) : OpDef :=
  vfa3 fun rm a b t => packH (f rm (half a 0) (half b 0) (half t 0)) (f rm (half a 1) (half b 1) (half t 1))

/-- `FADD`, R139. Lane-wise FP32 add under FRM. -/
def defFadd : OpDef :=
  vfa2 Fp.add32
def execFadd (g : Guard) (src : Source) (s : State) : Host.Outcome State Fault Refusal := .next (issueOne defFadd 260 g src s)

/-- `FSUB`, R139. Lane-wise FP32 subtract. -/
def defFsub : OpDef :=
  vfa2 Fp.sub32
def execFsub (g : Guard) (src : Source) (s : State) : Host.Outcome State Fault Refusal := .next (issueOne defFsub 261 g src s)

/-- `FMUL`, R139. Lane-wise FP32 multiply. -/
def defFmul : OpDef :=
  vfa2 Fp.mul32
def execFmul (g : Guard) (src : Source) (s : State) : Host.Outcome State Fault Refusal := .next (issueOne defFmul 262 g src s)

/-- `FMA`, R139. Fused a times b plus t. -/
def defFma : OpDef :=
  vfa3 Fp.fma32
def execFma (g : Guard) (src : Source) (s : State) : Host.Outcome State Fault Refusal := .next (issueOne defFma 263 g src s)

/-- `FMS`, R139. Fused a times b minus t. -/
def defFms : OpDef :=
  vfa3 Fp.fms32
def execFms (g : Guard) (src : Source) (s : State) : Host.Outcome State Fault Refusal := .next (issueOne defFms 264 g src s)

/-- `FNMA`, R139. Fused t minus a times b. -/
def defFnma : OpDef :=
  vfa3 Fp.fnma32
def execFnma (g : Guard) (src : Source) (s : State) : Host.Outcome State Fault Refusal := .next (issueOne defFnma 265 g src s)

/-- `FMAX`, R140. Lane-wise FP32 maximum. -/
def defFmax : OpDef :=
  vfaSel Fp.max32
def execFmax (g : Guard) (src : Source) (s : State) : Host.Outcome State Fault Refusal := .next (issueOne defFmax 266 g src s)

/-- `FMIN`, R140. Lane-wise FP32 minimum. -/
def defFmin : OpDef :=
  vfaSel Fp.min32
def execFmin (g : Guard) (src : Source) (s : State) : Host.Outcome State Fault Refusal := .next (issueOne defFmin 267 g src s)

/-- `FABS`, R140. Clears the sign bit of each lane. -/
def defFabs : OpDef :=
  vfa1 Fp.abs32
def execFabs (g : Guard) (src : Source) (s : State) : Host.Outcome State Fault Refusal := .next (issueOne defFabs 268 g src s)

/-- `FNEG`, R140. Inverts the sign bit of each lane. -/
def defFneg : OpDef :=
  vfa1 Fp.neg32
def execFneg (g : Guard) (src : Source) (s : State) : Host.Outcome State Fault Refusal := .next (issueOne defFneg 269 g src s)

/-- `FEQ`, R140. FP32 equality into a mask. -/
def defFeq : OpDef :=
  maskOp 8 4 .v (cmpAT (Fp.cmp32 true false))
def execFeq (g : Guard) (src : Source) (s : State) : Host.Outcome State Fault Refusal := .next (issueOne defFeq 270 g src s)

/-- `FLT`, R140. FP32 less-than into a mask. -/
def defFlt : OpDef :=
  maskOp 8 4 .v (cmpAT (Fp.cmp32 false true))
def execFlt (g : Guard) (src : Source) (s : State) : Host.Outcome State Fault Refusal := .next (issueOne defFlt 271 g src s)

/-- `FLE`, R140. FP32 less-or-equal into a mask. -/
def defFle : OpDef :=
  maskOp 8 4 .v (cmpAT (Fp.cmp32 true true))
def execFle (g : Guard) (src : Source) (s : State) : Host.Outcome State Fault Refusal := .next (issueOne defFle 272 g src s)

/-- `FUN`, R140. Unordered test into a mask. -/
def defFun : OpDef :=
  maskOp 8 4 .v (cmpAT fun a t => Fp.isNan32 a || Fp.isNan32 t)
def execFun (g : Guard) (src : Source) (s : State) : Host.Outcome State Fault Refusal := .next (issueOne defFun 273 g src s)

/-- `FCLMP`, R140. Clamps lanes between bounds a and b. -/
def defFclmp : OpDef :=
  fclmpOp
def execFclmp (g : Guard) (src : Source) (s : State) : Host.Outcome State Fault Refusal := .next (issueOne defFclmp 274 g src s)

/-- `FSUBX`, R139. FP32 subtract with minus infinity minus minus infinity giving minus infinity. -/
def defFsubx : OpDef :=
  vfa2 Fp.subx32
def execFsubx (g : Guard) (src : Source) (s : State) : Host.Outcome State Fault Refusal := .next (issueOne defFsubx 275 g src s)

/-- `HADD`, R141. Packed BF16 add. -/
def defHadd : OpDef :=
  vfh2 Fp.addB
def execHadd (g : Guard) (src : Source) (s : State) : Host.Outcome State Fault Refusal := .next (issueOne defHadd 276 g src s)

/-- `HMUL`, R141. Packed BF16 multiply. -/
def defHmul : OpDef :=
  vfh2 Fp.mulB
def execHmul (g : Guard) (src : Source) (s : State) : Host.Outcome State Fault Refusal := .next (issueOne defHmul 277 g src s)

/-- `HFMA`, R141. Packed BF16 fused multiply-add. -/
def defHfma : OpDef :=
  vfh3 Fp.fmaB
def execHfma (g : Guard) (src : Source) (s : State) : Host.Outcome State Fault Refusal := .next (issueOne defHfma 278 g src s)

/-- `HMAX`, R141. Packed BF16 maximum. -/
def defHmax : OpDef :=
  vfh2 fun _ a t => ⟨Fp.maxB a t, 0⟩
def execHmax (g : Guard) (src : Source) (s : State) : Host.Outcome State Fault Refusal := .next (issueOne defHmax 279 g src s)

end Sys2Proof.Machine
end

