-- ==== Sys2Proof/Machine/Vfb.lean ====
section
/-! DEFINITION. The conversion unit vfb (R142 to R145). -/

namespace Sys2Proof.Machine

/-! ## R142 and R143 -/

/-- One FP32 lane function of the trigger under FRM. -/
def vfb1 (f : Fp.Rm → Word32 → Fp.R32) : OpDef :=
  laneOp 9 3 .v never fun x => (List.range 128).map fun l => flane (f (frmOf x.c0) (laneAt x.tV l).v) (laneAt x.tV l).p
def vfb2 (f : Fp.Rm → Word32 → Word32 → Fp.R32) : OpDef :=
  laneOp 9 3 .v never fun x => (List.range 128).map fun l =>
    flane (f (frmOf x.c0) (laneAt x.aV l).v (laneAt x.tV l).v) ((laneAt x.aV l).p || (laneAt x.tV l).p)
/-- CVTFH and CVTFP16: low half from a, high half from t. -/
def narrowPair (f : Fp.Fmt) : OpDef := vfb2 fun rm a t => packH (Fp.narrow f rm a) (Fp.narrow f rm t)
/-- CVTHF and CVTP16F: x from the low halves, y from the high halves. -/
def widenPair (f : Fp.Fmt) : OpDef where
  ty := .v
  vecs := 2
  run := fun x s =>
    let r : Nat → Val := fun h => .vec (vecOf fun l => ⟨Fp.widen f (half (laneAt x.tV l).v h), (laneAt x.tV l).p⟩)
    .ok (landY x 9 3 (r 1) (landX x 9 3 (r 0) 0 s))

/-- Byte `p` of a word replaced. -/
def putByte (w : Word32) (p q : Nat) : Word32 :=
  BitVec.ofNat 32 (w.toNat - w.toNat / 2 ^ (8 * p) % 256 * 2 ^ (8 * p) + q % 256 * 2 ^ (8 * p))
/-- CVTF8 and CVTF5: one byte of every lane from a times the multiplier b, the rest from c. -/
def toByteOp (f : Fp.Fmt) : OpDef :=
  laneOp 9 3 .s (fun x => decide (8 ≤ x.tN)) fun x => (List.range 128).map fun l =>
    let r := Fp.toFp8 f (bit x.tN 2) (laneAt x.aV l).v (x.bD.setWidth 32)
    ⟨⟨putByte (laneAt x.cV l).v (x.tN % 4) r.bits, (laneAt x.aV l).p || x.bP || (laneAt x.cV l).p || x.tP⟩, r.flags⟩
/-- CVT8F and CVT5F: byte t of every lane of a, widened exactly. -/
def ofByteOp (f : Fp.Fmt) : OpDef :=
  laneOp 9 3 .s (fun x => decide (4 ≤ x.tN)) fun x => (List.range 128).map fun l =>
    plain (Fp.widen f ((laneAt x.aV l).v.toNat / 2 ^ (8 * (x.tN % 4)) % 256)) ((laneAt x.aV l).p || x.tP)

/-! ## P4 (R144, R145) -/

/-- The four user palettes of a context's node (R86). -/
def palettesOf (x : OpIn) (s : State) : List Byte :=
  match x.c0.node with
  | none => List.replicate 64 0x7F
  | some n => match getNode s n with
    | some d => d.palettes
    | none => List.replicate 64 0x7F

/-- Words from bytes, four to a lane, zero above. -/
def lanesFrom (bs : List Byte) (p : Nat → Bool) : List Lane :=
  vecOf fun l => ⟨BitVec.ofNat 32 (ofBytes ((bs.drop (4 * l)).take 4)), p l⟩

def qpalOp : OpDef where
  ty := .s
  vecs := 2
  run := fun x s =>
    let user := palettesOf x s
    let m := x.tN % 256
    let blocks := (List.range 4).map fun k => P4.quantise user (if m = 0 then 1 else m) (((x.aV.drop (32 * k)).take 32).map (·.v))
    let bad : Nat → Bool := fun k => x.tP || ((x.aV.drop (32 * k)).take 32).any (·.p)
    let data := lanesFrom (blocks.flatMap P4.Block.data) fun l => decide (l < 16) && bad (l / 4)
    let side := lanesFrom (blocks.flatMap fun b => toBytes 2 b.side) fun l => decide (l < 2) && (bad (2 * l) || bad (2 * l + 1))
    .ok (landY x 9 6 (.vec side) (landX x 9 6 (.vec data) (orFlags (blocks.map (·.flags))) s))

def dqpalOp : OpDef where
  ty := .v
  vecs := 1
  run := fun x s =>
    let user := palettesOf x s
    let side : Nat → Nat := fun k => half (laneAt x.tV (k / 2)).v (k % 2)
    let bad : Nat → Bool := fun k =>
      !P4.sidecarOk (side k) || (laneAt x.tV (k / 2)).p || ((x.aV.drop (4 * k)).take 4).any (·.p)
    let bytes := vecBytes x.aV
    let ls := (List.range 128).map fun l => flane (P4.elem32 user ((bytes.drop (16 * (l / 32))).take 16) (side (l / 32)) (l % 32)) (bad (l / 32))
    let par : Dword := match (List.range 4).find? fun k => !P4.sidecarOk (side k) with
      | some k => BitVec.ofNat 64 (2 ^ 63 + k)
      | none => 0
    .ok (pushFlight x.who ⟨x.pos + 3, .latch 9 false, fVal ls, fFlags ls, par, x.pos⟩ s)

/-- `CVTFI`, R142. FP32 to INT32 under FRM with saturation. -/
def defCvtfi : OpDef :=
  vfb1 Fp.toI32
def execCvtfi (g : Guard) (src : Source) (s : State) : Host.Outcome State Fault Refusal := .next (issueOne defCvtfi 292 g src s)

/-- `CVTIF`, R142. INT32 to FP32 under FRM. -/
def defCvtif : OpDef :=
  vfb1 fun rm w => Fp.ofI32 rm w.toInt
def execCvtif (g : Guard) (src : Source) (s : State) : Host.Outcome State Fault Refusal := .next (issueOne defCvtif 293 g src s)

/-- `CVTFH`, R142. Packs two FP32 vectors into BF16 halves. -/
def defCvtfh : OpDef :=
  narrowPair Fp.bf16
def execCvtfh (g : Guard) (src : Source) (s : State) : Host.Outcome State Fault Refusal := .next (issueOne defCvtfh 294 g src s)

/-- `CVTHF`, R142. Widens packed BF16 halves into two FP32 results. -/
def defCvthf : OpDef :=
  widenPair Fp.bf16
def execCvthf (g : Guard) (src : Source) (s : State) : Host.Outcome State Fault Refusal := .next (issueOne defCvthf 295 g src s)

/-- `CVTF8`, R143. Converts FP32 times m to E4M3 into one byte of each lane. -/
def defCvtf8 : OpDef :=
  toByteOp Fp.e4m3
def execCvtf8 (g : Guard) (src : Source) (s : State) : Host.Outcome State Fault Refusal := .next (issueOne defCvtf8 296 g src s)

/-- `CVT8F`, R143. Widens an E4M3 byte of each lane to FP32. -/
def defCvt8f : OpDef :=
  ofByteOp Fp.e4m3
def execCvt8f (g : Guard) (src : Source) (s : State) : Host.Outcome State Fault Refusal := .next (issueOne defCvt8f 297 g src s)

/-- `CVTF5`, R143. Converts FP32 times m to E5M2 into one byte of each lane. -/
def defCvtf5 : OpDef :=
  toByteOp Fp.e5m2
def execCvtf5 (g : Guard) (src : Source) (s : State) : Host.Outcome State Fault Refusal := .next (issueOne defCvtf5 298 g src s)

/-- `CVT5F`, R143. Widens an E5M2 byte of each lane to FP32. -/
def defCvt5f : OpDef :=
  ofByteOp Fp.e5m2
def execCvt5f (g : Guard) (src : Source) (s : State) : Host.Outcome State Fault Refusal := .next (issueOne defCvt5f 299 g src s)

/-- `CVTFP16`, R142. Packs two FP32 vectors into FP16 halves. -/
def defCvtfp16 : OpDef :=
  narrowPair Fp.fp16
def execCvtfp16 (g : Guard) (src : Source) (s : State) : Host.Outcome State Fault Refusal := .next (issueOne defCvtfp16 300 g src s)

/-- `CVTP16F`, R142. Widens packed FP16 halves into two FP32 results. -/
def defCvtp16f : OpDef :=
  widenPair Fp.fp16
def execCvtp16f (g : Guard) (src : Source) (s : State) : Host.Outcome State Fault Refusal := .next (issueOne defCvtp16f 301 g src s)

/-- `QPAL`, R144. Quantises 128 FP32 lanes to four P4 blocks with palette selection. -/
def defQpal : OpDef :=
  qpalOp
def execQpal (g : Guard) (src : Source) (s : State) : Host.Outcome State Fault Refusal := .next (issueOne defQpal 302 g src s)

/-- `DQPAL`, R144. Decodes four P4 blocks to FP32, checking sidecar parity. -/
def defDqpal : OpDef :=
  dqpalOp
def execDqpal (g : Guard) (src : Source) (s : State) : Host.Outcome State Fault Refusal := .next (issueOne defDqpal 303 g src s)

/-- `FRND`, R142. Rounds lanes to integral FP32 under FRM. -/
def defFrnd : OpDef :=
  vfb1 Fp.rnd32
def execFrnd (g : Guard) (src : Source) (s : State) : Host.Outcome State Fault Refusal := .next (issueOne defFrnd 304 g src s)

/-- `FSCL`, R142. Scales a by 2 to the INT32 exponent t. -/
def defFscl : OpDef :=
  vfb2 fun rm a t => Fp.scale32 rm a t.toInt
def execFscl (g : Guard) (src : Source) (s : State) : Host.Outcome State Fault Refusal := .next (issueOne defFscl 305 g src s)

/-- `FXPN`, R142. Extracts the floor log2 exponent as INT32. -/
def defFxpn : OpDef :=
  vfb1 fun _ w => ⟨Fp.fxpn32 w, 0⟩
def execFxpn (g : Guard) (src : Source) (s : State) : Host.Outcome State Fault Refusal := .next (issueOne defFxpn 306 g src s)

end Sys2Proof.Machine
end

