-- ==== Sys2Proof/Machine/Trn.lean ====
section
/-! DEFINITION. The transform unit trn: patterns and sparse headers (R154 to R159). -/

namespace Sys2Proof.Machine

/-! ## Patterns (R154 to R156) -/

/-- PSET. A descriptor with more than 32 fields has no length of its own: its first 72 bytes count for the poisoned state (DESIGN CHOICE,
log entry 123). -/
def psetOp : OpDef where
  ty := .s
  land := 1
  run := fun x s =>
    if x.aP || x.tP then .error (x.poison 2)
    else if 7 < x.aN then .error x.illegal
    else if x.tN % 8 ≠ 0 then .error (misaligned x.tN 8)
    else if 0x300000 < x.tN + 72 then .error x.illegal
    else
      let bs := localBytes x.who.clId x.tN 72
      let r := ctxRead x bs s
      let n := 8 + 2 * min (patCount r.1) 32
      .ok (takeEntry x 4 (.pattern x.aN) (.desc (r.1.take n) (anyBad s x.who (bs.take n))) r.2)

/-- Word `w` of a pattern register (R155). -/
def patWord (p : Pattern) (w : Nat) : Nat :=
  if w = 0 then b2n (!p.valid) * 2 ^ 63 + patCount p.bytes * 2 ^ 16 + patPeriod p.bytes
  else ((List.range 4).map fun i =>
    let j := 4 * (w - 1) + i
    if j < patCount p.bytes then patHalf p.bytes j * 2 ^ (16 * i) else 0).sum
def pgetOp : OpDef where
  ty := .s
  scs := 1
  run := fun x s =>
    if 7 < x.aN ∨ 8 < x.tN then .error x.illegal
    else let p := getPat x.c0 x.aN; .ok (landSc x 12 4 (patWord p x.tN) (x.aP || x.tP || p.poisoned) s)

/-- PUNPK and PPACK; a poisoned pattern number decides every lane (R137). -/
def patOp (f : Pattern → List Lane → List Lane) : OpDef where
  ty := .v
  vecs := 1
  run := fun x s =>
    if 7 < x.aN ∨ (getPat x.c0 x.aN).valid = false then .error x.illegal
    else .ok (landX x 12 4 (.vec ((f (getPat x.c0 x.aN) x.tV).map fun l => ⟨l.v, l.p || x.aP⟩)) 0 s)

/-! ## Sparse headers (R157 to R159) -/

/-- Bits of a vector at positions below `n`, and whether a lane holding one of them is poisoned. -/
def bitsBelow (v : List Lane) (n : Nat) : Nat := ((List.range n).filter (vecBit v)).length
def maskPoison (v : List Lane) (nbits : Nat) : Bool := (v.take ((nbits + 31) / 32)).any (·.p)
/-- Mask bytes with every bit at or above `n` cleared. -/
def maskBytesBelow (v : List Lane) (n : Nat) : List Byte :=
  (List.range ((n + 7) / 8)).map fun j => BitVec.ofNat 8 (vecByte v j % 2 ^ (min 8 (n - 8 * j)))

def sphdrOp : OpDef where
  ty := .v
  vecs := 1
  run := fun x s =>
    if 4096 < x.aN ∨ x.bN = 0 ∨ 9 < x.bN ∨ 0xFFFFFFFF < x.cN then .error x.illegal
    else
      let n := x.aN
      let h := toBytes 2 n ++ toBytes 2 (bitsBelow x.tV n) ++ [BitVec.ofNat 8 x.bN]
      let hdr := h ++ [BitVec.ofNat 8 (P4.crc8 (h ++ maskBytesBelow x.tV n))] ++ [0, 0] ++ toBytes 4 x.cN ++ [0, 0, 0, 0]
      let bad := x.aP || x.bP || x.cP || maskPoison x.tV n
      .ok (landX x 12 4 (.vec (lanesFrom hdr fun l => decide (l < 4) && bad)) 0 s)

/-- CHK16's status word (R159). -/
def chkWord (h mask : List Lane) : Nat :=
  let hb : Nat → Nat := vecByte h
  let n := hb 0 + 256 * hb 1
  let z := hb 2 + 256 * hb 3
  let big := decide (4096 < n)
  let bytes := (List.range 5).map fun i => (BitVec.ofNat 8 (hb i) : Byte)
  let crc := if big then 0 else P4.crc8 (bytes ++ (List.range ((n + 7) / 8)).map fun j => BitVec.ofNat 8 (vecByte mask j))
  let cnt := if big then 0 else bitsBelow mask n
  let res := [6, 7, 12, 13, 14, 15].any fun i => hb i != 0
  n * 2 ^ 48 + z * 2 ^ 32 + crc * 2 ^ 24 + cnt * 2 ^ 8 + b2n big * 16 + b2n (hb 4 == 0 || decide (9 < hb 4)) * 8 + b2n res * 4
    + b2n (!big && cnt != z) * 2 + b2n (!big && crc != hb 5)
def chk16Op : OpDef where
  ty := .v
  scs := 1
  run := fun x s =>
    let n := vecByte x.tV 0 + 256 * vecByte x.tV 1
    let examined := if 4096 < n then 0 else (n + 7) / 8 * 8
    .ok (landSc x 12 4 (chkWord x.tV x.dV) ((x.tV.take 4).any (·.p) || maskPoison x.dV examined) s)

/-- `PSET`, R154. Loads a pattern register from a descriptor, effective at b+4. -/
def defPset : OpDef :=
  psetOp
def execPset (g : Guard) (src : Source) (s : State) : Host.Outcome State Fault Refusal := .next (issueOne defPset 388 g src s)

/-- `PGET`, R155. Reads a word of a pattern register. -/
def defPget : OpDef :=
  pgetOp
def execPget (g : Guard) (src : Source) (s : State) : Host.Outcome State Fault Refusal := .next (issueOne defPget 389 g src s)

/-- `PUNPK`, R156. Unpacks a bit vector through a pattern. -/
def defPunpk : OpDef :=
  patOp patUnpack
def execPunpk (g : Guard) (src : Source) (s : State) : Host.Outcome State Fault Refusal := .next (issueOne defPunpk 390 g src s)

/-- `PPACK`, R156. Packs lanes into a bit vector through a pattern. -/
def defPpack : OpDef :=
  patOp patPack
def execPpack (g : Guard) (src : Source) (s : State) : Host.Outcome State Fault Refusal := .next (issueOne defPpack 391 g src s)

/-- `CHK16`, R159. Checks a sparse header against mask bytes. -/
def defChk16 : OpDef :=
  chk16Op
def execChk16 (g : Guard) (src : Source) (s : State) : Host.Outcome State Fault Refusal := .next (issueOne defChk16 392 g src s)

/-- `SPHDR`, R158. Builds a sparse header with count and CRC-8. -/
def defSphdr : OpDef :=
  sphdrOp
def execSphdr (g : Guard) (src : Source) (s : State) : Host.Outcome State Fault Refusal := .next (issueOne defSphdr 393 g src s)

end Sys2Proof.Machine
end

