-- ==== Sys2Proof/Machine/Vls.lean ====
section
/-! DEFINITION. The vector memory unit vls (R185 to R191). -/

namespace Sys2Proof.Machine

/-! ## Addresses of lanes (R185) -/

def unitAddrs (t step : Nat) : List Nat := (List.range 128).map fun l => t + step * l
def strideAddrs (x : OpIn) : List Nat :=
  (List.range 128).map fun (l : Nat) => (((x.tN : Int) + (l : Int) * x.bD.toInt) % (2 ^ 64 : Nat)).toNat
def gatherAddrs (x : OpIn) : List Nat := (List.range 128).map fun l => (x.bN + (laneAt x.tV l).v.toNat) % 2 ^ 64

/-- A timed vector load's entry. -/
def vecEntry (x : OpIn) (v : List Lane) (s : State) : State := takeEntry x 6 (.latch 6) (.value (.vec v) 0) s

/-- What is found in a local run, apart from the event that reads it: its bytes and which of them are poisoned. -/
def lookRun (x : OpIn) (t n : Nat) (s : State) : List Byte × List Bool × State :=
  let as := (localBytes x.who.clId t n).map (·.pa)
  let r := coreLook x.who (nodeOf s x.who) as s
  (r.1, as.map (viewBad s (nodeOf s x.who)), r.2)
/-- One contiguous read event of a local run. -/
def readRun (x : OpIn) (t n : Nat) (s : State) : List Byte × List Bool × State := lookRun x t n (nodeEvent x.who s)

/-! ## Loads -/

/-- VLD: one contiguous event. -/
def vldOp : OpDef where
  ty := .s
  land := 1
  run := fun x s =>
    if x.tP then .error (x.poison 2)
    else match localCheck (unitAddrs x.tN 4) 4 4 0 loadable with
      | .error t => .error t
      | .ok _ =>
        let r := readRun x x.tN 512 s
        .ok (vecEntry x (lanesOf r.1 r.2.1) r.2.2)

/-- VLDS and VLDG: one event a lane, in lane order. -/
def laneLoad (x : OpIn) (as : List Nat) (s : State) : Except Trap State :=
  match localCheck as 4 4 0 loadable with
  | .error t => .error t
  | .ok _ =>
    let ls := as.map fun a => localBytes x.who.clId a 4
    let r := ctxReads x ls s
    .ok (vecEntry x (lanesOf r.1.flatten ((ls.flatten).map fun b => viewBad s (nodeOf s x.who) b.pa)) r.2)
def vldsOp : OpDef where
  ty := .s
  land := 1
  run := fun x s => if x.bP || x.tP then .error (x.poison 2) else laneLoad x (strideAddrs x) s
def vldgOp : OpDef where
  ty := .v
  land := 1
  run := fun x s => if x.bP || x.tV.any (·.p) then .error (x.poison 2) else laneLoad x (gatherAddrs x) s

/-- A converting load: `n` bytes a lane, each lane widened (R186). -/
def convLoad (x : OpIn) (n : Nat) (widen : Nat → Word32) (s : State) : Except Trap State :=
  match localCheck (unitAddrs x.tN n) n n 0 loadable with
  | .error t => .error t
  | .ok _ =>
    let r := readRun x x.tN (128 * n) s
    .ok (vecEntry x (vecOf fun l =>
      ⟨widen (ofBytes ((r.1.drop (n * l)).take n)), ((r.2.1.drop (n * l)).take n).any id⟩) r.2.2)
def vldbfOp : OpDef where
  ty := .s
  land := 1
  run := fun x s => if x.tP then .error (x.poison 2) else convLoad x 2 (Fp.widen Fp.bf16) s
def vldf8Op : OpDef where
  ty := .s
  land := 1
  run := fun x s =>
    if x.bP || x.tP then .error (x.poison 2)
    else if 1 < x.bN then .error x.illegal
    else convLoad x 1 (Fp.widen (if x.bN = 0 then Fp.e4m3 else Fp.e5m2)) s
def vldi8Op : OpDef where
  ty := .s
  land := 1
  run := fun x s => if x.tP then .error (x.poison 2) else convLoad x 1 (fun n => BitVec.ofInt 32 (toSigned 8 n)) s
def vldz8Op : OpDef where
  ty := .s
  land := 1
  run := fun x s => if x.tP then .error (x.poison 2) else convLoad x 1 (fun n => BitVec.ofNat 32 n) s

/-- VLDX: 512 bytes through a pattern register (R187). -/
def vldxOp : OpDef where
  ty := .s
  land := 1
  run := fun x s =>
    if x.bP || x.tP then .error (x.poison 2)
    else if 7 < x.bN || !(getPat x.c0 x.bN).valid then .error x.illegal
    else match localCheck (unitAddrs x.tN 4) 4 4 0 loadable with
      | .error t => .error t
      | .ok _ =>
        let r := readRun x x.tN 512 s
        -- tags are kept by the byte: a field is poisoned by the bytes that hold its bits
        let p := getPat x.c0 x.bN
        let v := patUnpack p (lanesOf r.1 [])
        .ok (vecEntry x (vecOf fun l =>
          let base := patBase p.bytes l
          let w := patWidth p.bytes (l % patCount p.bytes)
          ⟨(laneAt v l).v, p.poisoned || (((r.2.1.drop (base / 8)).take ((base + w - 1) / 8 + 1 - base / 8)).any id)⟩) r.2.2)

/-! ## Sparse expand (R188) -/

def widenCode (fmt : Nat) (bs : List Byte) : Word32 :=
  let n := ofBytes bs
  match fmt with
  | 1 => BitVec.ofNat 32 n
  | 8 => BitVec.ofNat 32 n
  | 2 => Fp.widen Fp.bf16 n
  | 3 => Fp.widen Fp.fp16 n
  | 4 => Fp.widen Fp.e4m3 n
  | 5 => Fp.widen Fp.e5m2 n
  | 6 => BitVec.ofInt 32 (toSigned 8 n)
  | 7 => BitVec.ofInt 32 (toSigned 16 n)
  | _ => 0

/-- The bytes of a sparse vector as far as its header and the scratchpad allow: all of it, and which are poisoned. One contiguous event. -/
def readSparse (x : OpIn) (t : Nat) (s : State) : List Byte × List Bool × State :=
  let h := lookRun x t 16 (nodeEvent x.who s)
  let n := ofBytes (h.1.take 2)
  let z := ofBytes ((h.1.drop 2).take 2)
  let body := ceilTo 16 ((n + 7) / 8) + z * P4.codeSize (h.1.getD 4 0).toNat
  let body := min body (0x300000 - (t + 16))
  let b := lookRun x (t + 16) body h.2.2
  (h.1 ++ b.1, h.2.1 ++ b.2.1, b.2.2)

/-- The 128 lanes VLDE expands from element `b` on. -/
def expandLanes (bytes : List Byte) (bad : List Bool) (b room : Nat) : List Lane :=
  match P4.sparseDecode false (fun o n => (bytes.drop o).take n) room with
  | none => List.replicate 128 ⟨0, true⟩
  | some (fmt, n, els) =>
    let size := P4.codeSize fmt
    let mb := ceilTo 16 ((n + 7) / 8)
    let head := (bad.take (16 + (n + 7) / 8)).any id
    let mask := (bytes.drop 16).take mb
    vecOf fun l =>
      let e := b + l
      if n ≤ e then ⟨0, head⟩
      else
        let k := 16 + mb + P4.countBelow mask e * size
        ⟨widenCode fmt (els.getD e []), head || (P4.byteBit mask e && ((bad.drop k).take size).any id)⟩

def vldeOp : OpDef where
  ty := .s
  land := 1
  run := fun x s =>
    if x.bP || x.tP then .error (x.poison 2)
    else if 0xFFFF < x.bN then .error x.illegal
    else match localCheck [x.tN] 16 16 0 inSpad with
      | .error t => .error t
      | .ok _ =>
        let r := readSparse x x.tN s
        .ok (vecEntry x (expandLanes r.1 r.2.1 x.bN (0x300000 - x.tN)) r.2.2)

/-! ## Stores (R185, R186) -/

/-- Lanes a mask leaves enabled. -/
def enabledLanes (m : List MLane) : List Nat := (List.range 128).filter fun l => (maskAt m l).v

/-- One contiguous store of `n` bytes a lane for the lanes named. -/
def runStore (x : OpIn) (ls : List Nat) (n : Nat) (data : Lane → List Byte) (s : State) : Except Trap State :=
  match localCheck (ls.map fun l => x.tN + n * l) n n 1 loadable with
  | .error t => .error t
  | .ok _ =>
    if ls.any fun l => (laneAt x.aV l).p then .error (x.poison 0)
    else .ok (storeAt x (ls.flatMap fun l => localBytes x.who.clId (x.tN + n * l) n) (ls.flatMap fun l => data (laneAt x.aV l)) s)
def vstOp : OpDef where
  ty := .s
  run := fun x s => if x.tP then .error (x.poison 2) else runStore x (List.range 128) 4 laneBytes s
def vstmOp : OpDef where
  ty := .s
  run := fun x s =>
    if x.tP || x.dM.any (·.p) then .error (x.poison 2) else runStore x (enabledLanes x.dM) 4 laneBytes s

/-- VSTS and VSTG: one event a lane, in lane order. -/
def laneStore (x : OpIn) (as : List Nat) (s : State) : Except Trap State :=
  match localCheck as 4 4 1 loadable with
  | .error t => .error t
  | .ok _ =>
    if x.aV.any (·.p) then .error (x.poison 0)
    else .ok ((as.zip x.aV).foldl (fun s y => storeAt x (localBytes x.who.clId y.1 4) (laneBytes y.2) s) s)
def vstsOp : OpDef where
  ty := .s
  run := fun x s => if x.bP || x.tP then .error (x.poison 2) else laneStore x (strideAddrs x) s
def vstgOp : OpDef where
  ty := .v
  run := fun x s => if x.bP || x.tV.any (·.p) then .error (x.poison 2) else laneStore x (gatherAddrs x) s

/-- VSTBF: narrows under FRM; its flags land in the next bundle. -/
def vstbfOp : OpDef where
  ty := .s
  run := fun x s =>
    if x.tP then .error (x.poison 2)
    else
      let nar : Lane → Fp.Res := fun l => Fp.narrow Fp.bf16 (frmOf x.c0) l.v
      match runStore x (List.range 128) 2 (fun l => toBytes 2 (nar l).bits) s with
      | .error t => .error t
      | .ok s1 => .ok (pushFlight x.who ⟨x.pos + 1, .flags, .sc .zero, orFlags (x.aV.map fun l => (nar l).flags), 0, x.pos⟩ s1)

/-! ## Sparse pack (R189) -/

/-- Element `i` of a segment as its bytes, and the lane that supplies it. -/
def segElem (v : List Lane) (size i : Nat) : List Byte := (List.range size).map fun k => BitVec.ofNat 8 (vecByte v (i * size + k))

/-- The bytes VSTP writes: address and byte, in layout order. -/
def packSegment (t n0 o z0 fmt reserve : Nat) (els : List (List Byte)) (mask : List Byte) : List (Nat × Byte) :=
  let mb := ceilTo 16 ((n0 + 7) / 8)
  let base := if o = 0 then List.replicate mb (0 : Byte) else mask
  let bitsAt : Nat → Option Bool := fun k =>
    if o ≤ k ∧ k < o + els.length then some (!P4.codeZero fmt (els.getD (k - o) [])) else none
  let mask' := base.zipIdx.map fun (b, j) =>
    BitVec.ofNat 8 (((List.range 8).map fun i => match bitsAt (8 * j + i) with
      | some v => b2n v * 2 ^ i
      | none => b2n (bit b.toNat i) * 2 ^ i).sum)
  let vals := (els.filter fun e => !P4.codeZero fmt e).flatten
  let size := P4.codeSize fmt
  let z := z0 + (els.filter fun e => !P4.codeZero fmt e).length
  let pad := ceilTo 16 (z * size) - z * size
  let h5 := toBytes 2 n0 ++ toBytes 2 z ++ [BitVec.ofNat 8 fmt]
  let hdr := h5 ++ [BitVec.ofNat 8 (P4.crc8 (h5 ++ mask'.take ((n0 + 7) / 8)))] ++ [0, 0] ++ toBytes 4 reserve ++ [0, 0, 0, 0]
  let lo := if o = 0 then 0 else o / 8
  let hi := if o = 0 then mb else (o + els.length + 7) / 8
  (hdr.zipIdx.map fun (b, i) => (t + i, b))
    ++ ((mask'.zipIdx.filter fun (_, j) => decide (lo ≤ j) && decide (j < hi)).map fun (b, j) => (t + 16 + j, b))
    ++ ((vals ++ List.replicate pad 0).zipIdx.map fun (b, i) => (t + 16 + mb + z0 * size + i, b))

/-- VSTP: one contiguous event. The mask that earlier segments stored is read in it; uncorrectable-error marks there are no concern of the
CRC, which with the header is written clean (DESIGN CHOICE, log entry 159). -/
def vstpOp : OpDef where
  ty := .s
  run := fun x s =>
    let n0 := bits x.cN 15 0
    let o := bits x.cN 31 16
    let z0 := bits x.cN 47 32
    let fmt := bits x.cN 55 48
    let size := P4.codeSize fmt
    if x.bP || x.cP || x.tP then .error (x.poison 2)
    else if 2 ^ 32 ≤ x.bN ∨ 2 ^ 56 ≤ x.cN ∨ fmt = 0 ∨ 8 < fmt ∨ n0 = 0 ∨ n0 ≤ o ∨ o % 8 ≠ 0 ∨ o < z0 then .error x.illegal
    else if x.tN % 16 ≠ 0 then .error (misaligned x.tN 16)
    else
      let n := min (512 / size) (n0 - o)
      let els := (List.range n).map (segElem x.aV size)
      let z := z0 + (els.filter fun e => !P4.codeZero fmt e).length
      let total := 16 + ceilTo 16 ((n0 + 7) / 8) + ceilTo 16 (z * size)
      if 0x300000 < x.tN + total then .error (noPermit x.tN 1)
      else if x.bN < total then .error ⟨0x0A, total, x.bN⟩
      else if (x.aV.take ((n * size + 3) / 4)).any (·.p) then .error (x.poison 0)
      else
        let r := if o = 0 then ([], [], s) else lookRun x (x.tN + 16) (ceilTo 16 ((n0 + 7) / 8)) s
        let ws := packSegment x.tN n0 o z0 fmt x.bN els r.1
        .ok (storeAt x (ws.map fun w => ⟨physSpad x.who.clId w.1, 0⟩) (ws.map (·.2)) r.2.2)

/-! ## Global vectors and vector pours (R190, R191) -/

/-- The bytes of a global vector by 64-byte sector, ascending. -/
def sectors (t : Nat) (bs : List GByte) : List (List GByte) :=
  let secs := ((List.range 512).map fun i => (t + i) / 64).eraseDups
  secs.map fun k => (bs.zipIdx.filter fun (_, i) => (t + i) / 64 == k).map (·.1)

def vgldOp : OpDef where
  ty := .s
  land := 1
  run := fun x s =>
    if x.cP || x.tP then .error (x.poison 2)
    else match globalCheck x s (unitAddrs x.tN 4) 4 4 0 with
      | .error t => .error t
      | .ok ls =>
        let bs := ls.flatten
        let r := ctxReads x (sectors x.tN bs) s
        let d : LandData := match firstIntegrity s bs with
          | some i => .integrity (x.tN + i)
          | none => .value (.vec (lanesOf r.1.flatten (bs.map fun b => viewBad s (nodeOf s x.who) b.pa))) 0
        .ok (takeEntry x (arrival x.cN) (.latch 6) d r.2)

def vgstOp : OpDef where
  ty := .s
  run := fun x s =>
    if x.tP then .error (x.poison 2)
    else match globalCheck x s (unitAddrs x.tN 4) 4 4 1 with
      | .error t => .error t
      | .ok ls =>
        if x.aV.any (·.p) then .error (x.poison 0)
        else
          let r := (sectors x.tN ls.flatten).foldl (fun (acc : List Byte × State) bs =>
            (acc.1.drop bs.length, globalStore x bs (acc.1.take bs.length) acc.2)) (vecBytes x.aV, s)
          .ok r.2

def vstmcOp : OpDef where
  ty := .s
  run := fun x s =>
    if x.tP then .error (x.poison 2)
    else match localCheck (unitAddrs x.tN 4) 4 4 1 inWin with
      | .error t => .error t
      | .ok _ => if x.aV.any (·.p) then .error (x.poison 0) else .ok (pour x (x.tN - 0x800000) (vecBytes x.aV) s)

/-- `VLD`, R185. Contiguous local vector load. -/
def defVld : OpDef :=
  vldOp
def execVld (g : Guard) (src : Source) (s : State) : Host.Outcome State Fault Refusal := .next (issueOne defVld 196 g src s)

/-- `VLDS`, R185. Strided local vector load. -/
def defVlds : OpDef :=
  vldsOp
def execVlds (g : Guard) (src : Source) (s : State) : Host.Outcome State Fault Refusal := .next (issueOne defVlds 197 g src s)

/-- `VLDG`, R185. Gathered local vector load. -/
def defVldg : OpDef :=
  vldgOp
def execVldg (g : Guard) (src : Source) (s : State) : Host.Outcome State Fault Refusal := .next (issueOne defVldg 198 g src s)

/-- `VST`, R185. Contiguous local vector store. -/
def defVst : OpDef :=
  vstOp
def execVst (g : Guard) (src : Source) (s : State) : Host.Outcome State Fault Refusal := .next (issueOne defVst 199 g src s)

/-- `VSTS`, R185. Strided local vector store. -/
def defVsts : OpDef :=
  vstsOp
def execVsts (g : Guard) (src : Source) (s : State) : Host.Outcome State Fault Refusal := .next (issueOne defVsts 200 g src s)

/-- `VSTM`, R185. Masked contiguous vector store. -/
def defVstm : OpDef :=
  vstmOp
def execVstm (g : Guard) (src : Source) (s : State) : Host.Outcome State Fault Refusal := .next (issueOne defVstm 201 g src s)

/-- `VSTG`, R185. Scattered local vector store. -/
def defVstg : OpDef :=
  vstgOp
def execVstg (g : Guard) (src : Source) (s : State) : Host.Outcome State Fault Refusal := .next (issueOne defVstg 202 g src s)

/-- `VLDBF`, R186. Loads 128 BF16 elements widened to FP32. -/
def defVldbf : OpDef :=
  vldbfOp
def execVldbf (g : Guard) (src : Source) (s : State) : Host.Outcome State Fault Refusal := .next (issueOne defVldbf 203 g src s)

/-- `VSTBF`, R186. Stores lanes narrowed to BF16 under FRM. -/
def defVstbf : OpDef :=
  vstbfOp
def execVstbf (g : Guard) (src : Source) (s : State) : Host.Outcome State Fault Refusal := .next (issueOne defVstbf 204 g src s)

/-- `VLDF8`, R186. Loads 128 FP8 bytes widened to FP32. -/
def defVldf8 : OpDef :=
  vldf8Op
def execVldf8 (g : Guard) (src : Source) (s : State) : Host.Outcome State Fault Refusal := .next (issueOne defVldf8 205 g src s)

/-- `VLDI8`, R186. Loads 128 bytes sign-extended to INT32. -/
def defVldi8 : OpDef :=
  vldi8Op
def execVldi8 (g : Guard) (src : Source) (s : State) : Host.Outcome State Fault Refusal := .next (issueOne defVldi8 206 g src s)

/-- `VLDZ8`, R186. Loads 128 bytes zero-extended. -/
def defVldz8 : OpDef :=
  vldz8Op
def execVldz8 (g : Guard) (src : Source) (s : State) : Host.Outcome State Fault Refusal := .next (issueOne defVldz8 207 g src s)

/-- `VLDX`, R187. Loads 512 bytes unpacked through a pattern register. -/
def defVldx : OpDef :=
  vldxOp
def execVldx (g : Guard) (src : Source) (s : State) : Host.Outcome State Fault Refusal := .next (issueOne defVldx 208 g src s)

/-- `VLDE`, R188. Expands 128 elements of a sparse vector. -/
def defVlde : OpDef :=
  vldeOp
def execVlde (g : Guard) (src : Source) (s : State) : Host.Outcome State Fault Refusal := .next (issueOne defVlde 209 g src s)

/-- `VSTP`, R189. Packs one segment of a sparse vector under its reserve. -/
def defVstp : OpDef :=
  vstpOp
def execVstp (g : Guard) (src : Source) (s : State) : Host.Outcome State Fault Refusal := .next (issueOne defVstp 210 g src s)

/-- `VGLD`, R190. Covered global vector load. -/
def defVgld : OpDef :=
  vgldOp
def execVgld (g : Guard) (src : Source) (s : State) : Host.Outcome State Fault Refusal := .next (issueOne defVgld 211 g src s)

/-- `VGST`, R190. Covered global vector store. -/
def defVgst : OpDef :=
  vgstOp
def execVgst (g : Guard) (src : Source) (s : State) : Host.Outcome State Fault Refusal := .next (issueOne defVgst 212 g src s)

/-- `VSTMC`, R191. Pours a vector to the multicast window. -/
def defVstmc : OpDef :=
  vstmcOp
def execVstmc (g : Guard) (src : Source) (s : State) : Host.Outcome State Fault Refusal := .next (issueOne defVstmc 213 g src s)

end Sys2Proof.Machine
end

