-- ==== Sys2Proof/Machine/Vrd.lean ====
section
/-! DEFINITION. The reduction and permute unit vrd (R147 to R152). -/

namespace Sys2Proof.Machine

/-! ## Reductions (R147 to R149) -/

/-- The pairwise tree of R91. -/
def treeStep (f : Fp.R32 → Fp.R32 → Fp.R32) (half : Nat) (w : List Fp.R32) : List Fp.R32 :=
  (List.range half).map fun l => f (w.getD l ⟨0, 0⟩) (w.getD (l + half) ⟨0, 0⟩)
def treeReduce (f : Fp.R32 → Fp.R32 → Fp.R32) (w : List Fp.R32) : Fp.R32 :=
  (([64, 32, 16, 8, 4, 2, 1].foldl (fun w h => treeStep f h w) w).head?).getD ⟨0, 0⟩
def treeAdd (a b : Fp.R32) : Fp.R32 := let r := Fp.add32 .rne a.v b.v; ⟨r.v, a.fl ||| b.fl ||| r.fl⟩
def treePick (f : Word32 → Word32 → Word32) (a b : Fp.R32) : Fp.R32 := ⟨f a.v b.v, 0⟩

/-- The lanes of t, those the mask c disables replaced by an identity. -/
def enabledOr (x : OpIn) (idv : Word32) : List Fp.R32 :=
  (List.range 128).map fun l => ⟨if (maskAt x.cM l).v then (laneAt x.tV l).v else idv, 0⟩
/-- Poison of a reduction (R137). -/
def redPoison (x : OpIn) : Bool :=
  x.cM.any (·.p) || (List.range 128).any fun l => (maskAt x.cM l).v && (laneAt x.tV l).p
def redOp (idv : Word32) (f : Fp.R32 → Fp.R32 → Fp.R32) : OpDef where
  ty := .v
  scs := 1
  run := fun x s =>
    let r := treeReduce f (enabledOr x idv)
    .ok (landX x 11 6 (.sc ⟨r.v.setWidth 64, redPoison x⟩) r.fl s)
def rsumiOp : OpDef where
  ty := .v
  scs := 1
  run := fun x s =>
    let z := ((List.range 128).map fun l => if (maskAt x.cM l).v then (laneAt x.tV l).v.toInt else 0).foldl (· + ·) (0 : Int)
    .ok (landX x 11 6 (.sc ⟨dwordOf z, redPoison x⟩) 0 s)

/-- RAMAX's value and lane (R148). -/
def argMax (x : OpIn) : Word32 × Nat :=
  let en := (List.range 128).filter fun l => (maskAt x.cM l).v
  match en with
  | [] => (0xFF800000#32, 128)
  | e :: r =>
    match en.find? fun l => Fp.isNan32 (laneAt x.tV l).v with
    | some l => (Fp.nan32, l)
    | none => r.foldl (fun (b : Word32 × Nat) l => if Fp.key32 b.1 < Fp.key32 (laneAt x.tV l).v then ((laneAt x.tV l).v, l) else b) ((laneAt x.tV e).v, e)
def ramaxOp : OpDef where
  ty := .v
  scs := 2
  run := fun x s =>
    let r := argMax x
    .ok (landY x 11 6 (.sc ⟨BitVec.ofNat 64 r.2, redPoison x⟩) (landX x 11 6 (.sc ⟨r.1.setWidth 64, redPoison x⟩) 0 s))

/-- SCAN: the running sum, its flags and its poison so far. -/
def scanFrom (x : OpIn) : List Nat → Word32 → Bool → List FLane
  | [], _, _ => []
  | l :: r, a, p =>
    let p' := p || (maskAt x.cM l).p || ((maskAt x.cM l).v && (laneAt x.tV l).p)
    if (maskAt x.cM l).v then
      let y := Fp.add32 .rne a (laneAt x.tV l).v
      ⟨⟨y.v, p'⟩, y.fl⟩ :: scanFrom x r y.v p'
    else ⟨⟨a, p'⟩, 0⟩ :: scanFrom x r a p'
def scanOp : OpDef where
  ty := .v
  vecs := 1
  run := fun x s =>
    let ls := scanFrom x (List.range 128) 0x80000000#32 false
    .ok (landX x 11 8 (fVal ls) (fFlags ls) s)

/-! ## Permutes and tests (R150 to R152) -/

def permOp : OpDef where
  ty := .v
  vecs := 1
  run := fun x s => .ok (landX x 11 4 (.vec (vecOf fun l =>
    let t := laneAt x.tV l
    if bit t.v.toNat 31 then ⟨0, t.p⟩ else let a := laneAt x.aV (t.v.toNat % 128); ⟨a.v, a.p || t.p⟩)) 0 s)
def vrotOp : OpDef where
  ty := .s
  vecs := 1
  run := fun x s => .ok (landX x 11 6 (.vec (vecOf fun l =>
    let a := laneAt x.aV ((l + x.tN % 128) % 128); ⟨a.v, a.p || x.tP⟩)) 0 s)
def vextOp : OpDef where
  ty := .s
  scs := 1
  run := fun x s =>
    if 127 < x.tN then .error x.illegal
    else let a := laneAt x.aV x.tN; .ok (landX x 11 6 (.sc ⟨a.v.setWidth 64, a.p || x.tP⟩) 0 s)
def vinsOp : OpDef where
  ty := .s
  vecs := 1
  run := fun x s =>
    if 127 < x.tN then .error x.illegal
    else .ok (landX x 11 6 (.vec (vecOf fun l =>
      if l = x.tN then ⟨x.bD.setWidth 32, x.bP || x.tP⟩ else let a := laneAt x.aV l; ⟨a.v, a.p || x.tP⟩)) 0 s)
def zipOp : OpDef where
  ty := .v
  vecs := 2
  run := fun x s =>
    let f : Nat → List Lane := fun o => vecOf fun l => if l % 2 = 0 then laneAt x.aV (o + l / 2) else laneAt x.tV (o + l / 2)
    .ok (landY x 11 6 (.vec (f 64)) (landX x 11 6 (.vec (f 0)) 0 s))
def unzipOp : OpDef where
  ty := .v
  vecs := 2
  run := fun x s =>
    let f : Nat → List Lane := fun o => vecOf fun l => if l < 64 then laneAt x.aV (2 * l + o) else laneAt x.tV (2 * (l - 64) + o)
    .ok (landY x 11 6 (.vec (f 1)) (landX x 11 6 (.vec (f 0)) 0 s))

/-- Enabled lanes of the trigger mask, ascending. -/
def setLanes (m : List MLane) : List Nat := (List.range 128).filter fun l => (maskAt m l).v
def vcmpOp : OpDef where
  ty := .m
  vecs := 1
  scs := 1
  run := fun x s =>
    let en := setLanes x.tM
    let bad := x.tM.any (·.p)
    let v := vecOf fun j => match en[j]? with
      | some l => let a := laneAt x.aV l; ⟨a.v, a.p || bad⟩
      | none => ⟨0, bad⟩
    .ok (landY x 11 6 (.sc ⟨BitVec.ofNat 64 en.length, bad⟩) (landX x 11 6 (.vec v) 0 s))
def vxpdOp : OpDef where
  ty := .m
  vecs := 1
  run := fun x s =>
    let bad := x.tM.any (·.p)
    .ok (landX x 11 6 (.vec (vecOf fun l =>
      if (maskAt x.tM l).v then
        let a := laneAt x.aV ((setLanes x.tM).filter (· < l)).length
        ⟨a.v, a.p || bad⟩
      else ⟨0, bad⟩)) 0 s)
def vbitOp : OpDef where
  ty := .v
  vecs := 1
  run := fun x s => .ok (landX x 11 6 (.mask (maskOf fun l =>
    let t := laneAt x.tV l
    let n := t.v.toNat
    if 4096 ≤ n then ⟨false, t.p⟩ else ⟨vecBit x.aV n, t.p || (laneAt x.aV (n / 32)).p⟩)) 0 s)

/-- `RSUM`, R147. Tree sum of enabled FP32 lanes. -/
def defRsum : OpDef :=
  redOp 0x80000000#32 treeAdd
def execRsum (g : Guard) (src : Source) (s : State) : Host.Outcome State Fault Refusal := .next (issueOne defRsum 356 g src s)

/-- `RMAX`, R147. Maximum of enabled FP32 lanes. -/
def defRmax : OpDef :=
  redOp 0xFF800000#32 (treePick Fp.max32)
def execRmax (g : Guard) (src : Source) (s : State) : Host.Outcome State Fault Refusal := .next (issueOne defRmax 357 g src s)

/-- `RMIN`, R147. Minimum of enabled FP32 lanes. -/
def defRmin : OpDef :=
  redOp 0x7F800000#32 (treePick Fp.min32)
def execRmin (g : Guard) (src : Source) (s : State) : Host.Outcome State Fault Refusal := .next (issueOne defRmin 358 g src s)

/-- `RSUMI`, R147. Exact integer sum of enabled lanes. -/
def defRsumi : OpDef :=
  rsumiOp
def execRsumi (g : Guard) (src : Source) (s : State) : Host.Outcome State Fault Refusal := .next (issueOne defRsumi 359 g src s)

/-- `RAMAX`, R148. Greatest enabled lane value and its lane number. -/
def defRamax : OpDef :=
  ramaxOp
def execRamax (g : Guard) (src : Source) (s : State) : Host.Outcome State Fault Refusal := .next (issueOne defRamax 360 g src s)

/-- `SCAN`, R149. Inclusive running FP32 sum of enabled lanes. -/
def defScan : OpDef :=
  scanOp
def execScan (g : Guard) (src : Source) (s : State) : Host.Outcome State Fault Refusal := .next (issueOne defScan 361 g src s)

/-- `PERM`, R150. Permutes lanes of a by index lanes. -/
def defPerm : OpDef :=
  permOp
def execPerm (g : Guard) (src : Source) (s : State) : Host.Outcome State Fault Refusal := .next (issueOne defPerm 362 g src s)

/-- `VROT`, R150. Rotates lanes of a. -/
def defVrot : OpDef :=
  vrotOp
def execVrot (g : Guard) (src : Source) (s : State) : Host.Outcome State Fault Refusal := .next (issueOne defVrot 363 g src s)

/-- `VEXT`, R150. Extracts one lane to a scalar. -/
def defVext : OpDef :=
  vextOp
def execVext (g : Guard) (src : Source) (s : State) : Host.Outcome State Fault Refusal := .next (issueOne defVext 364 g src s)

/-- `VINS`, R150. Inserts a scalar into one lane. -/
def defVins : OpDef :=
  vinsOp
def execVins (g : Guard) (src : Source) (s : State) : Host.Outcome State Fault Refusal := .next (issueOne defVins 365 g src s)

/-- `VCMP`, R151. Compresses enabled lanes and counts them. -/
def defVcmp : OpDef :=
  vcmpOp
def execVcmp (g : Guard) (src : Source) (s : State) : Host.Outcome State Fault Refusal := .next (issueOne defVcmp 366 g src s)

/-- `VXPD`, R151. Expands low lanes into enabled lanes. -/
def defVxpd : OpDef :=
  vxpdOp
def execVxpd (g : Guard) (src : Source) (s : State) : Host.Outcome State Fault Refusal := .next (issueOne defVxpd 367 g src s)

/-- `ZIP`, R150. Interleaves two vectors into two results. -/
def defZip : OpDef :=
  zipOp
def execZip (g : Guard) (src : Source) (s : State) : Host.Outcome State Fault Refusal := .next (issueOne defZip 368 g src s)

/-- `UNZIP`, R150. De-interleaves two vectors into two results. -/
def defUnzip : OpDef :=
  unzipOp
def execUnzip (g : Guard) (src : Source) (s : State) : Host.Outcome State Fault Refusal := .next (issueOne defUnzip 369 g src s)

/-- `VBIT`, R152. Tests one bitmap bit per lane into a mask. -/
def defVbit : OpDef :=
  vbitOp
def execVbit (g : Guard) (src : Source) (s : State) : Host.Outcome State Fault Refusal := .next (issueOne defVbit 370 g src s)

end Sys2Proof.Machine
end

