-- ==== Sys2Proof/Machine/Xfu.lean ====
section
/-! DEFINITION. The special functions unit xfu (R146, R92). -/

namespace Sys2Proof.Machine

/-- A special function of every trigger lane (R146). -/
def xfuOp (lat : Nat) (f : Fp.Rm → Word32 → Fp.R32) : OpDef :=
  laneOp 10 lat .v never fun x => (List.range 128).map fun l => flane (f (frmOf x.c0) (laneAt x.tV l).v) (laneAt x.tV l).p

/-- `EXP2`, R146. Lane-wise 2 to the x. -/
def defExp2 : OpDef :=
  xfuOp 8 fun _ => Fp.exp2F Config.exp2Err
def execExp2 (g : Guard) (src : Source) (s : State) : Host.Outcome State Fault Refusal := .next (issueOne defExp2 324 g src s)

/-- `LOG2`, R146. Lane-wise log2. -/
def defLog2 : OpDef :=
  xfuOp 8 fun _ => Fp.log2F Config.log2Err
def execLog2 (g : Guard) (src : Source) (s : State) : Host.Outcome State Fault Refusal := .next (issueOne defLog2 325 g src s)

/-- `RCP`, R146. Lane-wise reciprocal. -/
def defRcp : OpDef :=
  xfuOp 8 fun _ => Fp.rcpF Config.rcpErr
def execRcp (g : Guard) (src : Source) (s : State) : Host.Outcome State Fault Refusal := .next (issueOne defRcp 326 g src s)

/-- `RSQRT`, R146. Lane-wise reciprocal square root. -/
def defRsqrt : OpDef :=
  xfuOp 8 fun _ => Fp.rsqrtF Config.rsqrtErr
def execRsqrt (g : Guard) (src : Source) (s : State) : Host.Outcome State Fault Refusal := .next (issueOne defRsqrt 327 g src s)

/-- `SQRT`, R146. Lane-wise square root, correctly rounded under FRM. -/
def defSqrt : OpDef :=
  xfuOp 12 Fp.sqrt32
def execSqrt (g : Guard) (src : Source) (s : State) : Host.Outcome State Fault Refusal := .next (issueOne defSqrt 328 g src s)

/-- `TANH`, R146. Lane-wise hyperbolic tangent. -/
def defTanh : OpDef :=
  xfuOp 8 fun _ => Fp.tanhF Config.tanhErr
def execTanh (g : Guard) (src : Source) (s : State) : Host.Outcome State Fault Refusal := .next (issueOne defTanh 329 g src s)

/-- `SIGM`, R146. Lane-wise logistic sigmoid. -/
def defSigm : OpDef :=
  xfuOp 8 fun _ => Fp.sigmF Config.sigmErr
def execSigm (g : Guard) (src : Source) (s : State) : Host.Outcome State Fault Refusal := .next (issueOne defSigm 330 g src s)

end Sys2Proof.Machine
end

