-- ==== Sys2Proof/Machine/Bundles.lean ====
section
/-! DEFINITION. The table of operations by destination field (R95, R98 to R106), and the two steps of a core (R57, R58). -/

namespace Sys2Proof.Machine

/-- The trigger ports of alu0 (unit 0). -/
def opsAlu0 : Nat → Option OpDef
  | 4 => some defAddAlu0
  | 5 => some defSubAlu0
  | 6 => some defAndAlu0
  | 7 => some defOrAlu0
  | 8 => some defXorAlu0
  | 9 => some defAndnAlu0
  | 10 => some defShlAlu0
  | 11 => some defShrAlu0
  | 12 => some defSarAlu0
  | 13 => some defRolAlu0
  | 14 => some defMinAlu0
  | 15 => some defMaxAlu0
  | 16 => some defMinuAlu0
  | 17 => some defMaxuAlu0
  | 18 => some defEqAlu0
  | 19 => some defNeAlu0
  | 20 => some defLtAlu0
  | 21 => some defLtuAlu0
  | 22 => some defLeAlu0
  | 23 => some defLeuAlu0
  | 24 => some defSelAlu0
  | 25 => some defClzAlu0
  | 26 => some defCtzAlu0
  | 27 => some defPopcAlu0
  | 28 => some defSextAlu0
  | 29 => some defZextAlu0
  | 30 => some defBfxAlu0
  | 31 => some defBfiAlu0
  | _ => none

/-- The trigger ports of alu1 (unit 1). -/
def opsAlu1 : Nat → Option OpDef
  | 4 => some defAddAlu1
  | 5 => some defSubAlu1
  | 6 => some defAndAlu1
  | 7 => some defOrAlu1
  | 8 => some defXorAlu1
  | 9 => some defAndnAlu1
  | 10 => some defShlAlu1
  | 11 => some defShrAlu1
  | 12 => some defSarAlu1
  | 13 => some defRolAlu1
  | 14 => some defMinAlu1
  | 15 => some defMaxAlu1
  | 16 => some defMinuAlu1
  | 17 => some defMaxuAlu1
  | 18 => some defEqAlu1
  | 19 => some defNeAlu1
  | 20 => some defLtAlu1
  | 21 => some defLtuAlu1
  | 22 => some defLeAlu1
  | 23 => some defLeuAlu1
  | 24 => some defSelAlu1
  | 25 => some defClzAlu1
  | 26 => some defCtzAlu1
  | 27 => some defPopcAlu1
  | 28 => some defSextAlu1
  | 29 => some defZextAlu1
  | 30 => some defBfxAlu1
  | 31 => some defBfiAlu1
  | _ => none

/-- The trigger ports of mul (unit 2). -/
def opsMul : Nat → Option OpDef
  | 4 => some defMul
  | 5 => some defMulh
  | 6 => some defMulhu
  | 7 => some defMulw
  | 8 => some defMadd
  | 9 => some defDiv
  | 10 => some defDivu
  | 11 => some defRem
  | 12 => some defRemu
  | _ => none

/-- The trigger ports of br (unit 3). -/
def opsBr : Nat → Option OpDef
  | 4 => some defJmp
  | 5 => some defBra
  | 6 => some defBrz
  | 7 => some defBrnz
  | 8 => some defCall
  | 9 => some defRet
  | 10 => some defLoops
  | 11 => some defLoopx
  | 12 => some defTrap
  | 13 => some defExit
  | _ => none

/-- The trigger ports of lsu (unit 4). -/
def opsLsu : Nat → Option OpDef
  | 4 => some defSpld
  | 5 => some defSpst
  | 6 => some defLdb
  | 7 => some defLdbs
  | 8 => some defLdh
  | 9 => some defLdhs
  | 10 => some defLdw
  | 11 => some defLdws
  | 12 => some defLdd
  | 13 => some defStb
  | 14 => some defSth
  | 15 => some defStw
  | 16 => some defStd
  | 17 => some defTch
  | 18 => some defGld
  | 19 => some defGst
  | 20 => some defAadd
  | 21 => some defAmax
  | 22 => some defAmin
  | 23 => some defAxchg
  | 24 => some defAcas
  | _ => none

/-- The trigger ports of sys (unit 5). -/
def opsSys : Nat → Option OpDef
  | 4 => some defMfsr
  | 5 => some defMtsr
  | 6 => some defYield
  | 7 => some defPrio
  | 8 => some defSysc
  | 9 => some defRft
  | 10 => some defTokq
  | 11 => some defTokc
  | 12 => some defFflgs
  | 13 => some defSleep
  | 14 => some defWake
  | 15 => some defCtxq
  | 16 => some defRdef
  | 17 => some defRtag
  | 18 => some defRclr
  | 19 => some defRdrop
  | _ => none

/-- The trigger ports of vls (unit 6). -/
def opsVls : Nat → Option OpDef
  | 4 => some defVld
  | 5 => some defVlds
  | 6 => some defVldg
  | 7 => some defVst
  | 8 => some defVsts
  | 9 => some defVstm
  | 10 => some defVstg
  | 11 => some defVldbf
  | 12 => some defVstbf
  | 13 => some defVldf8
  | 14 => some defVldi8
  | 15 => some defVldz8
  | 16 => some defVldx
  | 17 => some defVlde
  | 18 => some defVstp
  | 19 => some defVgld
  | 20 => some defVgst
  | 21 => some defVstmc
  | _ => none

/-- The trigger ports of val (unit 7). -/
def opsVal : Nat → Option OpDef
  | 4 => some defViadd
  | 5 => some defVisub
  | 6 => some defVimul
  | 7 => some defVimin
  | 8 => some defVimax
  | 9 => some defViminu
  | 10 => some defVimaxu
  | 11 => some defVand
  | 12 => some defVor
  | 13 => some defVxor
  | 14 => some defVandn
  | 15 => some defVshl
  | 16 => some defVshr
  | 17 => some defVsar
  | 18 => some defVieq
  | 19 => some defVilt
  | 20 => some defViltu
  | 21 => some defVsel
  | 22 => some defViota
  | 23 => some defVpopm
  | 24 => some defVmand
  | 25 => some defVmor
  | 26 => some defVmxor
  | 27 => some defVmnot
  | 28 => some defVbeq8
  | 29 => some defViadds
  | _ => none

/-- The trigger ports of vfa (unit 8). -/
def opsVfa : Nat → Option OpDef
  | 4 => some defFadd
  | 5 => some defFsub
  | 6 => some defFmul
  | 7 => some defFma
  | 8 => some defFms
  | 9 => some defFnma
  | 10 => some defFmax
  | 11 => some defFmin
  | 12 => some defFabs
  | 13 => some defFneg
  | 14 => some defFeq
  | 15 => some defFlt
  | 16 => some defFle
  | 17 => some defFun
  | 18 => some defFclmp
  | 19 => some defFsubx
  | 20 => some defHadd
  | 21 => some defHmul
  | 22 => some defHfma
  | 23 => some defHmax
  | _ => none

/-- The trigger ports of vfb (unit 9). -/
def opsVfb : Nat → Option OpDef
  | 4 => some defCvtfi
  | 5 => some defCvtif
  | 6 => some defCvtfh
  | 7 => some defCvthf
  | 8 => some defCvtf8
  | 9 => some defCvt8f
  | 10 => some defCvtf5
  | 11 => some defCvt5f
  | 12 => some defCvtfp16
  | 13 => some defCvtp16f
  | 14 => some defQpal
  | 15 => some defDqpal
  | 16 => some defFrnd
  | 17 => some defFscl
  | 18 => some defFxpn
  | _ => none

/-- The trigger ports of xfu (unit 10). -/
def opsXfu : Nat → Option OpDef
  | 4 => some defExp2
  | 5 => some defLog2
  | 6 => some defRcp
  | 7 => some defRsqrt
  | 8 => some defSqrt
  | 9 => some defTanh
  | 10 => some defSigm
  | _ => none

/-- The trigger ports of vrd (unit 11). -/
def opsVrd : Nat → Option OpDef
  | 4 => some defRsum
  | 5 => some defRmax
  | 6 => some defRmin
  | 7 => some defRsumi
  | 8 => some defRamax
  | 9 => some defScan
  | 10 => some defPerm
  | 11 => some defVrot
  | 12 => some defVext
  | 13 => some defVins
  | 14 => some defVcmp
  | 15 => some defVxpd
  | 16 => some defZip
  | 17 => some defUnzip
  | 18 => some defVbit
  | _ => none

/-- The trigger ports of trn (unit 12). -/
def opsTrn : Nat → Option OpDef
  | 4 => some defPset
  | 5 => some defPget
  | 6 => some defPunpk
  | 7 => some defPpack
  | 8 => some defChk16
  | 9 => some defSphdr
  | _ => none

/-- The trigger ports of mex (unit 13). -/
def opsMex : Nat → Option OpDef
  | 4 => some defMsel
  | 5 => some defMset
  | 6 => some defMldw
  | 7 => some defMstr
  | 8 => some defMdrn
  | 9 => some defMzero
  | 10 => some defMstat
  | 11 => some defMcan
  | _ => none

/-- The trigger ports of cpy (unit 14). -/
def opsCpy : Nat → Option OpDef
  | 4 => some defCset
  | 5 => some defCgo
  | 6 => some defCstat
  | 7 => some defCcan
  | 8 => some defCsel
  | _ => none

/-- The trigger ports of glz (unit 15). -/
def opsGlz : Nat → Option OpDef
  | 4 => some defGset
  | 5 => some defGsend
  | 6 => some defGrecv
  | 7 => some defGred
  | 8 => some defGcan
  | 9 => some defGprec
  | _ => none

/-- The trigger ports of rtc (unit 16). -/
def opsRtc : Nat → Option OpDef
  | 4 => some defTset
  | 5 => some defTwrt
  | 6 => some defTstat
  | 7 => some defTwear
  | 8 => some defTmap
  | _ => none

/-- The trigger ports of syn (unit 17). -/
def opsSyn : Nat → Option OpDef
  | 4 => some defBinit
  | 5 => some defBarv
  | 6 => some defBexp
  | 7 => some defBtst
  | 8 => some defBwait
  | 9 => some defFence
  | 10 => some defTwait
  | _ => none

/-- The operation of a destination field: its unit number times 32 plus its port. -/
def opOfField (f : Nat) : Option OpDef :=
  match f / 32 with
  | 0 => opsAlu0 (f % 32)
  | 1 => opsAlu1 (f % 32)
  | 2 => opsMul (f % 32)
  | 3 => opsBr (f % 32)
  | 4 => opsLsu (f % 32)
  | 5 => opsSys (f % 32)
  | 6 => opsVls (f % 32)
  | 7 => opsVal (f % 32)
  | 8 => opsVfa (f % 32)
  | 9 => opsVfb (f % 32)
  | 10 => opsXfu (f % 32)
  | 11 => opsVrd (f % 32)
  | 12 => opsTrn (f % 32)
  | 13 => opsMex (f % 32)
  | 14 => opsCpy (f % 32)
  | 15 => opsGlz (f % 32)
  | 16 => opsRtc (f % 32)
  | 17 => opsSyn (f % 32)
  | _ => none

/-- `BUNDLE_ISSUE`, R57. One cycle of a core: it chooses a lead and a merged bundle from the ready contexts and issues them. -/
def execBundleIssue (c : CoreId) (s : State) : Host.Outcome State Fault Refusal :=
  if c.wf then .next (coreCycle opOfField c { s with focus := none }) else .fault .noSuchUnit

/-- Whether some ready context of a core has waited 64 cycles (R58). -/
def someStarved (c : CoreId) (s : State) : Bool :=
  let s1 := beginStalls opOfField c (openCycle c s)
  (starved s1 c (readyList opOfField c s1)).isSome

/-- `STARVATION_LEAD`, R58. A core cycle whose lead is the context that has waited longest, for at least 64 cycles; without one
the step does nothing. -/
def execStarvationLead (c : CoreId) (s : State) : Host.Outcome State Fault Refusal :=
  if c.wf then .next (if someStarved c s then coreCycle opOfField c { s with focus := none } else s) else .fault .noSuchUnit

end Sys2Proof.Machine
end

