-- ==== Sys2Proof/Machine/Landings.lean ====
section
/-! DEFINITION. Events of a context between its issues: fetched lines (R14), landings and arrivals (R47, R51, R54), replays (R246), timeouts, wakes and fences (R133, R172, R196, R198), pins and walks (R169, R305), and replies of the partition manager (R127). -/

namespace Sys2Proof.Machine

/-! ## Landings apart from an issue -/

/-- What fetch finds for a context, and the verdict on it. -/
def verdictOf (who : CtxId) (s : State) : Verdict := judge s who (fetchBundle opOfField s who)
def Verdict.isGo : Verdict → Bool
  | .go => true
  | _ => false
/-- Whether the bundle at a context's position issues as the state stands: a bundle that traps leaves what lands at it to the snapshot
(R68, R80). -/
def commits (who : CtxId) (s : State) : Bool :=
  match verdictOf who s, fetchBundle opOfField s who with
  | .go, .got b => (performed who b s).1.isNone
  | _, _ => false
def timedDue (c : Ctx) : List Landing := c.landing.filter fun l => decide (l.land ≤ c.bclk)
def fixedDue (c : Ctx) : List Flight := c.flight.filter fun f => decide (f.land ≤ c.bclk)

/-- Changes every landing-buffer entry of a context, its trap snapshot's included. -/
def mapLandings (f : Landing → Landing) (c : Ctx) : Ctx :=
  { c with landing := c.landing.map f, snap := c.snap.map fun sn => { sn with landing := sn.landing.map f } }
def allLandings (c : Ctx) : List Landing := c.landing ++ (match c.snap with | some sn => sn.landing | none => [])
def findLanding (c : Ctx) (k : Nat) : Option Landing := (allLandings c).find? fun l => l.id == k && !l.arrived
/-- Data arrives in wall cycle `now`; bundles of the next one can read it (R54). -/
def setLanding (now k : Nat) (d : LandData) (c : Ctx) : Ctx :=
  mapLandings (fun l => if l.id = k then { l with arrived := true, data := d, since := now + 1 } else l) c
def isWalk : LandData → Bool
  | .walk _ => true
  | _ => false

/-- A walk for a touch ends: the pin and the landed dword, or the fault word (R169, R182, R302). -/
def endWalk (who : CtxId) (l : Landing) (va : Nat) (s : State) : State :=
  match walk s (partOf s who) (worldOf s who) (nodeOf s who) va with
  | .fault k => updCtx who (setLanding (clk s who.clId) l.id (.walkFault va k)) s
  | .leaf e size => updCtx who (fun c =>
      { setLanding (clk s who.clId) l.id (.value (.sc ⟨BitVec.ofNat 64 (touchWord e size), false⟩) 0) c with
        pins := addPin (coverFrom c) ⟨va, size, BitVec.ofNat 64 e, l.issued + 2, l.issued + 2047, s.stamp⟩ c.pins }) s

/-! ## Replay of a sketch (R246) -/

/-- An operand of a step, given the results of earlier steps. -/
def sketchOperand (c : Ctx) (bs : List Byte) (rs : List (List Lane)) (ty : Ty) (sp : Nat) : Val :=
  if sp < 0x20 then .vec (readV c sp)
  else if sp < 0x23 then .vec (rs.getD (sp - 0x20) vecZero)
  else if 0x30 ≤ sp ∧ sp < 0x38 then .vec (c.vo.getD (sp - 0x30) vecZero)
  else if 0x40 ≤ sp ∧ sp < 0x44 then
    broadcast ty (.sc ⟨BitVec.ofNat 64 (ofBytes ((bs.drop (40 + 8 * (sp - 0x40))).take 8)), false⟩)
  else .zero ty

/-- One step: its instruction's lanes on operands as the waiting bundle would read them, under the captured mode. -/
def replayStep (who : CtxId) (c : Ctx) (bs : List Byte) (rs : List (List Lane)) (i : Nat) : Except Trap (List Lane) :=
  let st := sketchStep bs i
  let u := st.getD 0 0
  let tys := portTypes.getD u []
  let arg : Nat → Val := fun k => sketchOperand c bs rs (tys.getD k .s) (st.getD (2 + k) 0xFF)
  match opOfField (u * 32 + st.getD 1 0) with
  | none => .error ⟨0x13, 0, 1⟩
  | some o => match o.step with
    | none => .error ⟨0x13, 0, 1⟩
    | some f => f ⟨who, 0, c.pc, 0, c.bclk, c, arg 0, arg 1, arg 2, arg 3, sketchOperand c bs rs o.ty (st.getD 6 0xFF), [], []⟩

/-- Vector registers that step `i` names, in specifier order (R243). -/
def stepSources (bs : List Byte) (i : Nat) : List Nat := (((sketchStep bs i).drop 2).take 5).filter (· < 0x20)
/-- The latency of a step's instruction (R50). -/
def stepLatency (st : List Nat) : Nat :=
  match st.getD 0 0 with
  | 7 => 2
  | 8 => 4
  | 9 => 3
  | _ => if st.getD 1 0 = 8 then 12 else 8
/-- The cycles a replay of a name takes at the least (R246). -/
def replayCycles (c : Ctx) (n : Nat) : Nat :=
  match liveSketch c n with
  | none => 0
  | some e => 2 + ((List.range (sketchCount e.bytes)).map fun i => stepLatency (sketchStep e.bytes i)).sum

/-- Names a replay reads, its nested replays included. -/
def replayReads (c : Ctx) : Nat → Nat → List Nat
  | 0, _ => []
  | k + 1, n => match liveSketch c n with
    | none => []
    | some e =>
      let vs := sketchSources e.bytes
      vs ++ (vs.filter (needsReplay c)).flatMap (replayReads c k)

/-- replay(name): the context with the name resident, or the trap's cause and TRAPINFO1. Step by step, the names a step reads are
replayed first, in specifier order, and then the step runs. -/
def replayName (who : CtxId) (busy : List Nat) : Nat → Nat → Ctx → Except (Nat × Nat) Ctx
  | 0, _, _ => .error (0x13, 1)
  | k + 1, n, c =>
    match liveSketch c n with
    | none => .error (0x13, 1)
    | some e =>
      let ran : Except (Nat × Nat) (Ctx × List (List Lane)) := (List.range (sketchCount e.bytes)).foldl
        (fun (a : Except (Nat × Nat) (Ctx × List (List Lane))) i => match a with
          | .error x => .error x
          | .ok (c, rs) =>
            match (stepSources e.bytes i).foldl (fun (a : Except (Nat × Nat) Ctx) m => match a with
                | .error x => .error x
                | .ok c => if needsReplay c m then replayName who busy k m c else .ok c) (.ok c) with
            | .error x => .error x
            | .ok c1 => match replayStep who { c1 with sr := { c1.sr with frm := e.frm } } e.bytes rs i with
              | .error t => .error (t.cause, if t.cause = 0x13 then t.info1 else 0)
              | .ok r => .ok (c1, rs ++ [r])) (.ok (c, []))
      match ran with
      | .error x => .error x
      | .ok (c1, rs) =>
        match takeStorage busy n c1 with
        | none => .error (0x13, 0)
        | some c2 =>
          let r := rs.getLastD vecZero
          .ok (setV n { getV c2 n with
            st := .resident, val := if e.poisoned then r.map fun l => { l with p := true } else r, access := c2.bclk } c2)

/-- A context after the replay of a name: the register file changes as the replay finds it at the waiting bundle. Results that
land at the bundle stay in flight. A replay may evict a name that the bundle writes and does not read (DESIGN CHOICE, log entry 164). -/
def afterReplay (who : CtxId) (n : Nat) (b : Bundle) (c : Ctx) : Ctx :=
  let cs := seen c
  let busy := vReads (passing cs b) ++ (n :: replayReads cs 3 n)
  match replayName who busy 3 n cs with
  | .error (cause, i1) => { c with run := .runnable, replayTrap := some (n, cause, i1) }
  | .ok c' => { c with
      run := .runnable,
      v := (List.range 32).map fun k => if c.flight.any (fun f => f.dst == .main (0x40 + k) && decide (f.land ≤ c.bclk)) then getV c k else getV c' k }

/-! ## Fences -/

/-- Whether the condition of a fence kind holds (R198). The bundle clock stands still while the context waits: a request has landed for kind 1 when
its data has arrived, and every timed request is asked, walks included (DESIGN CHOICE, log entry 158). -/
def fenceHolds (who : CtxId) (kind : Nat) (s : State) : Bool :=
  let c := getCtx s who
  !(s.pours.any fun p => p.who == who) &&
    (kind == 0 || ((allLandings c).all fun l => l.arrived) && !storesWait who s &&
      (kind == 1 || (!hasCommands (fun w => w == who) s && c.tokens.all fun k => k.count == 0)))

/-! ## System calls -/

/-- The reply of a call: value and status (R128). -/
def sysReply (s : State) (k : SysCall) : Nat × Nat :=
  match k.call with
  | 0 => (k.arg.toNat, 0)
  | 1 =>
    let prio := match nodeOf s k.who with
      | some n => match getNode s n with
        | some d => recField d 1 35 32
        | none => 0
      | none => 0
    (prio * 2 ^ 20 + k.who.die * 2 ^ 17 + b2n (worldOf s k.who) * 2 ^ 16 + partOf s k.who, 0)
  | 2 => (nanos s, 0)
  | _ => (0, 1)

/-- The reply lands in the spill window of the calling context's place, and the token falls (R127). Where that context has retired, was
killed, or another node's context runs there since, the reply still goes to the window of that place, as it then stands (DESIGN
CHOICE, log entry 120). -/
def answerCall (k : SysCall) (s : State) : State :=
  let r := sysReply s k
  let s1 := updCtx k.who (fun c => { c with
    spill := Memory.sets c.spill k.off (toBytes 8 r.1 ++ toBytes 8 r.2),
    spillPoison := c.spillPoison.filter fun o => o != k.off && o != k.off + 8 }) s
  completeToken k.who k.tok (decide (r.2 ≠ 0)) (BitVec.ofNat 64 r.2) s1

/-- The record of a line whose tag check fails (R357): instruction memory is SRAM of the cluster, and the class is integrity (DEDUCED, log entry
151). A line that nothing has loaded carries no tag and leaves no record. -/
def lineRecord (c : CoreId) (line : Nat) (s : State) : State :=
  if (assoc line (getCl s c.clId).tags).isNone then s else plainRecord c.die 2 3 0 0 0 0 2 0 ((getCl s c.clId).part) (some 6) s
/-- An instruction line enters the fetch buffer, its tag is checked and it is decrypted or marked failed. (R14) A full buffer gives up
the line that entered first (DESIGN CHOICE, log entry 114). -/
def fireLineFetch (c : CoreId) (line : Nat) (s : State) : Option State :=
  if (bufLine s c line).isSome then none
  else
    let x := getCore s c
    let ls := x.fetch ++ [openLine s c.clId line]
    let s1 := setCore c { x with fetch := ls.drop (ls.length - 8) } s
    some (if (openLine s c.clId line).failed then lineRecord c line s1 else s1)
/-- `LINE_FETCH`, R14. -/
def execLineFetch (c : CoreId) (line : Nat) (s : State) : Host.Outcome State Fault Refusal := eventStep (c.wf && decide (line < 2 ^ 14)) (fireLineFetch c line s) s

/-- A fixed-latency result lands in its latch or register at its landing bundle, ORing its flags into FFLAGS. (R47) -/
def fireLatchLanding (c : CtxId) (s : State) : Option State :=
  let x := getCtx s c
  if (fixedDue x).isEmpty || !(timedDue x).isEmpty || !commits c s then none
  else some (setCtx c (seen x) s)
/-- `LATCH_LANDING`, R47. -/
def execLatchLanding (c : CtxId) (s : State) : Host.Outcome State Fault Refusal := eventStep c.wf (fireLatchLanding c s) s

/-- Data of a timed-landing request arrives in the landing buffer, ending any freeze on its landing bundle. (R54) -/
def fireTimedDataArrival (c : CtxId) (k : Nat) (s : State) : Option State :=
  match findLanding (getCtx s c) k with
  | none => none
  | some l => if isWalk l.data then none else some (updCtx c (setLanding (clk s c.clId) k l.data) s)
/-- `TIMED_DATA_ARRIVAL`, R54. -/
def execTimedDataArrival (c : CtxId) (k : Nat) (s : State) : Host.Outcome State Fault Refusal := eventStep c.wf (fireTimedDataArrival c k s) s

/-- A timed request lands at its landing bundle and releases its landing-buffer entry, or raises a walk or integrity trap there (R51). With it
lands what else is due at that bundle, in the order of R48. -/
def fireTimedLanding (c : CtxId) (s : State) : Option State :=
  let x := getCtx s c
  if (timedDue x).isEmpty then none
  else match verdictOf c s with
    | .go => if !commits c s then none else some (setCtx c (seen x) s)
    | .trap t x' => if (outerTrap x).map (·.1) = some t then some (trapEnter c t (setCtx c x' s)) else none
    | _ => none
/-- `TIMED_LANDING`, R51. -/
def execTimedLanding (c : CtxId) (s : State) : Host.Outcome State Fault Refusal := eventStep c.wf (fireTimedLanding c s) s

/-- A replay finishes, obtains storage and makes the name resident, or raises trap 0x13. (R246) -/
def fireSketchReplayComplete (c : CtxId) (s : State) : Option State :=
  let x := getCtx s c
  match x.run, fetchBundle opOfField s c with
  | .replay n began, .got b =>
    if x.stopped ∨ clk s c.clId < began + replayCycles (seen x) n then none else some (setCtx c (afterReplay c n b x) s)
  | _, _ => none
/-- `SKETCH_REPLAY_COMPLETE`, R246. -/
def execSketchReplayComplete (c : CtxId) (s : State) : Host.Outcome State Fault Refusal := eventStep c.wf (fireSketchReplayComplete c s) s

/-- A sleeping context's cycle limit expires and it becomes ready. (R133) -/
def fireSleepTimeout (c : CtxId) (s : State) : Option State :=
  match (getCtx s c).nap with
  | .till t => if t < clk s c.clId ∧ (getCtx s c).stopped = false then some (updCtx c (fun x => { x with nap := .awake }) s) else none
  | _ => none
/-- `SLEEP_TIMEOUT`, R133. -/
def execSleepTimeout (c : CtxId) (s : State) : Host.Outcome State Fault Refusal := eventStep c.wf (fireSleepTimeout c s) s

/-- A pour lands in every MCWIN-named cluster's scratchpad 24 cycles after issue, as one event. (R172) -/
def firePourLanding (s : State) : Option State :=
  if s.pours.any (fun p => decide (pourEnd s p ≤ 2 ^ 24)) then some (tick s) else none
/-- `POUR_LANDING`, R172. -/
def execPourLanding (s : State) : Host.Outcome State Fault Refusal := eventStep true (firePourLanding s) s

/-- A change of the watched barrier word's phase bit wakes a waiting context, which re-reads the word. (R196) -/
def fireBwaitWake (c : CtxId) (s : State) : Option State :=
  match (getCtx s c).run with
  | .bwait w _ _ _ wake =>
    if (getCtx s c).stopped then none
    else
      let s1 := updCtx c (fun x => { x with run := .runnable }) (nodeEvent c s)
      match wake with
      | .waiting => none
      | .byStore => some s1
      | .byFlip k => some (observeFlips c w k s1)
  | _ => none
/-- `BWAIT_WAKE`, R196. -/
def execBwaitWake (c : CtxId) (s : State) : Host.Outcome State Fault Refusal := eventStep c.wf (fireBwaitWake c s) s

/-- The condition of a pending FENCE kind holds and the context may issue its next bundle. (R198) -/
def fireFenceComplete (c : CtxId) (s : State) : Option State :=
  match (getCtx s c).run with
  | .fence k =>
    if fenceHolds c k s then
      let s1 := updCtx c (fun x => { x with run := .runnable }) (nodeEvent c s)
      some (publish (fun p => p.who == c && (k == 2 || !p.engine)) (acquireAll (fun p => p.who == c && k == 2) s1))
    else none
  | _ => none
/-- `FENCE_COMPLETE`, R198. -/
def execFenceComplete (c : CtxId) (s : State) : Host.Outcome State Fault Refusal := eventStep c.wf (fireFenceComplete c s) s

/-- A pin's 2,047-bundle coverage window ends on the bundle clock (R169), but not under a BWAIT that needs it (R196). -/
def firePinExpiry (c : CtxId) (s : State) : Option State :=
  let x := getCtx s c
  if x.pins.any fun p => decide (p.last < coverFrom x) then some (setCtx c { x with pins := x.pins.filter fun p => decide (coverFrom x ≤ p.last) } s) else none
/-- `PIN_EXPIRY`, R169. -/
def execPinExpiry (c : CtxId) (s : State) : Host.Outcome State Fault Refusal := eventStep c.wf (firePinExpiry c s) s

/-- A page walker finishes a walk for a TCH, refill or engine and yields a leaf or a fault. (R305) -/
def firePageWalkComplete (c : CtxId) (k : Nat) (s : State) : Option State :=
  match findLanding (getCtx s c) k with
  | none => none
  | some l => match l.data with
    | .walk va => if walkWaits s (partOf s c) va then none else some (endWalk c l va s)
    | _ => none
/-- `PAGE_WALK_COMPLETE`, R305. -/
def execPageWalkComplete (c : CtxId) (k : Nat) (s : State) : Host.Outcome State Fault Refusal := eventStep c.wf (firePageWalkComplete c k s) s

/-- The partition manager serves a call, writes the reply into the spill window and lowers the token count. (R127) -/
def fireSyscReply (die : Nat) (s : State) : Option State :=
  match (getDie s die).calls with
  | [] => none
  | k :: ks => some (answerCall k (setDie die { getDie s die with calls := ks } s))
/-- `SYSC_REPLY`, R127. -/
def execSyscReply (die : Nat) (s : State) : Host.Outcome State Fault Refusal := eventStep (Config.hasDie die) (fireSyscReply die s) s

end Sys2Proof.Machine
end

