-- ==== Sys2Proof/Machine/MexEvents.lean ====
section
/-! DEFINITION. The matrix engine at work (R213 to R217, R221, R222, R226 to R231, R234 to R236). -/

namespace Sys2Proof.Machine

open Sys2Proof.Fp

/-! ## Checks at start (R236) -/

/-- Bits a parameter may hold (R218). -/
def mexMasks : List Nat :=
  [0xFFFFFFFF, 0x10F, 0xFFFFFFFF, 0x3FFFFF, 0x3FFFFF, 0x3FF, 0xF, 0x3FFFFF, 0x3FFFFF, 0x3FFFFF, 0x301FF, 0x3FFFFF, 0x3FFFFF, 0x1FF0F,
   0xFFFFFFFF, 0x3FFFFF, 0x3FFFFF, 0x3FFFFF, 0x3FF01FF, 0x3, 0x3FFFFF, 0xFFFFFFFF, 0xFFFFFFFFFFFFFFFF, 0x3FFFFF, 0x7, 0x3FFFFF]
/-- The parameters a command reads. -/
def mexReads : MexKind → List Nat
  | .mldw => [0, 1, 0x18, 0x19]
  | .mstr => [2, 3, 4, 5, 6, 7, 8, 9, 0x0A, 0x18, 0x19]
  | .mdrn => (List.range 13).map (0x0B + ·) ++ [0x18, 0x19]
  | .mzero => [0x0A, 0x18, 0x19]
/-- Whether a parameter has a reserved bit set. -/
def reservedSet (par : List Dword) (masks : List Nat) (i : Nat) : Bool := param par i &&& (masks.getD i 0) != param par i

/-- The pairs of R215. -/
def modeOk (wf af : Nat) : Bool :=
  let w := bits wf 3 0
  if w = 2 then af == 2 else if w = 6 then af == 6
  else if w = 9 ∧ fmtP4w wf then af == 9
  else (w == 4 || w == 5 || w == 9) && (af == 4 || af == 5)
/-- Strides, 0 meaning the natural size (R217, R230). -/
def strideOf (par : List Dword) (i natural : Nat) : Nat := if bits (param par i) 21 0 = 0 then natural else bits (param par i) 21 0
def actSize (af : Nat) : Nat := if af = 2 then 256 else 128
def mexAfmt (par : List Dword) : Nat := bits (param par 6) 3 0
def mexAstride (par : List Dword) : Nat := strideOf par 4 (actSize (mexAfmt par))
def mexDfmt (par : List Dword) : Nat := bits (param par 0x0D) 3 0
def mexPacks (par : List Dword) : Bool := bit (param par 0x0D) 16
def mexDres (par : List Dword) : Nat := bits (param par 0x0E) 31 0
def mexDstride (par : List Dword) : Nat := strideOf par 0x0C (if mexPacks par then ceilTo 16 (mexDres par) else drainBytes par)

/-- Whether `n` pieces of `size` bytes at a base and stride lie in scratchpad, the base aligned. -/
def extentOk (base align stride size n : Nat) : Bool := base % align == 0 && decide (base + stride * (n - 1) + size ≤ 0x300000)

/-- The first check that fails, as error code and detail; checks are listed in their order. -/
def firstCheck (cs : List (Bool × Nat × Nat)) : Option (Nat × Nat) := (cs.find? fun c => !c.1).map fun c => c.2

/-- Whether rows from `first` are of a type. -/
def rowInt (m : Mex) (r : Nat) : Bool := m.intRows.contains r

/-- Checks 1 and 2 of every command. -/
def commonCheck (c : MexCmd) : Option (Nat × Nat) :=
  match (mexReads c.kind).find? (reservedSet c.par mexMasks) with
  | some i => some (1, i)
  | none => if param c.par 0x19 ≠ 0 ∧ !barOk (param c.par 0x19) then some (3, 0x19) else none

/-- MLDW's slots, or its failure (R226). -/
def mldwSlots (s : State) (e : EngId) (c : MexCmd) : Except (Nat × Nat) (List Nat) :=
  let v := (param c.par 0 + c.ctl) % 2 ^ 32
  (List.range (tileSlots (param c.par 1))).foldl (fun (a : Except (Nat × Nat) (List Nat)) i => match a with
    | .error x => .error x
    | .ok l =>
      match frescoEntry s (partOf s c.who) (worldOf s c.who) (v + i) with
      | none => .error (4, v + i)
      | some w =>
        let f := bits w 39 16 * 2 ^ 14
        if bits f 37 35 ≠ e.die ∨ bits f 34 28 ≠ e.cl * 4 + e.eng ∨ bit w 1 ≠ worldOf s c.who then .error (5, v + i) else .ok (l ++ [f])) (.ok [])
def mldwCheck (c : MexCmd) : Option (Nat × Nat) :=
  let w := param c.par 1
  if ([2, 4, 5, 6, 9].contains (bits w 3 0)) && (!fmtP4w w || bits w 3 0 == 9) then none else some (1, 1)

/-- The add mode of a stream, and its row type (R227). -/
def mstrAdd (c : MexCmd) : Bool := !bit (param c.par 0x0A) 16 && !bit c.ctl 1
def mstrInt (c : MexCmd) : Bool := bit (param c.par 0x0A) 17
/-- MSTR's own checks, after the flip. -/
def mstrCheck (m : Mex) (c : MexCmd) : Option (Nat × Nat) :=
  let af := mexAfmt c.par
  let n := bits (param c.par 5) 9 0
  let sc := bits (param c.par 7) 21 0
  let rows := (List.range n).map (mexFirst c + ·)
  firstCheck [
    (m.act.loaded, 2, 0), (modeOk m.act.fmt af, 1, 6), (!mstrInt c || af == 6, 1, 0x0A),
    (decide (1 ≤ n) && decide (n ≤ if af = 2 then 256 else 512), 3, 5),
    (extentOk (bits (param c.par 3) 21 0) 16 (mexAstride c.par) (actSize af) n, 3, 3), (param c.par 4 % 16 == 0, 3, 4),
    (sc == 0 || extentOk sc 4 4 4 n, 3, 7),
    (af != 9 || extentOk (bits (param c.par 8) 21 0) 8 (strideOf c.par 9 16) 16 n, 3, 8), (af != 9 || param c.par 9 % 8 == 0, 3, 9),
    (decide (mexFirst c + n ≤ 512), 3, 0x0A),
    (!(mstrAdd c && rows.any fun r => rowInt m r != mstrInt c), 6, ((rows.find? fun r => rowInt m r != mstrInt c).getD 0))]

/-- MDRN's own checks. DSIDE and DSSTRIDE are checked when the output code writes sidecars, DSCALE when it writes scales (DESIGN CHOICE, log
entry 147). -/
def mdrnCheck (m : Mex) (c : MexCmd) : Option (Nat × Nat) :=
  let p := c.par
  let n := mexRows c
  let f := mexDfmt p
  let epi := bits (param p 0x13) 1 0
  let ebias := bits (param p 0x14) 21 0
  let esm := bits (param p 0x17) 21 0
  let dsc := bits (param p 0x11) 21 0
  let plain := epi == 0 && ebias == 0 && esm == 0 && param p 0x15 == 0x3F800000
  let allInt := ((List.range n).map (mexFirst c + ·)).all (rowInt m)
  firstCheck [
    (decide (1 ≤ n) && decide (n ≤ 512) && decide (mexFirst c + n ≤ 512), 3, 0x12),
    ([1, 2, 4, 8, 9].contains f && (f != 8 || (allInt && plain)), 1, 0x0D), (epi != 3, 1, 0x13),
    (extentOk (bits (param p 0x0B) 21 0) 16 (mexDstride p) (if mexPacks p then mexDres p else drainBytes p) n, 3, 0x0B),
    (param p 0x0C % 16 == 0 && (!mexPacks p || decide (mexDres p ≤ mexDstride p)), 3, 0x0C), (!mexPacks p || mexDres p != 0, 3, 0x0E),
    (f != 9 || mexPacks p || extentOk (bits (param p 0x0F) 21 0) 8 (strideOf p 0x10 8) 8 n, 3, 0x0F),
    (f != 9 || mexPacks p || param p 0x10 % 8 == 0, 3, 0x10),
    (f != 4 || dsc == 0 || extentOk dsc 4 4 4 n, 3, 0x11),
    (ebias == 0 || extentOk ebias 16 0 512 1, 3, 0x14), (esm == 0 || extentOk esm 16 0 512 1, 3, 0x17)]

/-! ## Starting (R221) -/

/-- Whether two commands' rows overlap: those of a command without rows overlap none. -/
def overlap (a b : MexCmd) : Bool := decide (0 < mexRows a) && decide (0 < mexRows b) && decide (mexFirst a < mexFirst b + mexRows b) && decide (mexFirst b < mexFirst a + mexRows a)
/-- The hazard condition of a command at the head of its queue: everything before it has started. -/
def hazardFree (m : Mex) (c : MexCmd) : Bool :=
  match c.kind with
  | .mldw => true
  | .mstr => m.runs.all fun r => !(r.cmd.kind == .mdrn && overlap r.cmd c) && !(bit c.ctl 0 && r.cmd.kind == .mldw)
  | .mzero => m.runs.all fun r => !(r.cmd.kind == .mdrn && overlap r.cmd c)
  | .mdrn => m.runs.all fun r => !((r.cmd.kind == .mstr || r.cmd.kind == .mzero) && overlap r.cmd c)

/-- A command passes or fails its checks in its start cycle (R222, R236). -/
def startMex (e : EngId) (c : MexCmd) (s : State) : State :=
  let m0 := getMex s e
  let early := commonCheck c
  let m := if c.kind = .mstr ∧ bit c.ctl 0 ∧ early.isNone then { m0 with act := m0.sh, sh := m0.act } else m0
  let s1 := setMex e m s
  let go : MexRun → State := fun r => setMex e { m with runs := m.runs ++ [r] } s1
  let fail : Nat × Nat → State := fun x => completeMex e c x.1 x.2 false s1
  let run : MexRun := ⟨c, (clk s e.clId), 0, 0, 0, false, .none, []⟩
  match early with
  | some x => fail x
  | none =>
    match c.kind with
    | .mldw => match mldwCheck c with
      | some x => fail x
      | none => match mldwSlots s e c with
        | .error x => fail x
        | .ok slots => go { run with slots := slots, plane := ⟨true, false, (param c.par 0 + c.ctl) % 2 ^ 32, param c.par 1, [], 0, 0⟩ }
    | .mstr => match mstrCheck m c with
      | some x => fail x
      | none => go { run with
          plane := m.act, err := if m.act.poisoned then m.act.err else 0, detail := if m.act.poisoned then m.act.detail else 0 }
    | .mdrn => match mdrnCheck m c with
      | some x => fail x
      | none => go run
    | .mzero => go run

/-! ## Decoding operands (R83 to R86, R215 to R217) -/

/-- User palette tables of a context's node (R86). -/
def userTables (s : State) (who : CtxId) : List Byte :=
  match nodeOf s who with
  | none => List.replicate 64 0x7F
  | some n => match getNode s n with
    | some d => d.palettes
    | none => List.replicate 64 0x7F
def p4Fv (user data : List Byte) (side j : Nat) : Fv :=
  match P4.elem user data side j with
  | none => .nan
  | some (n, d) => .fin n d
/-- The elements of an activation vector. -/
def actElems (fmt : Nat) (user data side : List Byte) : List Fv :=
  if fmt = 9 then (List.range 256).map fun k =>
    p4Fv user ((data.drop (16 * (k / 32))).take 16) (ofBytes ((side.drop (2 * (k / 32))).take 2)) (k % 32)
  else
    let w := if fmt = 2 then 2 else 1
    (List.range 128).map fun k => plainFv fmt ((data.drop (w * k)).take w)
/-- The weights of column `n` of a plane. -/
def weightColumn (pl : Plane) (user : List Byte) (n : Nat) : List Fv :=
  let f := bits pl.fmt 3 0
  if f = 9 then
    let k := if fmtP4w pl.fmt then 256 else 128
    (List.range k).map fun i =>
      let b := k / 32 * n + i / 32
      p4Fv user (Memory.gets pl.image (16 * b) 16) (ofBytes (Memory.gets pl.image (16 * (4 * k) + 2 * b) 2)) (i % 32)
  else
    let w := if f = 2 then 2 else 1
    (List.range 128).map fun i => plainFv f (Memory.gets pl.image (w * (128 * i + n)) w)

/-- The image offset of the first sidecar of a P4 tile whose parity fails (R84, R216). -/
def badSidecar (pl : Plane) : Option Nat :=
  if bits pl.fmt 3 0 ≠ 9 then none
  else
    let blocks := if fmtP4w pl.fmt then 1024 else 512
    ((List.range blocks).map fun b => 16 * blocks + 2 * b).find? fun o => !P4.sidecarOk (ofBytes (Memory.gets pl.image o 2))

/-! ## Reads and errors of a command -/

/-- Engine reads of local bytes, with the first poisoned granule. -/
def mexRead (e : EngId) (c : MexCmd) (a n : Nat) (s : State) : List Byte × Option Nat × State :=
  let as := (List.range n).map fun i => physSpad e.clId (a + i)
  let r := engineRead (mexWriter c) none as s
  (r.1, ((List.range n).find? fun i => byteBad s (physSpad e.clId (a + i))).map (fun i => (a + i) / 16 * 16), r.2)
/-- Keeps the first error of a command (R236). -/
def MexRun.note (r : MexRun) (err detail : Nat) : MexRun := if r.err = 0 then { r with err := err, detail := detail } else r
def accAddr (e : EngId) (row c : Nat) : Nat := physAcc e.clId (e.eng * 0x40000 + row * 0x200 + 4 * c)
/-- An element of an accumulator as a promotion or a drain finds it: its newest contents. For a drain R207 and R208 leave open whether a
later core store or another engine's write is seen (DESIGN CHOICE, log entry 161). -/
def accWord (s : State) (e : EngId) (row c : Nat) : Word32 := BitVec.ofNat 32 (ofBytes (memBytes s (accAddr e row c) 4))
def accBad (s : State) (e : EngId) (row c : Nat) : Bool := byteBad s (accAddr e row c)

/-- Writes a row of an accumulator with its poison tags. -/
def writeRow (e : EngId) (c : MexCmd) (row : Nat) (ws : List Word32) (bad : List Bool) (s : State) : State :=
  let cells := (ws.flatMap fun w => toBytes 4 w.toNat).zipIdx.map fun (b, i) => (accAddr e row 0 + i, b)
  markAll ((bad.zipIdx.filter (·.1)).map fun (_, i) => accAddr e row i) (engineWrite (mexWriter c) none cells s)
/-- Sets a row's type. -/
def setRowType (row : Nat) (int : Bool) (m : Mex) : Mex :=
  { m with intRows := if int then (if m.intRows.contains row then m.intRows else row :: m.intRows) else m.intRows.filter (· ≠ row) }
/-- Changes the started command with an issue event. -/
def updRun (e : EngId) (r : MexRun) (s : State) : State :=
  setMex e { getMex s e with runs := (getMex s e).runs.map fun x => if x.cmd.seq = r.cmd.seq then r else x } s
def endRun (e : EngId) (r : MexRun) (s : State) : State :=
  completeMex e r.cmd r.err r.detail false (setMex e { getMex s e with runs := (getMex s e).runs.filter fun x => x.cmd.seq != r.cmd.seq } s)

/-! ## Streams (R227) -/

/-- The sum of products of an INT8 column (R90). -/
def intSum (as ws : List Fv) : Int :=
  (as.zip ws).foldl (fun a (x, w) => match x, w with
    | .fin _ p, .fin _ q => a + p.m * q.m
    | _, _ => a) 0

/-- One vector's promotions into its row. Of several poisoned inputs the status names the activation's, then the sidecars', the scale's and
the row's (DESIGN CHOICE, log entry 148). -/
def promoteVector (e : EngId) (r : MexRun) (s : State) : State :=
  let c := r.cmd
  let j := r.done
  let af := mexAfmt c.par
  let row := mexFirst c + j
  let user := userTables s c.who
  let d := mexRead e c (bits (param c.par 3) 21 0 + j * mexAstride c.par) (actSize af) s
  let sideAt := bits (param c.par 8) 21 0 + j * strideOf c.par 9 16
  let sd : List Byte × Option Nat × State := if af = 9 then mexRead e c sideAt 16 d.2.2 else ([], none, d.2.2)
  let sc := bits (param c.par 7) 21 0
  let sa : List Byte × Option Nat × State := if sc = 0 then ([], none, sd.2.2) else mexRead e c (sc + 4 * j) 4 sd.2.2
  let parity := if af = 9 then ((List.range 8).find? fun b => !P4.sidecarOk (ofBytes ((sd.1.drop (2 * b)).take 2))).map (fun b => sideAt + 2 * b) else none
  let input := match d.2.1 with
    | some a => some a
    | none => match sd.2.1 with
      | some a => some a
      | none => match sa.2.1 with
        | some a => some a
        | none => if mstrAdd c && (List.range 128).any (accBad s e row) then some (0x80000000 + row) else none
  let r1 := match parity with | some a => r.note 8 a | none => r
  let r2 := match input with | some a => r1.note 9 a | none => r1
  let bad := r.plane.poisoned || parity.isSome || d.2.1.isSome || sd.2.1.isSome || sa.2.1.isSome
  let as := actElems af user d.1 sd.1
  let scale : Word32 := if sc = 0 then 0x3F800000#32 else BitVec.ofNat 32 (ofBytes sa.1)
  let ts : Word32 := BitVec.ofNat 32 (param c.par 2)
  let s1 := sa.2.2
  let new := (List.range 128).map fun n =>
    let ws := weightColumn r.plane user n
    let old := accWord s1 e row n
    if mstrInt c then
      let z := intSum as ws
      BitVec.ofInt 32 (sat32 (if mstrAdd c then old.toInt + z else z))
    else P4.promote (mstrAdd c) old (P4.passColumn as ws) scale ts
  let tags := (List.range 128).map fun n => bad || (mstrAdd c && accBad s1 e row n)
  let s2 := writeRow e c row new tags s1
  updRun e { r2 with done := j + 1 } (setMex e (setRowType row (mstrInt c) (getMex s2 e)) s2)

/-! ## Drains (R229 to R231) -/

/-- Stages 1 and 2 of one element. -/
def epilogue (par : List Dword) (int : Bool) (v bias sm : Word32) : Word32 :=
  let v0 := if int then (ofI32 .rne v.toInt).v else v
  let v1 := if bits (param par 0x14) 21 0 = 0 then v0 else P4.radd v0 bias
  let v2 := P4.rmul v1 (BitVec.ofNat 32 (param par 0x15))
  let epi := bits (param par 0x13) 1 0
  let v3 := if epi = 1 then (if isNan32 v2 then nan32 else if key32 0 < key32 v2 then v2 else 0)
    else if epi = 2 then fclmp32 v2 (BitVec.ofNat 32 (bits (param par 0x16) 31 0)) (BitVec.ofNat 32 (bits (param par 0x16) 63 32)) else v2
  if bits (param par 0x17) 21 0 = 0 then v3 else div32 v3 sm

/-- Stage 3: the row's elements as byte lists, the elements each is computed from, and a scale or the blocks' sidecars. -/
structure Converted where
  els : List (List Byte)
  from' : List (List Nat)
  scale : Option Word32
  sides : List Nat

def convertRow (par : List Dword) (user : List Byte) (os : List Word32) : Converted :=
  let f := mexDfmt par
  let all := List.range 128
  if f = 2 then ⟨os.map fun o => toBytes 2 (narrow bf16 .rne o).bits, all.map fun c => [c], none, []⟩
  else if f = 4 then
    let q := P4.drainE4m3 os
    ⟨q.2.map fun b => [b], all.map fun _ => all, some q.1, []⟩
  else if f = 9 then
    let bs := (List.range 4).map fun b => P4.quantise user (bits (param par 0x0D) 15 8) ((os.drop (32 * b)).take 32)
    ⟨bs.map fun b => b.data, (List.range 4).map fun b => (List.range 32).map (32 * b + ·), none, bs.map fun b => b.side⟩
  else ⟨os.map fun o => toBytes 4 o.toNat, all.map fun c => [c], none, []⟩

/-- An element of the packed vector: a P4 block carries its sidecar behind its data (R174). -/
def Converted.packEls (v : Converted) : List (List Byte) :=
  if v.sides.isEmpty then v.els else (v.els.zip v.sides).map fun (d, k) => d ++ toBytes 2 k

/-- Bytes to write at local addresses, each with its poison. -/
def localCells (e : EngId) (a : Nat) (bs : List (Byte × Bool)) : List (Nat × Byte × Bool) := bs.zipIdx.map fun (b, i) => (physSpad e.clId (a + i), b.1, b.2)

/-- The output of one row, none when its packed vector exceeds the reserve. -/
def rowOutput (e : EngId) (par : List Dword) (j : Nat) (v : Converted) (bad : List Bool) : Option (List (Nat × Byte × Bool)) :=
  let hit : List Nat → Bool := fun cs => cs.any fun c => bad.getD c false
  let dest := bits (param par 0x0B) 21 0 + j * mexDstride par
  let scales := match v.scale with
    | some w => if bits (param par 0x11) 21 0 = 0 then []
      else localCells e (bits (param par 0x11) 21 0 + 4 * j) ((toBytes 4 w.toNat).map fun b => (b, bad.any id))
    | none => []
  if mexPacks par then
    let pk := P4.sparsePack (mexDfmt par) (mexDres par) v.packEls
    if mexDres par < pk.length then none else some (localCells e dest (pk.map fun b => (b, bad.any id)) ++ scales)
  else
    let data := localCells e dest ((v.els.zip v.from').flatMap fun (d, cs) => d.map fun b => (b, hit cs))
    let side := localCells e (bits (param par 0x0F) 21 0 + j * strideOf par 0x10 8)
      ((v.sides.zip v.from').flatMap fun (k, cs) => (toBytes 2 k).map fun b => (b, hit cs))
    some (data ++ side ++ scales)

/-- A vector of 128 FP32 values a drain reads, none of them when its address is 0; the granule addresses of poisoned ones. -/
def drainInput (e : EngId) (c : MexCmd) (a : Nat) (s : State) : List Word32 × List (Option Nat) × State :=
  if a = 0 then ([], [], s)
  else
    let r := mexRead e c a 512 s
    ((List.range 128).map fun k => BitVec.ofNat 32 (ofBytes ((r.1.drop (4 * k)).take 4)),
     (List.range 128).map fun k => if byteBad s (physSpad e.clId (a + 4 * k)) then some ((a + 4 * k) / 16 * 16) else none, r.2.2)

/-- One row of a drain. Of several poisoned inputs the status names that of the lowest column, there the element's before the bias's and the
smoothing value's (DESIGN CHOICE, log entry 148). -/
def drainOne (e : EngId) (r : MexRun) (s : State) : State :=
  let c := r.cmd
  let j := r.done
  let row := mexFirst c + j
  let int := rowInt (getMex s e) row
  let bi := drainInput e c (bits (param c.par 0x14) 21 0) s
  let sm := drainInput e c (bits (param c.par 0x17) 21 0) bi.2.2
  let s1 := sm.2.2
  let os := (List.range 128).map fun k =>
    if mexDfmt c.par = 8 then accWord s1 e row k else epilogue c.par int (accWord s1 e row k) (bi.1.getD k 0) (sm.1.getD k 0)
  let why : Nat → Option Nat := fun k => if accBad s1 e row k then some (0x80000000 + row)
    else match bi.2.1.getD k none with
      | some a => some a
      | none => sm.2.1.getD k none
  let bad := (List.range 128).map fun k => (why k).isSome
  let r1 := match (List.range 128).findSome? why with | some a => r.note 9 a | none => r
  match rowOutput e c.par j (convertRow c.par (userTables s c.who) os) bad with
  | none => updRun e { r1.note 0x0A j with done := mexRows c, halted := true } s1
  | some cells =>
    let s2 := markAll ((cells.filter fun x => x.2.2).map (·.1)) (engineStore (mexWriter c) (cells.map fun x => (⟨x.1, 0⟩, x.2.1)) s1)
    let s3 := if bit c.ctl 0 then writeRow e c row (List.replicate 128 0) [] s2 else s2
    updRun e { r1 with done := j + 1 } s3

/-- Zeroes the rows of an MZERO and sets their type (R228). -/
def zeroRows (e : EngId) (c : MexCmd) (s : State) : State :=
  (List.range c.ctl).foldl (fun s k =>
    let s1 := writeRow e c (c.row + k) (List.replicate 128 0) [] s
    setMex e (setRowType (c.row + k) (bit (param c.par 0x0A) 17) (getMex s1 e)) s1) s

/-- The oldest started command of a kind that meets a condition. -/
def runOf (s : State) (e : EngId) (k : MexKind) (ok : MexRun → Bool) : Option MexRun := (getMex s e).runs.find? fun r => r.cmd.kind == k && ok r

/-- A queued matrix command starts once its order, pipe and hazards allow, making its start checks. (R221) -/
def fireMexCommandStart (e : EngId) (s : State) : Option State :=
  let m := getMex s e
  match m.queue with
  | [] => none
  | c :: q =>
    if c.entered + 2 ≤ (clk s e.clId) ∧ mayStart s c.who ∧ !pipeBusy (clk s e.clId) m c.kind.pipe ∧ hazardFree m c then some (startMex e c (setMex e { m with queue := q } s)) else none
/-- `MEX_COMMAND_START`, R221. -/
def execMexCommandStart (e : EngId) (s : State) : Host.Outcome State Fault Refusal := eventStep e.wf (fireMexCommandStart e s) s

/-- The plane of a load as it stands at its end: of its fresco failures and parity failures the first in ascending 64-byte row of the image
is kept, and within one row the lower code (R236). -/
def loadedPlane (r : MexRun) : Plane :=
  let pl := r.plane
  let rowAt : Nat → Nat := fun i => (r.slots.getD (64 * i / 16384) 0 + 64 * i % 16384) % 2 ^ 28
  match badSidecar pl with
  | none => pl
  | some o =>
    let earlier := pl.poisoned && ((List.range (o / 64 + 1)).any fun i => rowAt i == pl.detail)
    if earlier then pl else { pl with poisoned := true, err := 8, detail := 2 ^ 31 + o }

/-- The weight load finishes and the shadow plane holds the new tile. (R222) An uncorrectable row that it met leaves a record (R357). -/
def fireMldwComplete (e : EngId) (s : State) : Option State :=
  match runOf s e .mldw fun r => decide (tileBytes (param r.cmd.par 1) ≤ 2048 * r.done) && decide (r.start + mexBusy r.cmd ≤ (clk s e.clId)) with
  | none => none
  | some r =>
    let pl := loadedPlane r
    let s1 := setMex e { getMex s e with sh := pl } s
    let s2 := if r.plane.poisoned ∧ r.plane.err = 7 then plainRecord e.die 5 2 1 0 0 2 0 0 ((getCl s e.clId).part) none s1 else s1
    some (endRun e { r with err := pl.err, detail := pl.detail } s2)
/-- `MLDW_COMPLETE`, R222. -/
def execMldwComplete (e : EngId) (s : State) : Host.Outcome State Fault Refusal := eventStep e.wf (fireMldwComplete e s) s

/-- A streamed vector's partials are promoted into its accumulator row. (R227) -/
def fireStreamPromotion (e : EngId) (s : State) : Option State :=
  match runOf s e .mstr fun r => decide (r.done < mexRows r.cmd) &&
      decide (r.start + r.done * (if mexAfmt r.cmd.par = 2 then 2 else 1) + 12 ≤ (clk s e.clId)) with
  | none => none
  | some r => some (promoteVector e r s)
/-- `STREAM_PROMOTION`, R227. -/
def execStreamPromotion (e : EngId) (s : State) : Host.Outcome State Fault Refusal := eventStep e.wf (fireStreamPromotion e s) s

/-- A stream completes, lowering its token and updating its barrier. (R222) -/
def fireMstrComplete (e : EngId) (s : State) : Option State :=
  match runOf s e .mstr fun r => r.done == mexRows r.cmd && decide (r.start + mexBusy r.cmd + 12 ≤ (clk s e.clId)) with
  | none => none
  | some r => some (endRun e r s)
/-- `MSTR_COMPLETE`, R222. -/
def execMstrComplete (e : EngId) (s : State) : Host.Outcome State Fault Refusal := eventStep e.wf (fireMstrComplete e s) s

/-- A row-zeroing command completes. (R222) -/
def fireMzeroComplete (e : EngId) (s : State) : Option State :=
  match runOf s e .mzero fun r => decide (r.start + mexBusy r.cmd + 2 ≤ (clk s e.clId)) with
  | none => none
  | some r => some (endRun e r (zeroRows e r.cmd s))
/-- `MZERO_COMPLETE`, R222. -/
def execMzeroComplete (e : EngId) (s : State) : Host.Outcome State Fault Refusal := eventStep e.wf (fireMzeroComplete e s) s

/-- A drain reads one accumulator row and writes its converted output bytes. (R229) -/
def fireDrainRow (e : EngId) (s : State) : Option State :=
  match runOf s e .mdrn fun r => decide (r.done < mexRows r.cmd) && decide (r.start + r.done ≤ (clk s e.clId)) with
  | none => none
  | some r => some (drainOne e r s)
/-- `DRAIN_ROW`, R229. -/
def execDrainRow (e : EngId) (s : State) : Host.Outcome State Fault Refusal := eventStep e.wf (fireDrainRow e s) s

/-- A drain completes, lowering its token and updating its barrier. (R222) -/
def fireMdrnComplete (e : EngId) (s : State) : Option State :=
  match runOf s e .mdrn fun r => r.done == mexRows r.cmd && decide (r.start + mexBusy r.cmd + 10 ≤ (clk s e.clId)) with
  | none => none
  | some r => some (endRun e r s)
/-- `MDRN_COMPLETE`, R222. -/
def execMdrnComplete (e : EngId) (s : State) : Host.Outcome State Fault Refusal := eventStep e.wf (fireMdrnComplete e s) s

end Sys2Proof.Machine
end

