-- ==== Sys2Proof/Machine/CpyEvents.lean ====
section
/-! DEFINITION. The copy engine at work (R256 to R262, R265, R310, R381, R382). -/

namespace Sys2Proof.Machine

/-! ## Addresses and data of a unit (R259) -/

/-- An address word moved by a step: bits [55:0] wrap, the others stay. -/
def wordAdd (w : Nat) (z : Int) : Nat := w / 2 ^ 56 * 2 ^ 56 + wrapInt 56 ((w % 2 ^ 56 : Nat) + z)
/-- The steps of a unit, from the first step parameter `i`. -/
def unitStep (par : List Dword) (i u : Nat) : Int :=
  (u % cpyDim par 0 : Nat) * step48 (param par i) + (u / cpyDim par 0 % cpyDim par 1 : Nat) * step48 (param par (i + 1))
    + (u / cpyDim par 0 / cpyDim par 1 : Nat) * step48 (param par (i + 2))
/-- Source and destination words of unit `u`, the source based at a given word. -/
def unitSrc (c : CpyCmd) (base u : Nat) : Nat := wordAdd base (c.off + unitStep c.par 5 u)
def unitDst (c : CpyCmd) (u : Nat) : Nat := wordAdd (param c.par 1) (c.off + unitStep c.par 8 u)
/-- Whether `n` bytes at a local word lie in scratchpad or accumulator space; global words are not local extents. -/
def localOk (w n : Nat) : Bool := bit w 63 || n == 0 || loadable w n
/-- Source bytes known before the data is read: of a sparse vector its header and mask. -/
def cpySrcKnown (par : List Dword) : Nat := if cpyCodec par = 1 then 16 + ceilTo 16 ((cpyN par + 7) / 8) else cpySrcBytes par
def cpyPeer (par : List Dword) : Bool := bit (param par 0x0F) 16

/-! ## Checks at start (R256, R260, R310) -/

/-- Bits a parameter may hold (R258). -/
def cpyMasks : List Nat :=
  [0xFFFFFFFFFFFFFFFF, 0xFFFFFFFFFFFFFFFF, 0xFFFFFFFFFFFFFFFF, 0xFFFFFFFF, 0xFFFFFFFFFFFF, 0xFFFFFFFFFFFF, 0xFFFFFFFFFFFF, 0xFFFFFFFFFFFF,
   0xFFFFFFFFFFFF, 0xFFFFFFFFFFFF, 0xFFFFFFFFFFFF, 0x3F1, 0xFFFFFFFF00FFFFFF, 0x7, 0xFFFFFFFFFFFFFFFF, 0x1FFFF]
/-- Whether every unit's bytes at a base word are local extents the cluster has. -/
def extentsOk (c : CpyCmd) (word : Nat → Nat) (n : Nat) : Bool := (List.range (cpyUnits c.par)).all fun u => localOk (word u) n
/-- The checks on the parameters alone. -/
def cpyParCheck (c : CpyCmd) : Option (Nat × Nat) :=
  let p := c.par
  let codec := cpyCodec p
  match (List.range 16).find? (reservedSet p cpyMasks) with
  | some i => some (1, i)
  | none => firstCheck [
      (codec != 3 && (!cpyReduce p || (codec == 0 && [1, 2, 8].contains (cpyRedFmt p))), 1, 0x0B),
      (codec == 0 || cpyLen p == 0, 1, 3),
      (codec == 0 || (decide (1 ≤ cpyFmt p) && decide (cpyFmt p ≤ 9) && (codec != 2 || cpyFmt p != 9)), 1, 0x0C),
      (codec != 0 || cpyLen p != 0, 3, 3), (decide (cpyTotal p < 2 ^ 40), 3, 4)]
/-- The checks on extents and alignment, made when the byte count is legal. -/
def cpyExtentCheck (c : CpyCmd) : Option (Nat × Nat) :=
  let p := c.par
  firstCheck [
    (extentsOk c (unitSrc c (param p 0)) (cpySrcKnown p), 3, 0), (cpyPeer p || extentsOk c (unitDst c) (cpyDstBytes p), 3, 1),
    (param p 2 == 0 || extentsOk c (unitSrc c (param p 2)) (cpySrcKnown p), 3, 2),
    (!cpyReduce p || (List.range (cpyUnits p)).all (fun u => unitDst c u % 4 == 0), 3, 1),
    (!cpyReduce p || cpyLen p % cpyRedSize p == 0, 3, 3),
    (cpyCodec p != 2 || cpyDim p 0 == 1 || decide ((cpyReserve p : Int) ≤ step48 (param p 8)), 3, 8)]

/-- A copy's checks: its barrier word and port, or error and detail. -/
def cpyCheck (s : State) (c : CpyCmd) : Except (Nat × Nat) (Option Nat × Option (Nat × Nat)) :=
  match cpyParCheck c with
  | some x => .error x
  | none => match cpyExtentCheck c with
    | some x => .error x
    | none => match barWord s c.who (param c.par 0x0E) with
      | .error k => .error (k, 0x0E)
      | .ok bar =>
        if cpyPeer c.par then
          match choosePort s (partOf s c.who) (bits (param c.par 0x0F) 15 0) with
          | .error x => .error x
          | .ok i => .ok (bar, some i)
        else .ok (bar, none)

/-- Pieces of a range of addresses, one for each 64 KiB page. -/
def pagePieces (va n : Nat) : List (Nat × Nat) :=
  if n = 0 then [] else
  (List.range ((va + n - 1) / 65536 + 1 - va / 65536)).map fun i =>
    let p := va / 65536 + i
    (max va (p * 65536), min (va + n) (p * 65536 + 65536) - max va (p * 65536))

/-- Whether a walk for a range at an address word waits for a page retirement (R362). -/
def rangeWaits (s : State) (who : CtxId) (x : Nat × Nat) : Bool :=
  bit x.1 63 && (pagePieces (x.1 % 2 ^ 63) x.2).any fun y => walkWaits s (partOf s who) y.1

/-- A copy leaves its queue and starts, or fails its checks and completes in its start cycle (R260); one that resumes without its link fails at
the chunk it had come to (R371). -/
def startCpy (e : DieEng) (c : CpyCmd) (s : State) : State :=
  match cpyCheck s c with
  | .error x =>
    if x.1 = 0x0E ∧ 0 < c.chunk then completeCpy e c (cpyBar s c) c.chunk c.written 0x0E c.chunk (some c.chunk) false s
    else completeCpy e c (cpyBar s c) c.chunk c.written x.1 x.2 none false s
  | .ok (bar, port) => setCpy e { getCpy s e with runs := (getCpy s e).runs ++ [⟨c, bar, port, c.chunk, c.written, none, 0, 0, false, 0, 0⟩] } s

/-! ## Chunks (R261) -/

def cpyChunks (par : List Dword) : Nat := if cpyCodec par = 0 then (cpyTotal par + 4095) / 4096 else cpyUnits par
/-- Pieces of a chunk of a copy without a codec: unit, offset in its destination bytes, and length. -/
def chunkPieces (par : List Dword) (j : Nat) : List (Nat × Nat × Nat) :=
  let d := cpyDstBytes par
  let lo := 4096 * j
  let hi := min (cpyTotal par) (lo + 4096)
  (List.range ((hi - 1) / d + 1 - lo / d)).map fun i =>
    let u := lo / d + i
    (u, max lo (u * d) - u * d, min hi ((u + 1) * d) - max lo (u * d))
/-- Destination bytes a chunk accounts for. -/
def chunkBytes (par : List Dword) (j : Nat) : Nat := if cpyCodec par = 0 then min (cpyTotal par) (4096 * j + 4096) - 4096 * j else cpyDstBytes par

/-- The bytes behind a range at an address word, for reading or for writing, or the error (R256, R261, R301 to R304). The start checks keep
local ranges inside the map. -/
def resolveRange (s : State) (who : CtxId) (ok : Nat → Bool) (w n : Nat) : Except Nat (List GByte) :=
  if bit w 63 then
    (pagePieces (w % 2 ^ 63) n).foldl (fun (a : Except Nat (List GByte)) x => match a with
      | .error k => .error k
      | .ok l => match walk s (partOf s who) (worldOf s who) (nodeOf s who) x.1 with
        | .fault k => .error (if k % 16 = 4 then 5 else 4)
        | .leaf e size =>
          let bs := (List.range x.2).map fun i => (⟨ptePhys e size (x.1 + i), e⟩ : GByte)
          if !ok e || pteMulti e || (aliasTrap s x.1 bs).isSome then .error 6 else .ok (l ++ bs)) (.ok [])
  else if n = 0 then .ok []
  else if loadable w n then .ok (localBytes who.clId w n)
  else .error 0x0C
/-- Several ranges after each other. -/
def resolveAll (s : State) (who : CtxId) (ok : Nat → Bool) : List (Nat × Nat) → Except Nat (List GByte)
  | [] => .ok []
  | (w, n) :: r => match resolveRange s who ok w n with
    | .error k => .error k
    | .ok a => match resolveAll s who ok r with
      | .error k => .error k
      | .ok b => .ok (a ++ b)

/-- Bytes read for a copy, and what the read met: 0, or 7 for an uncorrectable sector. An integrity failure ends the command. -/
def cpyRead (src : Writer) (bs : List GByte) (s : State) : Except Nat (List Byte × Nat × State) :=
  if (firstIntegrity s bs).isSome then .error 0x0B
  else
    let r := engineRead src (nodeOf s src.who) (bs.map (·.pa)) s
    .ok (r.1, if anyBad s src.who bs then 7 else 0, fillLines true bs r.2)

/-- The dense form of decoded elements (R175, R259). -/
def denseForm (fmt : Nat) (els : List (List Byte)) : List Byte :=
  if fmt = 9 then
    (els.flatMap fun e => e.take 16) ++ (els.flatMap fun e => e.drop 16) ++ List.replicate (ceilTo 8 (2 * els.length) - 2 * els.length) 0
  else els.flatten
/-- One sparse vector expanded: its dense bytes, or 0x0C when it does not decode. As for VLDE, its header is 16-aligned and a local vector lies
in scratchpad (R188, R259). -/
def expandAt (c : CpyCmd) (w : Nat) (s : State) : Except Nat (List Byte × List GByte × Nat × State) :=
  if w % 16 ≠ 0 ∨ (!bit w 63 && !inSpad w 16) then .ok ([], [], 0x0C, s) else
  match resolveRange s c.who pteRead w 16 with
  | .error k => .error k
  | .ok hb => match cpyRead (cpyWriter c) hb s with
    | .error k => .error k
    | .ok (h, bad, s1) =>
      let n := ofBytes (h.take 2)
      let z := ofBytes ((h.drop 2).take 2)
      let f := (h.getD 4 0).toNat
      if bad ≠ 0 then .ok ([], hb, 7, s1)
      else if n ≠ cpyN c.par ∨ f ≠ cpyFmt c.par then .ok ([], hb, 0x0C, s1)
      else
        let len := 16 + ceilTo 16 ((n + 7) / 8) + ceilTo 16 (z * P4.codeSize f)
        if !bit w 63 && !inSpad w len then .ok ([], hb, 0x0C, s1) else
        match resolveRange s1 c.who pteRead w len with
        | .error k => .error k
        | .ok bs => match cpyRead (cpyWriter c) bs s1 with
          | .error k => .error k
          | .ok (d, bad, s2) =>
            if bad ≠ 0 then .ok ([], bs, 7, s2)
            else match P4.sparseDecode true (fun o k => (d.drop o).take k) len with
              | none => .ok ([], bs, 0x0C, s2)
              | some (_, _, els) => .ok (denseForm f els, bs, 0, s2)

/-- Source ranges of a chunk without an expansion. -/
def chunkSources (c : CpyCmd) (base j : Nat) : List (Nat × Nat) :=
  let p := c.par
  if cpyCodec p ≠ 0 then [(unitSrc c base j, cpySrcKnown p)]
  else (chunkPieces p j).map fun (u, o, n) =>
    if cpyReduce p then (wordAdd (unitSrc c base u) (o / 4 * cpyRedSize p : Nat), n / 4 * cpyRedSize p)
    else (wordAdd (unitSrc c base u) (o : Nat), n)
/-- One fetch of a chunk: its bytes, where they came from, and 0, or 7 or 0x0C for a fetch that another may mend. -/
def fetchOnce (c : CpyCmd) (base j : Nat) (s : State) : Except Nat (List Byte × List GByte × Nat × State) :=
  if cpyCodec c.par = 1 then expandAt c (unitSrc c base j) s
  else match resolveAll s c.who pteRead (chunkSources c base j) with
    | .error k => .error k
    | .ok bs => match cpyRead (cpyWriter c) bs s with
      | .error k => .error k
      | .ok (d, bad, s1) => .ok (d, bs, bad, s1)

/-- Consecutive elements of `n` bytes. -/
def cutEvery (n : Nat) : Nat → List Byte → List (List Byte)
  | 0, _ => []
  | k + 1, bs => bs.take n :: cutEvery n k (bs.drop n)
/-- The bytes a chunk writes from those it read; none when a packed vector exceeds its reserve. -/
def chunkOut (par : List Dword) (d : List Byte) : Option (List Byte) :=
  if cpyCodec par = 2 then
    let v := P4.sparsePack (cpyFmt par) (cpyReserve par) (cutEvery (P4.codeSize (cpyFmt par)) (cpyN par) d)
    if cpyReserve par < v.length then none else some v
  else some d
/-- Egress classes of the guarded pages behind some bytes (R382). -/
def guardClasses (s : State) (part : Nat) (bs : List GByte) : List Nat :=
  ((bs.filter fun b => pteGuard b.pte).map fun b => classOf (getPart s part) b.pa).eraseDups
/-- The classes of each byte a chunk writes: its own source byte's, or behind a codec or an addition those of all it was read from. -/
def byteClasses (s : State) (c : CpyCmd) (bs : List GByte) (n : Nat) : List (List Nat) :=
  if cpyCodec c.par = 0 ∧ !cpyReduce c.par then bs.map fun b => guardClasses s (partOf s c.who) [b]
  else List.replicate n (guardClasses s (partOf s c.who) bs)

def findCpy (s : State) (e : DieEng) (id : Nat) : Option CpyRun := (getCpy s e).runs.find? fun r => r.cmd.id == id
def updCpy (e : DieEng) (r : CpyRun) (s : State) : State :=
  setCpy e { getCpy s e with runs := (getCpy s e).runs.map fun x => if x.cmd.seq = r.cmd.seq then r else x } s
def CpyRun.fail (r : CpyRun) (err : Nat) : CpyRun := { r with err := err, detail := r.chunk, fetched := none }

/-- The fault record of a media error that a copy met at its source and that another fetch mended (R261, R357): action 2, with bit 3
when the replica gave the data. -/
def recordFetch (c : CpyCmd) (replica : Bool) (bs : List GByte) (s : State) : State :=
  match bs.find? (fun b => isLpddr b.pa && (!replica || viewBad s (nodeOf s c.who) b.pa)) with
  | none => s
  | some b =>
    let d := (nodeOf s c.who).bind (getNode s)
    let sec := b.pa / 64 * 64
    appendFault (physDie sec) (some (partOf s c.who))
      (fun q => faultRec q 0 2 2 (if replica then 8 else 0) sec (Config.syndrome sec).toNat 2 0 (d.elim 0 (·.graph)) (d.elim 0 (·.idx)) (ctxidOf s c.who)
        (partOf s c.who) 0 (nanos s) 0) none s

/-- The fetch of a run's next chunk, with refetch and replica (R261). A transient error is gone at the second fetch. -/
def fetchChunk (e : DieEng) (r : CpyRun) (transient : Bool) (s : State) : State :=
  let c := r.cmd
  let take : CpyRun → List Byte × List GByte × Nat × State → State := fun r x =>
    match chunkOut c.par x.1 with
    | none => updCpy e (r.fail 0x0A) x.2.2.2
    | some d => updCpy e { r with fetched := some ⟨d, byteClasses s c x.2.1 d.length⟩ } x.2.2.2
  match fetchOnce c (param c.par 0) r.chunk s with
  | .error k => updCpy e (r.fail k) s
  | .ok x =>
    if x.2.2.1 = 0 then
      if transient then take { r with refetched := r.refetched + 1 } (x.1, x.2.1, x.2.2.1, recordFetch c false x.2.1 x.2.2.2) else take r x
    else if param c.par 2 = 0 then updCpy e (r.fail x.2.2.1) x.2.2.2
    else match fetchOnce c (param c.par 2) r.chunk x.2.2.2 with
      | .error k => updCpy e (r.fail k) x.2.2.2
      | .ok y => if y.2.2.1 = 0 then
          take { r with replicas := r.replicas + 1 } (y.1, y.2.1, y.2.2.1, if x.2.2.1 = 7 then recordFetch c true x.2.1 y.2.2.2 else y.2.2.2)
        else updCpy e (r.fail y.2.2.1) y.2.2.2

/-! ## Writes of a chunk (R262) -/

def chunkDests (c : CpyCmd) (j n : Nat) : List (Nat × Nat) :=
  if cpyCodec c.par = 0 then (chunkPieces c.par j).map fun (u, o, k) => (wordAdd (unitDst c u) (o : Nat), k) else [(unitDst c j, n)]
/-- Accumulator row of a physical byte: engine and row. -/
def accRow (pa : Nat) : EngId × Nat := (⟨(physCl pa).die, (physCl pa).cl, physOff pa / 0x40000⟩, physOff pa % 0x40000 / 0x200)
def rowOk (s : State) (int : Bool) (pa : Nat) : Bool := isAcc pa && rowInt (getMex s (accRow pa).1) (accRow pa).2 == int
/-- One element of a reduce-add: one update of its accumulator element (R210, R259). -/
def addElement (src : Writer) (fmt : Nat) (b : GByte) (d : List Byte) (s : State) : State :=
  let old : Word32 := BitVec.ofNat 32 (ofBytes (memBytes s b.pa 4))
  let v : Word32 := BitVec.ofNat 32 (if fmt = 2 then ofBytes d * 2 ^ 16 else ofBytes d)
  let new : Word32 := if fmt = 8 then BitVec.ofInt 32 (sat32 (old.toInt + v.toInt)) else P4.radd old v
  let bad := viewBad s (nodeOf s src.who) b.pa
  let s1 := engineStore src ((toBytes 4 new.toNat).zipIdx.map fun (x, i) => (⟨b.pa + i, b.pte⟩, x)) s
  if bad then setMark b.pa .poison s1 else s1
/-- The writes of a chunk at its destination bytes. -/
def writeChunk (c : CpyCmd) (bs : List GByte) (d : List Byte) (s : State) : State :=
  if cpyReduce c.par then
    let els := cutEvery (cpyRedSize c.par) (bs.length / 4) d
    (els.zipIdx.foldl (fun s (x, i) => match bs[4 * i]? with
      | some b => addElement (cpyWriter c) (cpyRedFmt c.par) b x s
      | none => s) s)
  else engineStore (cpyWriter c) (bs.zip d) s

/-- The engine error a peer package answers with (R310): 0 when it performs the writes. -/
def peerCode (n : Nat) : Nat := [0, 4, 5, 6].getD (Config.peerAnswer n % 4) 0

/-- A port that bytes leave the package through: its bucket, the classes allowed there, how many bytes, and their classes (R380, R382). -/
structure Exit where
  bucket : Nat
  mask : Nat
  bytes : Nat
  classes : List Nat
  deriving DecidableEq, Repr
/-- The host ports that bytes leave through. -/
def hostExits (s : State) (part : Nat) (bs : List (GByte × List Nat)) : List Exit :=
  [18, 19].filterMap fun k =>
    let here := bs.filter fun b => physHost b.1.pa && hostBucket b.1.pa == k
    if here.isEmpty then none
    else some ⟨k, (assoc (k - 18) (getPart s part).hostMask).getD 0, here.length, (here.flatMap (·.2)).eraseDups⟩
/-- Where the bytes of a chunk leave the package. -/
def chunkExits (s : State) (r : CpyRun) (ch : Chunk) (bs : List GByte) : List Exit :=
  match r.port with
  | some (i, mask) => [⟨i, mask, ch.bytes.length, ch.classes.flatten.eraseDups⟩]
  | none => hostExits s (partOf s r.cmd.who) (bs.zip ch.classes)
/-- The one bucket through which every chunk of a copy from the next on leaves, if there is one: there the copy keeps its place (R381). -/
def soleExit (s : State) (r : CpyRun) : Option Nat :=
  match r.port with
  | some (i, _) => some i
  | none =>
    let exits := ((List.range (cpyChunks r.cmd.par)).drop r.chunk).map fun j =>
      match resolveAll s r.cmd.who pteWrite (chunkDests r.cmd j (cpyDstBytes r.cmd.par)) with
      | .ok bs => (hostExits s (partOf s r.cmd.who) (bs.map fun b => (b, []))).map (·.bucket)
      | .error _ => []
    match exits with
    | [k] :: rest => if rest.all (· == [k]) then some k else none
    | _ => none
/-- A chunk leaves only when every bucket on its way holds its bytes; one that has granted them keeps the grant meanwhile (R381). -/
def askBuckets (part id : Nat) (who : CtxId) (stays : Bool) (xs : List Exit) (s : State) : Bool × State :=
  let r := xs.foldl (fun (a : List Nat × Bool × State) x =>
    let q := askBucket part x.bucket ⟨id, who, x.bytes, false, [], true, stays⟩ a.2.2
    (if q.1 then a.1 ++ [x.bucket] else a.1, a.2.1 && q.1, q.2)) ([], true, s)
  (r.2.1, if r.2.1 then r.2.2 else r.1.foldl (fun s k =>
    let b := bucketOf s part k
    setBucket part k { b with granted := b.granted ++ [id] } s) r.2.2)
def classesOk (mask : Nat) (cs : List Nat) : Bool := cs.all fun k => k != 0 && bit mask k
/-- Whether a request already waits at a bucket. -/
def waitsAt (s : State) (part k id : Nat) : Bool :=
  (bucketOf s part k).waiting.any (fun q => q.id == id && q.ready) && !(bucketOf s part k).granted.contains id

/-- A chunk has been written: its bytes are paid (R262). -/
def settleChunk (e : DieEng) (r : CpyRun) (n : Nat) (s : State) : State :=
  updCpy e { r with chunk := r.chunk + 1, written := r.written + n, fetched := none }
    (pay r.cmd.who r.bar r.cmd.seq (chunkBytes r.cmd.par r.chunk) .none s)
/-- A chunk whose bytes have left, or need not leave, is performed. -/
def performChunk (e : DieEng) (r : CpyRun) (ch : Chunk) (bs : List GByte) (s : State) : State :=
  let c := r.cmd
  match r.port with
  | some (i, _) =>
    let s1 := setDurable c.who (sendFlits i (flitsOf ch.bytes.length ch.bytes) { s with free := s.free + 1 })
    if peerCode s.free = 0 then settleChunk e r (if cpyReduce c.par then chunkBytes c.par r.chunk else ch.bytes.length) s1 else updCpy e (r.fail (peerCode s.free)) s1
  | none =>
    if cpyReduce c.par ∧ !bs.all (fun b => rowOk s (cpyRedFmt c.par == 8) b.pa) then updCpy e (r.fail 6) s
    else settleChunk e r (if cpyReduce c.par then bs.length else ch.bytes.length) (writeChunk c bs ch.bytes s)

/-- The writes of a fetched chunk, none while they wait. -/
def writeOut (e : DieEng) (r : CpyRun) (ch : Chunk) (s : State) : Option State :=
  let c := r.cmd
  let part := partOf s c.who
  let ds := chunkDests c r.chunk ch.bytes.length
  match (if r.port.isSome then .ok [] else resolveAll s c.who (fun e => pteWrite e && (!cpyReduce c.par || pteRead e)) ds) with
  | .error k => some (updCpy e (r.fail k) s)
  | .ok bs =>
    let xs := chunkExits s r ch bs
    if xs.isEmpty then some (performChunk e r ch bs s)
    else if r.port.isSome && xs.any (fun x => !portUp s x.bucket) then some (updCpy e (r.fail 0x0E) s)
    else match xs.find? fun x => !classesOk x.mask x.classes with
      | some x => some (updCpy e (r.fail 0x0D) (logEvent 5 part (toBytes 8 x.bucket ++ toBytes 8 r.chunk) s))
      | none =>
        if s.viral || xs.any (fun x => waitsAt s part x.bucket c.seq || (r.port.isSome && !portRoom s x.bucket ((ch.bytes.length + 231) / 232))) then none
        else
          let stays := decide (r.chunk + 1 < cpyChunks c.par) && !r.cancelling && (soleExit s r).isSome
          let a := askBuckets part c.seq c.who stays xs s
          some (if a.1 then performChunk e r ch bs a.2 else a.2)

/-- A run leaves its engine and completes. -/
def finishCpy (e : DieEng) (r : CpyRun) (failed : Option Nat) (cancelled : Bool) (s : State) : State :=
  completeCpy e r.cmd r.bar r.chunk r.written r.err (if r.err = 0 then r.refetched % 2 ^ 16 * 2 ^ 16 + r.replicas % 2 ^ 16 else r.detail) failed cancelled
    (forgetRequests (partOf s r.cmd.who) r.cmd.seq (setCpy e { getCpy s e with runs := (getCpy s e).runs.filter fun x => x.cmd.seq != r.cmd.seq } s))

/-- Whether a fetched chunk of a cancelled copy can never leave, because its partition's egress is stopped for good: it is then not
written and the copy ends without it (R378 steps 1 and 3). -/
def chunkHeld (s : State) (r : CpyRun) : Bool :=
  r.cancelling && (getPart s (partOf s r.cmd.who)).noEgress &&
    match r.fetched with
    | none => false
    | some ch => r.port.isSome || match resolveAll s r.cmd.who pteWrite (chunkDests r.cmd r.chunk ch.bytes.length) with
      | .ok bs => bs.any fun b => physHost b.pa
      | .error _ => false

/-- A queued copy starts and makes its start checks. (R260) -/
def fireCopyStart (e : DieEng) (s : State) : Option State :=
  let m := getCpy s e
  match m.queue.find? fun c => mayStart s c.who with
  | none => none
  | some c =>
    if c.entered + 2 ≤ (nominal s) ∧ m.runs.length < 4 ∧ !rangeWaits s c.who (param c.par 0x0E, 16) then
      some (startCpy e c (setCpy e { m with queue := m.queue.filter fun x => x.seq != c.seq } s))
    else none
/-- `COPY_START`, R260. -/
def execCopyStart (e : DieEng) (s : State) : Host.Outcome State Fault Refusal := eventStep (e.wfN 8) (fireCopyStart e s) s

/-- A copy chunk's source read completes, with refetch and replica on media or decode failure. (R261) -/
def fireChunkFetch (e : DieEng) (id : Nat) (transient : Bool) (s : State) : Option State :=
  match findCpy s e id with
  | none => none
  | some r =>
    let c := r.cmd
    if r.err = 0 ∧ r.fetched.isNone ∧ !r.cancelling ∧ r.chunk < cpyChunks c.par ∧ !savesNode s c.who
        ∧ !((chunkSources c (param c.par 0) r.chunk ++ chunkSources c (param c.par 2) r.chunk).any (rangeWaits s c.who)) then
      some (fetchChunk e r transient s)
    else none
/-- `CHUNK_FETCH`, R261. -/
def execChunkFetch (e : DieEng) (id : Nat) (transient : Bool) (s : State) : Host.Outcome State Fault Refusal := eventStep (e.wfN 8) (fireChunkFetch e id transient s) s

/-- A chunk's writes are performed and its bytes are subtracted from the barrier. (R262) -/
def fireChunkWrite (e : DieEng) (id : Nat) (s : State) : Option State :=
  match findCpy s e id with
  | none => none
  | some r => match r.fetched with
    | none => none
    | some ch =>
      if r.err = 0 ∧ !((chunkDests r.cmd r.chunk ch.bytes.length).any fun x => r.port.isNone && rangeWaits s r.cmd.who x) then writeOut e r ch s else none
/-- `CHUNK_WRITE`, R262. -/
def execChunkWrite (e : DieEng) (id : Nat) (s : State) : Host.Outcome State Fault Refusal := eventStep (e.wfN 8) (fireChunkWrite e id s) s

/-- A copy completes as finished, failed or cancelled, settling its barrier and token. (R262) -/
def fireCopyComplete (e : DieEng) (id : Nat) (s : State) : Option State :=
  match findCpy s e id with
  | none => none
  | some r =>
    if r.err ≠ 0 then some (finishCpy e r (some r.chunk) false s)
    else if r.fetched.isSome && !chunkHeld s r then none
    else if r.cancelling then some (finishCpy e r none true s)
    else if r.chunk = cpyChunks r.cmd.par then some (finishCpy e r none false s)
    else none
/-- `COPY_COMPLETE`, R262. -/
def execCopyComplete (e : DieEng) (id : Nat) (s : State) : Host.Outcome State Fault Refusal := eventStep (e.wfN 8) (fireCopyComplete e id s) s

end Sys2Proof.Machine
end

