-- ==== Sys2Proof/Machine/GlzEvents.lean ====
section
/-! DEFINITION. The glaze engine at work (R266 to R275, R310). -/

namespace Sys2Proof.Machine

open Sys2Proof.Fp

/-! ## Checks at start (R268) -/

/-- Bits a parameter may hold (R267). -/
def glzMasks : List Nat :=
  [0xF, 0xFFFF, 0x3F, 0x3, 0xFFFFFFFFFFFFFFFF, 0x3FFFFF, 0xF, 0xFFFF, 0x3FFFFF, 0x1000F, 0x3FFFFF, 0x1F, 0x7, 0x3FFFFF, 0xFFFFFFFF, 0xFFFF]
def glzSrcSize (par : List Dword) : Nat := if glzSfmt par = 1 then 4 else if glzSfmt par = 2 then 2 else 1
/-- Whether CMASK names the command's own member as a contributor. -/
def glzInMask (par : List Dword) : Bool :=
  if param par 4 = 0 then (glzForm par != 0 || glzSelf par == 0) else bit (param par 4) (glzSelf par)
def oneBit (n : Nat) : Bool := ((List.range 64).filter (bit n)).length == 1
/-- The fields of a member entry (R266). -/
def memberPeer (m : Nat) : Nat := bits m 31 16
def memberEng (m : Nat) : DieEng := ⟨bits m 6 4, m % 2⟩
def memberHere (m : Nat) : Bool := memberPeer m == 0xFFFF

/-- The checks of parameters. -/
def glzParCheck (s : State) (c : GlzCmd) : Option (Nat × Nat) :=
  let p := c.par
  let n := glzNblk p
  match (List.range 16).find? (reservedSet p glzMasks) with
  | some i => some (1, i)
  | none => firstCheck [
      (glzForm p != 3, 1, 3), ([1, 2, 4, 5].contains (glzSfmt p), 1, 6), ([1, 2].contains (bits (param p 9) 3 0), 1, 9),
      (decide (bits (param p 0x0B) 4 0 ≤ glzPlanes p), 1, 0x0B),
      ((glzForm p != 0 || param p 4 == 0 || oneBit (param p 4)) && glzInMask p == c.kind.contributes, 1, 4),
      (n != 0, 3, 7), (glzSrc p % 16 == 0 && (!c.kind.contributes || inSpad (glzSrc p) (128 * n * glzSrcSize p)), 3, 5),
      (glzDst p % 16 == 0 && (!c.kind.receives || inSpad (glzDst p) (128 * glzDsize p * glzBlocks s c)), 3, 8),
      (glzPcnt p % 8 == 0 && (!c.kind.receives || inSpad (glzPcnt p) (glzBlocks s c)), 3, 0x0A),
      (param p 0x0D == 0 || barOk (param p 0x0D), 3, 0x0D)]
/-- The checks of the group and of collectives still open on the engine. -/
def glzGroupCheck (s : State) (e : DieEng) (c : GlzCmd) : Option (Nat × Nat) :=
  let self := glzSelf c.par
  match (glzMembers s c)[self]? with
  | none => some (5, self)
  | some m =>
    if !memberHere m ∨ memberEng m ≠ e then some (5, self)
    else if (getGlz s e).runs.any (fun r => partOf s r.cmd.who == partOf s c.who && glzGroup r.cmd.par == glzGroup c.par && glzTag r.cmd.par == glzTag c.par)
    then some (0x10, glzTag c.par)
    else none
/-- Ports to the members on other packages (R310). -/
def glzPorts (s : State) (c : GlzCmd) : Except (Nat × Nat) (List (Nat × Nat × Nat)) :=
  (glzMembers s c).zipIdx.foldl (fun (a : Except (Nat × Nat) (List (Nat × Nat × Nat))) x => match a with
    | .error k => .error k
    | .ok l => if memberHere x.1 then .ok l
      else match choosePort s (partOf s c.who) (memberPeer x.1) with
        | .error k => .error k
        | .ok i => .ok (l ++ [(x.2, i)])) (.ok [])
def glzCheck (s : State) (e : DieEng) (c : GlzCmd) : Except (Nat × Nat) (List (Nat × Nat × Nat)) :=
  match glzParCheck s c with
  | some x => .error x
  | none => match glzGroupCheck s e c with
    | some x => .error x
    | none => glzPorts s c

/-- A receive pays every block that has not been paid, at a failure that writes nothing (R268). -/
def payRest (c : GlzCmd) (bs : List GlzBlock) (fl : BarFlags) (s : State) : State := (bs.zipIdx.filter fun b => !b.1.paid).foldl (fun s b => payBlock c b.2 fl s) s
/-- The blocks of a command that has not begun: those cancelled beforehand are paid (R275). -/
def freshBlocks (s : State) (c : GlzCmd) (per : Nat) : List GlzBlock :=
  if c.kind.receives then
    (List.range (glzBlocks s c)).map fun k => ⟨List.replicate per 0, if c.pre.contains k then 0x40 else 0, c.pre.contains k, false⟩
  else []

/-- The collective a command of a member registers with: one of its name that is not matched and lacks the member. -/
def findColl (s : State) (part group tag self : Nat) : Option Nat :=
  s.colls.findIdx? fun k => !k.matched && k.part == part && k.group == group && k.tag == tag && !k.reg.any (fun x => x.1 == self)
def registerColl (c : GlzCmd) (s : State) : State :=
  let part := partOf s c.who
  match findColl s part (glzGroup c.par) (glzTag c.par) (glzSelf c.par) with
  | some i => { s with colls := s.colls.modify i fun k => { k with reg := k.reg ++ [(glzSelf c.par, c.seq)] } }
  | none => { s with colls := s.colls ++ [⟨part, glzGroup c.par, glzTag c.par, [(glzSelf c.par, c.seq)], false, [], 0, [], [], []⟩] }

/-- A glaze command starts and registers, or fails and completes in its start cycle (R268). -/
def startGlz (e : DieEng) (c : GlzCmd) (s : State) : State :=
  match glzCheck s e c with
  | .error x =>
    let s1 := if c.kind.receives then payRest c (freshBlocks s c 0) ⟨false, false, true⟩ s else s
    keepCounters c ((freshBlocks s c 0).map GlzBlock.counter) (completeGlz e c x.1 x.2 (!c.pre.isEmpty) false false s1)
  | .ok ports =>
    let per := if glzForm c.par = 1 then 1 else (glzCons s c).length
    registerColl c (setGlz e { getGlz s e with
      runs := (getGlz s e).runs ++ [⟨c, (nominal s), false, ports, freshBlocks s c per, 0, 0, !c.pre.isEmpty, false, [], false⟩] } s)

/-! ## Matching (R268) -/

/-- A started glaze command of an engine or of a saved node, with its engine, by its issue event. -/
def allGlzRuns (s : State) : List (DieEng × GlzRun) :=
  (s.glz.flatMap fun (e, g) => g.runs.map fun r => (e, r)) ++ s.nodes.flatMap fun d => match d.saved with | some v => v.paused | none => []
def glzRunOf (s : State) (cmd : Nat) : Option (DieEng × GlzRun) := (allGlzRuns s).find? fun x => x.2.cmd.seq == cmd
def updGlz (r : GlzRun) (s : State) : State := mapGlzRuns (fun x => if x.cmd.seq = r.cmd.seq then r else x) s
def dropGlz (cmd : Nat) (s : State) : State :=
  { s with
    glz := s.glz.map fun (e, g) => (e, { g with runs := g.runs.filter fun r => r.cmd.seq != cmd }),
    nodes := s.nodes.map fun d => { d with saved := d.saved.map fun v => { v with paused := v.paused.filter fun x => x.2.cmd.seq != cmd } },
    colls := (s.colls.map fun k => { k with reg := k.reg.filter fun x => x.2 != cmd }).filter fun k => !k.reg.isEmpty }
def collOf (s : State) (cmd : Nat) : Option Coll := s.colls.find? fun k => k.reg.any fun x => x.2 == cmd

/-- Members of a collective's group. -/
def collMembers (s : State) (k : Coll) : List Nat := (assoc k.group (getPart s k.part).groups).getD []
def collRuns (s : State) (k : Coll) : List (DieEng × GlzRun) := k.reg.filterMap fun x => glzRunOf s x.2
/-- Whether every member of this package has registered. -/
def collFull (s : State) (k : Coll) : Bool := (collMembers s k).zipIdx.all fun (m, i) => !memberHere m || k.reg.any fun x => x.1 == i
/-- Whether the registered commands agree. -/
def collAgrees (s : State) (k : Coll) : Bool :=
  let rs := (collRuns s k).map (·.2.cmd)
  match rs with
  | [] => true
  | c :: r =>
    (r.all fun d => glzForm d.par == glzForm c.par && glzCons s d == glzCons s c && glzNblk d.par == glzNblk c.par)
      && (match rs.filter fun d => d.kind.contributes with
        | [] => true
        | d :: t => t.all fun x => glzPlanes x.par == glzPlanes d.par)
/-- A started command ends (R273): its counters stay readable, and its place in the collective and at the buckets is given up. -/
def endGlz (e : DieEng) (r : GlzRun) (s : State) : State :=
  keepCounters r.cmd (r.blocks.map GlzBlock.counter)
    (completeGlz e r.cmd r.err r.detail r.cancelled r.aborted (r.blocks.any (·.poisoned)) (dropGlz r.cmd.seq (forgetRequests (partOf s r.cmd.who) r.cmd.seq s)))
/-- A disagreement, or a peer that does not accept the traffic, fails a member (R268, R310): its blocks are paid with the error flag, and
nothing is written. -/
def disagree (err : Nat) (s : State) (x : DieEng × GlzRun) : State :=
  endGlz x.1 { x.2 with err := err, detail := if err = 5 then glzSelf x.2.cmd.par else glzTag x.2.cmd.par, blocks := x.2.blocks.map fun b => { b with paid := true } }
    (payRest x.2.cmd x.2.blocks ⟨false, false, true⟩ s)
/-- A block of a member on another package, cut to what an encoding can hold. -/
def peerEnc (m n : Nat) : GlzEnc :=
  let b := Config.peerBlock n
  ⟨b.1 % 256, (List.range 128).map fun i => toSigned m (wrapInt m (b.2.1.getD i 0)), b.2.2⟩
/-- A collective is matched; what members on other packages contribute is theirs. -/
def matchColl (i : Nat) (k : Coll) (s : State) : State :=
  let rs := collRuns s k
  match rs with
  | [] => s
  | x :: _ =>
    let cons := glzCons s x.2.cmd
    let m := match rs.find? fun y => y.2.cmd.kind.contributes with | some y => glzPlanes y.2.cmd.par | none => glzPlanes x.2.cmd.par
    let n := glzNblk x.2.cmd.par
    let far := cons.filter fun j => !memberHere ((collMembers s k).getD j 0xFFFF0000)
    let enc := far.zipIdx.map fun (j, q) => (j, (List.range n).map fun b => peerEnc m (s.free + q * n + b))
    let cut := rs.any fun y => y.2.blocks.any fun b => b.flag == 0x40
    let s1 := { s with
      free := s.free + far.length * n,
      colls := s.colls.modify i fun k => { k with matched := true, cons := cons, planes := m, enc := enc, sent := far.map fun j => (j, m) } }
    mapGlzRuns (fun r => if k.reg.any (fun y => y.2 == r.cmd.seq) then
      { r with matched := true, cancelled := r.cancelled || (cut && r.cmd.kind.contributes) } else r) s1

/-! ## The plane encoding (R269) -/

/-- The elements of a block, widened to FP32. -/
def widenSrc (fmt : Nat) (bs : List Byte) : Word32 :=
  if fmt = 1 then BitVec.ofNat 32 (ofBytes bs) else widen (if fmt = 2 then bf16 else if fmt = 4 then e4m3 else e5m2) (ofBytes bs)
/-- Clamps to M bits of two's complement. -/
def satM (m : Nat) (z : Int) : Int := if z < -(2 ^ (m - 1) : Nat) then -(2 ^ (m - 1) : Nat) else if ((2 ^ (m - 1) : Nat) : Int) ≤ z then (2 ^ (m - 1) : Nat) - 1 else z
/-- The encoding of 128 widened elements. -/
def encodeBlock (m : Nat) (xs : List Word32) (bad : Bool) : GlzEnc :=
  if xs.any (fun x => isNan32 x || isInf32 x) then ⟨0xFF, xs.map fun _ => 0, bad⟩
  else
    let E := (xs.map fun x => bits x.toNat 30 23).foldl max 0
    ⟨E, xs.map fun x => match dec32 x with
      | .fin n d => satM m (toInt .rne n (d.scale (-((E : Int) - 127 - m + 2)))).1
      | _ => 0, bad⟩
/-- A contributor reads and encodes its blocks. -/
def encodeAll (c : GlzCmd) (s : State) : List GlzEnc × State :=
  let w := glzSrcSize c.par
  let m := glzPlanes c.par
  (List.range (glzNblk c.par)).foldl (fun (a : List GlzEnc × State) k =>
    let as := (List.range (128 * w)).map fun i => physSpad c.who.clId (glzSrc c.par + 128 * w * k + i)
    let r := engineRead (glzReader c) none as a.2
    let xs := (List.range 128).map fun i => widenSrc (glzSfmt c.par) ((r.1.drop (w * i)).take w)
    (a.1 ++ [encodeBlock m xs (as.any (byteBad a.2))], r.2)) ([], s)
/-- Plane `q` from the top of a block, bit `i` of element `i` (R269). -/
def planeBytes (m q : Nat) (b : GlzEnc) : List Byte := P4.packBits 16 (b.man.map fun z => bit (wrapInt m z) (m - 1 - q))

def sentOf (k : Coll) (j : Nat) : Nat := (assoc j k.sent).getD 0
/-- The blocks of a round that go over a port: all but those that every member behind the port has cancelled (R275). -/
def roundBlocks (r : GlzRun) (k : Coll) (p : Nat) : List Nat :=
  let behind := (r.ports.filter fun x => x.2.1 == p).map (·.1)
  (List.range (glzNblk r.cmd.par)).filter fun b => !behind.all fun m => k.cut.contains (m, b)
/-- Bytes of a round over a port. -/
def roundBytes (r : GlzRun) (k : Coll) (q p : Nat) : Nat := (roundBlocks r k p).length * (if q = 0 then 17 else 16)
/-- A contributor sends one round of its blocks. -/
def sendRound (r : GlzRun) (k : Coll) (s : State) : State :=
  let self := glzSelf r.cmd.par
  let x : List GlzEnc × State := match assoc self k.enc with
    | some e => (e, s)
    | none => encodeAll r.cmd s
  let q := sentOf k self
  let r1 := match x.1.findIdx? (·.poisoned) with
    | some b => if r.err = 0 then { r with err := 9, detail := b } else r
    | none => r
  let data : Nat → List Byte := fun p => (roundBlocks r k p).flatMap fun i => match x.1[i]? with
    | some b => (if q = 0 then [BitVec.ofNat 8 b.exp] else []) ++ planeBytes k.planes q b
    | none => []
  let s1 := { x.2 with
    colls := x.2.colls.map fun y =>
      if y.reg.any (fun z => z.2 == r.cmd.seq) then { y with enc := assocSet self x.1 y.enc, sent := assocSet self (q + 1) y.sent } else y }
  updGlz r1 ((r.ports.map (·.2.1)).eraseDups.foldl (fun s p => setDurable r.cmd.who (sendFlits p (flitsOf (data p).length (data p)) s)) s1)
/-- Asks the buckets of the ports a round leaves through, one after the other. -/
def askPorts (r : GlzRun) (k : Coll) (q : Nat) : List Nat → State → Bool × State
  | [], s => (true, s)
  | p :: ps, s =>
    let a := askBucket (partOf s r.cmd.who) p ⟨r.cmd.seq, r.cmd.who, roundBytes r k q p, false, [], true, false⟩ s
    if a.1 then
      let z := askPorts r k q ps a.2
      if z.1 then z
      else
        let part := partOf s r.cmd.who
        (false, setBucket part p { bucketOf z.2 part p with granted := (bucketOf z.2 part p).granted ++ [r.cmd.seq] } z.2)
    else a

/-! ## Receiving (R270 to R273) -/

/-- The contributors of a destination block, as positions among the contributors. -/
def blockCons (c : GlzCmd) (k : Coll) (b : Nat) : List Nat := if glzForm c.par = 1 then [b / glzNblk c.par] else List.range k.cons.length
/-- The encodings a destination block is made of. -/
def blockEncs (c : GlzCmd) (k : Coll) (b : Nat) : List GlzEnc :=
  (blockCons c k b).filterMap fun j => ((assoc (k.cons.getD j 0) k.enc).getD [])[if glzForm c.par = 1 then b % glzNblk c.par else b]?
/-- The written value of element `i` at count `p` (R271): none for the NaN. -/
def prefixValue (centred : Bool) (m p : Nat) (es : List GlzEnc) (i : Nat) : Option Dy :=
  if es.any (fun e => e.exp == 0xFF) then none
  else
    let v := es.foldl (fun (a : Dy) e =>
      let z := e.man.getD i 0
      a.add ⟨z - z % (2 ^ (m - p) : Nat), (e.exp : Int) - 127 - m + 2⟩) ⟨0, 0⟩
    let w := if p < m then es.foldl (fun (a : Dy) e => a.add ⟨1, (e.exp : Int) - 125 - p⟩) ⟨0, 0⟩ else ⟨0, 0⟩
    some (if centred then v.add (w.scale (-1)) else v)
/-- An element's bytes. -/
def prefixBytes (dsize : Nat) (v : Option Dy) : List Byte :=
  let f := if dsize = 2 then bf16 else fp32
  toBytes dsize (match v with | none => f.nanBits | some d => (packDy f .rne false d).bits)
/-- Step 1 of R272. -/
def writeBlock (c : GlzCmd) (k : Coll) (b : Nat) (blk : GlzBlock) (s : State) : State :=
  let es := blockEncs c k b
  let at0 := glzDst c.par + 128 * glzDsize c.par * b
  let bytes := (List.range 128).flatMap fun i => prefixBytes (glzDsize c.par) (prefixValue (glzCentred c.par) k.planes blk.count es i)
  let cells := bytes.zipIdx.map fun (x, i) => ((⟨physSpad c.who.clId (at0 + i), 0⟩ : GByte), x)
  let s1 := engineStore (glzWriter c b) cells s
  if blk.poisoned then markAll (cells.map (·.1.pa)) s1 else s1
/-- A block's counter changes to `blk`: elements, counter, payment (R272, R273). -/
def changeBlock (c : GlzCmd) (k : Option Coll) (b : Nat) (blk : GlzBlock) (owes : Bool) (fl : BarFlags) (s : State) : State :=
  let s1 := match k with
    | some k => if 0 < blk.count then writeBlock c k b blk s else s
    | none => s
  let s2 := writeCounter c b blk.counter s1
  if owes then payBlock c b { fl with error := fl.error || blk.poisoned } s2 else s2
/-- Blocks that gain a flag by a cancel or an abort. -/
def flagBlocks (r : GlzRun) (k : Option Coll) (sel : Nat → Bool) (flag : Nat) (fl : BarFlags) (s : State) : GlzRun × State :=
  (List.range r.blocks.length).foldl (fun (a : GlzRun × State) b =>
    match a.1.blocks[b]? with
    | none => a
    | some x =>
      if x.flag = 0 ∧ sel b then
        ({ a.1 with blocks := a.1.blocks.set b { x with flag := flag, paid := true } },
         changeBlock r.cmd k b { x with flag := flag } (!x.paid) fl a.2)
      else a) (r, s)

/-- One plane of one block arrives. -/
def receivePlane (r : GlzRun) (k : Coll) (b con : Nat) (x : GlzBlock) (s : State) : State :=
  let m := k.planes
  let pos := if glzForm r.cmd.par = 1 then 0 else con
  let y0 : GlzBlock := { x with
    planes := x.planes.set pos (x.planes.getD pos 0 + 1), poisoned := x.poisoned || (blockEncs r.cmd k b).any (·.poisoned) }
  let y1 := if y0.count = m then { y0 with flag := 0x20 } else y0
  let star := if bits (param r.cmd.par 0x0B) 4 0 = 0 then m else bits (param r.cmd.par 0x0B) 4 0
  let owes := !x.paid && decide (star ≤ y1.count)
  let y := { y1 with paid := x.paid || owes }
  let r1 := { r with
    blocks := r.blocks.set b y, err := if y.poisoned && r.err == 0 then 9 else r.err, detail := if y.poisoned && r.err == 0 then b else r.detail }
  updGlz r1 (if x.count < y.count then changeBlock r.cmd (some k) b y owes .none s else s)

/-- The sector of the partition's secure LPDDR that holds a block's exact sums (R276); none where the partition has no secure region. -/
def areaSector (s : State) (part cmd b : Nat) : Option Nat :=
  let rs := (getPart s part).regions.filter fun r => r.secure && decide (0 < r.size)
  let n := (rs.map fun r => r.size / 64).sum
  if n = 0 then none
  else
    let pick : Nat → List Region → Nat := fun k rs => (rs.foldl (fun (a : Nat × Option Nat) r =>
      match a.2 with
      | some _ => a
      | none => if a.1 < r.size / 64 then (a.1, some (r.die * 2 ^ 48 + r.base + 64 * a.1)) else (a.1 - r.size / 64, none)) (k, none)).2.getD 0
    some (pick (Config.glazeArea cmd b % n) rs)
/-- What a read of a block's sums meets before another plane is added (R276, R356): error 0x07 or 0x0B, or none. -/
def areaFailure (s : State) (r : GlzRun) (k : Coll) (b : Nat) (x : GlzBlock) : Option Nat :=
  if x.planes.all (· = 0) then none
  else match (areaSector s k.part r.cmd.seq b).bind (markOf s) with
    | some .integrity => some 0x0B
    | some .held => some 0x0B
    | some _ => some 7
    | none => none

/-- Whether a contributor has sent what is wanted: all its rounds, or every receiver has cancelled its blocks (R273). -/
def sentAll (s : State) (k : Coll) (c : GlzCmd) : Bool :=
  let rank := (k.cons.findIdx? (· = glzSelf c.par)).getD 0
  decide (k.planes ≤ sentOf k (glzSelf c.par)) ||
    ((collMembers s k).all memberHere && (collRuns s k).all fun x =>
      !x.2.cmd.kind.receives || (x.2.blocks.zipIdx.all fun (b, i) => !(blockCons x.2.cmd k i).contains rank || b.flag == 0x40))

def findGlz (s : State) (e : DieEng) (id : Nat) : Option GlzRun := (getGlz s e).runs.find? fun r => r.cmd.id == id

/-- A glaze command starts, checks its parameters and registers with every member's engine. (R268) A restored one that waits for one of
the four places goes first (R255, R326). -/
def fireGlazeStart (e : DieEng) (s : State) : Option State :=
  let m := getGlz s e
  match m.runs.find? (·.paused) with
  | some r =>
    if (m.runs.filter fun r => !r.paused).length < 4 ∧ mayStart s r.cmd.who then some (updGlz { r with paused := false } s) else none
  | none => match m.queue.find? fun c => mayStart s c.who with
  | none => none
  | some c =>
    if c.entered + 2 ≤ (nominal s) ∧ m.runs.length < 4 then
      some (startGlz e c (setGlz e { m with queue := m.queue.filter fun x => x.seq != c.seq } s))
    else none
/-- `GLAZE_START`, R268. -/
def execGlazeStart (e : DieEng) (s : State) : Host.Outcome State Fault Refusal := eventStep (e.wfN 2) (fireGlazeStart e s) s

/-- Every member has registered and the collective is matched, or fails on disagreement. (R268) -/
def fireGlazeMatch (k : Nat) (s : State) : Option State :=
  match s.colls[k]? with
  | none => none
  | some x =>
    if x.matched || !collFull s x || (collRuns s x).any (fun y => y.2.aborted) then none
    else
      let far := (collMembers s x).any fun m => !memberHere m
      let reply := if far then Config.peerAnswer s.free % 3 else 0
      let s1 := if far then { s with free := s.free + 1 } else s
      some (if reply = 2 then (collRuns s x).foldl (disagree 5) s1
        else if !collAgrees s x || reply == 1 then (collRuns s x).foldl (disagree 0x10) s1
        else matchColl k x s1)
/-- `GLAZE_MATCH`, R268. -/
def execGlazeMatch (k : Nat) (s : State) : Host.Outcome State Fault Refusal := eventStep true (fireGlazeMatch k s) s

/-- TIMEOUT expires before the match and the collective aborts with 0x0F. (R268) -/
def fireGlazeTimeout (e : DieEng) (id : Nat) (s : State) : Option State :=
  match findGlz s e id with
  | none => none
  | some r =>
    let t := bits (param r.cmd.par 0x0E) 31 0
    if !r.matched ∧ !r.aborted ∧ t ≠ 0 ∧ r.start + t ≤ (nominal s) then some (abortColl r.cmd.seq 0x0F 0 s) else none
/-- `GLAZE_TIMEOUT`, R268. -/
def execGlazeTimeout (e : DieEng) (id : Nat) (s : State) : Host.Outcome State Fault Refusal := eventStep (e.wfN 2) (fireGlazeTimeout e id s) s

/-- A sender transmits one round of planes of every block. (R269) -/
def fireGlazeRoundSend (e : DieEng) (id : Nat) (s : State) : Option State :=
  match findGlz s e id with
  | none => none
  | some r => match collOf s r.cmd.seq with
    | none => none
    | some k =>
      let q := sentOf k (glzSelf r.cmd.par)
      let ps := (r.ports.map (·.2.1)).eraseDups
      if !r.matched ∨ r.aborted ∨ r.paused ∨ !r.cmd.kind.contributes ∨ k.planes ≤ q ∨ savesNode s r.cmd.who then none
      else if !ps.isEmpty ∧ (s.viral ∨ ps.any (fun p => waitsAt s (partOf s r.cmd.who) p r.cmd.seq || !portRoom s p ((roundBytes r k q p + 231) / 232))) then none
      else
        let a := askPorts r k q ps s
        some (if a.1 then sendRound r k a.2 else a.2)
/-- `GLAZE_ROUND_SEND`, R269. -/
def execGlazeRoundSend (e : DieEng) (id : Nat) (s : State) : Host.Outcome State Fault Refusal := eventStep (e.wfN 2) (fireGlazeRoundSend e id s) s

/-- A received plane advances a block's counter, writes elements, counter and any barrier payment. (R272) -/
def fireGlazePlaneReceive (e : DieEng) (id : Nat) (blk : Nat) (con : Nat) (s : State) : Option State :=
  match findGlz s e id with
  | none => none
  | some r => match collOf s r.cmd.seq, r.blocks[blk]? with
    | some k, some x =>
      let pos := if glzForm r.cmd.par = 1 then 0 else con
      let n := x.planes.getD pos 0
      let before := ((List.range blk).filter fun i => (blockCons r.cmd k i).contains con).all fun i => match r.blocks[i]? with
        | some y => y.flag != 0 || decide (n < y.planes.getD pos 0)
        | none => true
      if r.matched ∧ !r.aborted ∧ !r.paused ∧ x.flag = 0 ∧ (blockCons r.cmd k blk).contains con ∧ n < sentOf k (k.cons.getD con 0) ∧ before ∧ !savesNode s r.cmd.who then
        some (match areaFailure s r k blk x with
          | some err => abortColl r.cmd.seq err blk s
          | none => receivePlane r k blk con x s)
      else none
    | _, _ => none
/-- `GLAZE_PLANE_RECEIVE`, R272. -/
def execGlazePlaneReceive (e : DieEng) (id : Nat) (blk : Nat) (con : Nat) (s : State) : Host.Outcome State Fault Refusal := eventStep (e.wfN 2) (fireGlazePlaneReceive e id blk con s) s

/-- Contributors acknowledge a cancel and the named blocks freeze as cancelled. (R275) -/
def fireGlazeCancelAck (e : DieEng) (id : Nat) (s : State) : Option State :=
  match findGlz s e id with
  | none => none
  | some r => match collOf s r.cmd.seq with
    | none => none
    | some k =>
      if r.cancelling.isEmpty ∨ !r.matched ∨ r.aborted then none
      else
        let x := flagBlocks r (some k) (fun b => r.cancelling.contains b) 0x40 ⟨true, false, false⟩ s
        some (mapGlzRuns (fun y => if y.cmd.kind.contributes && k.reg.any (fun z => z.2 == y.cmd.seq) then { y with cancelled := true } else y)
          (updGlz { x.1 with cancelling := [], cancelled := true } x.2))
/-- `GLAZE_CANCEL_ACK`, R275. -/
def execGlazeCancelAck (e : DieEng) (id : Nat) (s : State) : Host.Outcome State Fault Refusal := eventStep (e.wfN 2) (fireGlazeCancelAck e id s) s

/-- An abort message sets aborted in unfinished blocks, pays owed bytes and completes the command. (R275) -/
def fireGlazeAbort (e : DieEng) (id : Nat) (s : State) : Option State :=
  match findGlz s e id with
  | none => none
  | some r =>
    if r.aborted then
      let s1 := abortColl r.cmd.seq r.err r.detail s
      let x := flagBlocks r (collOf s r.cmd.seq) (fun _ => true) 0x80 ⟨false, true, false⟩ s1
      some (endGlz e x.1 x.2)
    else none
/-- `GLAZE_ABORT`, R275. -/
def execGlazeAbort (e : DieEng) (id : Nat) (s : State) : Host.Outcome State Fault Refusal := eventStep (e.wfN 2) (fireGlazeAbort e id s) s

/-- A glaze command completes once all its blocks or receivers are settled. (R273) -/
def fireGlazeComplete (e : DieEng) (id : Nat) (s : State) : Option State :=
  match findGlz s e id with
  | none => none
  | some r => match collOf s r.cmd.seq with
    | none => none
    | some k =>
      if r.matched ∧ !r.aborted ∧ r.cancelling.isEmpty ∧ (r.blocks.all fun b => b.flag != 0) ∧ (!r.cmd.kind.contributes ∨ sentAll s k r.cmd) then
        some (endGlz e r s)
      else none
/-- `GLAZE_COMPLETE`, R273. -/
def execGlazeComplete (e : DieEng) (id : Nat) (s : State) : Host.Outcome State Fault Refusal := eventStep (e.wfN 2) (fireGlazeComplete e id s) s

end Sys2Proof.Machine
end

