-- ==== Sys2Proof/Machine/RtcEvents.lean ====
section
/-! DEFINITION. The retouch engine at work (R332 to R343). -/

namespace Sys2Proof.Machine

open Sys2Proof.Fp

/-! ## Checks at start (R342) -/

/-- Bits a parameter may hold (R336). -/
def rtcMasks : List Nat := [0xFFFFFFFF, 0xFF, 0x1FF, 0x3FFFFF, 0xF, 0x3FFFFF, 0xF, 0x7, 0x3FFFFF]
/-- The translation of TTILE: the fresco address of its slot, or the error. -/
def rtcSlot (s : State) (e : DieEng) (c : RtcCmd) : Except (Nat × Nat) Nat :=
  match frescoEntry s (partOf s c.who) (worldOf s c.who) (rtcTile c) with
  | none => .error (4, rtcTile c)
  | some w =>
    let f := bits w 39 16 * 2 ^ 14
    if f / 2 ^ 35 ≠ e.die ∨ bit w 1 ≠ worldOf s c.who then .error (5, rtcTile c)
    else if !bit w 2 then .error (6, rtcTile c)
    else if rtcFmt c ≠ 0 ∧ Config.tileIsP4 (f / 2 ^ 14) then .error (1, 4)
    else .ok f
/-- The start checks in their order: the slot, or error and detail. -/
def rtcCheck (s : State) (e : DieEng) (c : RtcCmd) : Except (Nat × Nat) Nat :=
  match (List.range 9).find? (reservedSet c.par rtcMasks) with
  | some i => .error (1, i)
  | none => match firstCheck [
      (param c.par 8 == 0 || barOk (param c.par 8), 3, 8), ([0, 2, 4, 5, 6].contains (rtcFmt c), 1, 4),
      (rtcCount c != 0 && decide (rtcFirst c + rtcCount c ≤ 256), 3, 2),
      (rtcSrc c % 16 == 0 && inSpad (rtcSrc c) (64 * rtcCount c), 3, 3),
      (rtcFmt c == 0 || (rtcSmooth c != 0 && rtcSmooth c % 16 == 0 && inSpad (rtcSmooth c) 512), 3, 5)] with
    | some x => .error x
    | none => rtcSlot s e c
/-- A retouch command starts, or fails and completes in its start cycle. -/
def startRtc (e : DieEng) (c : RtcCmd) (s : State) : State :=
  match rtcCheck s e c with
  | .error x => completeRtc e c c.done c.remapped c.iters x.1 x.2 false c.digests (setRtc e { getRtc s e with nextStart := (nominal s) + 1 } s)
  | .ok f => setRtc e { getRtc s e with run := some ⟨c, (nominal s), f, rtcFirst c, none, c.done, c.done, c.remapped, c.iters, c.maxIter, 0, 0, none, false, c.digests⟩ } s

/-! ## A row (R337) -/

/-- Whether another engine holds a row (R339). -/
def rowHeld (s : State) (e : DieEng) (row : Nat) : Bool :=
  s.rtc.any fun (k, m) => k != e && (match m.run with
    | some r => (match r.cur with | some u => u.row == row | none => false)
    | none => false)
def retireRow (r : RowRef) (s : State) : State := { s with retired := r :: s.retired, usedSpares := s.usedSpares.filter (· ≠ r) }
def addWear (r : RowRef) (s : State) : State := { s with wear := assocSet r (min 0xFFFFFF (wearOf s r + 1)) s.wear }
/-- A row is captured; its old contents serve every read until it commits. -/
def captureRow (e : DieEng) (r : RtcRun) (s : State) : State :=
  let row := r.row + r.next
  let phys := r.tile / 64 + row
  let x := rtcLook r.cmd r.next s
  updRtc e { r with cur := some ⟨phys, nominal s, rowSource r.cmd row x.1, servingRow s phys, false, 0, 0, x.1⟩ } x.2

/-- Iterations a row has begun, the one that ends now included. -/
def iterations (r : RtcRun) (u : RowRun) : Nat := rowIters r.cmd u + 1
/-- A verified row takes its new contents; a remap enters the table (R333, R337). -/
def placeRow (row : Nat) (target : RowRef) (took : Bool) (src : List Byte) (s : State) : State :=
  let old := servingRow s row
  let s1 := addWear target s
  let s2 := { s1 with fresco := Memory.sets s1.fresco (64 * row) src, frescoBad := s1.frescoBad.filter (· ≠ row) }
  match target, took with
  | .spare _ n, true =>
    let t := { s2 with remap := assocSet row n s2.remap }
    if isSpare old then { t with usedSpares := t.usedSpares.filter (· ≠ old) } else retireRow old t
  | _, _ => s2
/-- The commit of a verified row (R337), at the end of cycle `c`. -/
def commitRow (e : DieEng) (r : RtcRun) (u : RowRun) (c : Nat) (s : State) : State :=
  let old : RowCommit := ⟨u.row, 3 * (c + 1) * 2 ^ 23, Memory.gets s.fresco (64 * u.row) 64, s.frescoBad.contains u.row⟩
  let s3 := setRtc e { getRtc s e with last := some old } (placeRow u.row u.target u.tookSpare u.src s)
  let next := r.next + 1
  pay r.cmd.who (rtcBar r.cmd) r.cmd.seq 64 .none (updRtc e { r with
    start := c + 1, cur := none, next := next, committed := r.committed + 1, remapped := r.remapped + b2n u.tookSpare,
    lastIter := iterations r u, maxIter := max r.maxIter (u.iter + 1), finish := if next = rtcCount r.cmd then some (c + 2) else none,
    digests := r.digests ++ [Crypto.shake256 u.src 32] } (setDurable r.cmd.who s3))
/-- Whether an iteration that does not verify now ends the command: the last of its loop, after which no spare can be had. -/
def lastChance (r : RtcRun) (u : RowRun) (s : State) : Bool :=
  decide (rtcLimit r.cmd ≤ u.iter + 1) && (u.tookSpare || (freeSpare s (bankOf u.row)).isNone)
/-- An iteration that did not verify (R337); its loop ends in cycle `c`. -/
def failIter (e : DieEng) (r : RtcRun) (u : RowRun) (c : Nat) (s : State) : State :=
  if u.iter + 1 < rtcLimit r.cmd then updRtc e { r with cur := some { u with iter := u.iter + 1 } } s
  else
    let s1 := addWear u.target s
    if u.tookSpare then updRtc e (r.stop 0x11 (c + 2) (iterations r u)) (retireRow u.target s1)
    else match freeSpare s1 (bankOf u.row) with
      | none => updRtc e (r.stop 0x11 (c + 2) (iterations r u)) s1
      | some n => updRtc e { r with cur := some { u with target := .spare (bankOf u.row) n, tookSpare := true, iter := 0, failed := u.failed + 1 } }
          (useSpare (bankOf u.row) n s1)

/-- A retouch run completes (R341). -/
def finishRtc (e : DieEng) (r : RtcRun) (s : State) : State :=
  completeRtc e r.cmd r.committed r.remapped r.lastIter r.err (if r.err = 0 then rtcDetail r.remapped r.maxIter else r.detail)
    r.cancelled r.digests (setRtc e { getRtc s e with run := none, nextStart := (nominal s) } s)

/-- A queued retouch command starts, translates its tile and makes its start checks. (R337) -/
def fireRetouchCommandStart (e : DieEng) (s : State) : Option State :=
  let m := getRtc s e
  match m.run, m.queue.find? fun c => mayStart s c.who with
  | none, some c =>
    if c.entered + 2 ≤ (nominal s) ∧ m.nextStart ≤ (nominal s) then
      some (startRtc e c (setRtc e { m with queue := m.queue.filter fun x => x.seq != c.seq } s))
    else none
  | _, _ => none
/-- `RETOUCH_COMMAND_START`, R337. -/
def execRetouchCommandStart (e : DieEng) (s : State) : Host.Outcome State Fault Refusal := eventStep (e.wfN 4) (fireRetouchCommandStart e s) s

/-- A row starts once no other engine holds it, captures its source and holds the old contents. (R337) -/
def fireRetouchRowStart (e : DieEng) (s : State) : Option State :=
  match (getRtc s e).run with
  | none => none
  | some r =>
    if r.cur.isNone ∧ r.finish.isNone ∧ !r.cancelled ∧ mayStart s r.cmd.who ∧ r.start ≤ (nominal s) ∧ !rowHeld s e (r.tile / 64 + r.row + r.next) then
      some (captureRow e r s)
    else none
/-- `RETOUCH_ROW_START`, R337. -/
def execRetouchRowStart (e : DieEng) (s : State) : Host.Outcome State Fault Refusal := eventStep (e.wfN 4) (fireRetouchRowStart e s) s

/-- A 256-cycle program-and-verify iteration ends, advancing wear, remapping or failing as needed. (R337) A failure is found in the last cycle of
its loop. -/
def fireWriteAndCheckLoop (e : DieEng) (verified : Bool) (s : State) : Option State :=
  match (getRtc s e).run with
  | none => none
  | some r => match r.cur with
    | none => none
    | some u =>
      let c := u.start + 8 + 256 * iterations r u
      if verified then (if c < (nominal s) then some (commitRow e r u c { s with free := s.free + 1 }) else none)
      else if c ≤ (nominal s) + b2n (lastChance r u s) then some (failIter e r u (c - 1) { s with free := s.free + 1 })
      else none
/-- `WRITE_AND_CHECK_LOOP`, R337. -/
def execWriteAndCheckLoop (e : DieEng) (verified : Bool) (s : State) : Host.Outcome State Fault Refusal := eventStep (e.wfN 4) (fireWriteAndCheckLoop e verified s) s

/-- A retouch command completes, settling its barrier, token and provenance log entry. (R341) -/
def fireTwrtComplete (e : DieEng) (s : State) : Option State :=
  match (getRtc s e).run with
  | none => none
  | some r =>
    let due := match r.finish with
      | some f => decide (f ≤ (nominal s))
      | none => r.cancelled && r.cur.isNone && decide (r.start < (nominal s))
    if due then some (finishRtc e r s) else none
/-- `TWRT_COMPLETE`, R341. -/
def execTwrtComplete (e : DieEng) (s : State) : Host.Outcome State Fault Refusal := eventStep (e.wfN 4) (fireTwrtComplete e s) s

end Sys2Proof.Machine
end

