-- ==== Sys2Proof/Machine/Images.lean ====
section
/-! DEFINITION. Program images (R287, R288): layout, checks of the measured loader, and what a placement takes from one. -/

namespace Sys2Proof.Machine

/-- A segment of an image: its index and header, and its body (R287). -/
structure Segment where
  idx : Nat
  hdr : List Byte
  body : List Byte
  deriving DecidableEq, Repr

def Segment.w0 (g : Segment) : Nat := ofBytes (g.hdr.take 8)
def Segment.table (g : Segment) : Nat := bits g.w0 63 48
def Segment.kind (g : Segment) : Nat := bits g.w0 7 0
def Segment.len (g : Segment) : Nat := ofBytes (g.hdr.drop 12)
def Segment.start (g : Segment) : Nat := ofBytes ((g.hdr.drop 8).take 4)
def Segment.core (g : Segment) : Nat := bits g.w0 20 19
def Segment.ctx (g : Segment) : Nat := bits g.w0 18 17
/-- Whether a segment serves logical cluster `i`. -/
def Segment.names (g : Segment) (i : Nat) : Bool := bit g.w0 31 || bits g.w0 25 21 == i

/-- Body bytes of a segment type, none for an invalid type. -/
def bodyBytes (kind len : Nat) : Option Nat :=
  if kind = 1 then some (56 * len) else if kind = 2 ∨ kind = 3 then some (len + 16) else if kind = 4 then some 2064 else none

/-- The segments of an image, none when the layout is broken. -/
def parseSegments : Nat → Nat → List Byte → Option (List Segment)
  | 0, _, rest => if rest.isEmpty then some [] else none
  | k + 1, i, rest =>
    let g : Segment := ⟨i, rest.take 16, []⟩
    match bodyBytes g.kind g.len with
    | none => none
    | some n =>
      if rest.length < 16 + ceilTo 16 n then none
      else match parseSegments k (i + 1) (rest.drop (16 + ceilTo 16 n)) with
        | none => none
        | some r => some ({ g with body := (rest.drop 16).take n } :: r)
def imageTables (bs : List Byte) : Nat := bits (ofBytes (bs.take 8)) 31 16 + 1
def segmentsOf (bs : List Byte) : Option (List Segment) :=
  if bs.length < 64 then none else parseSegments (ofBytes ((bs.drop 8).take 4)) 0 (bs.drop 64)

/-- The data key of an image (R287). -/
def dataKey (key : List Byte) : List Byte := Crypto.shake256 (key ++ [0x4A, 0x44, 0x59, 0x20, 0x49, 0x44, 0x41, 0x54, 0x41]) 32
/-- The plaintext of a data or entry-table segment, none when its tag fails. -/
def openSegment (key : List Byte) (g : Segment) : Option (List Byte) :=
  Crypto.gcmOpen (dataKey key) (toBytes 4 g.idx ++ List.replicate 8 0) g.hdr g.body
/-- Line `j` of a text segment: number, ciphertext, tag. -/
def textLine (g : Segment) (j : Nat) : Nat × List Byte × Nat :=
  (g.start + j, (g.body.drop (48 * j)).take 48, ofBytes ((g.body.drop (48 * g.len + 8 * j)).take 8))
def textLines (g : Segment) : List (Nat × List Byte × Nat) := (List.range g.len).map (textLine g)

/-- Whether two data segments of one entry table overlap in some logical cluster. -/
def segmentsClash (a b : Segment) : Bool :=
  a.idx != b.idx && a.kind == b.kind && (a.kind == 2 || (a.kind == 3 && a.core == b.core && a.ctx == b.ctx)) && a.table == b.table
    && (List.range 32).any (fun i => a.names i && b.names i) && decide (a.start < b.start + b.len) && decide (b.start < a.start + a.len)
/-- Whether a segment lies inside the memory it fills. -/
def segmentFits (g : Segment) : Bool :=
  if g.kind = 1 then decide (g.start + g.len ≤ 16384) else if g.kind = 2 then decide (g.start + g.len ≤ 0x300000)
  else if g.kind = 3 then decide (g.start + g.len ≤ 0x4000) else true
/-- The checks of R288 step 1 and of the layout of R287. -/
def imageOk (bs key : List Byte) : Bool :=
  match segmentsOf bs with
  | none => false
  | some gs =>
    bits (ofBytes (bs.take 8)) 63 32 == 0x00010001
      && gs.all (fun g => segmentFits g && (g.kind == 1 || (openSegment key g).isSome))
      && gs.all (fun g => g.kind != 1 || (textLines g).all fun l => lineTag key l.1 l.2.1 == l.2.2)
      && gs.all (fun a => gs.all fun b => !segmentsClash a b)
      && (List.range (imageTables bs)).all fun t => (gs.filter fun g => g.kind == 4 && g.table == t).length == 1

/-! ## Placement from an image (R288) -/

/-- Text lines of a logical cluster. -/
def clusterText (gs : List Segment) (i : Nat) : List (Nat × List Byte × Nat) := (gs.filter fun g => g.kind == 1 && g.names i).flatMap textLines
/-- Data segments of an entry table for a logical cluster. -/
def clusterData (gs : List Segment) (kind table i : Nat) : List Segment := gs.filter fun g => g.kind == kind && g.table == table && g.names i
/-- The entry word of a context: present and address. -/
def entryOf (tbl : List Byte) (cl core ctx : Nat) : Option Nat :=
  let w := ofBytes ((tbl.drop (4 * (16 * cl + 4 * core + ctx))).take 4)
  if bit w 31 then some (bits w 17 0) else none

/-- Writes the text of a logical cluster into a physical cluster's instruction memory, unless it already holds that text of the image. -/
def loadText (im : Image) (gs : List Segment) (c : ClId) (i : Nat) (s : State) : State :=
  let k := getCl s c
  if k.image = some (im.id, i) then s
  else
    let ls := clusterText gs i
    let s1 := { s with
      mem := ls.foldl (fun m l => Memory.sets m (physImem c (48 * l.1)) l.2.1) (Memory.clear s.mem (physImem c 0) (physImem c 0xC0000)) }
    setCl c { k with image := some (im.id, i), key := im.key, tags := ls.map fun l => (l.1, BitVec.ofNat 64 l.2.2) } s1

end Sys2Proof.Machine
end

