-- ==== Sys2Proof/Machine/Records.lean ====
section
/-! DEFINITION. The records of a cluster image as the swap writes them (R318 to R325): context records, snapshots, engine records, saved
commands and the node header. Where a table leaves the place of a bit open, log entry 29 names the choice. -/

namespace Sys2Proof.Machine

def padTo (n : Nat) (bs : List Byte) : List Byte := (bs ++ List.replicate (n - bs.length) 0).take n
def dwords (ds : List Nat) : List Byte := ds.flatMap (toBytes 8)
/-- A bit field of a dword under construction. -/
def field (v lo w : Nat) : Nat := v % 2 ^ w * 2 ^ lo

/-! ## Values and lane tags -/

def laneTags (x : List Lane) : List Byte := P4.packBits 16 (x.map (·.p))
def maskTags (x : List MLane) : List Byte := P4.packBits 16 (x.map (·.p))
/-- A value of 8, 16 or 512 bytes (R322, R323). -/
def valBytes : Val → List Byte
  | .sc x => toBytes 8 x.v.toNat
  | .vec x => padTo 512 (vecBytes x)
  | .mask x => P4.packBits 16 (x.map (·.v))
/-- The lane tags of a vector or mask, none for a scalar. -/
def valTags : Val → List Byte
  | .sc _ => []
  | .vec x => laneTags x
  | .mask x => maskTags x
def valTag : Val → Bool
  | .sc x => x.p
  | .vec _ => false
  | .mask _ => false
def isScalar : Val → Bool
  | .sc _ => true
  | .vec _ => false
  | .mask _ => false
def Ty.code : Ty → Nat
  | .s => 0
  | .v => 1
  | .m => 2

/-! ## Snapshots (R322, R323) -/

/-- Kind and index of a fixed entry. One that carries flags alone names a special register of index 0xFFFF; a field of ENGSEL that MSEL or CSEL
writes (R53) is a write of ENGSEL. -/
def FlightDst.code : FlightDst → Nat × Nat
  | .main i => (0, i)
  | .oper i => (1, i)
  | .latch u y => (2, u * 8 + b2n y)
  | .special i => (3, i % 0x100)
  | .flags => (3, 0xFFFF)
def fixedEntry (f : Flight) : List Byte :=
  toBytes 8 (field f.land 48 16 + field f.dst.code.1 40 8 + field f.flags.toNat 32 8 + field f.dst.code.2 16 16 + field f.val.ty.code 8 8 + b2n (valTag f.val))
    ++ valBytes f.val ++ valTags f.val
/-- ENGSEL after a write in flight, and the value an entry for it holds: the whole register, as it is after the write (log entry 29). -/
def engselEntry (engsel : Nat) (f : Flight) : Nat × Flight :=
  let v := match f.val with
    | .sc x => x.v.toNat
    | _ => 0
  let put (w : Nat) : Nat × Flight := (w, { f with val := .sc ⟨BitVec.ofNat 64 w, false⟩ })
  match f.dst with
  | .special 0x13 => (v % 256, f)
  | .special 0x113 => put (engsel / 4 * 4 + v % 4)
  | .special 0x213 => put (engsel / 32 * 32 + v % 8 * 4 + engsel % 4)
  | _ => (engsel, f)
/-- The fixed entries of a snapshot in capture order. -/
def fixedEntries (engsel : Nat) (fs : List Flight) : List Byte :=
  (fs.foldl (fun (a : Nat × List Byte) f => let x := engselEntry a.1 f; (x.1, a.2 ++ fixedEntry x.2)) (engsel, [])).2
/-- Kind, index and captured FRM of a landing entry; a walk that has not ended, or whose fault is to be met again, is pending. -/
def landCode (l : Landing) : Nat × Nat × Nat :=
  match l.dst with
  | .latch u => ((match l.data with
      | .walk _ => 3
      | .walkFault _ _ => 3
      | .value _ _ => 0
      | .desc _ _ => 0
      | .integrity _ => 0), u * 8, 0)
  | .pattern k => (1, k, 0)
  | .sketch k frm => (2, k, frm.toNat)
/-- Lane tags and data of a landing entry. -/
def landBody : LandData → List Byte × List Byte
  | .value v _ => (if isScalar v then P4.packBits 16 [valTag v] else valTags v, valBytes v)
  | .desc bs bad => (P4.packBits 16 [bad], bs)
  | .walk va => ([], toBytes 8 va)
  | .walkFault va _ => ([], toBytes 8 va)
  | .integrity va => ([], toBytes 8 va)
def landEntry (l : Landing) : List Byte :=
  let k := landCode l
  toBytes 8 (field l.land 48 16 + field k.1 40 8 + field k.2.1 16 16 + field k.2.2 8 2) ++ padTo 16 (landBody l.data).1 ++ padTo 512 (landBody l.data).2
def portBytes (ps : List Val) : List Byte :=
  ps.flatMap valBytes ++ P4.packBits 8 ((ps.filter isScalar).map valTag) ++ ps.flatMap valTags
/-- Latches x and y of units 6 to 12 hold values of any type. -/
def latchBytes (ls : List Val) : List Byte :=
  (ls.zipIdx.flatMap fun (v, i) =>
    if 12 ≤ i ∧ i < 26 then toBytes 8 v.ty.code ++ padTo 16 (valTags v) ++ padTo 512 (valBytes v) else padTo 8 (valBytes v))
    ++ P4.packBits 8 (ls.map valTag)
/-- A trap snapshot slot or a flight snapshot: 0x9380 bytes. -/
def snapBytes (engsel : Nat) (sn : Snap) : List Byte :=
  let r := sn.redirects.head?
  padTo 0x40 (dwords [field sn.flight.length 0 8 + field sn.landing.length 8 5 + field (b2n r.isSome) 16 1 + field sn.twait 24 8,
      (match r with | some r => field r.target 0 18 + field r.pos 24 2 | none => 0), sn.loopStart, sn.loopCnt, sn.loopEnd])
    ++ padTo 0x1D00 (portBytes sn.ports) ++ padTo 0x1E40 (latchBytes sn.latches) ++ padTo 0x2180 (sn.landing.flatMap landEntry)
    ++ padTo 0x3680 (fixedEntries engsel sn.flight)

/-! ## Context records (R319 to R321) -/

/-- The state code of a context. A context that waits in a FENCE is coded as runnable. -/
def runCode (c : Ctx) : Nat :=
  match c.run with
  | .notStarted => 0
  | .bwait _ _ _ _ _ => 3
  | .retired => 4
  | .halted => 5
  | .runnable => if c.nap = .awake then 1 else 2
  | .fence _ => if c.nap = .awake then 1 else 2
  | .replay _ _ => 1
/-- Special registers 0x00 to 0x14, the read-only ones included. -/
def srWords (now : Nat) (d : Node) (w : CtxId) (c : Ctx) : List Nat :=
  [c.logical * 16 + w.core * 4 + w.ctx, d.idx % 2 ^ 32, c.logical * 2 ^ 8 + w.core * 2 ^ 4 + w.ctx, c.bclk, c.sr.link.toNat, c.loopCnt, c.loopEnd,
   c.sr.frm.toNat, c.sr.fflags.toNat, vquotaWord [] c, c.sr.trapvec, c.sr.trappc, c.sr.trapcause, c.sr.info0.toNat, c.sr.info1.toNat, tokStat c]
  ++ [c.sr.prio, b2n (nodeWorld d), c.sr.mcwin.toNat, c.sr.engsel.toNat, now]
/-- The context header: 32 dwords. The sleep remainder is that of the context as it is saved. -/
def ctxHeader (now : Nat) (d : Node) (w : CtxId) (c : Ctx) : List Byte :=
  padTo 0x100 (dwords ([c.bclk, field (b2n c.wake) 25 1 + field (b2n c.snap.isSome) 24 1 + field (runCode c) 20 4 + field c.pc 0 18,
      (match c.nap with | .till t => t | _ => 0),
      (match c.run with | .bwait _ _ a _ _ => a | _ => 0), (match c.run with | .bwait _ ph _ _ _ => b2n ph | _ => 0),
      (c.tokens.zipIdx.map fun (k, i) => field (b2n k.err) (32 + i) 1 + field k.count (4 * i) 4).sum, c.loopStart, c.parity.toNat]
    ++ srWords now d w c))
/-- Access rank of a resident name: how many resident names were accessed before it. -/
def accessRank (c : Ctx) (n : Nat) : Nat :=
  ((List.range 32).filter fun k => (getV c k).st == .resident && (decide ((getV c k).access < (getV c n).access)
    || ((getV c k).access == (getV c n).access && decide (k < n)))).length
def nameEntry (c : Ctx) (n : Nat) : List Byte :=
  let x := getV c n
  toBytes 4 ((match x.st with | .unwritten => 0 | .resident => 1 | .dropped => 2) + field (b2n (x.st == .resident)) 2 1 + field (b2n x.bound.isSome) 3 1
    + field (x.bound.getD 0) 4 4 + field (if x.st = .resident then accessRank c n else 0) 8 5)
def sketchEntry (k : Sketch) : List Byte := padTo 72 k.bytes ++ padTo 8 (toBytes 1 (b2n k.defined + field k.frm.toNat 1 2 + field (b2n k.poisoned) 3 1))
def patternEntry (p : Pattern) : List Byte := padTo 72 p.bytes ++ padTo 8 (toBytes 1 (b2n p.valid + field (b2n p.poisoned) 1 1))
def pinEntry (pos : Nat) (p : Pin) : List Byte := dwords [p.va % 2 ^ 56, 2 ^ 14 + field p.size 12 2 + field (p.last + 1 - pos) 0 11]
def parBytes (n : Nat) (ps : List (List Dword)) : List Byte := ps.flatMap fun p => padTo (8 * n) (dwords (p.map (·.toNat)))
def reportWords (rs : List Report) : List Byte := padTo 0x40 (dwords (rs.map fun r => match r.last with | some x => x.1.toNat | none => 0))

/-- The parts of a context record with their offsets, at wall cycle `now` of its island. -/
def ctxParts (now : Nat) (d : Node) (w : CtxId) (c : Ctx) : List (Nat × List Byte) :=
  [(0x00000, ctxHeader now d w c),
   (0x00100, c.g.flatMap fun x => toBytes 8 x.v.toNat), (0x00300, c.o.flatMap fun x => toBytes 8 x.v.toNat),
   (0x00380, c.m.flatMap fun x => P4.packBits 16 (x.map (·.v))),
   (0x00400, P4.packBits 8 (c.g.map (·.p)) ++ P4.packBits 2 (c.o.map (·.p)) ++ P4.packBits 1 (c.p.map (·.1) ++ [false] ++ c.p.map (·.2))),
   (0x00410, c.m.flatMap maskTags), (0x00500, c.vo.flatMap vecBytes), (0x01500, c.vo.flatMap laneTags)]
  ++ [(0x01580, (List.range 32).flatMap (nameEntry c)), (0x01600, c.v.flatMap fun x => padTo 16 (laneTags x.val)),
   (0x01800, c.v.flatMap fun x => padTo 512 (vecBytes x.val)), (0x05800, c.sketches.flatMap sketchEntry), (0x05D00, c.pats.flatMap patternEntry),
   (0x05F80, c.pins.flatMap (pinEntry c.bclk)), (0x06080, parBytes 26 c.mexPar), (0x063C0, parBytes 16 c.cpyPar), (0x067C0, parBytes 16 c.glzPar),
   (0x068C0, parBytes 32 c.rtcPar)]
  ++ [(0x06D00, padTo 0x20 (dwords (c.mexLast.map (·.toNat)))), (0x06D20, reportWords c.cpyRep), (0x06D60, reportWords c.glzRep), (0x06DA0, reportWords c.rtcRep),
   (0x06E00, match c.snap with | some sn => snapBytes c.sr.engsel.toNat sn | none => []), (0x10180, snapBytes c.sr.engsel.toNat (snapshot c)),
   (0x19500, P4.packBits 256 ((List.range 2048).map fun i => c.spillPoison.contains (8 * i)))]

/-! ## Engine records and saved commands (R324) -/

def planeWord (p : Plane) : Nat := field p.tile 32 32 + field p.fmt 4 12 + field (b2n p.poisoned) 1 1 + b2n p.loaded
def engRecord (x : SavedEng) : List Byte := padTo 0x100 (dwords [planeWord x.act, planeWord x.sh, x.counter % 2 ^ 16])
/-- The row types of an engine: one bit for each of 512 rows. -/
def rowTypes (x : SavedEng) : List Byte := P4.packBits 64 ((List.range 512).map x.intRows.contains)
/-- A saved command: what orders it, the logical cluster it came from, and its 256 bytes. -/
structure SavedCmd where
  seq : Nat
  i : Nat
  bytes : List Byte
  deriving DecidableEq, Repr
def savedCmd (id kind eng tok seq ord w2 : Nat) (w : CtxId) (par : List Dword) : SavedCmd :=
  ⟨seq, w.cl, padTo 0x20 (dwords [field id 48 16 + field kind 45 3 + field eng 40 3 + field (4 * w.core + w.ctx) 36 4 + field tok 32 3, ord, w2])
    ++ padTo 224 (padTo 208 (dwords (par.map (·.toNat))))⟩
/-- The round a paused glaze command goes on from: the planes its collective has received of its slowest block. -/
def pausedRound (r : GlzRun) : Nat := ((sortBy id (r.blocks.flatMap (·.planes))).head?).getD 0
/-- All commands of an image in their original order, by logical cluster (R324). A paused glaze command's third dword holds its round above
the address of the sums of its first block, in fields whose places the spec does not give (DESIGN CHOICE, log entry 29). -/
def savedCmds (s : State) (v : Saved) (i : Nat) : List SavedCmd :=
  let ms := v.engs.flatMap fun x => x.2.queue.map fun c => savedCmd c.id c.kind.code x.1.eng (bits (param c.par 0x18) 2 0) c.seq c.ord 0 c.who c.par
  let cs := v.copies.map fun x => savedCmd x.2.id 5 x.1 (cpyTok x.2) x.2.seq x.2.ord (field x.2.chunk 40 24 + field x.2.written 0 40) x.2.who x.2.par
  let gs := v.glazes.map fun x => savedCmd x.2.id 6 x.1.eng (glzTok x.2.par) x.2.seq x.2.ord 0 x.2.who x.2.par
  let ps := v.paused.map fun x => savedCmd x.2.cmd.id 6 x.1.eng (glzTok x.2.cmd.par) x.2.cmd.seq x.2.cmd.ord (field (pausedRound x.2) 52 12 + field ((areaSector s (partOf s x.2.cmd.who) x.2.cmd.seq 0).getD 0) 0 52) x.2.cmd.who x.2.cmd.par
  let rs := v.retouches.map fun x => savedCmd x.2.id 7 x.1 (rtcTok x.2) x.2.seq x.2.ord (field x.2.done 0 16) x.2.who x.2.par
  (sortBy SavedCmd.seq (ms ++ cs ++ gs ++ ps ++ rs)).filter fun c => c.i == i

/-! ## The node header (R325) -/

def layoutVersion : Nat := 1
def archRevision : Nat := 1
def nodeHeader (d : Node) (v : Saved) : List Byte :=
  padTo 0x20 (dwords [field d.idx 32 32 + field layoutVersion 16 16 + field archRevision 0 16, d.graph % 2 ^ 56,
      field (b2n (nodeWorld d)) 31 1 + field (b2n (recField d 1 41 41 == 1)) 30 1 + field (b2n !v.paused.isEmpty) 29 1 + field (b2n v.handoffOnly) 28 1
        + field d.attempts 20 8 + field (recField d 1 35 32) 16 4 + field ((v.homes.head?).elim 0 (·.die)) 8 3 + field v.homes.length 0 6])
    ++ padTo 0x20 (v.homes.map fun c => BitVec.ofNat 8 (c.die * 32 + c.cl))

/-- What the swap writes into the image of logical cluster `i` beside scratchpad and accumulators (R318): offsets and bytes. -/
def imageParts (s : State) (d : Node) (v : Saved) (i : Nat) : List (Nat × List Byte) :=
  (v.engs.filter fun x => x.1.cl == i).flatMap (fun x => [(0x408000 + 64 * x.1.eng, rowTypes x.2), (0x410000 + 0x100 * x.1.eng, engRecord x.2)])
  ++ (savedCmds s v i).zipIdx.map (fun (c, k) => (0x410400 + 0x100 * k, c.bytes))
  ++ (if i = 0 then [(0x427000, nodeHeader d v)] else [])
  ++ (v.ctxs.filter fun x => x.1.cl == i).flatMap fun x =>
    x.2.spill.map (fun b => (0x428000 + 0x4000 * (4 * x.1.core + x.1.ctx) + b.1, [b.2]))
    ++ (ctxParts (clk s (v.homes.getD i ⟨0, 0⟩)) d x.1 x.2).map fun y => (0x468000 + 0x19800 * (4 * x.1.core + x.1.ctx) + y.1, y.2)
/-- The records of an image in memory. -/
def writeRecords (s0 : State) (d : Node) (v : Saved) (s : State) : State :=
  { s with mem := (v.homes.zip v.slots).zipIdx.foldl (fun m ((c, k), i) =>
      (imageParts s0 d v i).foldl (fun m y => Memory.sets m (imageBase c k + y.1) y.2) m) s.mem }

end Sys2Proof.Machine
end

