-- ==== Sys2Proof/Machine/Shadow.lean ====
section
/-! DEFINITION. Images of saved nodes as memory (R315 to R318): their slots in the shadow tier, bytes that move between local memories and
images, and images that go to LPDDR under the partition's key (R317, R379). -/

namespace Sys2Proof.Machine

/-! ## Bytes that move -/

/-- Bytes move to other addresses, and with them all that names them: older contents, flips, waits and the barrier words of copies. -/
def moveBytes (f : Nat → Nat) (s : State) : State :=
  let run : Run → Run
    | .bwait w ph a n wk => .bwait (f w) ph a n wk
    | r => r
  { s with
    mem := (s.mem.filter fun x => f x.1 != x.1).foldl (fun m x => Memory.set m (f x.1) x.2) (s.mem.filter fun x => f x.1 == x.1),
    marks := s.marks.map fun x => (f x.1, x.2),
    past := s.past.map (fun p => { p with addr := f p.addr, bar := p.bar.map fun b => (f b.1, b.2) }),
    flips := s.flips.map fun x => (f x.1, x.2),
    ctxs := s.ctxs.map fun x => (x.1, { x.2 with run := run x.2.run }),
    cpy := s.cpy.map fun x => (x.1, { x.2 with runs := x.2.runs.map fun r => { r with bar := r.bar.map f } }) }
/-! ## Local memories -/

/-- Whether an address lies in a cluster's scratchpad or accumulators, its resident area apart (R165, R318). -/
def inLocal (s : State) (acc : Bool) (c : ClId) (a : Nat) : Bool :=
  (isSpad a && physCl a == c && decide (physOff a < residentFrom s c)) || (acc && isAcc a && physCl a == c)
/-- Words at addresses that hold nothing any more have made no flip, and no write is counted to a phase of theirs (R197). -/
def forgetWords (gone : Nat → Bool) (s : State) : State :=
  { s with
    flips := s.flips.filter fun x => !gone x.1,
    past := s.past.map fun p => match p.bar with
      | some b => if gone b.1 then { p with bar := none } else p
      | none => p }
/-- Clears the local bytes and marks of some clusters, resident areas apart; `keepSpad` keeps the scratchpads. -/
def wipeLocal (keepSpad : Bool) (cs : List ClId) (s : State) : State :=
  let gone : Nat → Bool := fun a => cs.any (fun c => inLocal s true c a) && !(keepSpad && isSpad a)
  forgetWords gone { s with
    mem := s.mem.filter fun x => !gone x.1, marks := s.marks.filter fun x => !gone x.1, past := s.past.filter fun p => !gone p.addr }

/-! ## Images (R317, R318) -/

/-- Offsets of the poison bits of accumulator elements and of scratchpad granules. -/
def accPoisonAt : Nat := 0x400000
def spadPoisonAt : Nat := 0x408100
/-- The poison bit of a unit at an offset of an image: its byte's offset and its place there. -/
def poisonBit (off : Nat) : Nat × Nat :=
  if off < 0x300000 then (spadPoisonAt + off / 16 / 8, off / 16 % 8) else (accPoisonAt + (off - 0x300000) / 4 / 8, (off - 0x300000) / 4 % 8)
def putBit (v : Bool) (base off : Nat) (m : List Host.Cell) : List Host.Cell :=
  let p := poisonBit off
  let old := (Memory.get m (base + p.1)).toNat
  Memory.set m (base + p.1) (BitVec.ofNat 8 (old - b2n (bit old p.2) * 2 ^ p.2 + b2n v * 2 ^ p.2))
/-- The image offset of a local byte. -/
def imageOff (a : Nat) : Nat := if isSpad a then physOff a else 0x300000 + physOff a
/-- A cluster's local bytes move into an image; marks become poison bits. `acc` takes the accumulators along. -/
def lift (acc : Bool) (c : ClId) (base : Nat) (s : State) : State :=
  let s1 := moveBytes (fun a => if inLocal s acc c a then base + imageOff a else a) { s with marks := s.marks.filter fun x => !inLocal s acc c x.1 }
  { s1 with mem := (s.marks.filter fun x => inLocal s acc c x.1).foldl (fun m x => putBit true base (imageOff x.1) m) s1.mem }
/-- The local address of an image byte on a cluster, none where the cluster's resident area stands (R165). -/
def localAddr (s : State) (c : ClId) (off : Nat) : Option Nat :=
  if off < residentFrom s c then some (physSpad c off) else if 0x300000 ≤ off ∧ off < 0x400000 then some (physAcc c (off - 0x300000)) else none
/-- Image offsets of the units whose poison bit is set. -/
def poisonedUnits (s : State) (base : Nat) : List Nat :=
  (s.mem.filter fun x => decide (base + accPoisonAt ≤ x.1) && decide (x.1 < base + spadPoisonAt + 0x6000)).flatMap fun x =>
    ((List.range 8).filter fun j => bit x.2.toNat j).filterMap fun j =>
      let k := x.1 - base
      if spadPoisonAt ≤ k then some ((8 * (k - spadPoisonAt) + j) * 16)
      else if k < accPoisonAt + 0x8000 then some (0x300000 + (8 * (k - accPoisonAt) + j) * 4) else none
/-- An image's local bytes move to a cluster, poison bits become marks, and the slot is free. -/
def lower (base : Nat) (c : ClId) (s : State) : State :=
  let bad := (poisonedUnits s base).filterMap (localAddr s c)
  let s1 := moveBytes (fun a => if base ≤ a ∧ a < base + 0x400000 then (localAddr s c (a - base)).getD a else a) s
  bad.foldl (fun s a => setMark a .poison s) (eraseRange base imageBytes s1)

/-! ## Slots (R317) -/

/-- A saved node's image `i`: its base address. -/
def imageAt (v : Saved) (i : Nat) : Nat := imageBase (v.homes.getD i ⟨0, 0⟩) (v.slots.getD i 0)
def setSaved (n : Nat) (v : Saved) (s : State) : State :=
  match getNode s n with
  | some d => setNode n { d with saved := some v } s
  | none => s
def getSaved (s : State) (n : Nat) : Option Saved := (getNode s n).bind (·.saved)
/-- A node's image and the scratchpads saved for its next firing change places (R295). -/
def swapLaid (n : Nat) (s : State) : State :=
  match getNode s n with
  | some d => setNode n { d with saved := d.laid, laid := d.saved } s
  | none => s

/-- An image that stands in place on a cluster goes into its slot, because another node takes the cluster or it starts again (R315). -/
def displace (c : ClId) (s : State) : State :=
  match (getCl s c).keeps with
  | none => s
  | some n =>
    let s1 := setCl c { getCl s c with keeps := none } s
    match getSaved s n with
    | none => s1
    | some v => match v.homes.findIdx? (· = c) with
      | none => s1
      | some i => lift (!v.handoffOnly) c (imageAt v i) s1
/-- The image of a node that is about to start again goes into its slots. -/
def reclaim (n : Nat) (v : Saved) (s : State) : State := v.homes.foldl (fun s c => if (getCl s c).keeps = some n then displace c s else s) s
/-- Clusters go on holding a node's image in place. -/
def keepImage (n : Nat) (cs : List ClId) (s : State) : State := cs.foldl (fun s c => setCl c { getCl s c with keeps := some n } s) s

/-- Image `i` in LPDDR is sealed under the partition's key with a nonce of its own (DESIGN CHOICE, log entry 29). -/
def sealImage (n i : Nat) (s : State) : State :=
  match getNode s n with
  | none => s
  | some d => match d.saved with
    | none => s
    | some v =>
      let nonce := toBytes 12 s.stamp
      let ct := Crypto.gcmSeal (getPart s d.part).sealKey nonce [] (memBytes s (imageAt v i) imageBytes)
      let s1 := setNode n { d with saved := some { v with sealed := assocSet i (nonce ++ ct) v.sealed } } s
      { s1 with mem := Memory.clear s1.mem (imageAt v i) (imageAt v i + imageBytes), stamp := s.stamp + 1 }
/-- Image `i` of a node opened, when it is in LPDDR; none when it does not open. -/
def openImage (n i : Nat) (s : State) : Option State :=
  match getNode s n with
  | none => none
  | some d => match d.saved with
    | none => none
    | some v => match assoc i v.sealed with
      | none => some s
      | some x => match Crypto.gcmOpen (getPart s d.part).sealKey (x.take 12) [] (x.drop 12) with
        | none => none
        | some bs => some (setNode n { d with saved := some { v with sealed := assocDrop i v.sealed } }
            { s with mem := Memory.sets s.mem (imageAt v i) bs })
/-- Image `i` of a node moves to LPDDR. -/
def moveImage (n i slot : Nat) (s : State) : State :=
  match getSaved s n with
  | none => s
  | some v =>
    let c := v.homes.getD i ⟨0, 0⟩
    let s1 := if (getCl s c).keeps = some n then displace c s else s
    let new := imageBase c slot
    let s2 := moveBytes (fun a => if imageAt v i ≤ a ∧ a < imageAt v i + imageBytes then a - imageAt v i + new else a) s1
    sealImage n i (setSaved n { v with slots := v.slots.set i slot } s2)
def moveOut (n i : Nat) (laid : Bool) (s : State) : State :=
  if laid then swapLaid n (moveImage n i (2 * n + 3) (swapLaid n s)) else moveImage n i (2 * n + 2) s
/-- An image in a slot above a cluster: order of the save, node, whether it is laid for a later firing, logical cluster, slot. -/
structure Above where
  order : Nat
  node : Nat
  laid : Bool
  i : Nat
  slot : Nat
  deriving DecidableEq, Repr
/-- The images in the two slots above a cluster. -/
def imagesAbove (s : State) (c : ClId) : List Above :=
  s.nodes.zipIdx.flatMap fun (d, m) => [(d.saved, false), (d.laid, true)].flatMap fun (o, laid) => match o with
    | none => []
    | some v => (v.homes.zip v.slots).zipIdx.filterMap fun ((h, k), i) => if h = c ∧ k < 2 then some ⟨v.order, m, laid, i, k⟩ else none
/-- A free slot above a cluster; where there is none, the oldest image there moves to LPDDR and leaves its slot. -/
def takeSlot (c : ClId) (s : State) : Nat × State :=
  let used := imagesAbove s c
  match [0, 1].find? fun k => !used.any fun x => x.slot == k with
  | some k => (k, s)
  | none => match (sortBy Above.order used).head? with
    | some x => (x.slot, moveOut x.node x.i x.laid s)
    | none => (0, s)
/-- Slots for a save above the clusters of a node, cleared. -/
def takeSlots (n : Nat) (cs : List ClId) (s : State) : State :=
  cs.foldl (fun s c =>
    let x := takeSlot c s
    match getSaved x.2 n with
    | some v => setSaved n { v with slots := v.slots ++ [x.1] } (eraseRange (imageBase c x.1) imageBytes x.2)
    | none => x.2) s
end Sys2Proof.Machine
end

