-- ==== Sys2Proof/Machine/Barista.lean ====
section
/-! DEFINITION. What the barista does (R284 to R296, R311 to R328): checks of records, arming, the choice of clusters, the reset
of a node's clusters, ends of a firing, and the saving and restoring of a node. -/

namespace Sys2Proof.Machine

/-! ## Records (R285, R289, R290) -/

def nodePrio (d : Node) : Nat := recField d 1 35 32
def nodeNeed (d : Node) : Nat := recField d 1 21 16
def nodeAffinity (d : Node) : Nat := recField d 1 31 24
def nodePred (d : Node) : Nat := recField d 1 15 0
def nodeRetry (d : Node) : Nat := recField d 1 39 36
def nodeLockstep (d : Node) : Bool := recField d 1 41 41 == 1
/-- Whether a node's affinity and partition allow a die. -/
def dieAllowed (p : Part) (d : Node) (die : Nat) : Bool := (nodeAffinity d == 0 || bit (nodeAffinity d) die) && p.clusters.any fun c => c.1.die == die
/-- A barrier word of a record through its world's tables (R289). -/
def barrierAt (s : State) (part : Nat) (world : Bool) (va : Nat) : Option Nat :=
  if va % 16 ≠ 0 then none
  else match walk s part world none va with
    | .fault _ => none
    | .leaf e size => if pteRead e && pteWrite e && !pteMulti e && isSpad (pteFrame e) then some (ptePhys e size va) else none
def inputWord (s : State) (d : Node) : Option Nat := barrierAt s d.part (nodeWorld d) (recField d 2 55 0)
def outputWord (s : State) (d : Node) : Option Nat := barrierAt s d.part (nodeWorld d) (recField d 3 55 0)
/-- The phase bit of the word at a physical address. -/
def phaseAt (s : State) (w : Nat) : Bool := bit (memDword s (w + 8)) 56

def findNode (s : State) (part graph idx : Nat) : Option Nat := s.nodes.findIdx? fun d => d.part == part && d.graph == graph && d.idx == idx
def recordMasks : List Nat := [0xFFFFFFFFFFFF, 0x1FFFFF3FFFFF, 0x1FFFFFFFFFFFFFF, 0xFFFFFFFFFFFFFF, 0xFFFFFFFFFF, 0xFFFFFFFFFFFFFF, 0]
/-- The predecessor of a handoff record fits it (R290). -/
def predOk (s : State) (d : Node) : Bool :=
  !recHandoff d || (match findNode s d.part d.graph (nodePred d) with
    | none => false
    | some m => match getNode s m with
      | none => false
      | some q => nodeNeed q == nodeNeed d && nodeWorld q == nodeWorld d && nodeAffinity q == nodeAffinity d)
/-- The barrier words of a record translate (R289). -/
def wordsOk (s : State) (d : Node) : Bool :=
  recField d 2 55 0 != 0 && (inputWord s d).isSome && (recField d 3 55 0 == 0 || (outputWord s d).isSome)
/-- A record is valid (R290). -/
def recordOk (s : State) (d : Node) : Bool :=
  let p := getPart s d.part
  ((d.record.zip recordMasks).all fun (w, m) => w &&& m == w)
    && decide (nodePrio d ≤ 11) && decide (1 ≤ nodeNeed d) && decide (nodeNeed d ≤ 32)
    && (List.range 8).any (dieAllowed p d) && (assoc (nodeWorld d) p.roots).isSome && predOk s d && wordsOk s d

/-- The record at a global address of a partition, in LPDDR (R284). -/
def readRecord (s : State) (part va : Nat) : Option (List Nat) :=
  (graphPhys s part va).map fun a => (List.range 7).map fun i => memDword s (a + 8 * i)

/-! ## Ends of a firing (R291) -/

/-- The update of a node's output barrier; a word that no longer translates leaves a record (R289). -/
def updateOutput (d : Node) (error : Bool) (s : State) : State :=
  if recField d 3 55 0 = 0 then s
  else match outputWord s d with
    | some w => barUpdate w 0 true (recField d 4 39 0) ⟨false, false, error⟩ s
    | none => appendFault ((d.clusters.head?).elim 0 (·.die)) (some d.part)
        (fun q => faultRec q 9 0 0 0 0 0 0 0 d.graph d.idx 0 d.part 0 (nanos s) 0) none s

/-- Contexts on a cluster leave it. -/
def clearCores (cs : List ClId) (s : State) : State :=
  { s with
    ctxs := s.ctxs.filter fun x => !cs.contains x.1.clId, cores := s.cores.filter fun x => !cs.contains x.1.clId }
/-- Every write of a node's contexts becomes visible to all before its output update (R291). -/
def settleNode (n : Nat) (s : State) : State := publish (fun p => isOfNode s n p.who) s
/-- The names of a node's contexts leave memory order: nothing of theirs becomes visible by it. -/
def departNode (n : Nat) (s : State) : State := renameCtxs (fun w => if isOfNode s n w then none else some w) s
/-- The cluster window of a node that leaves its clusters is removed, and the change is logged (R293, R306). -/
def closeWindow (part : Nat) (cs : List ClId) (s : State) : State :=
  if cs.isEmpty then s else logEvent 9 part (toBytes 8 windowBase ++ toBytes 8 (windowBase + 0x8000000)) s
/-- A node's clusters become free, held for a node when one is given. -/
def freeClusters (n : Nat) (held : Option Nat) (s : State) : State :=
  match getNode s n with
  | none => s
  | some d =>
    let cs := d.clusters.filter fun c => (getCl s c).node == some n
    let s1 := clearCores cs (departNode n (closeWindow d.part cs s))
    cs.foldl (fun s c => setCl c { getCl s c with node := none, freeSince := s.cycle, heldFor := held } s) s1

/-! ## Reservations (R295) -/

/-- Clusters held for a node become free, and so does what was saved of them. -/
def dropReservation (n : Nat) (s : State) : State :=
  let s1 := { s with clusters := s.clusters.map fun x =>
    if x.2.heldFor = some n ∧ x.2.node.isNone then (x.1, { x.2 with heldFor := none, freeSince := s.cycle }) else x }
  match getNode s1 n with
  | none => s1
  | some d =>
    let s2 := setNode n { d with handed := [], laid := none } (match d.laid with | some v => dropImages v s1 | none => s1)
    match d.saved with
    | some v => if v.handoffOnly ∧ (d.st = .armed ∨ (d.st = .ready ∧ !d.inherits)) then
        dropImages v (setNode n { d with handed := [], laid := none, saved := none } s2) else s2
    | none => s2
/-- The handoff successor of a node, if its graph has one. -/
def successorOf (s : State) (d : Node) : Option Nat :=
  s.nodes.findIdx? fun q => q.part == d.part && q.graph == d.graph && recHandoff q && nodePred q == d.idx && q.st != .dormant && q.st != .failed
/-- A predecessor that failed hands nothing over: what a firing of its successor that has not been placed would have taken is free. -/
def withdrawHandoff (d : Node) (s : State) : State :=
  match successorOf s d with
  | none => s
  | some m => match getNode s m with
    | none => s
    | some q => if q.st = .armed ∨ (q.st = .ready ∧ !q.inherits) then dropReservation m s else s
/-- A node that is done hands its clusters to its successor, in the place of those of an earlier firing. -/
def handOver (d : Node) (m : Nat) (s : State) : State :=
  let s1 := dropReservation m s
  match getNode s1 m with
  | none => s1
  | some q => setNode m { q with handed := d.clusters } s1

/-- A node fails with a reason: its overlays go, its clusters and those held for it are free, its successors learn of it (R290, R291,
R295). -/
def failNode (n reason : Nat) (s : State) : State :=
  match getNode s n with
  | none => s
  | some d =>
    let s1 := freeClusters n none (settleNode n (discardOverlays n s))
    let s2 := withdrawHandoff d (dropReservation n (match d.saved with | some v => dropImages v s1 | none => s1))
    let d1 := { d with
      st := .failed, reason := reason, stop := .no, saved := none, laid := none, inherits := false, handed := [],
      clusters := if d.st = .placed ∨ d.st = .running ∨ d.st = .killed then [] else d.clusters }
    updateOutput d true (setState n d1 s2)

/-- Arms a node for a phase, or fails it (R289, R290). -/
def armNode (n : Nat) (d : Node) (expected ok : Bool) (s : State) : State :=
  if ok then setState n { d with st := .armed, expected := expected } s else failNode n 4 (setNode n d s)
/-- A mapping change: armed and ready nodes whose input word is lost fail, saved ones too (R289, R290). -/
def recheckInputs (part : Nat) (s : State) : State :=
  (List.range s.nodes.length).foldl (fun s n => match getNode s n with
    | some d => if d.part = part ∧ (d.st = .armed ∨ d.st = .ready) ∧ (inputWord s d).isNone then failNode n 4 s else s
    | none => s) s

/-! ## Choice of clusters (R292, R294, R295, R317) -/

def clusterAwake (s : State) (c : ClId) : Bool := !(getIsland s c.die (islandOf c)).gated
/-- Whether a cluster is free for a node. What is held for its next firing is not, while a saved firing of it is to resume. -/
def clusterFree (s : State) (n : Nat) (c : ClId) : Bool :=
  (getCl s c).node.isNone && ((getCl s c).heldFor.isNone || ((getCl s c).heldFor == some n && (getSaved s n).isNone))
/-- Clusters of a die that may serve a node: its partition's, of its world, in ascending number. -/
def dieClusters (s : State) (d : Node) (die : Nat) : List ClId :=
  (List.range 32).filterMap fun k => if (getPart s d.part).clusters.contains (⟨die, k⟩, nodeWorld d) then some ⟨die, k⟩ else none
def subsetsOf : List Nat → List (List Nat)
  | [] => [[]]
  | x :: r => (subsetsOf r).map (x :: ·) ++ subsetsOf r
/-- `k` clusters on the fewest islands, then the lowest numbers. -/
def pickClusters (k : Nat) (cs : List ClId) : List ClId :=
  let cand := (subsetsOf (List.range 8)).filterMap fun is =>
    let l := (cs.filter fun c => is.contains (islandOf c)).take k
    if l.length = k then some (is.length * 2 ^ 160 + l.foldl (fun a c => a * 32 + c.cl) 0, l) else none
  ((sortBy (·.1) cand).head?).elim [] (·.2)
/-- Free clusters of a die for a node, with the cost of a wake and of an image read over the die network in cycles (R317). -/
def freeChoice (s : State) (n : Nat) (d : Node) (die : Nat) : Option (List ClId × Nat) :=
  let free := (dieClusters s d die).filter (clusterFree s n)
  let k := nodeNeed d
  let far := if d.saved.isSome then 96000 else 0
  if free.length < k then none
  else
    let awake := free.filter (clusterAwake s)
    if k ≤ awake.length then some (pickClusters k awake, far)
    else some (sortBy (·.cl) (awake ++ pickClusters (k - awake.length) (free.filter fun c => !clusterAwake s c)), 14400 + far)

/-- What the barista does for a ready node: places it, or stops others for it. -/
inductive Choice where
  | place (cs : List ClId) (handoff : Bool)
  | stopFor (nodes : List Nat) (reserved : List Nat)
  deriving DecidableEq, Repr

/-- What lower priorities occupy on a die, first to go first: node, whether it is a reservation, clusters. -/
def occupants (s : State) (d : Node) (die : Nat) : List (Nat × Bool × List ClId) :=
  let mine := dieClusters s d die
  let run := s.nodes.zipIdx.filterMap fun (q, m) =>
    let cs := q.clusters.filter mine.contains
    if (q.st = .running ∨ q.st = .placed) ∧ nodePrio q < nodePrio d ∧ q.stop ≠ .exit ∧ q.stop ≠ .kill ∧ !cs.isEmpty then
      some (nodePrio q * 2 ^ 64 + (2 ^ 64 - 1 - q.placedAt), (m, false, cs)) else none
  let held := s.nodes.zipIdx.filterMap fun (q, m) =>
    let cs := mine.filter fun c => (getCl s c).heldFor == some m && (getCl s c).node.isNone
    if nodePrio q < nodePrio d ∧ !cs.isEmpty then some (nodePrio q * 2 ^ 64 + (2 ^ 64 - 1 - q.placedAt), (m, true, cs)) else none
  (sortBy (·.1) (run ++ held)).map (·.2)
/-- Occupants to take, in order, until enough clusters are at hand. -/
def takeUntil (need : Nat) : Nat → List (Nat × Bool × List ClId) → Option (List (Nat × Bool × List ClId))
  | have', [] => if need ≤ have' then some [] else none
  | have', x :: r => if need ≤ have' then some [] else (takeUntil need (have' + x.2.2.length) r).map (x :: ·)
/-- Stopping others on a die, if that yields enough clusters: those not yet told to stop. -/
def stopChoice (s : State) (n : Nat) (d : Node) (die : Nat) : Option Choice :=
  let free := ((dieClusters s d die).filter (clusterFree s n)).length
  let going := (s.nodes.filter fun q => q.stop == .preempt).flatMap fun q => q.clusters.filter (dieClusters s d die).contains
  let rest := (occupants s d die).filter fun x => x.2.1 || (match getNode s x.1 with | some q => q.stop != .preempt | none => false)
  match takeUntil (nodeNeed d) (free + going.length) rest with
  | none => none
  | some [] => some (.stopFor [] [])
  | some l => some (.stopFor ((l.filter fun x => !x.2.1).map (·.1)) ((l.filter fun x => x.2.1).map (·.1)))

/-- Whether start-up has ended on every die that runs, and whether its links are up (R375). -/
def booted (s : State) : Bool := (getDie s 0).started && s.dies.all fun d => !d.started || d.scanned
def linksUp (s : State) : Bool :=
  booted s && (Config.internalEdges.zip s.edges).all fun x => x.2 || !(getDie s x.1.1).started || !(getDie s x.1.2).started
/-- Whether a node runs, or is placed, and has not been told to stop. -/
def stoppable (s : State) (m : Nat) : Bool :=
  match getNode s m with
  | some q => (q.st == .running || q.st == .placed) && q.stop == .no
  | none => false
/-- Whether a cluster of a saved node is available to it (R292, R317): free, or with a node or a reservation of lower priority. -/
def homeAvailable (s : State) (n : Nat) (d : Node) (c : ClId) : Bool :=
  (dieClusters s d c.die).contains c && dieAllowed (getPart s d.part) d c.die && (getDie s c.die).scanned
    && (clusterFree s n c || (match (getCl s c).node with
      | some m => (match getNode s m with
        | some q => decide (nodePrio q < nodePrio d) && (q.st == .running || q.st == .placed) && q.stop != .exit && q.stop != .kill
        | none => false)
      | none => (match ((getCl s c).heldFor).bind (getNode s) with | some q => decide (nodePrio q < nodePrio d) | none => false)))

/-- The barista's decision for a ready node. A saved one goes back to its clusters whenever they are available (R317). -/
def decideNode (s : State) (n : Nat) (d : Node) : Option Choice :=
  let dies := (List.range 8).filter fun k => dieAllowed (getPart s d.part) d k && (getDie s k).scanned
  let home := match d.saved with | some v => v.homes | none => []
  if !linksUp s then none
  else if recHandoff d ∧ d.saved.isNone ∧ !d.handed.isEmpty ∧ d.handed.all (fun c => (getCl s c).heldFor == some n && (getCl s c).node.isNone) then
    some (.place d.handed true)
  else if !home.isEmpty && home.all (homeAvailable s n d) then
    if home.all (clusterFree s n) then some (.place home false)
    else some (.stopFor (((home.filterMap fun c => (getCl s c).node).eraseDups).filter (stoppable s))
      (((home.filter fun c => (getCl s c).node.isNone).filterMap fun c => (getCl s c).heldFor).eraseDups.filter (· ≠ n)))
  else
    let opts := dies.filterMap fun die => (freeChoice s n d die).map fun x => (x.2, x.1)
    match (sortBy (·.1) opts).head? with
    | some x => some (.place x.2 false)
    | none => (dies.filterMap (stopChoice s n d)).head?
/-- Whether one ready node comes before another (R292 step 1). -/
def comesBefore (a b : Node) : Bool :=
  if nodePrio a ≠ nodePrio b then decide (nodePrio b < nodePrio a)
  else if a.readyAt ≠ b.readyAt then decide (a.readyAt < b.readyAt)
  else if a.idx ≠ b.idx then decide (a.idx < b.idx) else decide (a.graph < b.graph)
/-- Whether the barista can do something for a ready node now. -/
def actable (s : State) (n : Nat) (d : Node) : Bool :=
  d.st == .ready && !(getPart s d.part).noFiring && !s.viral &&
    (match decideNode s n d with
      | none => false
      | some (.stopFor [] []) => false
      | some _ => true)

/-! ## Stopping nodes (R311, R312) -/

/-- A running node is told to stop and be saved; a placed one goes back to ready, with its reservation or its image as before (R311). -/
def preemptNode (n : Nat) (s : State) : State :=
  match getNode s n with
  | none => s
  | some d =>
    if d.st = .running ∧ d.stop = .no then mapNodeCtxs n (fun _ c => { c with stopped := true }) (setNode n { d with stop := .preempt } s)
    else if d.st = .placed then
      let back : Bool := d.inherits && d.saved.isNone
      let s1 := freeClusters n (if back then some n else none) s
      setState n { d with st := .ready, clusters := [], handed := if back then d.clusters else d.handed } s1
    else s

/-- Saves the scratchpads of a reservation of a node without a saved image. They stand in place until another node takes a cluster. -/
def layImage (m : Nat) (d : Node) (cs : List ClId) (s : State) : State :=
  let v : Saved := ⟨cs, [], [], [], [], [], [], [], [], true, s.stamp⟩
  let s1 := takeSlots m cs (setNode m { d with saved := some v, handed := [] } { s with stamp := s.stamp + 1 })
  let s2 := cs.foldl (fun s c => setCl c { getCl s c with heldFor := none, freeSince := s.cycle } s) (keepImage m cs s1)
  match getNode s2 m with
  | some d1 => (match d1.saved with | some v1 => writeRecords s2 d1 v1 s2 | none => s2)
  | none => s2
/-- The scratchpads that a reservation holds are saved for its successor (R295): in the image it starts from, or beside it while another firing
of the successor is under way or saved. -/
def saveReserved (m : Nat) (s : State) : State :=
  match getNode s m with
  | none => s
  | some d =>
    let cs := d.handed.filter fun c => (getCl s c).heldFor == some m && (getCl s c).node.isNone
    if cs.length ≠ d.handed.length then dropReservation m s
    else if d.saved.isNone ∧ (d.st = .armed ∨ d.st = .ready) then layImage m d cs s
    else
      let s1 := swapLaid m s
      match getNode s1 m with
      | none => s1
      | some d1 =>
        let s2 := layImage m d1 cs s1
        swapLaid m (match getSaved s2 m with | some v => reclaim m v s2 | none => s2)

/-- A node takes its clusters (R292, R293); gated islands start to wake. A resumed node inherits as before its save (R367). -/
def placeNode (n : Nat) (d : Node) (cs : List ClId) (handoff : Bool) (s : State) : State :=
  let own : ClId → Bool := fun c => (getCl s c).keeps == some n && (match d.saved with | some v => v.homes.contains c | none => false)
  let s0 := cs.foldl (fun s c => if own c then s else displace c s) s
  let s1 := cs.zipIdx.foldl (fun s (c, i) => setCl c { getCl s c with
    node := some n, logical := i, part := some d.part, world := nodeWorld d, heldFor := none } s) s0
  let s2 := cs.foldl (fun s c =>
    let x := getIsland s c.die (islandOf c)
    if x.gated then setIsland c.die (islandOf c) { x with waking := true } s else s) s1
  let s3 := { s2 with stamp := s2.stamp + 1 }
  setState n { d with
    st := .placed, clusters := cs, placedAt := s3.stamp, handed := if handoff then [] else d.handed,
    inherits := handoff || (match d.saved with | some v => v.handoffOnly || d.inherits | none => false) } s3

/-! ## Starting a node (R164, R288, R290) -/

/-- The contexts a cluster starts: those with an entry, none on a checking core (R368). -/
def startCtx (n : Nat) (d : Node) (gs : List Segment) (key tbl : List Byte) (table i : Nat) (who : CtxId) : Ctx :=
  let spill := ((clusterData gs 3 table i).filter fun g => g.core == who.core && g.ctx == who.ctx).foldl
    (fun m g => Memory.sets m g.start ((openSegment key g).getD [])) []
  let entry := if nodeLockstep d && who.core % 2 == 1 then none else entryOf tbl i who.core who.ctx
  { Ctx.start with
    run := if entry.isSome then .runnable else .notStarted, node := some n, logical := i, pc := entry.getD 0, spill := spill }
def clusterCtxs (c : ClId) : List CtxId := (List.range 16).map fun k => ⟨c.die, c.cl, k / 4, k % 4⟩

/-- One cluster of a starting node. -/
def startCluster (n : Nat) (d : Node) (im : Image) (gs : List Segment) (tbl : List Byte) (table : Nat) (s : State) (x : ClId × Nat) : State :=
  let c := x.1
  let s1 := if d.inherits then s else
    { s with mem := (clusterData gs 2 table x.2).foldl (fun m g => Memory.sets m (physSpad c g.start) ((openSegment im.key g).getD [])) s.mem }
  let s2 := loadText im gs c x.2 s1
  let s3 := (List.range 4).foldl (fun s e => setMex ⟨c.die, c.cl, e⟩ Mex.start s) s2
  (clusterCtxs c).foldl (fun s who => setCtx who (startCtx n d gs im.key tbl table x.2 who) s) s3

/-- The image, segments and entry table a record names, or none when one is missing or fails its check (R288). -/
def nodeImage (s : State) (d : Node) : Option (Image × List Segment × List Byte) :=
  let table := recField d 0 47 32
  match (getPart s d.part).images.find? fun i => i.id == recField d 0 31 0 with
  | none => none
  | some im => match segmentsOf im.bytes with
    | none => none
    | some gs =>
      let used := gs.filter fun g => (g.kind == 2 || g.kind == 3) && g.table == table
      match gs.find? fun g => decide (table < imageTables im.bytes) && g.kind == 4 && g.table == table with
      | none => none
      | some g => match openSegment im.key g with
        | none => none
        | some tbl => if used.all fun g => (openSegment im.key g).isSome then some (im, gs, tbl) else none
/-- Whether a scratchpad image names a byte of a resident area (R165). -/
def hitsResident (s : State) (d : Node) (gs : List Segment) : Bool :=
  d.clusters.zipIdx.any fun (c, i) =>
    (clusterData gs 2 (recField d 0 47 32) i).any fun g => decide (0 < g.len) && decide (residentFrom s c < g.start + g.len)
/-- The user palette tables of a node (R86, R290): none when they are marked present and cannot be read. -/
def nodePalettes (s : State) (d : Node) : Option (List Byte) :=
  if recField d 1 44 44 = 0 then some (List.replicate 64 0x7F)
  else
    (List.range 64).foldr (fun i acc => match acc, walk s d.part (nodeWorld d) none (recField d 5 55 0 + i) with
      | some l, .leaf e size =>
        let a := ptePhys e size (recField d 5 55 0 + i)
        if pteRead e && !pteMulti e && (markOf s a).isNone then some (Memory.get s.mem a :: l) else none
      | _, _ => none) (some [])

/-- Whether the node header of an image is one that this package restores (R325): of its own architecture revision. -/
def headerOk (s : State) (v : Saved) : Bool := bits (memDword s (imageAt v 0 + 0x427000)) 15 0 == archRevision
/-- The images of a placed node opened, with their header checked; else whether a tag failed (R325, R328). -/
def openSaved (n : Nat) (d : Node) (s : State) : Except Bool State :=
  match d.saved with
  | none => .ok s
  | some v => match (List.range v.slots.length).foldl (fun (a : Option State) i => a.bind (openImage n i)) (some s) with
    | none => .error true
    | some s1 => if headerOk s1 v then .ok s1 else .error false
/-- The opened images of a placed node move to its clusters, in logical order. -/
def takeBack (d : Node) (s : State) : State :=
  match d.saved with
  | none => s
  | some v => (List.range v.slots.length).foldl (fun s i => lower (imageAt v i) (d.clusters.getD i ⟨0, 0⟩) s) s

/-- What a placed node takes up: its image, segments and entry table, and its palette tables; or the reason it fails with, pre-empted or not
(R290). -/
def placement (s : State) (d : Node) : Except Nat (Image × List Segment × List Byte × List Byte) :=
  match nodeImage s d with
  | none => .error 5
  | some (im, gs, tbl) =>
    if hitsResident s d gs then .error 7
    else match nodePalettes s d with
      | none => .error 8
      | some pal => .ok (im, gs, tbl, pal)
/-- A placed node starts, or fails. -/
def startNode (n : Nat) (d : Node) (s : State) : State :=
  match placement s d with
  | .error r => failNode n r s
  | .ok (im, gs, tbl, pal) =>
    let kept := d.inherits && d.saved.isNone
    let s0 := match d.saved with | some v => reclaim n v s | none => s
    match openSaved n d s0 with
    | .error tag => killImage n tag s
    | .ok s1 =>
      let s2 := takeBack d (wipeLocal kept d.clusters (clearCores d.clusters s1))
      let s3 := d.clusters.zipIdx.foldl (startCluster n d im gs tbl (recField d 0 47 32)) s2
      setState n { d with st := .running, palettes := pal, saved := none, stop := .no, durable := false } { s3 with tally := assocDrop n s3.tally }

/-! ## Ends of an attempt (R71, R121, R290) -/

def startedCtxs (s : State) (n : Nat) : List (CtxId × Ctx) := s.ctxs.filter fun x => x.2.node == some n && x.2.run != .notStarted
def allRetired (s : State) (n : Nat) : Bool := (startedCtxs s n).all fun x => x.2.run == .retired
/-- Committing, done, and armed again for the other phase (R290, R291). Its clusters are held for a handoff successor (R295). -/
def commitNode (n : Nat) (d : Node) (s : State) : State :=
  let s1 := settleNode n (releaseOverlays n (setState n { d with st := .committing } s))
  let s2 := updateOutput d false s1
  let s3 := match successorOf s2 d with
    | some m => freeClusters n (some m) (handOver d m s2)
    | none => freeClusters n none s2
  let d1 := { d with st := .done, firings := (d.firings + 1) % 256, stop := .no, saved := d.laid, laid := none, inherits := false, handed := ((getNode s3 n).map (·.handed)).getD [] }
  let s4 := setState n d1 s3
  armNode n d1 (!d.expected) (wordsOk s4 d1) s4

/-- A killed node whose commands have ended is re-queued or failed (R290). What it staged after its kill is discarded too (R364); it becomes
ready anew, so that it comes after those that were ready before it (R292). A handoff successor keeps its clusters, or its image, unless its
predecessor has handed over for it anew: then it takes that reservation, or what was saved of it (R295, R367; DESIGN CHOICE, log entry
129). -/
def releaseKilled (n : Nat) (d : Node) (s : State) : State :=
  match killVerdict s d with
  | some r => failNode n r s
  | none =>
    let back : Bool := d.inherits && !d.clusters.isEmpty && d.saved.isNone && d.handed.isEmpty && d.laid.isNone
    let s1 := freeClusters n (if back then some n else none) (discardOverlays n s)
    let v := d.saved.or d.laid
    setState n { d with
      saved := v, laid := if d.saved.isSome then d.laid else none,
      st := .ready, attempts := d.attempts + 1, reason := 0, exitSt := 0, stop := .no, clusters := [],
      handed := if back then d.clusters else d.handed, readyAt := s1.stamp, inherits := back || v.isSome,
      freed := d.freed || (d.kill2 && !d.durable), faulted := d.faulted || d.kill2, kill2 := false, durable := false } { s1 with stamp := s1.stamp + 1 }

end Sys2Proof.Machine
end

