-- ==== Sys2Proof/Machine/Swap.lean ====
section
/-! DEFINITION. Saving and restoring a node (R312 to R316, R326 to R328). -/

namespace Sys2Proof.Machine

/-! ## Saving (R313 to R316) -/

def nodeCtx (s : State) (n : Nat) (w : CtxId) : Bool := isOfNode s n w
/-- Whether everything a stopped node has in flight has settled (R313). -/
def quiesced (s : State) (n : Nat) : Bool :=
  let mine := nodeCtx s n
  (startedCtxs s n).all (fun x => (allLandings x.2).all fun l => l.arrived || isWalk l.data)
    && !(s.pours.any fun p => mine p.who) && !(s.cancels.any fun k => mine k.who)
    && !(s.dies.any fun d => d.calls.any fun k => mine k.who)
    && !(s.mex.any fun x => x.2.runs.any fun r => mine r.cmd.who)
    && !(s.cpy.any fun x => x.2.runs.any fun r => mine r.cmd.who && (r.fetched.isSome || r.err != 0 || r.cancelling || r.chunk == cpyChunks r.cmd.par))
    && !(s.glz.any fun x => x.2.runs.any fun r => mine r.cmd.who && (r.aborted || !r.cancelling.isEmpty))
    && !(s.rtc.any fun x => match x.2.run with
      | some r => mine r.cmd.who && (r.cur.isSome || r.finish.isSome || r.cancelled)
      | none => false)

/-- A retouch command with the rows it has committed behind it (R343). -/
def pausedRtc (r : RtcRun) : RtcCmd := { r.cmd with done := r.committed, remapped := r.remapped, digests := r.digests, iters := r.lastIter, maxIter := r.maxIter }
/-- A context of a node under its name while the node is saved, by the clusters the node stood on, and back on its new clusters. -/
def parkWho (n : Nat) (cs : List ClId) (w : CtxId) : CtxId := match cs.findIdx? (· = w.clId) with | some i => parked n i w | none => w
def unparkWho (n : Nat) (cs : List ClId) (w : CtxId) : CtxId :=
  if w.die = 9 + n then (match cs[w.cl]? with | some c => ⟨c.die, c.cl, w.core, w.ctx⟩ | none => departed) else w
/-- The commands of a node leave their engines for its image. -/
def takeCommands (n : Nat) (s : State) : Saved × State :=
  let mine := nodeCtx s n
  let cs := match getNode s n with | some d => d.clusters | none => []
  let w := parkWho n cs
  let engs := cs.zipIdx.flatMap fun (c, i) => (List.range 4).map fun e =>
    let m := getMex s ⟨c.die, c.cl, e⟩
    ((⟨9 + n, i, e⟩ : EngId), (⟨m.act, m.sh, m.intRows, m.counter, m.queue.map fun q => { q with who := w q.who }⟩ : SavedEng))
  let copies := s.cpy.flatMap fun x =>
    (x.2.runs.filter fun r => mine r.cmd.who).map (fun r => (x.1.eng, { r.cmd with who := w r.cmd.who, chunk := r.chunk, written := r.written }))
      ++ (x.2.queue.filter fun c => mine c.who).map fun c => (x.1.eng, { c with who := w c.who })
  let glazes := s.glz.flatMap fun x => (x.2.queue.filter fun c => mine c.who).map fun c => (x.1, { c with who := w c.who })
  let paused := s.glz.flatMap fun x => (x.2.runs.filter fun r => mine r.cmd.who).map fun r => (x.1, { r with cmd := { r.cmd with who := w r.cmd.who } })
  let retouches := s.rtc.flatMap fun x =>
    (match x.2.run with | some r => if mine r.cmd.who then [(x.1.eng, { pausedRtc r with who := w r.cmd.who })] else [] | none => [])
      ++ (x.2.queue.filter fun c => mine c.who).map fun c => (x.1.eng, { c with who := w c.who })
  let leaving := (s.cpy.flatMap fun x => (x.2.runs.map (·.cmd)).filter fun c => mine c.who).map (·.seq) ++ paused.map (·.2.cmd.seq)
  let s0 := leaving.foldl (fun s id => forgetRequests ((getNode s n).elim 0 (·.part)) id s) s
  (⟨cs, [], [], [], engs, copies, glazes, paused, retouches, false, s.stamp⟩,
   { s0 with
     stamp := s.stamp + 1,
     mex := s.mex.map fun x => if cs.contains x.1.clId then (x.1, { x.2 with queue := [] }) else x,
     cpy := s.cpy.map fun x => (x.1, { x.2 with queue := x.2.queue.filter (fun c => !mine c.who), runs := x.2.runs.filter fun r => !mine r.cmd.who }),
     glz := s.glz.map fun x => (x.1, { x.2 with queue := x.2.queue.filter (fun c => !mine c.who), runs := x.2.runs.filter fun r => !mine r.cmd.who }),
     rtc := s.rtc.map fun x => (x.1, { x.2 with
       queue := x.2.queue.filter (fun c => !mine c.who),
       run := match x.2.run with | some r => if mine r.cmd.who then none else some r | none => none }) })

/-- A context as its record holds it at wall cycle `now`: what remains of its sleep, a replay that starts again, a BWAIT that will read its
word again whatever has changed it (R196), and nothing that counts the clock it leaves (R312, R320, R326). -/
def savedCtx (now : Nat) (c : Ctx) : Ctx :=
  let c1 := mapLandings (fun l => { l with since := 0 }) c
  { c1 with
    yieldAt := none, tokens := c.tokens.map fun k => { k with since := 0 },
    nap := match c.nap with
      | .till t => .till (max 1 (t - now))
      | x => x,
    run := match c.run with
      | .replay _ _ => .runnable
      | .bwait w ph a k _ => .bwait w ph a k .waiting
      | r => r }
/-- The swap into the shadow tier (R316): the records are written into the slots above the node's clusters. Until another node takes a
cluster, memory there stands for its part of the image, so that what reaches it from outside reaches the image (R315). -/
def swapOut (n : Nat) (d : Node) (v : Saved) (s : State) : State :=
  let v1 := { v with ctxs := (s.ctxs.filter fun x => x.2.node == some n).map fun x => (parkWho n d.clusters x.1, savedCtx (clk s x.1.clId) x.2) }
  let mine := d.clusters.filter fun c => (getCl s c).node == some n
  let s1 := takeSlots n d.clusters (setSaved n v1 s)
  let s2 := match getSaved s1 n with | some v2 => writeRecords s1 d v2 s1 | none => s1
  let s3 := renameCtxs (fun w => some (if isOfNode s n w then parkWho n d.clusters w else w)) s2
  let s4 := freeClusters n none s3
  setState n { d with st := .ready, stop := .no, clusters := [], saved := getSaved s4 n } (keepImage n mine s4)

/-! ## Clusters without a node -/

/-- A drained cluster (R308): local memories zero, engines and contexts at start, no text and no key. `area` tells whether the resident area
stays (R165). An image that stands in place goes into its slot first. -/
def drainCluster (area : Bool) (c : ClId) (s : State) : State :=
  let s1 := clearCores [c] (wipeLocal false [c] (displace c s))
  let mine : Nat → Bool := fun a => (isSpad a || isAcc a) && physCl a == c && decide (physOff a < 2 ^ 22)
  let s2 := if area then s1 else
    { s1 with mem := s1.mem.filter (fun x => !mine x.1), marks := s1.marks.filter (fun x => !mine x.1) }
  let s3 := { s2 with mex := s2.mex.map fun x => if x.1.clId = c then (x.1, Mex.start) else x }
  setCl c { Cluster.start with
    part := (getCl s c).part, world := (getCl s c).world, resident := (getCl s c).resident, freeSince := s.cycle } s3

/-! ## Access to a saved node's locations (R315) -/

/-- The row type of an accumulator element of an image. -/
def savedIntRow (v : Saved) (i off : Nat) : Bool :=
  v.engs.any fun x => x.1.cl == i && x.1.eng == (off - 0x300000) / 0x40000 && x.2.intRows.contains ((off - 0x300000) % 0x40000 / 0x200)
/-- The new element of an atomic (R184); ACAS writes nothing when the compare fails. -/
def atomicNew (int : Bool) (op : Nat) (old a b : Word32) : Option Word32 :=
  match op with
  | 0 => some (atomAdd int old a)
  | 1 => some (atomMax int old a)
  | 2 => some (atomMin int old a)
  | 3 => some a
  | _ => if old = b then some a else none
/-- Where bytes of logical cluster `i` stand: on the cluster itself as long as no other node has taken it, else in the image. -/
def savedPhys (s : State) (n : Nat) (v : Saved) (i off : Nat) : Nat :=
  let c := v.homes.getD i ⟨0, 0⟩
  if (getCl s c).keeps = some n then (if off < 0x300000 then physSpad c off else physAcc c (off - 0x300000)) else imageAt v i + off
/-- Poison bits that a write to an image takes away: those of units it covers whole, and of accumulator elements it meets (R181, R354). -/
def coverBits (base off n : Nat) (s : State) : State :=
  let unit : Nat → Nat × Nat := fun o => if o < 0x300000 then (o / 16 * 16, 16) else (o / 4 * 4, 4)
  let us := ((List.range n).map fun k => unit (off + k)).eraseDups
  { s with mem := (us.filter fun u => decide (0x300000 ≤ u.1) || (decide (off ≤ u.1) && decide (u.1 + u.2 ≤ off + n))).foldl (fun m u => putBit false base u.1 m) s.mem }
def poisonedAt (s : State) (base off : Nat) : Bool := let p := poisonBit off; bit (Memory.get s.mem (base + p.1)).toNat p.2
/-- Whether a byte of a saved node reads as poisoned. -/
def savedBad (s : State) (n : Nat) (v : Saved) (i off : Nat) : Bool :=
  let a := savedPhys s n v i off
  if a = imageAt v i + off then poisonedAt s (imageAt v i) off else byteBad s a
/-- Bytes read for an access go to who made it: into the entry of the landing buffer whose data has not arrived, or into the fetched chunk. -/
def deliver (who : Asker) (bytes : List Byte) (bad : List Bool) (s : State) : State :=
  match who with
  | .host _ | .other => s
  | .load c k signed => updCtx c (mapLandings fun l =>
      if l.id = k ∧ !l.arrived then { l with data := match l.data with
        | .value (.vec _) p => .value (.vec (lanesOf bytes bad)) p
        | .value _ p => .value (.sc ⟨extendBytes signed bytes, bad.any id⟩) p
        | d => d } else l) s
  | .fetch e id off => setCpy e { getCpy s e with runs := (getCpy s e).runs.map fun r =>
      if r.cmd.seq = id then { r with fetched := r.fetched.map fun ch =>
        { ch with bytes := ch.bytes.take off ++ bytes ++ ch.bytes.drop (off + bytes.length) } } else r } s
/-- A write of bytes to a location of a saved node. -/
def savedWrite (n : Nat) (v : Saved) (i off : Nat) (data : List Byte) (s : State) : State :=
  let a := savedPhys s n v i off
  let s1 := coreWrite outside none (data.zipIdx.map fun (b, k) => (a + k, b)) s
  if a = imageAt v i + off then coverBits (imageAt v i) off data.length s1 else s1
/-- An atomic on an accumulator element of a saved node: a poisoned element stays poisoned under an addition, a maximum or a minimum. -/
def savedAtomic (n : Nat) (v : Saved) (i off op : Nat) (a b : Word32) (s : State) : State :=
  let pa := savedPhys s n v i off
  let old : Word32 := BitVec.ofNat 32 (ofBytes (memBytes s pa 4))
  let inImage : Bool := pa == imageAt v i + off
  let bad := savedBad s n v i off
  match atomicNew (savedIntRow v i off) op old a b with
  | none => bumpSeq s
  | some w =>
    let s1 := savedWrite n v i off (toBytes 4 w.toNat) s
    if bad && decide (op < 3) then
      (if inImage then { s1 with mem := putBit true (imageAt v i) off s1.mem } else setMark pa .poison s1)
    else s1
/-- Address and length of an access, for the node's logical clusters at 0x40_0000 each. -/
def accessRange : Access → Nat × Nat
  | .read a n => (a, n)
  | .write a data => (a, data.length)
  | .status _ => (0, 0)
def savedRange : SavedAccess → Nat × Nat
  | .plain _ acc => accessRange acc
  | .atomic _ a _ _ _ => (a, 4)
  | .update a _ _ _ _ => (a, 16)
/-- Whether an access names locations the image holds: inside one memory of one logical cluster, its resident area apart, of a reservation
the scratchpad alone (R295); an atomic an aligned element, an update an aligned word of scratchpad. -/
def savedFits (s : State) (v : Saved) (acc : SavedAccess) : Bool :=
  let r := (savedRange acc)
  let off := r.1 % 0x400000
  decide (r.1 / 0x400000 < v.slots.length) && decide (0 < r.2)
    && (decide (off + r.2 ≤ residentFrom s (v.homes.getD (r.1 / 0x400000) ⟨0, 0⟩))
      || (!v.handoffOnly && decide (0x300000 ≤ off) && decide (off + r.2 ≤ 0x400000)))
    && (match acc with
      | .plain _ _ => true
      | .atomic _ _ _ _ _ => decide (0x300000 ≤ off) && off % 4 == 0
      | .update _ _ _ _ _ => decide (off < 0x300000) && off % 16 == 0)
/-- One access to a saved node. A read by the host is answered at its port; what another reads, it gets (`deliver`). -/
def savedAccess (n : Nat) (v : Saved) (acc : SavedAccess) (s : State) : State :=
  let i := (savedRange acc).1 / 0x400000
  let off := (savedRange acc).1 % 0x400000
  match acc with
  | .plain who (.read a k) =>
    let bytes := memBytes s (savedPhys s n v i off) k
    match who with
    | .host q => answer q (.bytes a bytes) (bumpSeq s)
    | _ => deliver who bytes ((List.range k).map fun j => savedBad s n v i (off + j)) (bumpSeq s)
  | .plain _ (.write _ data) => savedWrite n v i off data s
  | .plain _ (.status _) => s
  | .atomic who _ op a b =>
    deliver who (memBytes s (savedPhys s n v i off) 4) [savedBad s n v i off] (savedAtomic n v i off op a b s)
  | .update _ add arrive sub fl => barUpdate (savedPhys s n v i off) add arrive sub ⟨bit fl 2, bit fl 1, bit fl 0⟩ s

/-! ## Restoring (R326, R327) -/

/-- A plane reloaded through the fresco map. -/
def reloadPlane (s : State) (part : Nat) (world : Bool) (e : EngId) (p : Plane) : Plane :=
  if !p.loaded then .none
  else
    let slots := (List.range (tileSlots p.fmt)).filterMap fun i => match frescoEntry s part world (p.tile + i) with
      | none => none
      | some w =>
        let f := bits w 39 16 * 2 ^ 14
        if bits f 37 35 = e.die ∧ bits f 34 28 = e.cl * 4 + e.eng ∧ bit w 1 = world then some f else none
    if slots.length ≠ tileSlots p.fmt then .none
    else
      let rows := (List.range (tileBytes p.fmt / 64)).map fun i => slots.getD (64 * i / 16384) 0 / 64 + i % 256
      let bad := rows.find? fun k => s.frescoBad.contains k
      { p with
        image := (List.range (tileSlots p.fmt)).foldl (fun m i =>
          Memory.sets m (16384 * i) (Memory.gets s.fresco (slots.getD i 0) (min 16384 (tileBytes p.fmt - 16384 * i)))) [],
        poisoned := p.poisoned || bad.isSome,
        err := if p.poisoned then p.err else if bad.isSome then 7 else 0,
        detail := if p.poisoned then p.detail else match bad with | some k => 64 * k % 2 ^ 28 | none => 0 }

/-- The global address of a BWAIT in progress. -/
def bwaitGlobal : Run → Option Nat
  | .bwait _ _ word _ _ => if bit word 63 then some (word % 2 ^ 63) else none
  | _ => none
/-- A pin walked again for a node: with what the tables now give, or the fault word. `waits` says that a BWAIT waits on a word it covers, which
must stay in a scratchpad. -/
def rewalkPin (s : State) (part : Nat) (world : Bool) (node : Nat) (waits : Bool) (p : Pin) : Except Nat Pin :=
  match walk s part world (some node) p.va with
  | .fault k => .error k
  | .leaf e size =>
    if waits && !isSpad (pteFrame e) then .error ((4 - size) * 16 + 3) else .ok { p with size := size, pte := BitVec.ofNat 64 e, born := s.stamp }
/-- The pins of a context walked again: those that live, and the lost one with the lowest address (R327). The pin of the word that a BWAIT waits
on lives though the wait began in the last bundle it covers (R196). -/
def repin (s : State) (part : Nat) (world : Bool) (node : Nat) (c : Ctx) : List Pin × Option (Nat × Nat) :=
  let waits : Pin → Bool := fun p => (bwaitGlobal c.run).any fun va => pinFor c (coverFrom c) va == some p
  let walked := (c.pins.filter fun p => decide (c.bclk ≤ p.last) || waits p).map fun p => (p, rewalkPin s part world node (waits p) p)
  let lost := sortBy (·.1) (walked.filterMap fun x => match x.2 with | .error k => some (x.1.va, k) | .ok _ => none)
  (walked.filterMap fun x => match x.2 with | .ok p => some p | .error _ => none, lost.head?)

/-- A wait taken up again: the word is read anew at its new place, and the wait ends only if the phase then differs (R196, R326). A context whose
word no pin covers any more, because the page of its pin has shrunk meanwhile, does not wait (DESIGN CHOICE, log entry 162). -/
def rewait (s : State) (c : Ctx) (cl : ClId) : Run :=
  match c.run with
  | .bwait _ ph word k _ =>
    let w := if bit word 63 then (pinFor c (coverFrom c) (word % 2 ^ 63)).map fun p => ptePhys p.pte.toNat p.size (word % 2 ^ 63)
      else some (physSpad cl word)
    match w with
    | none => .runnable
    | some w =>
      if phaseAt s w = ph then .bwait w ph word (flipsOf s w) .waiting
      else .bwait w ph word k (if k < flipsOf s w then .byFlip (flipsOf s w) else .byStore)
  | r => r

/-- One context resumes on its new cluster. -/
def resumeCtx (n : Nat) (d : Node) (s : State) (x : CtxId × Ctx) : State :=
  let who := unparkWho n d.clusters x.1
  let r := repin s d.part (nodeWorld d) n x.2
  let c := { x.2 with
    stopped := false, pins := r.1, touchLost := (match x.2.touchLost with | some t => some t | none => r.2),
    nap := match x.2.nap with
      | .till t => .till (t + clk s who.clId)
      | y => y }
  setCtx who { c with run := rewait s c who.clId } s
/-- The walks that a context's landing-buffer entries wait for are made as it resumes (R327), unless the page is being retired (R362). -/
def rewalkCtx (who : CtxId) (s : State) : State :=
  (allLandings (getCtx s who)).foldl (fun s l => match l.data with
    | .walk va => if walkWaits s (partOf s who) va then s else endWalk who l va s
    | _ => s) s

/-- A plane of an engine is reloaded; an uncorrectable row that it meets leaves a record (R357). -/
def restorePlane (d : Node) (e : EngId) (p : Plane) (s : State) : Plane × State :=
  let q := reloadPlane s d.part (nodeWorld d) e p
  (q, if q.err = 7 ∧ !p.poisoned then plainRecord e.die 5 2 1 0 0 2 0 0 (some d.part) none s else s)
/-- Saved commands enter their engines again, in the cycle of the resume and ahead of others; a paused glaze command takes a place as one comes free (R255). -/
def putCommands (n : Nat) (d : Node) (v : Saved) (s : State) : State :=
  let w := unparkWho n d.clusters
  let die := (d.clusters.head?).elim 0 (·.die)
  let s1 := v.engs.foldl (fun s (x : EngId × SavedEng) =>
    let c := d.clusters.getD x.1.cl ⟨0, 0⟩
    let e : EngId := ⟨c.die, c.cl, x.1.eng⟩
    let act := restorePlane d e x.2.act s
    let sh := restorePlane d e x.2.sh act.2
    setMex e ⟨act.1, sh.1, x.2.intRows, x.2.queue.map (fun q => { q with who := w q.who, entered := clk s c }), [], x.2.counter⟩ sh.2) s
  let s2 := v.copies.reverse.foldl (fun s (x : Nat × CpyCmd) =>
    setCpy ⟨die, x.1⟩ { getCpy s ⟨die, x.1⟩ with queue := { x.2 with who := w x.2.who } :: (getCpy s ⟨die, x.1⟩).queue } s) s1
  let s3 := v.glazes.reverse.foldl (fun s (x : DieEng × GlzCmd) =>
    setGlz ⟨die, x.1.eng⟩ { getGlz s ⟨die, x.1.eng⟩ with queue := { x.2 with who := w x.2.who } :: (getGlz s ⟨die, x.1.eng⟩).queue } s) s2
  let s4 := v.paused.foldl (fun s (x : DieEng × GlzRun) =>
    setGlz ⟨die, x.1.eng⟩ { getGlz s ⟨die, x.1.eng⟩ with
      runs := (getGlz s ⟨die, x.1.eng⟩).runs ++ [{ x.2 with cmd := { x.2.cmd with who := w x.2.cmd.who }, paused := true }] } s) s3
  v.retouches.reverse.foldl (fun s (x : Nat × RtcCmd) =>
    setRtc ⟨die, x.1⟩ { getRtc s ⟨die, x.1⟩ with queue := { x.2 with who := w x.2.who } :: (getRtc s ⟨die, x.1⟩).queue } s) s4

/-- The paused glaze commands of a node tell the members on other packages which engine they go on at (R326 step 4, R266). -/
def announceGlazes (n : Nat) (d : Node) (v : Saved) (s : State) : State :=
  let die := (d.clusters.head?).elim 0 (·.die)
  v.paused.foldl (fun s x =>
    let c := { x.2.cmd with who := unparkWho n d.clusters x.2.cmd.who }
    tellMembers 5 (partOf s c.who) (glzGroup c.par) (glzTag c.par) [glzSelf c.par, die, x.1.eng] s) s
/-- A saved node resumes (R326), or fails as any placed node does. A header of another revision, or an image that does not open, kills it
(R325). Its palette tables, which no image holds, are read as for a start (DEDUCED, log entry 166). -/
def restoreNode (n : Nat) (d : Node) (v : Saved) (s : State) : State :=
  match placement s d with
  | .error r => failNode n r s
  | .ok (im, gs, _, pal) =>
    match openSaved n d (reclaim n v s) with
    | .error tag => killImage n tag s
    | .ok s0 =>
      let s1 := takeBack d (wipeLocal false d.clusters (clearCores d.clusters s0))
      let s2 := d.clusters.zipIdx.foldl (fun s x => loadText im gs x.1 x.2 s) s1
      let s3 := v.ctxs.foldl (resumeCtx n d) s2
      let s4 := putCommands n d v (renameCtxs (fun w => some (unparkWho n d.clusters w)) s3)
      let s5 := v.ctxs.foldl (fun s x => rewalkCtx (unparkWho n d.clusters x.1) s) s4
      setState n { d with st := .running, palettes := pal, stop := .no, saved := none } (announceGlazes n d v s5)

end Sys2Proof.Machine
end

