-- ==== Sys2Proof/Machine/NodeEvents.lean ====
section
/-! DEFINITION. Events of nodes and islands (R284 to R296, R311 to R328, R388). -/

namespace Sys2Proof.Machine

/-- A node as registration makes it. -/
def freshNode (part graph idx : Nat) (record : List Nat) : Node where
  part := part
  graph := graph
  idx := idx
  record := record
  st := .dormant
  expected := false
  attempts := 0
  firings := 0
  reason := 0
  exitSt := 0
  clusters := []
  handed := []
  readyAt := 0
  placedAt := 0
  noRetry := false
  freed := false
  faulted := false
  durable := false
  kill2 := false
  inherits := false
  stop := .no
  saved := none
  laid := none
  palettes := []

/-- Takes up one record: a new node, or a failed or dormant one anew. -/
def enrol (part graph idx : Nat) (record : List Nat) (s : State) : State :=
  match findNode s part graph idx with
  | none => { s with nodes := s.nodes ++ [freshNode part graph idx record] }
  | some n => match getNode s n with
    | none => s
    | some d =>
      if d.st = .failed then setState n { freshNode part graph idx record with firings := d.firings } s
      else if d.st = .dormant then setNode n { freshNode part graph idx record with firings := d.firings } s
      else s
/-- Arms the dormant nodes of a graph in ascending number (R290). -/
def armGraph (part graph count : Nat) (s : State) : State :=
  (List.range count).foldl (fun s i => match findNode s part graph i with
    | none => s
    | some n => match getNode s n with
      | some d => if d.st = .dormant then armNode n d (recField d 2 56 56 == 1) (recordOk s d) s else s
      | none => s) s
def allRecords (s : State) (part addr count : Nat) : Option (List (List Nat)) :=
  (List.range count).foldr (fun i acc => match acc, readRecord s part (addr + 64 * i) with
    | some l, some r => some (r :: l)
    | _, _ => none) (some [])

/-- Whether no other ready node comes first among those the barista can serve (R292). -/
def isNext (s : State) (n : Nat) (d : Node) : Bool :=
  !(s.nodes.zipIdx.any fun (q, m) => m != n && q.part == d.part && comesBefore q d && actable s m q)

def islandClusters (die isl : Nat) : List ClId := (List.range 4).map fun k => ⟨die, 4 * isl + k⟩

/-- The measured loader registers a task graph and the barista arms its valid nodes. (R284) -/
def fireGraphRegistration (part : Nat) (addr : Nat) (count : Nat) (s : State) : Option State :=
  if (assoc part s.parts).isNone ∨ count = 0 ∨ 4096 < count ∨ addr % 64 ≠ 0 then none
  else match allRecords s part addr count with
    | none => none
    | some rs => some (armGraph part addr count (rs.zipIdx.foldl (fun s (r, i) => enrol part addr i r s) s))
/-- `GRAPH_REGISTRATION`, R284. -/
def execGraphRegistration (part : Nat) (addr : Nat) (count : Nat) (s : State) : Host.Outcome State Fault Refusal := eventStep (decide (part < 64)) (fireGraphRegistration part addr count s) s

/-- The barista finds an armed node's input phase equal to its expected phase. (R289) -/
def fireNodeReady (n : Nat) (s : State) : Option State :=
  match getNode s n with
  | none => none
  | some d =>
    match d.st, inputWord s d with
    | .armed, some w =>
      if phaseAt s w = d.expected then
        some (setState n { d with
          st := .ready, attempts := 1, reason := 0, exitSt := 0, noRetry := false, freed := false, faulted := false, kill2 := false,
          durable := false, readyAt := s.stamp } { s with stamp := s.stamp + 1 })
      else none
    | _, _ => none
/-- `NODE_READY`, R289. -/
def execNodeReady (n : Nat) (s : State) : Host.Outcome State Fault Refusal := eventStep true (fireNodeReady n s) s

/-- The barista assigns clusters to a ready node, possibly pre-empting lower-priority nodes. (R292) -/
def firePlacement (n : Nat) (s : State) : Option State :=
  match getNode s n with
  | none => none
  | some d =>
    if !actable s n d || !isNext s n d then none
    else match decideNode s n d with
      | some (.place cs handoff) => some (placeNode n d cs handoff s)
      | some (.stopFor ns ms) => some (ms.foldl (fun s m => saveReserved m s) (ns.foldl (fun s m => preemptNode m s) s))
      | none => none
/-- `PLACEMENT`, R292. -/
def execPlacement (n : Nat) (s : State) : Host.Outcome State Fault Refusal := eventStep true (firePlacement n s) s

/-- Image, entry points, scratchpad image and palette tables are in place and the contexts start. (R290) -/
def fireNodeStart (n : Nat) (s : State) : Option State :=
  match getNode s n with
  | none => none
  | some d =>
    let fresh : Bool := match d.saved with | some v => v.handoffOnly | none => true
    if d.st = .placed ∧ fresh ∧ d.clusters.all (clusterAwake s) ∧ !s.viral then some (startNode n d s) else none
/-- `NODE_START`, R290. -/
def execNodeStart (n : Nat) (s : State) : Host.Outcome State Fault Refusal := eventStep true (fireNodeStart n s) s

/-- All contexts have retired with status 0 and all commands completed; the node commits. (R290) -/
def fireNodeCommit (n : Nat) (s : State) : Option State :=
  match getNode s n with
  | none => none
  | some d =>
    if d.st = .running ∧ d.saved.isNone ∧ (d.stop = .no ∨ d.stop = .preempt) ∧ allRetired s n ∧ !hasCommands (nodeCtx s n) s ∧ !s.viral then
      some (commitNode n d s) else none
/-- `NODE_COMMIT`, R290. -/
def execNodeCommit (n : Nat) (s : State) : Host.Outcome State Fault Refusal := eventStep true (fireNodeCommit n s) s

/-- After a nonzero exit, once all commands complete, the node enters failed with reason 1. (R121) -/
def fireNodeFail (n : Nat) (s : State) : Option State :=
  match getNode s n with
  | none => none
  | some d =>
    if d.st = .running ∧ d.stop = .exit ∧ !hasCommands (nodeCtx s n) s then some (failNode n 1 s) else none
/-- `NODE_FAIL`, R121. -/
def execNodeFail (n : Nat) (s : State) : Host.Outcome State Fault Refusal := eventStep true (fireNodeFail n s) s

/-- A killed node's engine commands have completed; it is re-queued or failed and its clusters freed. (R290) -/
def fireKilledNodeRelease (n : Nat) (s : State) : Option State :=
  match getNode s n with
  | none => none
  | some d =>
    if d.st = .killed ∧ !hasCommands (nodeCtx s n) s then some (releaseKilled n d s) else none
/-- `KILLED_NODE_RELEASE`, R290. -/
def execKilledNodeRelease (n : Nat) (s : State) : Host.Outcome State Fault Refusal := eventStep true (fireKilledNodeRelease n s) s

/-- All in-flight requests, commands and pours of a stopped node have settled. (R313) -/
def fireQuiesceComplete (n : Nat) (s : State) : Option State :=
  match getNode s n with
  | none => none
  | some d =>
    if d.st = .running ∧ d.stop = .preempt ∧ d.saved.isNone ∧ quiesced s n then
      let x := takeCommands n s
      some (setNode n { d with saved := some x.1 } x.2)
    else none
/-- `QUIESCE_COMPLETE`, R313. -/
def execQuiesceComplete (n : Nat) (s : State) : Host.Outcome State Fault Refusal := eventStep true (fireQuiesceComplete n s) s

/-- Cluster images have been swapped into the shadow tier. (R316) -/
def fireSwapSaveComplete (n : Nat) (s : State) : Option State :=
  match getNode s n with
  | none => none
  | some d =>
    match d.st, d.saved with
    | .running, some v => some (swapOut n d v s)
    | _, _ => none
/-- `SWAP_SAVE_COMPLETE`, R316. -/
def execSwapSaveComplete (n : Nat) (s : State) : Host.Outcome State Fault Refusal := eventStep true (fireSwapSaveComplete n s) s

/-- Images, planes, commands, pins and window are restored and contexts resume. (R326) -/
def fireRestoreComplete (n : Nat) (s : State) : Option State :=
  match getNode s n with
  | none => none
  | some d =>
    match d.st, d.saved with
    | .placed, some v => if v.handoffOnly || !d.clusters.all (clusterAwake s) || s.viral then none else some (restoreNode n d v s)
    | _, _ => none
/-- `RESTORE_COMPLETE`, R326. -/
def execRestoreComplete (n : Nat) (s : State) : Host.Outcome State Fault Refusal := eventStep true (fireRestoreComplete n s) s

/-- An access is performed at a saved node's image; one in LPDDR is opened for it and sealed again. -/
def reachImage (n : Nat) (v : Saved) (acc : SavedAccess) (s : State) : State :=
  let i := (savedRange acc).1 / 0x400000
  if (assoc i v.sealed).isNone then savedAccess n v acc s
  else match openImage n i s with
    | some s1 => sealImage n i (savedAccess n v acc s1)
    | none => killImage n true s
/-- An outside access to a saved node's locations is performed by the barista against its image. (R315) The host's come by a port that is up, and
what it reads leaves through that port's bucket (R375, R380). -/
def fireSavedNodeAccess (n : Nat) (acc : SavedAccess) (s : State) : Option State :=
  match getNode s n with
  | none => none
  | some d =>
    match d.saved with
    | none => none
    | some v =>
      if (d.st = .ready ∨ d.st = .placed) ∧ savedFits s v acc then
        match acc with
        | .plain (.host q) a =>
          if !portOpen s q then none
          else match a with
            | .read _ k => meteredRead d.part q (some n) a k (reachImage n v acc) s
            | _ => some (reachImage n v acc s)
        | _ => some (reachImage n v acc s)
      else none
/-- `SAVED_NODE_ACCESS`, R315. -/
def execSavedNodeAccess (n : Nat) (acc : SavedAccess) (s : State) : Host.Outcome State Fault Refusal := eventStep true (fireSavedNodeAccess n acc s) s

/-- A gated island finishes its 12 microsecond wake. (R292) -/
def fireIslandWake (die isl : Nat) (s : State) : Option State :=
  let x := getIsland s die isl
  if x.gated && x.waking then some (setIsland die isl { x with gated := false, waking := false } s) else none
/-- `ISLAND_WAKE`, R292. -/
def execIslandWake (die isl : Nat) (s : State) : Host.Outcome State Fault Refusal := eventStep (Config.hasIsland die isl) (fireIslandWake die isl s) s

/-- An island whose clusters have been free for 1 ms is gated; its clusters keep no state, partitions' resident areas apart (R165). (R388) -/
def fireIslandGate (die isl : Nat) (s : State) : Option State :=
  let x := getIsland s die isl
  if !x.gated && (islandClusters die isl).all fun c =>
      (getCl s c).node.isNone && (getCl s c).heldFor.isNone && decide ((getCl s c).freeSince + 1800000 ≤ s.cycle) then
    some (setIsland die isl { x with gated := true, waking := false } ((islandClusters die isl).foldl (fun s c => drainCluster true c s) s))
  else none
/-- `ISLAND_GATE`, R388. -/
def execIslandGate (die isl : Nat) (s : State) : Host.Outcome State Fault Refusal := eventStep (Config.hasIsland die isl) (fireIslandGate die isl s) s

/-- The partition manager unregisters a task graph, which stops its residency with the barista. (R284) -/
def fireGraphUnregistration (part : Nat) (addr : Nat) (s : State) : Option State :=
  let mine := s.nodes.zipIdx.filter fun (d, _) => d.part == part && d.graph == addr && d.st != .dormant
  if mine.isEmpty || !mine.all (fun (d, _) => d.saved.all (·.handoffOnly) && (d.st == .armed || d.st == .ready || d.st == .failed)) then none
  else some (mine.foldl (fun s x => setState x.2 { x.1 with st := .dormant, clusters := [], handed := [], saved := none, laid := none }
    (dropReservation x.2 (match x.1.saved with | some v => dropImages v s | none => s))) s)
/-- `GRAPH_UNREGISTRATION`, R284. -/
def execGraphUnregistration (part : Nat) (addr : Nat) (s : State) : Host.Outcome State Fault Refusal := eventStep (decide (part < 64)) (fireGraphUnregistration part addr s) s

end Sys2Proof.Machine
end

