-- ==== Sys2Proof/Machine/PartEvents.lean ====
section
/-! DEFINITION. Events of translation and partitions (R288, R298, R306 to R311, R362, R376). -/

namespace Sys2Proof.Machine

/-- Whether a partition exists, and whether requests for it are accepted in its session (R378): nothing gets through a blocked port or into a
viral package (R370). -/
def partExists (s : State) (p : Nat) : Bool := (assoc p s.parts).isSome
def sessionOk (s : State) (p : Nat) : Bool :=
  match assoc p s.sessions with
  | some x => x.losing.isNone && !(getHost s x.port).blocked && !s.viral
  | none => false

def setSession (p : Nat) (x : Session) (s : State) : State := { s with sessions := assocSet p x s.sessions }
/-- The AES-256-GCM nonce of a session's message: how many went the same way before it under the same keys (DESIGN CHOICE, log entry 102). -/
def sessionNonce (k : Nat) : List Byte := toBytes 12 k
/-- A reply as a session carries it (R377). -/
def secure (p : Nat) (x : Session) (r : Reply) : Reply :=
  .secured p r (Crypto.gcmSeal (Config.sessionKey x.key 1).toList (sessionNonce x.sent) [] (replyBytes r))
/-- A reply in a partition's session. -/
def tell (p : Nat) (r : Reply) (s : State) : State :=
  match assoc p s.sessions with
  | some x => answer x.port (secure p x r) (setSession p { x with sent := x.sent + 1 } s)
  | none => s

/-- A message of a partition's session has arrived (R378): one that the responder's events name decoded, or one of SPDM. -/
def hear (p : Nat) (s : State) : State :=
  { s with sessions := s.sessions.map fun x => if x.1 = p ∧ x.2.losing.isNone then (p, { x.2 with heard := s.cycle, received := x.2.received + 1 }) else x }
/-- A request in a partition's session: it is a message whether it is carried out or refused (R378). -/
def request (p : Nat) (r : Option State) (s : State) : Option State := if sessionOk s p then some (hear p (r.getD s)) else none

/-! ## Pins and mappings (R306, R362) -/

/-- Contexts of a partition and world that hold a live pin a test names; a stopped context holds none (R306). -/
def pinHolders (s : State) (part : Nat) (world : Bool) (sel : Pin → Bool) : List CtxId :=
  (s.ctxs.filter fun x => x.2.node.isSome && !x.2.stopped && partOf s x.1 == part && worldOf s x.1 == world
    && x.2.pins.any fun p => decide (coverFrom x.2 ≤ p.last) && sel p).map (·.1)
/-- Those that hold a pin made from the entries before a shootdown. Later ones do not hold it up. -/
def shootHolders (s : State) (k : Shoot) : List CtxId := pinHolders s k.part k.world fun p => decide (p.born < k.stamp) && pinMeets k.lo k.hi p
def retireHolders (s : State) (r : Retire) : List CtxId := r.maps.flatMap fun m => pinHolders s m.part m.world fun p => pinCovers p m.va

/-- Entries of a table that memory lists. -/
def tableUsed (s : State) (t n : Nat) : List Nat := ((s.mem.filter fun x => decide (t ≤ x.1) && decide (x.1 < t + 8 * n)).map fun x => (x.1 - t) / 8).eraseDups
/-- What lies below a table: the tables with their sizes, and the leaves with virtual address, table address, leaf and page size code. -/
def below (s : State) (p : Part) : List (Nat × Nat × Nat) → Nat → Nat → List (Nat × Nat) × List (Nat × Nat × Nat × Nat)
  | [], _, _ => ([], [])
  | (lo, w, size) :: r, va, t => (tableUsed s t (2 ^ w)).foldl (fun acc i =>
      let e := memDword s (t + 8 * i)
      let v := va + i * 2 ^ lo
      if !pteValid e then acc
      else if pteLeaf e then (acc.1, acc.2 ++ [(v, t + 8 * i, e, size)])
      else match pointerOf p (decide (size = 2)) e with
        | none => acc
        | some u => let x := below s p r v u; (acc.1 ++ x.1, acc.2 ++ x.2)) ([(t, 8 * 2 ^ w)], [])
/-- The tables and leaves of a world (R298). -/
def tablesOf (s : State) (p : Part) (root : Nat) : List (Nat × Nat) × List (Nat × Nat × Nat × Nat) :=
  (tableUsed s root 131072).foldl (fun acc i =>
    let e := memDword s (root + 8 * i)
    if !pteValid e then acc
    else match pointerOf p true e with
      | none => acc
      | some t => let x := below s p [(30, 9, 2), (21, 9, 1), (16, 5, 0)] (i * 2 ^ 39) t; (acc.1 ++ x.1, acc.2 ++ x.2)) ([(root, 0x100000)], [])
/-- Whether `n` bytes of LPDDR meet a region of some partition. -/
def meetsRegion (s : State) (a n : Nat) : Bool := s.parts.any fun x => decide (0 < regionBytes x.2 (physDie a) (physOff a) n)
/-- Whether every page table, rooted in a world of a partition, lies outside all regions, so that none is mapped (R298). -/
def tablesApart (s : State) : Bool := s.parts.all fun x => x.2.roots.all fun r => (tablesOf s x.2 r.2).1.all fun t => !meetsRegion s t.1 t.2
/-- The pages that the tables map, pieces of retired ones among them. -/
def mappedPages (s : State) : List Mapped :=
  (s.parts.flatMap fun (p, x) => x.roots.flatMap fun (world, root) => (tablesOf s x root).2.map fun (v, _, e, size) => ⟨p, world, v, pteFrame e, pageBytes size⟩)
    ++ s.splits.map fun (k, e) => ⟨k.1, k.2.1, k.2.2 * 0x10000, pteFrame e.toNat, 0x10000⟩
/-- Whether one page maps bytes of another's frame at other addresses. -/
def remaps (a b : Mapped) : Bool :=
  decide (a.frame < b.frame + b.bytes) && decide (b.frame < a.frame + a.bytes) && !(a.part == b.part && a.world == b.world && a.frame + b.va == b.frame + a.va)
/-- Whether a page would reuse a frame that a shootdown in progress has not freed (R306 step 4). -/
def heldFrame (s : State) (a : Mapped) : Bool := s.shoots.any fun k => k.old.any (remaps a)
/-- Whether a range of frames is not free because of a shootdown in progress (R306 step 4). -/
def rangeHeld (s : State) (a n : Nat) : Bool := s.shoots.any fun k => k.old.any fun o => decide (o.frame < a + n) && decide (a < o.frame + o.bytes)
/-- Whether the tables as they now stand, against those before, are apart from all regions and reuse no frame that is not free (R298, R306). -/
def remapOk (before s : State) : Bool :=
  let old := mappedPages before
  tablesApart s && (mappedPages s).all fun a => old.contains a || !heldFrame s a
/-- The leaves of all tables, with the pieces of retired pages: partition, world, virtual address, entry, bytes. -/
def pageEntries (s : State) : List (Nat × Bool × Nat × Nat × Nat) :=
  (s.parts.flatMap fun (p, x) => x.roots.flatMap fun (world, root) => (tablesOf s x root).2.map fun (v, _, e, size) => (p, world, v, e, pageBytes size))
    ++ s.splits.map fun (k, e) => (k.1, k.2.1, k.2.2 * 0x10000, e.toNat, 0x10000)
/-- Whether the pages that differ between two states all lie in one range of a world of a partition (R306). -/
def changesWithin (part : Nat) (world : Bool) (lo hi : Nat) (before s : State) : Bool :=
  let old := pageEntries before
  let new := pageEntries s
  let inside : Nat × Bool × Nat × Nat × Nat → Bool := fun a => a.1 == part && a.2.1 == world && decide (lo ≤ a.2.2.1) && decide (a.2.2.1 + a.2.2.2.2 ≤ hi)
  old.all (fun a => new.contains a || inside a) && new.all fun a => old.contains a || inside a
/-- A shootdown of a range whose new entries are written (R306 steps 1 and 2): what the tables mapped there and map no more is held until no pin
made from the old entries is left. The change is logged, and nodes that wait look at their words again (R289). -/
def beginShoot (part : Nat) (world : Bool) (lo hi : Nat) (writes : List (Nat × Dword)) (before s : State) : State :=
  let now := mappedPages s
  let old := (mappedPages before).filter fun a => a.part == part && a.world == world && decide (a.va < hi) && decide (lo < a.va + a.bytes) && !now.contains a
  recheckInputs part (logEvent 9 part (toBytes 8 lo ++ toBytes 8 hi) { s with
    stamp := s.stamp + 1, shoots := s.shoots ++ [⟨part, world, lo, hi, writes, s.cycle, s.stamp + 1, old⟩] })
/-- Whether `n` bytes of a die's LPDDR meet a page table. -/
def meetsTable (s : State) (die off n : Nat) : Bool :=
  s.parts.any fun x => x.2.roots.any fun r => (tablesOf s x.2 r.2).1.any fun t =>
    physDie t.1 == die && decide (physOff t.1 < off + n) && decide (off < physOff t.1 + t.2)
/-- The mappings of a 64 KiB frame in every partition and world. -/
def mappingsOf (s : State) (frame : Nat) : List Mapping :=
  let tabled := s.parts.flatMap fun (p, x) => x.roots.flatMap fun (world, root) => (tablesOf s x root).2.filterMap fun (v, at0, e, size) =>
    if pteFrame e ≤ frame ∧ frame < pteFrame e + pageBytes size then
      let va := v + (frame - pteFrame e)
      if (assoc (p, world, va / 0x10000) s.splits).isSome then none else some ⟨p, world, va, at0, e, size⟩
    else none
  tabled ++ s.splits.filterMap fun (k, e) => if pteFrame e.toNat = frame then some ⟨k.1, k.2.1, k.2.2 * 0x10000, 0, e.toNat, 3⟩ else none

/-- One page moves to a fresh frame: contents, marks, overlays, leaves (R362 steps 3 and 4). Nothing of what the frame held before stays. -/
def moveFrame (r : Retire) (frame : Nat) (s : State) : State :=
  let old := r.frame
  let here : Nat → Bool := fun a => decide (old ≤ a) && decide (a < old + 0x10000)
  let there : Nat → Bool := fun a => decide (frame ≤ a) && decide (a < frame + 0x10000)
  let go : Nat → Nat := fun a => if here a then a - old + frame else a
  let s1 := { s with
    mem := Memory.sets s.mem frame (memBytes s old 0x10000),
    marks := (s.marks.filter fun x => here x.1).foldl (fun m x => assocSet (go x.1) x.2 m) (s.marks.filter fun x => !there x.1),
    overlay := (s.overlay.filter fun x => !there x.1.2).map fun x => ((x.1.1, go x.1.2), x.2),
    stagedBy := (s.stagedBy.filter fun x => !there x.1.2).map fun x => ((x.1.1, go x.1.2), x.2),
    dirty := s.dirty.filter (fun x => !here x.1 && !there x.1), lines := s.lines.filter (fun x => !here (x.1 * 512) && !there (x.1 * 512)),
    past := (s.past.filter fun p => !there p.addr).map fun p => { p with addr := go p.addr }, retiredFrames := old :: s.retiredFrames }
  r.maps.foldl (fun s m =>
    let e := frame + m.leaf % 0x10000
    logEvent 9 m.part (toBytes 8 m.va ++ toBytes 8 (m.va + 0x10000))
      (if m.size = 0 then coreWrite outside none ((toBytes 8 e).zipIdx.map fun (b, i) => (m.leafAt + i, b)) s
      else { s with splits := assocSet (m.part, m.world, m.va / 0x10000) (BitVec.ofNat 64 e) s.splits })) s1
/-- Whether a frame lies in the region of a partition that holds another. -/
def sameRegion (s : State) (a b : Nat) : Bool :=
  s.parts.any fun x => x.2.regions.any fun r =>
    r.die == physDie a && r.die == physDie b && decide (r.base ≤ physOff a) && decide (physOff a < r.base + r.size)
      && decide (r.base ≤ physOff b) && decide (physOff b + 0x10000 ≤ r.base + r.size)

/-! ## Partitions (R308, R309) -/

/-- Whether an address belongs to the saved copy of a resident area of a partition. -/
def isKept (part a : Nat) : Bool := isSpad a && physOff a / 2 ^ 22 == part + 1
/-- The saved copies of a partition's resident areas are gone. -/
def dropKept (part : Nat) (sel : ClId → Bool) (s : State) : State :=
  let gone : Nat → Bool := fun a => isKept part a && sel (physCl a)
  { s with mem := s.mem.filter (fun x => !gone x.1), marks := s.marks.filter fun x => !gone x.1 }
/-- Bytes move to other addresses, and with them all that names them, the pages of pins included. -/
def readdress (f : Nat → Nat) (s : State) : State :=
  let pin : Pin → Pin := fun p =>
    let last := pteFrame p.pte.toNat + 0xFFFF
    if p.size = 0 ∧ ¬ pteMulti p.pte.toNat then { p with pte := BitVec.ofNat 64 (p.pte.toNat + f last - last) } else p
  let s1 := moveBytes f s
  { s1 with ctxs := s1.ctxs.map fun x => (x.1, { x.2 with pins := x.2.pins.map pin }) }
def clusterIdle (s : State) (c : ClId) : Bool := (getCl s c).node.isNone && (getCl s c).heldFor.isNone
/-- Whether a node of a partition holds clusters. -/
def partBusy (s : State) (p : Nat) : Bool :=
  s.nodes.any fun d => d.part == p && (d.st == .placed || d.st == .running || d.st == .committing || d.st == .killed)
def chgPart : PartChange → Nat
  | .create p => p
  | .destroy p => p
  | .addCluster p _ _ => p
  | .dropCluster p _ => p
  | .resident p _ _ _ => p
  | .region p _ _ _ _ _ => p
  | .fresco p _ _ _ => p
  | .share p _ _ _ => p
  | .tables p _ _ => p
  | .group p _ _ _ => p
  | .peer p _ _ _ => p
  | .staging p _ _ => p
  | .hostClasses p _ _ => p
  | .window p _ _ _ => p
/-- Whether `n` bytes are LPDDR or scratchpad frames of a partition, the saved copies of its resident areas included (R165, R385). -/
def partFrame (p : Part) (a n : Nat) : Bool :=
  (isLpddr a && decide (physOff a + n ≤ kindLimit 0) && regionBytes p (physDie a) (physOff a) n == n)
    || (isSpad a && decide (physOff a + n ≤ kindLimit 1) && (p.clusters.any (fun c => c.1 == physCl a) || (inArea p a && inArea p (a + n - 1))))
/-- Marks an item of a partition as secure or non-secure (R308). -/
def markItem (x : PartItem) (secure : Bool) (l : List PartItem) : List PartItem := if secure then x :: l.filter (· ≠ x) else l.filter (· ≠ x)
/-- A world's tables under a new root: all their pages change at once. -/
def newRoot (p : Nat) (world : Bool) (root : Nat) (s : State) : State :=
  beginShoot p world 0 (2 ^ 56) [] s (setPart p { getPart s p with roots := assocSet world root (getPart s p).roots }
    { s with splits := s.splits.filter fun x => !(x.1.1 == p && x.1.2.1 == world) })
/-- Whether a change can be made: what it names exists and collides with nothing. -/
def chgOk (s : State) (c : PartChange) : Bool :=
  match c with
  | .create p => !partExists s p
  | .destroy p => partExists s p && !partBusy s p
  | .addCluster p c secure => partExists s p && c.wf && (getCl s c).part.isNone
      && tablesApart (setPart p { getPart s p with clusters := (getPart s p).clusters ++ [(c, secure)] } s)
  | .dropCluster p c => (getPart s p).clusters.any (fun x => x.1 == c) && clusterIdle s c
      && !rangeHeld s (physSpad c 0) 0x300000 && !rangeHeld s (physAcc c 0) 0x100000
  | .resident p c k _ => (getPart s p).clusters.any (fun x => x.1 == c) && clusterIdle s c && decide (k ≤ 16)
  | .region p die base size _ k =>
    partExists s p && Config.hasDie die && base % 0x200000 == 0 && size % 0x200000 == 0 && decide (base + size ≤ Config.lpddrBytes) && decide (k < 8)
      && !meetsTable s die base size
      && !(s.parts.any fun x => x.2.regions.any fun r => r.die == die && decide (r.base < base + size) && decide (base < r.base + r.size))
  | .fresco p first count _ =>
    partExists s p && decide (first + count ≤ 2 ^ 24)
      && !(s.parts.any fun x => x.2.fresco.any fun r => decide (r.1 < first + count) && decide (first < r.1 + r.2.1))
  | .share p _ _ _ => partExists s p
  | .tables p world root => partExists s p && isLpddr root && root % 0x100000 == 0 && physOk root && remapOk s (newRoot p world root s)
  | .group p k ms _ => partExists s p && decide (k < 16) && decide (1 ≤ ms.length) && decide (ms.length ≤ 64)
  | .peer p k e _ => partExists s p && decide (k < 4096) && e.length == 4
  | .staging p die n => partExists s p && Config.hasDie die
      && decide (n + ((s.parts.filter fun x => x.1 != p).map fun x => (assoc die x.2.staging).getD 0).sum ≤ 0x800000)
  | .hostClasses p port _ => partExists s p && Config.hasHostPort port
  | .window p port k base => partExists s p && Config.hasHostPort port && decide (k < 32) && partFrame (getPart s p) base 1
      && !(s.parts.any fun x => x.1 != p && (assoc (port, k) x.2.windows).isSome)

/-- Makes a change. -/
def makeChange (c : PartChange) (s : State) : State :=
  match c with
  | .create p => setPart p { Part.empty with sealKey := Config.sealKey s.free p } { s with free := s.free + 1 }
  | .destroy p =>
    let cs := (getPart s p).clusters.map (·.1)
    let s0 := (List.range s.nodes.length).foldl (fun s n => match getNode s n with
      | some d => if d.part = p then dropReservation n (match d.saved with | some v => dropImages v s | none => s) else s
      | none => s) s
    let s1 := cs.foldl (fun s c => setCl c { getCl (drainCluster false c s) c with part := none, world := false, resident := 0 } (drainCluster false c s)) s0
    { dropKept p (fun _ => true) s1 with
      parts := assocDrop p s1.parts, splits := s1.splits.filter (fun x => x.1.1 != p), shoots := s1.shoots.filter (fun k => k.part != p),
      nodes := s1.nodes.map fun d => if d.part = p then { d with st := .dormant, saved := none, laid := none, clusters := [], handed := [] } else d }
  | .addCluster p c secure =>
    let x := getPart s p
    let s1 := drainCluster false c s
    let kept := assoc c x.areas
    let s2 := setPart p { x with clusters := x.clusters ++ [(c, secure)], areas := assocDrop c x.areas } s1
    let s3 := setCl c { getCl s2 c with part := some p, world := secure, resident := kept.getD 0 } s2
    match kept with
    | some k => readdress (fun a =>
        if isKept p a && physCl a == c && decide (0x300000 ≤ physOff a % 2 ^ 22 + 0x4000 * k) then a - (p + 1) * 2 ^ 22 else a) s3
    | none => s3
  | .dropCluster p c =>
    let x := getPart s p
    let k := (getCl s c).resident
    let y := { x with clusters := x.clusters.filter (fun y => y.1 != c), areas := if k = 0 then x.areas else assocSet c k x.areas }
    let s1 := if k = 0 then setPart p y s else readdress (keptPhys p y) (setPart p y (dropKept p (fun q => q == c) s))
    let s2 := drainCluster false c s1
    setCl c { getCl s2 c with part := none, world := false, resident := 0 } s2
  | .resident p c k secure =>
    let s1 := displace c s
    setPart p { getPart s1 p with secureItems := markItem (.area c) (secure && decide (0 < k)) (getPart s1 p).secureItems }
      (setCl c { getCl s1 c with resident := k } s1)
  | .region p die base size secure k => setPart p { getPart s p with regions := (getPart s p).regions ++ [⟨die, base, size, secure, k⟩] } s
  | .fresco p first count secure => setPart p { getPart s p with fresco := (getPart s p).fresco ++ [(first, count, secure)] } s
  | .share p kind slots secure => setPart p { getPart s p with
      shares := assocSet kind slots (getPart s p).shares, secureItems := markItem (.share kind) secure (getPart s p).secureItems } s
  | .tables p world root => newRoot p world root s
  | .group p k ms secure => setPart p { getPart s p with
      groups := assocSet k ms (getPart s p).groups, secureItems := markItem (.group k) secure (getPart s p).secureItems } s
  | .peer p k e secure => setPart p { getPart s p with
      peers := assocSet k e (getPart s p).peers, secureItems := markItem (.peer k) secure (getPart s p).secureItems } s
  | .staging p die n => setPart p { getPart s p with staging := assocSet die n (getPart s p).staging } s
  | .hostClasses p port mask => setPart p { getPart s p with hostMask := assocSet port mask (getPart s p).hostMask } s
  | .window p port k base => setPart p { getPart s p with windows := assocSet (port, k) base (getPart s p).windows } s

def itemBytes : PartItem → List Byte
  | .share k => toBytes 1 1 ++ toBytes 4 k
  | .group k => toBytes 1 2 ++ toBytes 4 k
  | .peer k => toBytes 1 3 ++ toBytes 4 k
  | .area c => toBytes 1 4 ++ toBytes 4 (c.die * 32 + c.cl)
/-- Measurement 32 + p: the digest of a partition's table (R376): clusters, regions of LPDDR and of the fresco tier with their worlds, the items
marked secure, and images. -/
def partDigest (s : State) (p : Nat) : List Byte :=
  let x := getPart s p
  Crypto.shake256 ((x.clusters.flatMap fun c => toBytes 2 (c.1.die * 32 + c.1.cl) ++ toBytes 1 (b2n c.2))
    ++ (x.regions.flatMap fun r => toBytes 1 r.die ++ toBytes 8 r.base ++ toBytes 8 r.size ++ toBytes 1 (b2n r.secure))
    ++ (x.fresco.flatMap fun r => toBytes 4 r.1 ++ toBytes 4 r.2.1 ++ toBytes 1 (b2n r.2.2)) ++ x.secureItems.flatMap itemBytes
    ++ (x.images.flatMap fun i => toBytes 4 i.id ++ i.digest)) 64
/-- Keeps the measurement of a partition current, and logs its change. -/
def measurePart (p : Nat) (s : State) : State :=
  if partExists s p then logEvent 4 p (toBytes 1 p) { s with measures := assocSet (32 + p) (partDigest s p) s.measures }
  else logEvent 4 p (toBytes 1 p) { s with measures := assocDrop (32 + p) s.measures }

/-- Bits a fresco map entry holds (R307); the others are reserved and ignored (R8). -/
def entryMask : Nat := 0xFFFFFF0007
/-- Whether a slot lies in a partition's fresco regions of a world. -/
def frescoOwned (p : Part) (world : Bool) (slot : Nat) : Bool :=
  p.fresco.any fun r => decide (r.1 ≤ slot) && decide (slot < r.1 + r.2.1) && r.2.2 == world

/-- The entries of a shootdown are written, and pieces of retired pages in the range are pieces no more (R306 step 1). -/
def writeEntries (part : Nat) (world : Bool) (lo hi : Nat) (writes : List (Nat × Dword)) (s : State) : State :=
  writes.foldl (fun s w => coreWrite outside none ((toBytes 8 w.2.toNat).zipIdx.map fun (b, i) => (w.1 + i, b)) s)
    { s with splits := s.splits.filter fun x => !(x.1.1 == part && x.1.2.1 == world && decide (lo < (x.1.2.2 + 1) * 0x10000) && decide (x.1.2.2 * 0x10000 < hi)) }

/-- The partition manager writes new entries and invalidates unlocked TLB entries of a range. Only pages of the range may change. (R306) -/
def fireShootdown (part : Nat) (world : Bool) (lo hi : Nat) (writes : List (Nat × Dword)) (s : State) : Option State :=
  if !partExists s part || hi ≤ lo || !(writes.all fun w => isLpddr w.1 && w.1 % 8 == 0 && physOk w.1 && !meetsRegion s w.1 8) then none
  else
    let s2 := beginShoot part world lo hi writes s (writeEntries part world lo hi writes s)
    if remapOk s s2 && changesWithin part world lo hi s s2 then some s2 else none
/-- `SHOOTDOWN`, R306. -/
def execShootdown (part : Nat) (world : Bool) (lo hi : Nat) (writes : List (Nat × Dword)) (s : State) : Host.Outcome State Fault Refusal := eventStep (decide (part < 64)) (fireShootdown part world lo hi writes s) s

/-- No pin covers the range any more and the old frames may be freed. (R306) -/
def fireShootdownComplete (k : Nat) (s : State) : Option State :=
  match s.shoots[k]? with
  | none => none
  | some x => if (shootHolders s x).isEmpty then some { s with shoots := s.shoots.eraseIdx k } else none
/-- `SHOOTDOWN_COMPLETE`, R306. -/
def execShootdownComplete (k : Nat) (s : State) : Host.Outcome State Fault Refusal := eventStep true (fireShootdownComplete k s) s

/-- 100 microseconds pass with pins still held and their nodes are pre-empted. (R306) -/
def fireShootdownTimeout (k : Nat) (s : State) : Option State :=
  match s.shoots[k]? with
  | none => none
  | some x =>
    if x.began + 180000 ≤ s.cycle ∧ !(shootHolders s x).isEmpty then
      some ((((shootHolders s x).filterMap (nodeOf s)).eraseDups).foldl (fun s n => preemptNode n s) s)
    else none
/-- `SHOOTDOWN_TIMEOUT`, R306. -/
def execShootdownTimeout (k : Nat) (s : State) : Host.Outcome State Fault Refusal := eventStep true (fireShootdownTimeout k s) s

/-- The partition manager changes a fresco map entry and invalidates engine tile caches. (R307) -/
def fireFrescoMapChange (part : Nat) (world : Bool) (vtile : Nat) (entry : Dword) (s : State) : Option State :=
  let w := entry.toNat
  if partExists s part && decide (vtile < 2 ^ 24) && (!bit w 0 || frescoOwned (getPart s part) world (bits w 39 16)) then
    some (setPart part { getPart s part with fmap := assocSet (world, vtile) (BitVec.ofNat 64 (w &&& entryMask)) (getPart s part).fmap } s)
  else none
/-- `FRESCO_MAP_CHANGE`, R307. -/
def execFrescoMapChange (part : Nat) (world : Bool) (vtile : Nat) (entry : Dword) (s : State) : Host.Outcome State Fault Refusal := eventStep (decide (part < 64)) (fireFrescoMapChange part world vtile entry s) s

/-- The partition manager creates, destroys or changes a partition at a session request. (R309) -/
def firePartitionChange (chg : PartChange) (s : State) : Option State :=
  request (chgPart chg) (if chgOk s chg then some (measurePart (chgPart chg) (makeChange chg s)) else none) s
/-- `PARTITION_CHANGE`, R309. -/
def execPartitionChange (chg : PartChange) (s : State) : Host.Outcome State Fault Refusal := eventStep (decide (chgPart chg < 64)) (firePartitionChange chg s) s

/-- The partition manager saves all running nodes of one partition to serve another. (R311) -/
def firePartitionSwap (part : Nat) (s : State) : Option State :=
  let ns := (List.range s.nodes.length).filter fun n => match getNode s n with
    | some d => d.part == part && ((d.st == .running && d.stop == .no) || d.st == .placed)
    | none => false
  if ns.isEmpty then none else some (ns.foldl (fun s n => preemptNode n s) s)
/-- `PARTITION_SWAP`, R311. -/
def execPartitionSwap (part : Nat) (s : State) : Host.Outcome State Fault Refusal := eventStep (decide (part < 64)) (firePartitionSwap part s) s

/-- The measured loader checks, measures and stores a program image and returns its id. (R288) -/
def fireImageLoadRequest (part : Nat) (bytes : List Byte) (key : List Byte) (s : State) : Option State :=
  request part (if !partExists s part then none
  else if imageOk bytes key then
    let p := getPart s part
    some (tell part (.imageId p.nextImage) (measurePart part (setPart part { p with
      images := p.images ++ [⟨p.nextImage, bytes, key, Crypto.shake256 bytes 64⟩], nextImage := p.nextImage + 1 } s)))
  else some (tell part .imageRejected s)) s
/-- `IMAGE_LOAD_REQUEST`, R288. -/
def execImageLoadRequest (part : Nat) (bytes : List Byte) (key : List Byte) (s : State) : Host.Outcome State Fault Refusal := eventStep (decide (part < 64)) (fireImageLoadRequest part bytes key s) s

/-- The page is copied to a fresh frame, the leaf rewritten and walks proceed. (R362) -/
def firePageRetirementComplete (k : Nat) (frame : Nat) (s : State) : Option State :=
  match s.retires[k]? with
  | none => none
  | some r =>
    if (retireHolders s r).isEmpty && isLpddr frame && frame % 0x10000 == 0 && frame != r.frame && !s.retiredFrames.contains frame
        && sameRegion s r.frame frame && (mappingsOf s frame).isEmpty && !rangeHeld s frame 0x10000 then
      let s1 := moveFrame r frame { s with retires := s.retires.eraseIdx k }
      some ((r.maps.map (·.part)).eraseDups.foldl (fun s p => recheckInputs p s) s1)
    else none
/-- `PAGE_RETIREMENT_COMPLETE`, R362. -/
def execPageRetirementComplete (k : Nat) (frame : Nat) (s : State) : Host.Outcome State Fault Refusal := eventStep true (firePageRetirementComplete k frame s) s

/-- A program image is removed from the partition's secure LPDDR at a session request. (R288) -/
def fireImageRemoval (part : Nat) (id : Nat) (s : State) : Option State :=
  let p := getPart s part
  request part (if p.images.any (fun i => i.id == id) then
    some (measurePart part (setPart part { p with images := p.images.filter fun i => i.id != id } s)) else none) s
/-- `IMAGE_REMOVAL`, R288. -/
def execImageRemoval (part : Nat) (id : Nat) (s : State) : Host.Outcome State Fault Refusal := eventStep (decide (part < 64)) (fireImageRemoval part id s) s

end Sys2Proof.Machine
end

