-- ==== Sys2Proof/Machine/FaultEvents.lean ====
section
/-! DEFINITION. Hardware errors and what they do (R354 to R370). -/

namespace Sys2Proof.Machine

/-! ## Records (R357 to R359) -/

/-- The partition that owns a physical byte, if one does. -/
def partOfPhys (s : State) (a : Nat) : Option Nat :=
  if isSpad a && decide (2 ^ 22 ≤ physOff a) then some (physOff a / 2 ^ 22 - 1)
  else (s.parts.find? fun x =>
    if isLpddr a then x.2.regions.any fun r => r.die == physDie a && decide (r.base ≤ physOff a) && decide (physOff a < r.base + r.size)
    else x.2.clusters.any fun c => c.1 == physCl a).map (·.1)
/-- One more corrected error of a source unit, for its next record (R359). -/
def addCorrected (die src : Nat) (s : State) : State :=
  let d := getDie s die
  setDie die { d with corrected := assocSet src ((assoc src d.corrected).getD 0 + 1) d.corrected } s

/-! ## Dirty sectors (R360 to R363) -/

/-- The page of a sector begins to be retired, unless it already is (R362). A holder of a pin on it is pre-empted as for a
shootdown. -/
def beginRetire (frame : Nat) (s : State) : State :=
  if s.retires.any (fun r => r.frame == frame) ∨ s.retiredFrames.contains frame then s
  else
    let ms := mappingsOf s frame
    { s with
      retires := s.retires ++ [⟨frame, ms, s.cycle⟩],
      stamp := s.stamp + 1,
      shoots := s.shoots ++ ms.map fun m => ⟨m.part, m.world, m.va, m.va + 0x10000, [], s.cycle, s.stamp + 1, []⟩ }
/-- A slice or way, or one of those that serve in its place when it does not. -/
def serving (on : List Nat) (k : Nat) : Nat := if on.contains k then k else on.getD (k % on.length) k
/-- The slice and way of a die's quarantine list, and the slices disabled with four ways or more (R363). -/
def slicesOff (s : State) (die : Nat) : List Nat :=
  (List.range Config.cacheSlices).filter fun k => decide (4 ≤ (s.ways.filter fun x => x.1 == die && x.2 / 16 == k).length)
/-- The slice, set and way of a line (R360): a fixed function of the address among the ways and slices that are not disabled (R363). -/
def cachePlace (s : State) (addr : Nat) : Nat × Nat × Nat :=
  let die := physDie addr
  let off := slicesOff s die
  let l := addr / Config.lineBytes
  let slice := serving ((List.range Config.cacheSlices).filter fun k => !off.contains k) (Config.cacheSliceOf off.length l).val
  (slice, (Config.cacheSetOf off.length l).val,
    serving ((List.range 16).filter fun w => !s.ways.contains (die, slice * 16 + w)) (Config.cacheWayOf off.length l).val)
/-- The location a record gives for a sector of the second-level cache (R357). -/
def cacheLoc (s : State) (addr : Nat) : Nat :=
  let k := cachePlace s addr
  k.1 * 2 ^ 16 + k.2.2 * 2 ^ 12 + k.2.1 * 2 ^ 4 + addr / 64 % 8
/-- The way of a line is quarantined, and with its fourth way the whole slice is disabled: their clean lines are dropped, and what they hold
dirty is written back and stays as it is (R363). -/
def quarantineWay (addr : Nat) (s : State) : State :=
  let die := physDie addr
  let k := cachePlace s addr
  let way := k.1 * 16 + k.2.2
  let ws := if s.ways.contains (die, way) then s.ways else s.ways ++ [(die, way)]
  let whole := decide (4 ≤ (ws.filter fun x => x.1 == die && x.2 / 16 == k.1).length)
  let gone : Nat → Bool := fun a =>
    let p := cachePlace s a
    decide (a / 512 = addr / 512) || (physDie a == die && p.1 == k.1 && (p.2.2 == k.2.2 || whole))
  { s with ways := ws, dirty := s.dirty.filter (fun x => !gone x.1), lines := s.lines.filter fun x => !gone (x.1 * 512) }
/-- A sector goes back to what LPDDR holds, its mark included, as one write event (R361). -/
def revertSector (sec : Nat) (s : State) : State :=
  let b := backing s sec
  let s1 := coreWrite outside none (b.1.zipIdx.map fun (b, i) => (sec + i, b)) { s with dirty := assocDrop sec s.dirty }
  match b.2 with
  | some m => setMark sec m s1
  | none => s1
/-- The page of a sector in error is retired, and the way that held it quarantined (R361 to R363). -/
def retireSector (sec : Nat) (s : State) : State := beginRetire (sec / 0x10000 * 0x10000) (quarantineWay sec s)
/-- The resolution of an uncorrectable dirty sector by its owner's state. -/
def resolveSector (sec : Nat) (o : Owner) (s : State) : State :=
  let frame := sec / 0x10000
  let die := physDie sec
  let loc := cacheLoc s sec
  let marked : State :=
    let y := freshSyndrome s
    let who : Nat × Nat × Nat × Option Nat := match o with
      | .host => (0, 0, 0, partOfPhys s sec)
      | .node _ part graph idx x => (graph, idx, x, some part)
    appendFault die who.2.2.2 (fun q => faultRec q 1 2 1 3 sec y.1 2 0 who.1 who.2.1 who.2.2.1 (who.2.2.2.getD 0) loc (nanos s) frame) none
      (setMark sec .poison { y.2 with dirty := assocDrop sec y.2.dirty })
  match o with
  | .host => retireSector sec marked
  | .node k _ _ _ x => if killable s k then retireSector sec (killFor k die 1 2 3 sec 2 x loc frame (revertSector sec s)) else retireSector sec marked

/-! ## Viral (R370) -/

/-- The package becomes viral: its class 5 record waits in retained SRAM for the next reset; every port is blocked, each Chrolin
port that is up after one viral flit, a host port trained for CXL after its viral signal (R370). -/
def goViral (die src addr ecc loc : Nat) (s : State) : State :=
  if s.viral then s
  else
    let y := freshSyndrome s
    let d := getDie s die
    let s1 := ((List.range 18).filter (portUp s)).foldl (fun s k =>
      let t := sendKind 4 false k [[]] s
      setPort18 k { getPort18 t k with sentViral := true } t) (setDie die { d with seq := (d.seq + 1) % 2 ^ 32 } y.2)
    { s1 with
      viral := true,
      retained := some (die, faultRec d.seq src 5 9 0 addr y.1 ecc 0 0 0 0 0 loc (nanos s) 0),
      hosts := s.hosts.map fun h => { h with blocked := true, cxlViral := h.cxlViral || h.cxl } }

/-- The running node of a core whose record asks for lockstep (R368). -/
def lockstepNode (s : State) (c : CoreId) : Option Nat :=
  match (getCl s c.clId).node with
  | none => none
  | some n => match getNode s n with
    | some d => if nodeLockstep d && d.st == .running then some n else none
    | none => none

/-- Commands of a lockstep node whose bundle the checker has not committed when the pair mismatches never enter their queues, and pay
nothing (R368). -/
def dropUnentered (n : Nat) (s : State) : State :=
  { s with
    mex := s.mex.map fun x => (x.1, { x.2 with queue := x.2.queue.filter fun c => !(isOfNode s n c.who && decide (clk s x.1.clId < c.entered)) }),
    cpy := s.cpy.map fun x => (x.1, { x.2 with queue := x.2.queue.filter fun c => !(isOfNode s n c.who && decide (nominal s < c.entered)) }),
    glz := s.glz.map fun x => (x.1, { x.2 with queue := x.2.queue.filter fun c => !(isOfNode s n c.who && decide (nominal s < c.entered)) }),
    rtc := s.rtc.map fun x => (x.1, { x.2 with queue := x.2.queue.filter fun c => !(isOfNode s n c.who && decide (nominal s < c.entered)) }) }

/-- The CTXID of the context whose record or spill window an offset of image `i` lies in, 0 for none (R318). -/
def imageCtxid (i off : Nat) : Nat :=
  if 0x468000 ≤ off ∧ off < 0x600000 then i * 16 + (off - 0x468000) / 0x19800
  else if 0x428000 ≤ off ∧ off < 0x468000 then i * 16 + (off - 0x428000) / 0x4000 else 0

/-- A sector read is ECC-decoded and MAC-checked, classed media or integrity on failure. (R355) The written-poison pattern of a sector marked
before decodes as that mark, of which an event record tells (R354, R357; DESIGN CHOICE, log entry 151). -/
def fireLpddrSectorRead (addr : Nat) (r : SectorRead) (s : State) : Option State :=
  let sec := addr / 64 * 64
  let part := partOfPhys s sec
  -- a sector that failed its MAC is in no cache, so that each read checks it anew
  let clean := if (assoc sec s.dirty).isNone ∧ markOf s sec = some .integrity then clearMark sec s else s
  match r with
  | .good => some clean
  | .corrected => some (addCorrected (physDie sec) 0 clean)
  | .media =>
    if (assoc sec s.dirty).isSome ∨ markOf s sec = some .media ∨ markOf s sec = some .held then none
    else if markOf s sec = some .poison then some (plainRecord (physDie sec) 0 0 1 0 sec 3 0 0 part none s)
    else some (plainRecord (physDie sec) 0 2 1 0 sec 2 0 0 part none (setMark sec .media s))
  | .integrity =>
    if (assoc sec s.dirty).isSome ∨ markOf s sec = some .media ∨ markOf s sec = some .poison ∨ markOf s sec = some .held then none
    else some (plainRecord (physDie sec) 0 3 0 0 sec 0 2 0 part (some 6) (setMark sec .integrity s))
/-- `LPDDR_SECTOR_READ`, R355. -/
def execLpddrSectorRead (addr : Nat) (r : SectorRead) (s : State) : Host.Outcome State Fault Refusal := eventStep ((isLpddr addr && physOk addr)) (fireLpddrSectorRead addr r s) s

/-- An uncorrectable error in a dirty sector is resolved by its owner's state. `stager` names the node whose staged sector it is, if it is one. (R361) -/
def fireUncorrectableDirtySector (addr : Nat) (stager : Option Nat) (s : State) : Option State :=
  let sec := addr / 64 * 64
  match stager with
  | some k =>
    if s.overlay.any (fun x => x.1.1 == k && x.1.2 / 64 * 64 == sec) && killable s k then
      some (retireSector sec (killFor k (physDie sec) 1 2 3 sec 2 ((assoc (k, sec) s.stagedBy).getD 0) (cacheLoc s sec) (sec / 0x10000) s))
    else none
  | none => match assoc sec s.dirty with
    | some (o, _) => some (resolveSector sec o s)
    | none => some (plainRecord (physDie sec) 1 2 2 0 sec 2 0 (cacheLoc s sec) (partOfPhys s sec) none s)
/-- `UNCORRECTABLE_DIRTY_SECTOR`, R361. -/
def execUncorrectableDirtySector (addr : Nat) (stager : Option Nat) (s : State) : Host.Outcome State Fault Refusal := eventStep ((isLpddr addr && physOk addr)) (fireUncorrectableDirtySector addr stager s) s

/-- An uncorrectable error in on-die SRAM marks a granule or element or kills the owner. A near cache refetches, and a TLB walks again, what it
drops: neither holds a value of its own. A row of the fresco tier, by its number in the package, shows its error when it is read, and a loaded
line of instruction memory or its tag when the line enters a fetch buffer. (R14, R332, R354) -/
def fireSramUncorrectable (p : SramPlace) (s : State) : Option State :=
  match p with
  | .granule a => if isSpad a && physOk a then some (plainRecord (physDie a) 2 2 1 0 a 2 0 0 (partOfPhys s a) none (setMark a .media s)) else none
  | .element a => if isAcc a && physOk a then some (plainRecord (physDie a) 2 2 1 0 a 2 0 0 (partOfPhys s a) none (setMark a .media s)) else none
  | .spill c off =>
    if (assoc c s.ctxs).isSome && decide (off < 0x4000) then
      some (plainRecord c.die 2 2 1 0 0 2 0 0 ((getCl s c.clId).part) none (updCtx c (fun x => { x with
        spillPoison := if x.spillPoison.contains (off / 8 * 8) then x.spillPoison else off / 8 * 8 :: x.spillPoison }) s))
    else none
  | .core c => match nodeOf s c with
    | some n => if killable s n then some (killFor n c.die 3 2 0 0 2 (ctxidOf s c) 0 0 s) else none
    | none => none
  | .nearCache c => if c.wf then some (plainRecord c.die 2 2 2 0 0 2 0 0 ((getCl s c).part) none s) else none
  | .fresco row => if decide (row < 2 ^ 32) && !s.frescoBad.contains row then some { s with frescoBad := row :: s.frescoBad } else none
  | .text c off flip =>
    if c.wf && decide (off < 0xC0000) then
      let a := physImem c off
      some { s with mem := Memory.set s.mem a (Memory.get s.mem a ^^^ flip) }
    else none
  | .textTag c line flip => match assoc line (getCl s c).tags with
    | some t => if c.wf then some (setCl c { getCl s c with tags := assocSet line (t ^^^ flip) (getCl s c).tags } s) else none
    | none => none
  | .tlb c => if c.wf then some (plainRecord c.die 2 2 2 0 0 2 0 0 ((getCl s c).part) none s) else none
  | .shadow n i off => match getNode s n with
    | some d => if (match d.saved with | some v => decide (i < v.slots.length) | none => false) && decide (off < imageBytes) then
        some (killFor n (match d.saved with | some v => (v.homes.getD i ⟨0, 0⟩).die | none => 0) 6 2 0 0 2 (imageCtxid i off) 0 0 s) else none
    | none => none
  | .management die => if Config.hasDie die then some (goViral die 9 0 2 0 s) else none
/-- `SRAM_UNCORRECTABLE`, R354. -/
def execSramUncorrectable (p : SramPlace) (s : State) : Host.Outcome State Fault Refusal := eventStep true (fireSramUncorrectable p s) s

/-- Each millisecond a source emits one coalesced corrected-error record. `more` errors have come beside those that other events counted. Links
are retried. (R359) -/
def fireCorrectedErrorRecord (die : Nat) (src more : Nat) (s : State) : Option State :=
  let d := getDie s die
  let n := (assoc src d.corrected).getD 0 + more
  let early := d.ring.any fun r => bits (param r 0) 31 24 == src && bits (param r 0) 23 16 == 1 && decide (nanos s < (param r 6) + 1000000)
  if n = 0 ∨ 9 < src ∨ early then none
  else some (appendFault die none (fun q => faultRec q src 1 (if src = 7 ∨ src = 8 then 5 else 0) 0 0 n 1 (b2n (src == 0)) 0 0 0 0 0 (nanos s) 0) none
    (setDie die { d with corrected := assocDrop src d.corrected } s))
/-- `CORRECTED_ERROR_RECORD`, R359. -/
def execCorrectedErrorRecord (die : Nat) (src : ErrCount) (s : State) : Host.Outcome State Fault Refusal := eventStep (Config.hasDie die) (fireCorrectedErrorRecord die src.src src.more s) s

/-- Checker and leader commit signatures differ and the node is killed. (R368) -/
def fireLockstepMismatch (c : CtxId) (hdr : Nat) (s : State) : Option State :=
  match lockstepNode s c.coreId with
  | none => none
  | some n => some (killFor n c.die 4 4 0 0 0 (ctxidOf s c) (hdr % 2 ^ 18) 0 (dropUnentered n s))
/-- `LOCKSTEP_MISMATCH`, R368. -/
def execLockstepMismatch (c : CtxId) (hdr : Nat) (s : State) : Host.Outcome State Fault Refusal := eventStep c.wf (fireLockstepMismatch c hdr s) s

/-- A fatal error stops every core and blocks all host and Chrolin ports. A die-to-die link that failed is named by its number among the ten and
is down. (R370) -/
def fireViral (die src addr ecc : Nat) (loc : Dword) (s : State) : Option State :=
  if s.viral then none
  else
    let s1 := goViral die src addr ecc loc.toNat s
    some (if src = 7 then { s1 with edges := s1.edges.set (bits loc.toNat 7 0) false } else s1)
/-- `VIRAL`, R370. -/
def execViral (die : Nat) (src : ErrSite) (s : State) : Host.Outcome State Fault Refusal :=
  eventStep (Config.hasDie die) (fireViral die src.src src.addr src.ecc src.loc s) s

end Sys2Proof.Machine
end

