-- ==== Sys2Proof/Machine/LinkEvents.lean ====
section
/-! DEFINITION. Chrolin links (R371 to R373, R379, R386). -/

namespace Sys2Proof.Machine

/-- A copy that still needs a fenced link fails at its next chunk (R371). -/
def failOver (port : Nat) (r : CpyRun) : CpyRun :=
  if r.port.map (·.1) = some port ∧ r.err = 0 ∧ r.chunk < cpyChunks r.cmd.par then { r with err := 0x0E, detail := r.chunk, fetched := none } else r
/-- A link is fenced (R371): copies over it fail, collectives across it abort, those of a saved node's paused commands too, a record and a
log entry are written. -/
def fenceLink (port : Nat) (s : State) : State :=
  let p := getPort18 s port
  let s1 := setPort18 port { p with st := .fenced, fences := p.fences + 1, resyncing := none, replay := [], resend := [] } s
  let s2 : State := { s1 with cpy := s1.cpy.map fun x => (x.1, { x.2 with runs := x.2.runs.map (failOver port) }) }
  let paused := s2.nodes.flatMap fun d => match d.saved with | some v => v.paused.map (·.2) | none => []
  let across := ((s2.glz.flatMap fun x => x.2.runs) ++ paused).filter fun r => !r.aborted && r.ports.any fun q => q.2.1 == port
  let s3 := across.foldl (fun s r => abortColl r.cmd.seq 0x0E 0 s) s2
  plainRecord 0 8 0 7 0 0 0 0 port none (some 8) s3

/-- The type and counter bits of a flit's header (R372). -/
def flitKind (f : List Byte) : Nat := bits (ofBytes (f.take 8)) 23 16
def flitCounter (f : List Byte) : Nat := bits (ofBytes (f.take 8)) 15 0
/-- The payload of a flit under a key and counter, none when its length or its tag fails. -/
def openFlit (p : Port) (key : List Byte) (counter : Nat) (f : List Byte) : Option (List Byte) :=
  if f.length = 256 then Crypto.gcmOpen key (flitNonce p counter) (f.take 8) (f.drop 8) else none
/-- The unacknowledged flits under new counters from 0, encrypted afresh under the port's new key; key-update flits, which the update answers,
are not sent again. Each is opened under the key it was sent under. -/
def renumber (p : Port) (key : List Byte) (l : List (Nat × List Byte)) : List (Nat × List Byte) :=
  (l.filter fun x => flitKind x.2 != 3).zipIdx.map fun x =>
    (x.2, sealFlit { p with txKey := key } (flitKind x.1.2) x.2 false ((openFlit p (if x.1.1 < p.keyFrom then p.oldKey else p.txKey) x.1.1 x.1.2).getD []))
/-- A resynchronisation completes (R373): new keys, counters at 0, unacknowledged flits afresh; a record says so (R357). -/
def resynced (port : Nat) (s : State) : State :=
  let p := getPort18 s port
  let l := renumber { p with rx := 0 } (Config.nextKey p.txKey) p.replay
  plainRecord 0 8 0 6 0 0 0 0 port none none (setPort18 port { p with
    rx := 0, tx := l.length, replay := l, resend := l, fails := 0, resyncing := none, resyncs := p.resyncs + 1, keyEpoch := p.keyEpoch + 1,
    txKey := Config.nextKey p.txKey, rxKey := Config.nextKey p.rxKey, oldKey := [], keyFrom := 0, sinceKey := 0, heard := s.cycle } s)

/-- Whether this package accepts a peer's write (R310): a valid entry of the partition names the sender's identity, partition and world. -/
def acceptsPeer (s : State) (id : Nat) (w : PeerWrite) : Bool :=
  (getPart s w.part).peers.any fun e => bit (param e.2 3) 0 && param e.2 0 + param e.2 1 * 2 ^ 64 == id
    && bits (param e.2 2) 5 0 == w.fromPart && bit (param e.2 2) 7 == w.fromWorld
/-- The bytes behind a peer's destination, through the tables of the partition and world it names, or the error that a local translation
would give (R261, R304, R310). -/
def peerTarget (s : State) (w : PeerWrite) (n : Nat) : Except Nat (List GByte) :=
  if !bit w.addr 63 then .error 4
  else (pagePieces (w.addr % 2 ^ 63) n).foldl (fun (a : Except Nat (List GByte)) x => match a with
    | .error k => .error k
    | .ok l => match walk s w.part w.world none x.1 with
      | .fault k => .error (if k % 16 = 4 then 5 else 4)
      | .leaf e size =>
        let bs := (List.range x.2).map fun i => (⟨ptePhys e size (x.1 + i), e⟩ : GByte)
        if !pteWrite e || (w.reduce.isSome && !pteRead e) || pteMulti e || (aliasTrap s x.1 bs).isSome then .error 6 else .ok (l ++ bs)) (.ok [])
/-- A peer's write is performed as an engine write of no context of this package (R208, R211). One that is not accepted or does not translate
changes nothing here, and the peer is told the error of its command. -/
def peerWrite (port id : Nat) (w : PeerWrite) (s : State) : State :=
  let size := match w.reduce with | some f => (if f = 2 then 2 else 4) | none => 1
  let n := match w.reduce with | some _ => w.data.length / size * 4 | none => w.data.length
  if !partExists s w.part || !acceptsPeer s id w then sendMessage 3 [5] port s
  else match peerTarget s w n with
    | .error k => sendMessage 3 [k] port s
    | .ok bs =>
      let src : Writer := ⟨outside, s.seq + 1, 0, 0⟩
      match w.reduce with
      | none => storeBytes (engineWrite src) .host none w.part (bs.zip w.data) s
      | some f =>
        if !bs.all (fun b => rowOk s (f == 8) b.pa) then sendMessage 3 [6] port s
        else (cutEvery size (bs.length / 4) w.data).zipIdx.foldl (fun s (x, i) => match bs[4 * i]? with
          | some b => addElement src f b x s
          | none => s) s

/-- Whether a member of a group is on the package at the other end of a port (R266, R310). -/
def memberBehind (s : State) (part group member id : Nat) : Bool :=
  match ((assoc group (getPart s part).groups).getD [])[member]? with
  | none => false
  | some m => match peerEntry s part (memberPeer m) with
    | some e => !memberHere m && param e 0 + param e 1 * 2 ^ 64 == id
    | none => false
/-- The collectives of a group and tag that an abort or a cancel names. -/
def namedColls (s : State) (part group tag : Nat) : List Coll := s.colls.filter fun k => k.part == part && k.group == group && k.tag == tag
/-- What a message of a peer does: a write; an abort, which reaches every registered command of the collective; a cancel, after which
contributors no longer send that member the named blocks, and which they acknowledge (R275). -/
def takeMessage (port id : Nat) (s : State) : PeerMsg → State
  | .write w => peerWrite port id w s
  | .abort part group tag m timeout =>
    if memberBehind s part group m id then (namedColls s part group tag).foldl (fun s k => abortRegs k (if timeout then 0x0F else 0x0E) 0 s) s else s
  | .cancel part group tag m bs =>
    if memberBehind s part group m id then
      let ks := (namedColls s part group tag).filter (·.matched)
      let mine : GlzRun → Bool := fun r => r.cmd.kind.contributes && ks.any fun k => k.reg.any fun x => x.2 == r.cmd.seq
      let s1 := mapGlzRuns (fun r => if mine r then { r with cancelled := true } else r) s
      sendMessage 4 (part :: group :: tag :: m :: bs) port
        { s1 with colls := s1.colls.map fun k => if ks.contains k then { k with cut := k.cut ++ bs.map fun b => (m, b) } else k }
    else s
  | .resync => s

/-- A flit whose tag passes, at the expected counter: acknowledgements, then what its type says (R372, R373). -/
def acceptFlit (port : Nat) (f : Flit) (d : List Byte) (s : State) : State :=
  let p := getPort18 s port
  let kind := flitKind f.bytes
  let kept := p.replay.filter fun x => decide (f.ackUpto ≤ x.1)
  let p1 := { p with
    rx := p.rx + 1, fails := 0, heard := s.cycle, replay := kept,
    resend := match f.nackOf with
      | some c => kept.filter fun x => decide (c ≤ x.1)
      | none => p.resend.filter fun x => decide (f.ackUpto ≤ x.1),
    rxKey := if kind = 3 then Config.nextKey p.rxKey else p.rxKey,
    keyEpoch := if kind = 3 then p.keyEpoch + 1 else p.keyEpoch,
    inbox := if kind = 0 ∧ f.delivers.isNone then p.inbox ++ [d] else p.inbox }
  let s1 := setPort18 port p1 s
  if kind = 4 then fenceLink port s1
  else if kind = 3 ∧ f.delivers = some .resync then resynced port (sendKind 3 false port [[]] (setPort18 port { p1 with rxKey := p.rxKey, keyEpoch := p.keyEpoch } s))
  else match f.delivers with
    | some w => if kind = 0 then takeMessage port p.peer s1 w else s1
    | none => s1
/-- A flit whose tag fails is dropped and answered with a negative acknowledgement of the expected counter (R373); the third in a row on one
counter starts a resynchronisation, of which a key-update flit tells the peer. -/
def rejectFlit (port : Nat) (s : State) : State :=
  let p := getPort18 s port
  if p.fails + 1 < 3 then
    sendKind 1 true port [[]] (addCorrected 0 8 (setPort18 port { p with fails := p.fails + 1, retries := p.retries + 1 } s))
  else
    sendKind 3 false port [[]] (sendKind 1 true port [[]]
      (setPort18 port { p with fails := 0, retries := p.retries + 1, resyncing := some s.cycle } s))

/-- The identity of a package by its device identity public key (R310), and this package's own. -/
def identityOf (key : List Byte) : Nat := ofBytes (Crypto.shake256 key 16)
def ownIdentity : Nat := identityOf (Config.secret 3)
/-- Identity of a peer in a valid entry of some partition's peer table (R310, R379). -/
def knownPeer (s : State) (id : Nat) : Bool :=
  s.parts.any fun x => x.2.peers.any fun e => bit (param e.2 3) 0 && param e.2 0 + param e.2 1 * 2 ^ 64 == id

/-- A peer receives a viral flit and fences the link. (R371) -/
def fireViralFlitReceived (port : Nat) (s : State) : Option State :=
  if portUp s port then some (fenceLink port s) else none
/-- `VIRAL_FLIT_RECEIVED`, R371. -/
def execViralFlitReceived (port : Nat) (s : State) : Host.Outcome State Fault Refusal := eventStep (Config.hasPort port) (fireViralFlitReceived port s) s

/-- No valid flit for 1 ms fences a Chrolin link. (R371) -/
def fireLinkSilenceTimeout (port : Nat) (s : State) : Option State :=
  if portUp s port && decide ((getPort18 s port).heard + 1800000 ≤ s.cycle) then some (fenceLink port s) else none
/-- `LINK_SILENCE_TIMEOUT`, R371. -/
def execLinkSilenceTimeout (port : Nat) (s : State) : Host.Outcome State Fault Refusal := eventStep (Config.hasPort port) (fireLinkSilenceTimeout port s) s

/-- The counter that a flit's 16 counter bits stand for: the one nearest to the expected counter (DESIGN CHOICE, log entry 96). -/
def nearCounter (rx low : Nat) : Nat :=
  let c := rx / 2 ^ 16 * 2 ^ 16 + low
  if c + 2 ^ 15 < rx then c + 2 ^ 16 else if rx + 2 ^ 15 ≤ c ∧ 2 ^ 16 ≤ c then c - 2 ^ 16 else c
/-- A flit's tag is checked first: one that fails is dropped with a negative acknowledgement. Of those that pass, the one at the expected counter
is accepted. (R373) -/
def fireFlitReceive (port : Nat) (f : Flit) (s : State) : Option State :=
  let p := getPort18 s port
  if !portUp s port || s.viral then none
  else match openFlit p p.rxKey (nearCounter p.rx (flitCounter f.bytes)) f.bytes with
    | some d =>
      if nearCounter p.rx (flitCounter f.bytes) ≠ p.rx then none
      else if p.resyncing.isSome then (if flitKind f.bytes = 3 then some (resynced port s) else none)
      else some (acceptFlit port f d s)
    | none => if p.resyncing.isSome then none else some (rejectFlit port s)
/-- `FLIT_RECEIVE`, R373. -/
def execFlitReceive (port : Nat) (f : Flit) (s : State) : Host.Outcome State Fault Refusal := eventStep (Config.hasPort port) (fireFlitReceive port f s) s

/-- A negative acknowledgement makes the transmitter resend from its replay buffer. (R373) -/
def fireFlitResend (port : Nat) (upto : Nat) (s : State) : Option State :=
  let p := getPort18 s port
  let rest := p.resend.filter fun x => decide (upto < x.1)
  if portUp s port && decide (rest.length < p.resend.length) && p.resyncing.isNone && !s.viral then
    some (setPort18 port { p with resend := rest, sent := s.cycle } s)
  else none
/-- `FLIT_RESEND`, R373. -/
def execFlitResend (port : Nat) (upto : Nat) (s : State) : Host.Outcome State Fault Refusal := eventStep (Config.hasPort port) (fireFlitResend port upto s) s

/-- A resynchronisation not complete in 100 microseconds fences the link. (R373) -/
def fireResyncTimeout (port : Nat) (s : State) : Option State :=
  match (getPort18 s port).resyncing with
  | some t => if portUp s port && decide (t + 180000 ≤ s.cycle) then some (fenceLink port s) else none
  | none => none
/-- `RESYNC_TIMEOUT`, R373. -/
def execResyncTimeout (port : Nat) (s : State) : Host.Outcome State Fault Refusal := eventStep (Config.hasPort port) (fireResyncTimeout port s) s

/-- A transmitter idle for 1 microsecond sends a keepalive. (R372) -/
def fireKeepalive (port : Nat) (s : State) : Option State :=
  let p := getPort18 s port
  if portUp s port && decide (p.sent + 1800 ≤ s.cycle) && p.resyncing.isNone && portRoom s port 1 && !s.viral then some (sendKind 2 false port [[]] s)
  else none
/-- `KEEPALIVE`, R372. -/
def execKeepalive (port : Nat) (s : State) : Host.Outcome State Fault Refusal := eventStep (Config.hasPort port) (fireKeepalive port s) s

/-- Every 2^32 flits a routine key update runs. (R373) -/
def fireRoutineKeyUpdate (port : Nat) (s : State) : Option State :=
  let p := getPort18 s port
  if portUp s port && decide (2 ^ 32 ≤ p.sinceKey) && p.resyncing.isNone && portRoom s port 1 && !s.viral then
    let s1 := sendKind 3 false port [[]] s
    let q := getPort18 s1 port
    some (setPort18 port { q with txKey := Config.nextKey q.txKey, oldKey := q.txKey, keyFrom := q.tx, keyEpoch := q.keyEpoch + 1, sinceKey := 0 } s1)
  else none
/-- `ROUTINE_KEY_UPDATE`, R373. -/
def execRoutineKeyUpdate (port : Nat) (s : State) : Host.Outcome State Fault Refusal := eventStep (Config.hasPort port) (fireRoutineKeyUpdate port s) s

/-- Whether a peer's chain leads from the Jenuth root to its identity, and the key exchange is signed with that; a requester has also challenged
its responder (R379). -/
def peerGenuine (requester : Bool) (peer : PeerHello) (challenge : List Byte) : Bool :=
  Config.chainVerifies peer.chain peer.key && Config.keyVerifies peer.key peer.share peer.exchangeSig
    && (!requester || Config.keyVerifies peer.key challenge peer.challengeSig)
/-- The secret of the session with a package, from which the keys of all links to it come: that of a link to it that is up, if there is one
(R379). -/
def peerSecret (s : State) (id : Nat) (share : List Byte) : List Byte :=
  match s.ports.find? fun p => p.st == .up && p.peer == id with
  | some p => p.secret
  | none => Config.mlkemShared share
/-- Two packages' management cores establish a mutually authenticated link session: the package with the lower identity is the requester, each
side checks the other's chain and its identity in some partition's peer table, and the link keys come from the session's secret. (R379) -/
def firePeerSession (port : Nat) (peer : PeerHello) (challenge : List Byte) (s : State) : Option State :=
  let p := getPort18 s port
  let id := identityOf peer.key
  let secret := peerSecret s id peer.share
  let requester := decide (ownIdentity < id)
  if (p.st = .down ∨ p.st = .training) ∧ booted s ∧ !s.viral then
    some (setPort18 port
      (if peerGenuine requester peer challenge && peer.accepted && knownPeer s id && id != ownIdentity then
        { Port.start with
          st := .up, keyEpoch := p.keyEpoch + 1, heard := s.cycle, sent := s.cycle, retries := p.retries, resyncs := p.resyncs,
          fences := p.fences, peer := id, secret := secret, link := peer.link % 2 ^ 32,
          txKey := Config.linkKey secret (b2n !requester), rxKey := Config.linkKey secret (b2n requester) }
      else { p with st := .down }) s)
  else none
/-- `PEER_SESSION`, R379. -/
def execPeerSession (port : Nat) (peer : PeerHello) (challenge : List Byte) (s : State) : Host.Outcome State Fault Refusal :=
  eventStep (Config.hasPort port) (firePeerSession port peer challenge s) s

/-- A session request returns a fenced Chrolin port to training. (R386) -/
def firePortReset (port : SessionNat) (s : State) : Option State :=
  let p := getPort18 s port.val
  request port.part (if p.st = .fenced then
    some (setPort18 port.val { Port.start with st := .training, keyEpoch := p.keyEpoch, retries := p.retries, resyncs := p.resyncs, fences := p.fences } s)
  else none) s
/-- `PORT_RESET`, R386. -/
def execPortReset (port : SessionNat) (s : State) : Host.Outcome State Fault Refusal := eventStep (Config.hasPort port.val) (firePortReset port s) s

end Sys2Proof.Machine
end

