-- ==== Sys2Proof/Machine/BootEvents.lean ====
section
/-! DEFINITION. Start-up, the scan of the fresco tier and installs of weight images (R349 to R352, R375, R376). -/

namespace Sys2Proof.Machine

/-! ## Programming rows outside a command (R337, R349, R352) -/

/-- Programs one row: a first loop on its serving row, or on a spare when that is worn; a second on a spare when the first does
not verify. `own` and `spare` tell whether a loop on each verifies. Whether the row could be programmed. -/
def programRow (own spare : Bool) (row : Nat) (src : List Byte) (s : State) : Bool × State :=
  let bank := bankOf row
  let onSpare : State → Bool × State := fun s =>
    match freeSpare s bank with
    | none => (false, s)
    | some n =>
      let s1 := useSpare bank n s
      if spare then (true, placeRow row (.spare bank n) true src s1)
      else (false, retireRow (.spare bank n) (addWear (.spare bank n) s1))
  let at0 := servingRow s row
  if (getDie s (row / 2 ^ 29)).wearLimit ≤ wearOf s at0 then onSpare s
  else if own then (true, placeRow row at0 false src s)
  else onSpare (addWear at0 s)
/-- Programs rows in order until one fails. -/
def programRows (aid : InstallAid) : List (Nat × List Byte) → State → Bool × State
  | [], s => (true, s)
  | x :: r, s =>
    let y := programRow (!aid.unverified.contains x.1) (!aid.spareFails.contains x.1) x.1 x.2 s
    if y.1 then programRows aid r y.2 else y

/-! ## Start-up (R375, R376) -/

/-- Steps 1 and 2 on a die: firmware that verifies and equals that of die 0 runs. -/
def bootDie (fw : List (List Byte)) (d : Nat) : Die :=
  let x := fw.getD d []
  { Die.start with firmware := x, started := Config.mldsaVerify (Config.secret 0) x && x == fw.getD 0 [] }
/-- Measurements 1 to 3 (R376). -/
def bootMeasures (fw : List (List Byte)) : List (Nat × List Byte) :=
  [(1, Crypto.shake256 (Config.secret 1) 64), (2, Crypto.shake256 (fw.getD 0 []) 64), (3, Crypto.shake256 (Config.secret 2) 64)]
/-- What a package reset leaves: the fresco tier, the log and its counters survive; a retained class 5 record is delivered
to the ring of the die that failed (R352, R358, R370, R384). -/
def resetPackage (fw : List (List Byte)) (s : State) : State :=
  let used := s.usedSpares.filter fun r => match r with
    | .spare b n => s.remap.any fun x => bankOf x.1 == b && x.2 == n
    | .own _ => false
  let s1 := { State.reset with
    free := s.free, seq := s.seq, stamp := s.stamp, agenda := s.agenda,
    fresco := s.fresco, frescoBad := s.frescoBad, wear := s.wear, remap := s.remap, retired := s.retired, usedSpares := used,
    log := s.log, checkpoints := s.checkpoints.map (fun c => { c with made := 0 }),
    dies := (List.range 8).map (bootDie fw), measures := bootMeasures fw, power := { s.power with low := none, fine := none } }
  match s.retained with
  | none => s1
  | some (d, r) => logEvent 6 0x3F (r.flatMap fun x => toBytes 8 x.toNat) (setDie d { getDie s1 d with ring := [r] } s1)

/-! ## The scan (R351, R352) -/

def slotDigest (s : State) (slot : Nat) : List Byte :=
  if s.frescoBad.any (fun r => r / 256 == slot) then List.replicate 32 0xFF
  else Crypto.shake256 (toBytes 4 slot ++ Memory.gets s.fresco (slot * 2 ^ 14) 16384) 32
/-- The subtree of depth `k` whose leaves begin at slot `i * 2 ^ k`. -/
def frescoTree (s : State) : Nat → Nat → List Byte
  | 0, i => slotDigest s i
  | k + 1, i => Crypto.shake256 (frescoTree s k (2 * i) ++ frescoTree s k (2 * i + 1)) 32
def frescoRoot (s : State) (die : Nat) : List Byte := frescoTree s 21 die
/-- Once every die that runs has scanned, links come up (R375 step 4): those between dies that run, the host links on their dies (R2),
and the Chrolin ports begin to train. -/
def bringUp (s : State) : State :=
  if booted s then
    { s with
      edges := Config.internalEdges.map fun e => (getDie s e.1).started && (getDie s e.2).started,
      ports := s.ports.map fun p => if p.st = .down then { p with st := .training } else p,
      hosts := s.hosts.zipIdx.map fun (h, i) => 
        let up := (getDie s (Config.hostPortDie i)).started
        { h with up := up, cxl := up && Config.hostCxl i } }
  else s
/-- The scan of a die. -/
def scanDie (die : Nat) (bad weak : List Nat) (s : State) : State :=
  let s1 := { s with frescoBad := (s.frescoBad ++ bad).eraseDups }
  let s2 := (s1.frescoBad.filter fun r => r / 2 ^ 29 == die).foldl (fun s _ => plainRecord die 5 2 0 0 0 2 0 0 none none s) s1
  let s3 := weak.foldl (fun s r => (programRow (Config.cellVerifies s.free) (Config.cellVerifies (s.free + 1)) r (Memory.gets s.fresco (64 * r) 64)
    { s with free := s.free + 2 }).2) s2
  let root := frescoRoot s2 die
  bringUp { setDie die { getDie s3 die with scanned := true, root := root } s3 with
    measures := assocSet (16 + die) (Crypto.shake256 root 64) s3.measures }

/-! ## Installs (R349) -/

def installDie (im : List Byte) : Nat := bits (ofBytes ((im.drop 8).take 8)) 63 56
def installCount (im : List Byte) : Nat := bits (ofBytes (im.take 8)) 31 0
/-- Bytes of an image of `n` tiles. -/
def installBytes (n : Nat) : Nat := 0x630 + 16408 * n
/-- Where an image may lie: in LPDDR of the partition, or in host memory. -/
def installPlace (s : State) (part a n : Nat) : Bool :=
  (physHost a && physOk a && physOk (a + n - 1) && bit (a + n - 1) 50 == bit a 50) || (isLpddr a && partFrame (getPart s part) a n)
/-- Whether some sector of these bytes fails its read (R356). -/
def sectorsFail (s : State) (a n : Nat) : Bool := s.marks.any fun m => decide (a < m.1 + 64) && decide (m.1 < a + n)
/-- The header and the slots of an install. Reserved bits are ignored (R8). -/
def installOk (s : State) (part : Nat) (world : Bool) (im : List Byte) (slots : List Nat) : Bool :=
  decide (bits (ofBytes (im.take 8)) 63 48 = 1) && Config.hasDie (installDie im) && decide (slots.length = installCount im) && decide (slots.eraseDups = slots)
    && slots.all fun k => frescoOwned (getPart s part) world k && decide (k / 2 ^ 21 = installDie im)
      && !(s.rtc.any fun x => match x.2.run with | some r => r.tile / 2 ^ 14 == k | none => false)
/-- The image key, under the encapsulation key of the die the image targets. -/
def installKey (im : List Byte) : List Byte :=
  Crypto.shake256 (Config.mlkemOpen (installDie im) ((im.drop 0x10).take 1568)
    ++ [0x4A, 0x44, 0x59, 0x20, 0x46, 0x52, 0x45, 0x53, 0x43, 0x4F] ++ im.take 16) 32
def installHeader (im : List Byte) (j : Nat) : List Byte := (im.drop (0x630 + 16408 * j)).take 8
def installTile (im : List Byte) (j : Nat) : Nat := ofBytes ((installHeader im j).take 4)
/-- A tile record opened: smoothing format and bytes; none when its tag or its header fails. -/
def openTile (im : List Byte) (j : Nat) : Option (Nat × List Byte) :=
  let h := ofBytes (installHeader im j)
  let f := bits h 35 32
  if !([0, 2, 4, 5, 6].contains f) ∨ 2 ^ 24 ≤ bits h 31 0 then none
  else match Crypto.gcmOpen (installKey im) (toBytes 4 (installTile im j) ++ List.replicate 8 0) (im.take 16 ++ installHeader im j)
      ((im.drop (0x630 + 16408 * j + 8)).take 16400) with
    | none => none
    | some d => if d.length = 16384 then some (f, d) else none
/-- The 256 rows of a tile as they are programmed. -/
def tileRows (slot f : Nat) (d factors : List Byte) : List (Nat × List Byte) :=
  let fs := (List.range 128).map fun i => (BitVec.ofNat 32 (ofBytes ((factors.drop (4 * i)).take 4)) : Word32)
  (List.range 256).map fun r => (slot * 256 + r, smoothRow f r ((d.drop (64 * r)).take 64) fs)
/-- Programs tile records in order until one fails: its tag, its header, a sector it is read from (R356), or a row. -/
def installTiles (image : Nat) (im : List Byte) (aid : InstallAid) : List (Nat × Nat) → State → Bool × State
  | [], s => (true, s)
  | (slot, j) :: r, s =>
    if sectorsFail s (image + installBytes j) 16408 then (false, s)
    else match openTile im j with
    | none => (false, s)
    | some (f, d) =>
      let y := programRows aid (tileRows slot f d (aid.factors.getD j [])) s
      if y.1 then installTiles image im aid r y.2 else y
/-- No entry of a partition's map names one of these slots any more. -/
def unmapSlots (part : Nat) (slots : List Nat) (s : State) : State :=
  setPart part { getPart s part with fmap := (getPart s part).fmap.filter fun x => !slots.contains (bits x.2.toNat 39 16) } s
def mapTiles (part : Nat) (world : Bool) (im : List Byte) (slots : List Nat) (s : State) : State :=
  setPart part { getPart s part with
    fmap := slots.zipIdx.foldl (fun m (k, j) => assocSet (world, installTile im j) (BitVec.ofNat 64 (k * 2 ^ 16 + b2n world * 2 + 1)) m)
      (getPart s part).fmap } s

/-- Each management core verifies and measures firmware before the tier scan and link bring-up. (R375) -/
def firePackageReset (firmware : List (List Byte)) (s : State) : Option State :=
  some (resetPackage firmware s)
/-- `PACKAGE_RESET`, R375. -/
def execPackageReset (firmware : List (List Byte)) (s : State) : Host.Outcome State Fault Refusal := eventStep true (firePackageReset firmware s) s

/-- The start-up scan hashes the fresco tier, logs bad rows and rewrites corrected ones. (R352) -/
def fireFrescoScan (die : Nat) (bad : List Nat) (weak : List Nat) (s : State) : Option State :=
  let d := getDie s die
  if d.started ∧ !d.scanned ∧ (bad ++ weak).all (fun r => decide (r / 2 ^ 29 = die)) then some (scanDie die bad weak s) else none
/-- `FRESCO_SCAN`, R352. -/
def execFrescoScan (die : Nat) (bad : List Nat) (weak : List Nat) (s : State) : Host.Outcome State Fault Refusal := eventStep (Config.hasDie die) (fireFrescoScan die bad weak s) s

/-- A sealed weight image is decrypted, checked and programmed through the retouch engines. It is read where it lies. (R349) -/
def fireInstallRequest (part : Nat) (world : Bool) (image : Nat) (slots : List Nat) (aid : InstallAid) (s : State) : Option State :=
  let im := memBytes s image (installBytes slots.length)
  request part (if partExists s part && installPlace s part image (installBytes slots.length) && installOk s part world im slots then
    let s1 := unmapSlots part slots s
    let y := if sectorsFail s image 0x630 then (false, s1) else installTiles image im aid slots.zipIdx s1
    let who := toBytes 4 (slots.getD 0 0) ++ toBytes 4 slots.length
    some (if y.1 then logEvent 1 part who (mapTiles part world im slots y.2) else logEvent 6 part who y.2)
  else none) s
/-- `INSTALL_REQUEST`, R349. -/
def execInstallRequest (part : Nat) (world : Bool) (image : Nat) (slots : List Nat) (aid : InstallAid) (s : State) : Host.Outcome State Fault Refusal := eventStep (decide (part < 64)) (fireInstallRequest part world image slots aid s) s

end Sys2Proof.Machine
end

