-- ==== Sys2Proof/Machine/SessionEvents.lean ====
section
/-! DEFINITION. Sessions, meters, the provenance log and the host (R377 to R385). -/

namespace Sys2Proof.Machine

/-! ## The responder (R377) -/

/-- Whether requests reach the responder through a port: configuration requests are answered before the link is up (R375). -/
def answers (s : State) (port : Nat) : Bool := (getDie s 0).started && (getDie s (Config.hostPortDie port)).started && !(getHost s port).blocked
/-- A request: one for an option that is not supported is answered so. -/
def respond (port : Nat) (req : SpdmReq) (r : State → State) (s : State) : Option State :=
  if !answers s port then none
  else if req.unsupported then some (answer port .unsupportedRequest s)
  else some (r s)
/-- Whether a request's message opens under the keys of a session, and is the request (R377). -/
def opens (x : Session) (req : SpdmReq) : Bool :=
  Crypto.gcmOpen (Config.sessionKey x.key 0).toList (sessionNonce x.received) [] req.sealed == some req.data
/-- A request inside a session (R378): outside of one, in its grace period or under other keys it answers SESSION_REQUIRED. -/
def inSession (port : Nat) (req : SpdmReq) (r : State → State) (s : State) : State :=
  match assoc req.part s.sessions with
  | some x => if x.port = port ∧ x.losing.isNone ∧ opens x req then r (hear req.part s) else answer port .sessionRequired s
  | none => answer port .sessionRequired s
def chosenMeasures (s : State) (k : Nat) : List (Nat × List Byte) := if k = 0xFF then s.measures else s.measures.filter fun m => m.1 == k

/-! ## Loss of a session (R378) -/

/-- Nodes of a partition that a kill reaches, and whether one killed has not been released. -/
def liveNodes (s : State) (part : Nat) : List Nat :=
  (List.range s.nodes.length).filter fun n => (match getNode s n with | some d => d.part == part | none => false) && (killable s n || (getSaved s n).isSome)
def dyingNodes (s : State) (part : Nat) : Bool := s.nodes.any fun d => d.part == part && d.st == .killed
/-- Keys zeroised; clusters, LPDDR regions and saved images drained, with the reservations and the stores that have not left. The partition
stays, and with it the resident areas on its clusters; the copies that its LPDDR holds of others go (R165, R378; DEDUCED, log entry 79). -/
def zeroise (part : Nat) (s : State) : State :=
  let s0 := (List.range s.nodes.length).foldl (fun s n => match getNode s n with
    | some d => if d.part = part then
        let s1 := dropReservation n (match d.saved with | some v => dropImages v s | none => s)
        { s1 with nodes := s1.nodes.modify n fun d => { d with saved := none, laid := none } }
      else s
    | none => s) (dropKept part (fun _ => true) (dropStores part s))
  let p := getPart s0 part
  let s1 := p.clusters.foldl (fun s c => drainCluster true c.1 s) s0
  let mine : Nat → Bool := fun a => isLpddr a && p.regions.any fun r => r.die == physDie a && decide (r.base ≤ physOff a) && decide (physOff a < r.base + r.size)
  let s2 := { s1 with
    mem := s1.mem.filter (fun x => !mine x.1), marks := s1.marks.filter (fun x => !mine x.1), dirty := s1.dirty.filter (fun x => !mine x.1),
    overlay := s1.overlay.filter (fun x => !mine x.1.2), stagedBy := s1.stagedBy.filter (fun x => !mine x.1.2),
    lines := s1.lines.filter (fun x => !mine (x.1 * 512)), past := s1.past.filter (fun x => !mine x.addr),
    flips := s1.flips.filter (fun x => !mine x.1), sessions := assocDrop part s1.sessions }
  setPart part { getPart s2 part with images := p.images.map (fun i => { i with key := [] }), sealKey := [] } s2

/-! ## Access by the host (R211, R385) -/

/-- Port, partition and physical address behind a BAR 2 address: bit [36] names the port, [35:31] the window. All bytes lie in frames of the
window's partition. -/
def windowPhys (s : State) (a n : Nat) : Option (Nat × Nat × Nat) :=
  let port := bits a 36 36
  if 2 ^ 37 ≤ a ∨ 2 ^ 31 < a % 2 ^ 31 + n ∨ n = 0 then none
  else s.parts.findSome? fun x => match assoc (port, bits a 35 31) x.2.windows with
    | some b => if partFrame x.2 (b + a % 2 ^ 31) n then some (port, x.1, keptPhys x.1 x.2 (b + a % 2 ^ 31)) else none
    | none => none
/-- A host read is performed and answered. -/
def hostRead (port a n p : Nat) (s : State) : State :=
  let r := coreRead outside none ((List.range n).map (p + ·)) s
  answer port (.bytes a r.1) r.2

/-- SPDM GET_VERSION request. (R377) -/
def fireGetVersion (port : Nat) (s : State) : Option State :=
  if answers s port then
    some (answer port .version (setHost port { getHost s port with negotiated := false, exchange := none } s)) else none
/-- `GET_VERSION`, R377. -/
def execGetVersion (port : Nat) (s : State) : Host.Outcome State Fault Refusal := eventStep (Config.hasHostPort port) (fireGetVersion port s) s

/-- SPDM GET_CAPABILITIES request. (R377) -/
def fireGetCapabilities (port : Nat) (req : SpdmReq) (s : State) : Option State :=
  respond port req (answer port .capabilities) s
/-- `GET_CAPABILITIES`, R377. -/
def execGetCapabilities (port : Nat) (req : SpdmReq) (s : State) : Host.Outcome State Fault Refusal := eventStep (Config.hasHostPort port) (fireGetCapabilities port req s) s

/-- SPDM NEGOTIATE_ALGORITHMS request. (R377) -/
def fireNegotiateAlgorithms (port : Nat) (req : SpdmReq) (s : State) : Option State :=
  respond port req (fun s => answer port .algorithms (setHost port { getHost s port with negotiated := true } s)) s
/-- `NEGOTIATE_ALGORITHMS`, R377. -/
def execNegotiateAlgorithms (port : Nat) (req : SpdmReq) (s : State) : Host.Outcome State Fault Refusal := eventStep (Config.hasHostPort port) (fireNegotiateAlgorithms port req s) s

/-- SPDM GET_DIGESTS request. (R377) -/
def fireGetDigests (port : Nat) (req : SpdmReq) (s : State) : Option State :=
  respond port req (answer port (.digests (Crypto.shake256 Config.certChain 64))) s
/-- `GET_DIGESTS`, R377. -/
def execGetDigests (port : Nat) (req : SpdmReq) (s : State) : Host.Outcome State Fault Refusal := eventStep (Config.hasHostPort port) (fireGetDigests port req s) s

/-- SPDM GET_CERTIFICATE request for slot 0. (R377) -/
def fireGetCertificate (port : Nat) (req : SpdmReq) (s : State) : Option State :=
  respond port req (fun s => answer port (if req.slot = 0 then .certificate Config.certChain else .unsupportedRequest) s) s
/-- `GET_CERTIFICATE`, R377. -/
def execGetCertificate (port : Nat) (req : SpdmReq) (s : State) : Host.Outcome State Fault Refusal := eventStep (Config.hasHostPort port) (fireGetCertificate port req s) s

/-- SPDM CHALLENGE request. (R377) -/
def fireChallenge (port : Nat) (req : SpdmReq) (s : State) : Option State :=
  respond port req (fun s =>
    if req.slot = 0 then
      logEvent 3 0x3F (toBytes 1 port) (answer port (.challengeAuth (Config.mldsaSign (req.data ++ s.measures.flatMap fun m => toBytes 1 m.1 ++ m.2))) s)
    else answer port .unsupportedRequest s) s
/-- `CHALLENGE`, R377. -/
def execChallenge (port : Nat) (req : SpdmReq) (s : State) : Host.Outcome State Fault Refusal := eventStep (Config.hasHostPort port) (fireChallenge port req s) s

/-- SPDM GET_MEASUREMENTS returning the measurement blocks. (R376) -/
def fireGetMeasurements (port : Nat) (req : SpdmReq) (s : State) : Option State :=
  respond port req (fun s =>
    let ms := chosenMeasures s req.slot
    logEvent 3 0x3F (toBytes 1 port ++ toBytes 1 req.slot)
      (answer port (.measurements ms (Config.mldsaSign (req.data ++ ms.flatMap fun m => toBytes 1 m.1 ++ m.2))) s)) s
/-- `GET_MEASUREMENTS`, R376. -/
def execGetMeasurements (port : Nat) (req : SpdmReq) (s : State) : Host.Outcome State Fault Refusal := eventStep (Config.hasHostPort port) (fireGetMeasurements port req s) s

/-- SPDM KEY_EXCHANGE with ML-KEM-1024, under the certificate of slot 0. The answer is signed with
ML-DSA-65, and both sides hold the secret that the ciphertext carries. (R377) -/
def fireKeyExchange (port : Nat) (req : SpdmReq) (s : State) : Option State :=
  let ms := req.grace.getD 100
  respond port req (fun s =>
    if req.slot ≠ 0 ∨ (assoc req.part s.sessions).isSome ∨ 64 ≤ req.part ∨ req.period = 0 ∨ 60 < req.period ∨ 10000 < ms then answer port .unsupportedRequest s
    else
      let ct := Config.mlkemSeal s.free req.data
      answer port (.keyExchanged ct (Config.mldsaSign (req.data ++ ct))) (setHost port { getHost s port with
        exchange := some (req.part, req.period * 1000000, ms * 1000, Config.mlkemShared ct) } { s with free := s.free + 1 })) s
/-- `KEY_EXCHANGE`, R377. -/
def execKeyExchange (port : Nat) (req : SpdmReq) (s : State) : Host.Outcome State Fault Refusal := eventStep (Config.hasHostPort port) (fireKeyExchange port req s) s

/-- SPDM FINISH establishing the secured session. (R377) The first on a port gives its IDE stream a key (R385; DESIGN CHOICE, log entry 152). -/
def fireFinish (port : Nat) (req : SpdmReq) (s : State) : Option State :=
  respond port req (fun s => match (getHost s port).exchange with
    | some (part, period, grace, secret) =>
      if (assoc part s.sessions).isSome then answer port .unsupportedRequest s
      else tell part .finished (setSession part ⟨port, secret, period, grace, 0, 0, 0, s.cycle, none⟩ (setHost port { getHost s port with
        exchange := none, ide := if (getHost s port).ide.isEmpty then (Config.sessionKey secret 2).toList else (getHost s port).ide } s))
    | none => answer port .unsupportedRequest s) s
/-- `FINISH`, R377. -/
def execFinish (port : Nat) (req : SpdmReq) (s : State) : Host.Outcome State Fault Refusal := eventStep (Config.hasHostPort port) (fireFinish port req s) s

/-- SPDM HEARTBEAT keeping the secured session alive. (R378) -/
def fireHeartbeat (port : Nat) (req : SpdmReq) (s : State) : Option State :=
  respond port req (inSession port req (tell req.part .heartbeatAck)) s
/-- `HEARTBEAT`, R378. -/
def execHeartbeat (port : Nat) (req : SpdmReq) (s : State) : Host.Outcome State Fault Refusal := eventStep (Config.hasHostPort port) (fireHeartbeat port req s) s

/-- SPDM KEY_UPDATE of session keys. (R377) The answer goes out under the old keys. -/
def fireKeyUpdate (port : Nat) (req : SpdmReq) (s : State) : Option State :=
  respond port req (inSession port req fun s =>
    let s1 := tell req.part .keyUpdateAck s
    { s1 with sessions := s1.sessions.map fun x =>
        if x.1 = req.part then (x.1, { x.2 with key := Config.nextKey x.2.key, keyEpoch := x.2.keyEpoch + 1, received := 0, sent := 0 }) else x }) s
/-- `KEY_UPDATE`, R377. -/
def execKeyUpdate (port : Nat) (req : SpdmReq) (s : State) : Host.Outcome State Fault Refusal := eventStep (Config.hasHostPort port) (fireKeyUpdate port req s) s

/-- SPDM END_SESSION. (R377) -/
def fireEndSession (port : Nat) (req : SpdmReq) (s : State) : Option State :=
  respond port req (inSession port req fun s =>
    let s1 := tell req.part .sessionEnded s
    { s1 with sessions := assocDrop req.part s1.sessions }) s
/-- `END_SESSION`, R377. -/
def execEndSession (port : Nat) (req : SpdmReq) (s : State) : Host.Outcome State Fault Refusal := eventStep (Config.hasHostPort port) (fireEndSession port req s) s

/-- No message within twice the heartbeat period stops firings and egress and starts the grace period. (R378) -/
def fireHeartbeatTimeout (part : Nat) (s : State) : Option State :=
  match assoc part s.sessions with
  | some x =>
    if x.losing.isNone ∧ x.heard + 3600 * x.period ≤ s.cycle then
      some (setSession part { x with losing := some s.cycle }
        (if partExists s part then setPart part { getPart s part with noFiring := true, noEgress := true } s else s))
    else none
  | none => none
/-- `HEARTBEAT_TIMEOUT`, R378. -/
def execHeartbeatTimeout (part : Nat) (s : State) : Host.Outcome State Fault Refusal := eventStep (decide (part < 64)) (fireHeartbeatTimeout part s) s

/-- The grace period ends: nodes are killed, keys zeroised and the partition drained. (R378) -/
def fireGraceExpiry (part : Nat) (s : State) : Option State :=
  match assoc part s.sessions with
  | some x => match x.losing with
    | some t =>
      if s.cycle < t + 1800 * x.grace then none
      else if !partExists s part then some (logEvent 7 part (toBytes 1 part) { s with sessions := assocDrop part s.sessions })
      else if !(liveNodes s part).isEmpty then
        some ((liveNodes s part).foldl (fun s n => killNode n false s) (setPart part { getPart s part with zeroised := true } s))
      else if dyingNodes s part then none
      else some (logEvent 7 part (toBytes 1 part) (zeroise part (setPart part { getPart s part with zeroised := true } s)))
    | none => none
  | none => none
/-- `GRACE_EXPIRY`, R378. -/
def execGraceExpiry (part : Nat) (s : State) : Host.Outcome State Fault Refusal := eventStep (decide (part < 64)) (fireGraceExpiry part s) s

/-- A session request sets an egress bucket's rate and burst. (R380) -/
def fireBucketConfig (part port rate burst : Nat) (s : State) : Option State :=
  request part (if partExists s part && decide (rate ≤ 262143) && decide (4096 ≤ burst) && decide (burst ≤ 16777216) then
    let b := refill (getPart s part).noEgress (s.cycle - (bucketOf s part port).upto) (bucketOf s part port)
    some (setBucket part port { b with rate := rate, burst := burst, level := min b.level burst, frac := if b.level < burst then b.frac else 0 } s)
  else none) s
/-- `BUCKET_CONFIG`, R380. -/
def execBucketConfig (part port rate burst : Nat) (s : State) : Host.Outcome State Fault Refusal := eventStep ((decide (part < 64) && decide (port < 20))) (fireBucketConfig part port rate burst s) s

/-- A bucket refills at its rate and releases waiting egress in arrival order. (R381) -/
def fireEgressBucketRefill (part port : Nat) (ticks : Nat) (s : State) : Option State :=
  let b := bucketOf s part port
  if partExists s part && decide (0 < ticks) && decide (b.upto + ticks ≤ s.cycle) then
    some (setBucket part port (refill (getPart s part).noEgress ticks b) s)
  else none
/-- `EGRESS_BUCKET_REFILL`, R381. -/
def execEgressBucketRefill (part port : Nat) (ticks : Nat) (s : State) : Host.Outcome State Fault Refusal := eventStep ((decide (part < 64) && decide (port < 20))) (fireEgressBucketRefill part port ticks s) s

/-- After 4,096 entries or one second a signed checkpoint of the provenance log is made. (R384) -/
def fireLogCheckpoint (s : State) : Option State :=
  match s.log.getLast? with
  | none => none
  | some e =>
    let before := match s.checkpoints.getLast? with | some c => (c.num + 1, c.made) | none => (0, 0)
    let new := e.num + 1 - before.1
    if 4096 ≤ new ∨ (0 < new ∧ before.2 + 1800000000 ≤ s.cycle) then
      some { s with checkpoints := s.checkpoints ++ [⟨e.num, s.cycle, Config.mldsaSign (toBytes 8 e.num ++ e.chain)⟩] }
    else none
/-- `LOG_CHECKPOINT`, R384. -/
def execLogCheckpoint (s : State) : Host.Outcome State Fault Refusal := eventStep true (fireLogCheckpoint s) s

/-- An island control word as the session reads it (R387). -/
def islandWord (x : Island) : Nat := x.steps * 2 ^ 16 + b2n x.expert * 2 ^ 15 + b2n x.gated * 2 ^ 14 + x.setpoint
/-- What a session reads: log entries and checkpoints (R384), the partition's fault ring or a die's (R358), a Chrolin port (R386), an island
control word (R387), the coolant sensors of a module (R1, R390). -/
def sessionReply (s : State) (part : Nat) : SessionRead → Option Reply
  | .entry n =>
    let final := s.checkpoints.find? fun c => decide (n ≤ c.num)
    if n + Config.logCapacity < s.log.length then some (.checkpoint final) else (s.log[n]?).map fun e => .entry e final
  | .faults => some (.faults (getPart s part).ring)
  | .dieFaults d => if Config.hasDie d then some (.faults (getDie s d).ring) else none
  | .port k => (s.ports[k]?).map fun p => .portStatus p.st p.retries p.resyncs p.fences
  | .island d i => if Config.hasIsland d i then some (.islandControl (islandWord (getIsland s d i))) else none
  | .coolant => if s.power.bare then none else some (.coolant s.power.flow s.power.inlet)
/-- The host reads provenance entries and checkpoints through the session (R384), and what else the session reports. -/
def fireLogRead (part : Nat) (what : SessionRead) (s : State) : Option State :=
  request part ((sessionReply s part what).map fun r => tell part r s) s
/-- `LOG_READ`, R384. -/
def execLogRead (part : Nat) (what : SessionRead) (s : State) : Host.Outcome State Fault Refusal := eventStep (decide (part < 64)) (fireLogRead part what s) s

/-- The status of a host port as BAR 0 shows it; the spec lays no bits out (R385; DESIGN CHOICE, log entry 152). -/
def hostStatus (h : HostPort) : Reply := .hostPort h.up h.cxl h.blocked h.cxlViral (!h.ide.isEmpty)
/-- A host access through BAR 2 is performed at device memory in memory order, whether it comes by PCIe, by CXL.io or by CXL.mem; BAR 0 shows the
status of a port whose link is up. (R375, R385) -/
def fireHostAccess (acc : Access) (s : State) : Option State :=
  let r := accessRange acc
  match acc, windowPhys s r.1 r.2 with
  | .status port, _ => if Config.hasHostPort port && portOpen s port then some (answer port (hostStatus (getHost s port)) s) else none
  | _, none => none
  | _, some (port, part, p) =>
    if !portOpen s port then none
    else match acc with
      | .status _ => none
      | .write _ d =>
        some (storeBytes (coreWrite outside) .host none part (d.zipIdx.map fun (b, i) => (⟨p + i, 0⟩, b)) s)
      | .read a n => meteredRead part port none acc n (hostRead port a n p) s
/-- `HOST_ACCESS`, R385. -/
def execHostAccess (acc : Access) (s : State) : Host.Outcome State Fault Refusal := eventStep true (fireHostAccess acc s) s

end Sys2Proof.Machine
end

