-- ==== Sys2Proof/Machine/PowerEvents.lean ====
section
/-! DEFINITION. Operating points, thermal steps, power and cooling (R334, R387 to R390). Temperatures are in degrees Celsius, flow in mL/min. -/

namespace Sys2Proof.Machine

/-- The effective setpoint of an island (R388). -/
def effective (x : Island) : Nat := x.setpoint - 10 * x.steps
/-- One thermal step more; there are 8 at most. -/
def stepDown (x : Island) : Island := { x with steps := min 8 (x.steps + 1) }
/-- Whether a step would lower an island. -/
def canLower (x : Island) : Bool := decide (x.steps < 8) && decide (0 < effective x)
/-- The limit in force in watts (R389, R390): the coolant of a module may cap it, a bare package has none (R1). -/
def powerLimit (s : State) : Nat := if s.power.capped && !s.power.bare then min 1300 s.power.limit else s.power.limit

/-- A session request writes an island control word; its reserved and read-only bits are ignored. (R387, R8) -/
def fireIslandControlWrite (die isl : Nat) (w : SessionWord) (s : State) : Option State :=
  let v := bits w.word.toNat 7 0
  let x := getIsland s die isl
  request w.part (if v ≤ 100 then
    some (setIsland die isl (if bit w.word.toNat 15 then { x with expert := true, setpoint := v } else { x with expert := false }) s)
  else none) s
/-- `ISLAND_CONTROL_WRITE`, R387. -/
def execIslandControlWrite (die isl : Nat) (w : SessionWord) (s : State) : Host.Outcome State Fault Refusal := eventStep (Config.hasIsland die isl) (fireIslandControlWrite die isl w s) s

/-- An operating point takes effect at the island's next idle cycle boundary: at the expert level the setpoint of the control word, at the
basic level the one the governor chooses (an input, DESIGN CHOICE, log entry 133). (R387) -/
def fireOperatingPointChange (die isl point : Nat) (s : State) : Option State :=
  let x := getIsland s die isl
  let y := { x with setpoint := point, inForce := effective { x with setpoint := point } }
  if 100 < point ∨ (x.expert ∧ point ≠ x.setpoint) ∨ y = x then none else some (setIsland die isl y s)
/-- `OPERATING_POINT_CHANGE`, R387. -/
def execOperatingPointChange (die : Nat) (isl : IslandPoint) (s : State) : Host.Outcome State Fault Refusal :=
  eventStep (Config.hasIsland die isl.isl) (fireOperatingPointChange die isl.isl isl.point s) s

/-- Each millisecond a thermal step is added above 95 C or removed below 90 C. (R388) -/
def fireThermalStep (die isl : Nat) (temp : Int) (s : State) : Option State :=
  let x := getIsland s die isl
  if s.cycle < x.stepped + 1800000 then none
  else if 95 < temp ∧ x.steps < 8 then some (setIsland die isl { stepDown x with stepped := s.cycle } s)
  else if temp < 90 ∧ 0 < x.steps then some (setIsland die isl { x with steps := x.steps - 1, stepped := s.cycle } s)
  else none
/-- `THERMAL_STEP`, R388. -/
def execThermalStep (die isl : Nat) (temp : Int) (s : State) : Host.Outcome State Fault Refusal := eventStep (Config.hasIsland die isl) (fireThermalStep die isl temp s) s

/-- A sensor at 110 C makes the package viral. (R388) -/
def fireOvertemperature (die _isl : Nat) (temp : Int) (s : State) : Option State :=
  if 110 ≤ temp ∧ !s.viral then some (goViral die 9 0 0 0 s) else none
/-- `OVERTEMPERATURE`, R388. -/
def execOvertemperature (die isl : Nat) (temp : Int) (s : State) : Host.Outcome State Fault Refusal := eventStep (Config.hasIsland die isl) (fireOvertemperature die isl temp s) s

/-- Package power above the limit for 10 ms lowers islands by a thermal step. (R389) -/
def firePowerLimitExceeded (watts : Nat) (s : State) : Option State :=
  if watts ≤ powerLimit s then none
  else if s.islands.any (fun x => !x.expert && canLower x) then some { s with islands := s.islands.map fun x => if x.expert then x else stepDown x }
  else if s.islands.any canLower then some { s with islands := s.islands.map fun x => if x.expert then stepDown x else x }
  else none
/-- `POWER_LIMIT_EXCEEDED`, R389. -/
def execPowerLimitExceeded (watts : Nat) (s : State) : Host.Outcome State Fault Refusal := eventStep true (firePowerLimitExceeded watts s) s

/-- A reading of the module's sensors with low flow or high inlet temperature, kept for the session. The inlet limits the module to 1,300 W at
once, the flow when it has been low for more than 1 s, from one reading to the next (DESIGN CHOICE, log entry 165). (R390) -/
def fireCoolantFault (flow inlet : Nat) (s : State) : Option State :=
  let p := s.power
  let low := if flow < 2000 then some (p.low.getD s.cycle) else none
  if !p.bare ∧ (flow < 2000 ∨ 45 < inlet) then
    some { s with power := { p with
      flow := flow, inlet := inlet, low := low, fine := none,
      capped := p.capped || decide (45 < inlet) || low.any fun t => decide (t + 1800000000 < s.cycle) } }
  else none
/-- `COOLANT_FAULT`, R390. -/
def execCoolantFault (flow inlet : Nat) (s : State) : Host.Outcome State Fault Refusal := eventStep true (fireCoolantFault flow inlet s) s

/-- A reading of the module's sensors in range. One second after the readings have returned to range the configured limit is restored. (R390) -/
def fireCoolantRestore (flow inlet : Nat) (s : State) : Option State :=
  let p := s.power
  let since := p.fine.getD s.cycle
  if !p.bare ∧ 2000 ≤ flow ∧ inlet ≤ 45 then
    some { s with power := { p with
      flow := flow, inlet := inlet, low := none, fine := some since, capped := p.capped && decide (s.cycle < since + 1800000000) } }
  else none
/-- `COOLANT_RESTORE`, R390. -/
def execCoolantRestore (flow inlet : Nat) (s : State) : Host.Outcome State Fault Refusal := eventStep true (fireCoolantRestore flow inlet s) s

/-- The management core sets the die's fresco wear limit. (R334) -/
def fireWearLimitSet (die limit : Nat) (s : State) : Option State :=
  if 1000 ≤ limit ∧ limit ≤ 16777215 then some (setDie die { getDie s die with wearLimit := limit } s) else none
/-- `WEAR_LIMIT_SET`, R334. -/
def execWearLimitSet (die limit : Nat) (s : State) : Host.Outcome State Fault Refusal := eventStep (Config.hasDie die) (fireWearLimitSet die limit s) s

/-- A session request sets the package power limit that the governor enforces. (R389) -/
def firePowerLimitSet (watts : SessionNat) (s : State) : Option State :=
  request watts.part (if watts.val ≤ (if s.power.bare then 2300 else 2600) then some { s with power := { s.power with limit := watts.val } } else none) s
/-- `POWER_LIMIT_SET`, R389. -/
def execPowerLimitSet (watts : SessionNat) (s : State) : Host.Outcome State Fault Refusal := eventStep true (firePowerLimitSet watts s) s

end Sys2Proof.Machine
end

