-- ==== Sys2Proof/Machine/Schedule.lean ====
section
/-! DEFINITION. What happens next by itself: the events that are due, in one fixed order, and the core whose cycle comes after
them. Events that are inputs, and choices of the partition manager, come from the agenda instead (DESIGN CHOICE, log entry 20). -/

namespace Sys2Proof.Machine

/-- The events of a list that are due: each is given with what it does. -/
def firstDue : List (Instr × Option State) → Option Instr
  | [] => none
  | (e, some _) :: _ => some e
  | (_, none) :: r => firstDue r

/-- Lines that contexts wait for (R14, R15). -/
def linesWanted (s : State) : List (Instr × Option State) :=
  s.ctxs.filterMap fun x =>
    let waits : Bool := match x.2.run with
      | .runnable => true
      | .replay _ _ => true
      | _ => false
    if !waits || x.2.nap != .awake || x.2.stopped || s.viral then none
    else match fetchBundle opOfField s x.1 with
      | .missing l => some (.lineFetch x.1.coreId l, fireLineFetch x.1.coreId l s)
      | _ => none
/-- Events of one context. -/
def ctxEvents (s : State) (c : CtxId) (x : Ctx) : List (Instr × Option State) :=
  ((allLandings x).flatMap fun l =>
    [(Instr.timedDataArrival c l.id, fireTimedDataArrival c l.id s), (Instr.pageWalkComplete c l.id, firePageWalkComplete c l.id s)])
  ++ [(.sketchReplayComplete c, fireSketchReplayComplete c s), (.sleepTimeout c, fireSleepTimeout c s), (.bwaitWake c, fireBwaitWake c s),
      (.fenceComplete c, fireFenceComplete c s), (.pinExpiry c, firePinExpiry c s)]
def mexEvents (s : State) (e : EngId) : List (Instr × Option State) :=
  [(.mldwComplete e, fireMldwComplete e s), (.streamPromotion e, fireStreamPromotion e s), (.mstrComplete e, fireMstrComplete e s),
   (.mzeroComplete e, fireMzeroComplete e s), (.drainRow e, fireDrainRow e s), (.mdrnComplete e, fireMdrnComplete e s),
   (.mexCommandStart e, fireMexCommandStart e s)]
def cpyEvents (s : State) (e : DieEng) (m : Cpy) : List (Instr × Option State) :=
  (m.runs.flatMap fun r =>
    [(Instr.chunkFetch e r.cmd.id false, fireChunkFetch e r.cmd.id false s), (Instr.chunkWrite e r.cmd.id, fireChunkWrite e r.cmd.id s),
     (Instr.copyComplete e r.cmd.id, fireCopyComplete e r.cmd.id s)]) ++ [(.copyStart e, fireCopyStart e s)]
/-- Planes that may arrive at a run. -/
def planeEvents (s : State) (e : DieEng) (r : GlzRun) : List (Instr × Option State) :=
  match collOf s r.cmd.seq with
  | none => []
  | some k => (List.range r.blocks.length).flatMap fun b => (List.range k.cons.length).map fun j =>
      (Instr.glazePlaneReceive e r.cmd.id b j, fireGlazePlaneReceive e r.cmd.id b j s)
def glzEvents (s : State) (e : DieEng) (m : Glz) : List (Instr × Option State) :=
  (m.runs.flatMap fun r =>
    [(Instr.glazeTimeout e r.cmd.id, fireGlazeTimeout e r.cmd.id s), (Instr.glazeAbort e r.cmd.id, fireGlazeAbort e r.cmd.id s),
     (Instr.glazeCancelAck e r.cmd.id, fireGlazeCancelAck e r.cmd.id s), (Instr.glazeRoundSend e r.cmd.id, fireGlazeRoundSend e r.cmd.id s)]
    ++ planeEvents s e r ++ [(Instr.glazeComplete e r.cmd.id, fireGlazeComplete e r.cmd.id s)]) ++ [(.glazeStart e, fireGlazeStart e s)]
def rtcEvents (s : State) (e : DieEng) : List (Instr × Option State) :=
  let ok := Config.cellVerifies s.free
  [(.twrtComplete e, fireTwrtComplete e s), (.writeAndCheckLoop e ok, fireWriteAndCheckLoop e ok s), (.retouchRowStart e, fireRetouchRowStart e s),
   (.retouchCommandStart e, fireRetouchCommandStart e s)]
def nodeEvents (s : State) (n : Nat) : List (Instr × Option State) :=
  [(.nodeCommit n, fireNodeCommit n s), (.nodeFail n, fireNodeFail n s), (.killedNodeRelease n, fireKilledNodeRelease n s),
   (.quiesceComplete n, fireQuiesceComplete n s), (.swapSaveComplete n, fireSwapSaveComplete n s), (.restoreComplete n, fireRestoreComplete n s),
   (.nodeStart n, fireNodeStart n s), (.nodeReady n, fireNodeReady n s), (.placement n, firePlacement n s)]
def islandEvents (s : State) (d i : Nat) : List (Instr × Option State) :=
  [(.islandWake d i, fireIslandWake d i s), (.operatingPointChange d ⟨i, (getIsland s d i).setpoint⟩, fireOperatingPointChange d i (getIsland s d i).setpoint s), (.islandGate d i, fireIslandGate d i s)]
def portEvents (s : State) (k : Nat) : List (Instr × Option State) :=
  let upto := ((s.ports.getD k Port.start).resend.map (·.1)).foldl max 0
  [(.linkSilenceTimeout k, fireLinkSilenceTimeout k s), (.resyncTimeout k, fireResyncTimeout k s), (.flitResend k upto, fireFlitResend k upto s),
   (.routineKeyUpdate k, fireRoutineKeyUpdate k s), (.keepalive k, fireKeepalive k s)]
/-- Buckets whose refill lets a waiting request go (R381). -/
def bucketEvents (s : State) : List (Instr × Option State) :=
  s.parts.flatMap fun p => p.2.buckets.filterMap fun b =>
    let n := s.cycle - b.2.upto
    if (refill p.2.noEgress n b.2).waiting == b.2.waiting then none else some (.egressBucketRefill p.1 b.1 n, fireEgressBucketRefill p.1 b.1 n s)
def managerEvents (s : State) : List (Instr × Option State) :=
  ((List.range 8).map fun d => (Instr.syscReply d, fireSyscReply d s))
  ++ ((List.range s.shoots.length).flatMap fun k => [(Instr.shootdownComplete k, fireShootdownComplete k s), (Instr.shootdownTimeout k, fireShootdownTimeout k s)])
  ++ ((List.range 8).flatMap fun d => (getDie s d).corrected.map fun x => (Instr.correctedErrorRecord d ⟨x.1, 0⟩, fireCorrectedErrorRecord d x.1 0 s))
  ++ (s.sessions.flatMap fun x => [(Instr.heartbeatTimeout x.1, fireHeartbeatTimeout x.1 s), (Instr.graceExpiry x.1, fireGraceExpiry x.1 s)])
  ++ [(.logCheckpoint, fireLogCheckpoint s)]
  ++ (s.hostReads.map fun x =>
      let e := match x.node with
        | none => (Instr.hostAccess x.acc, fireHostAccess x.acc s)
        | some n => (Instr.savedNodeAccess n (.plain (.host x.port) x.acc), fireSavedNodeAccess n (.plain (.host x.port) x.acc) s)
      (e.1, if (bucketOf s x.part (18 + x.port)).granted.contains x.id then e.2 else none))

/-- The events that are due by themselves, in the order in which they are taken. -/
def dueEvents (s : State) : List (Instr × Option State) :=
  linesWanted s ++ s.ctxs.flatMap (fun x => ctxEvents s x.1 x.2) ++ s.mex.flatMap (fun x => mexEvents s x.1)
    ++ s.cpy.flatMap (fun x => cpyEvents s x.1 x.2) ++ ((List.range s.colls.length).map fun k => (Instr.glazeMatch k, fireGlazeMatch k s))
    ++ s.glz.flatMap (fun x => glzEvents s x.1 x.2) ++ s.rtc.flatMap (fun x => rtcEvents s x.1) ++ (List.range s.nodes.length).flatMap (nodeEvents s)
    ++ (List.range 64).flatMap (fun k => islandEvents s (k / 8) (k % 8)) ++ (List.range 18).flatMap (portEvents s) ++ bucketEvents s ++ managerEvents s

/-! ## Cores in turn (R45, R60) -/

def coreNum (c : CoreId) : Nat := c.die * 128 + c.cl * 4 + c.core
/-- Cores with a context that may issue, in ascending cluster and core order. -/
def liveCores (s : State) : List CoreId :=
  let cs := (s.ctxs.filter fun x => x.2.run == .runnable && x.2.nap == .awake && !x.2.stopped && !s.viral).map (·.1.coreId)
  sortBy coreNum cs.eraseDups
/-- The place of a core among those whose cycle ends in this tick: by the end of its island's cycle, then by number (R60, R205). -/
def coreTurn (s : State) (c : CoreId) : Nat := cycleEnd s c.clId (clk s c.clId) * 1024 + coreNum c
/-- The core that issues next in this tick. -/
def nextCore (s : State) : Option CoreId :=
  (sortBy (coreTurn s) (liveCores s)).find? fun c => lastTick s c.clId && decide (s.turn ≤ coreTurn s c) && decide ((getCore s c).done ≤ clk s c.clId)

/-- The next event or issue, if one comes before the end of the wall cycle. -/
def nextInstr (s : State) : Option Instr :=
  match s.focus with
  | some c => some (.bundleIssue c)
  | none => match firstDue (dueEvents s) with
    | some e => some e
    | none => (nextCore s).map .bundleIssue
/-- The state in which it runs: the core after this one issues next. -/
def afterTurn (e : Instr) (s : State) : State :=
  match e with
  | .bundleIssue c => { s with turn := coreTurn s c + 1 }
  | _ => s
/-- The wall cycle ends. -/
def endCycle (s : State) : State := tick { s with turn := 0 }

end Sys2Proof.Machine
end

