-- ==== Sys2Proof/Machine/Dispatch.lean ====
section
/-! DEFINITION. The meaning of every constructor of Instr: one arm each. -/

namespace Sys2Proof.Machine

def exec (i : Instr) (s : State) : Host.Outcome State Fault Refusal :=
  match i with
  | .bundleIssue c => Sys2Proof.Machine.execBundleIssue c s
  | .starvationLead c => Sys2Proof.Machine.execStarvationLead c s
  | .lineFetch c line => Sys2Proof.Machine.execLineFetch c line s
  | .latchLanding c => Sys2Proof.Machine.execLatchLanding c s
  | .timedDataArrival c k => Sys2Proof.Machine.execTimedDataArrival c k s
  | .timedLanding c => Sys2Proof.Machine.execTimedLanding c s
  | .sketchReplayComplete c => Sys2Proof.Machine.execSketchReplayComplete c s
  | .sleepTimeout c => Sys2Proof.Machine.execSleepTimeout c s
  | .pourLanding => Sys2Proof.Machine.execPourLanding s
  | .bwaitWake c => Sys2Proof.Machine.execBwaitWake c s
  | .fenceComplete c => Sys2Proof.Machine.execFenceComplete c s
  | .pinExpiry c => Sys2Proof.Machine.execPinExpiry c s
  | .pageWalkComplete c k => Sys2Proof.Machine.execPageWalkComplete c k s
  | .syscReply die => Sys2Proof.Machine.execSyscReply die s
  | .mexCommandStart e => Sys2Proof.Machine.execMexCommandStart e s
  | .mldwComplete e => Sys2Proof.Machine.execMldwComplete e s
  | .streamPromotion e => Sys2Proof.Machine.execStreamPromotion e s
  | .mstrComplete e => Sys2Proof.Machine.execMstrComplete e s
  | .mzeroComplete e => Sys2Proof.Machine.execMzeroComplete e s
  | .drainRow e => Sys2Proof.Machine.execDrainRow e s
  | .mdrnComplete e => Sys2Proof.Machine.execMdrnComplete e s
  | .copyStart e => Sys2Proof.Machine.execCopyStart e s
  | .chunkFetch e id transient => Sys2Proof.Machine.execChunkFetch e id transient s
  | .chunkWrite e id => Sys2Proof.Machine.execChunkWrite e id s
  | .copyComplete e id => Sys2Proof.Machine.execCopyComplete e id s
  | .glazeStart e => Sys2Proof.Machine.execGlazeStart e s
  | .glazeMatch k => Sys2Proof.Machine.execGlazeMatch k s
  | .glazeTimeout e id => Sys2Proof.Machine.execGlazeTimeout e id s
  | .glazeRoundSend e id => Sys2Proof.Machine.execGlazeRoundSend e id s
  | .glazePlaneReceive e id blk con => Sys2Proof.Machine.execGlazePlaneReceive e id blk con s
  | .glazeCancelAck e id => Sys2Proof.Machine.execGlazeCancelAck e id s
  | .glazeAbort e id => Sys2Proof.Machine.execGlazeAbort e id s
  | .glazeComplete e id => Sys2Proof.Machine.execGlazeComplete e id s
  | .retouchCommandStart e => Sys2Proof.Machine.execRetouchCommandStart e s
  | .retouchRowStart e => Sys2Proof.Machine.execRetouchRowStart e s
  | .writeAndCheckLoop e verified => Sys2Proof.Machine.execWriteAndCheckLoop e verified s
  | .twrtComplete e => Sys2Proof.Machine.execTwrtComplete e s
  | .graphRegistration part addr count => Sys2Proof.Machine.execGraphRegistration part addr count s
  | .nodeReady n => Sys2Proof.Machine.execNodeReady n s
  | .placement n => Sys2Proof.Machine.execPlacement n s
  | .nodeStart n => Sys2Proof.Machine.execNodeStart n s
  | .nodeCommit n => Sys2Proof.Machine.execNodeCommit n s
  | .nodeFail n => Sys2Proof.Machine.execNodeFail n s
  | .killedNodeRelease n => Sys2Proof.Machine.execKilledNodeRelease n s
  | .quiesceComplete n => Sys2Proof.Machine.execQuiesceComplete n s
  | .swapSaveComplete n => Sys2Proof.Machine.execSwapSaveComplete n s
  | .restoreComplete n => Sys2Proof.Machine.execRestoreComplete n s
  | .savedNodeAccess n acc => Sys2Proof.Machine.execSavedNodeAccess n acc s
  | .islandWake die isl => Sys2Proof.Machine.execIslandWake die isl s
  | .islandGate die isl => Sys2Proof.Machine.execIslandGate die isl s
  | .shootdown part world lo hi writes => Sys2Proof.Machine.execShootdown part world lo hi writes s
  | .shootdownComplete k => Sys2Proof.Machine.execShootdownComplete k s
  | .shootdownTimeout k => Sys2Proof.Machine.execShootdownTimeout k s
  | .frescoMapChange part world vtile entry => Sys2Proof.Machine.execFrescoMapChange part world vtile entry s
  | .partitionChange chg => Sys2Proof.Machine.execPartitionChange chg s
  | .partitionSwap part => Sys2Proof.Machine.execPartitionSwap part s
  | .imageLoadRequest part bytes key => Sys2Proof.Machine.execImageLoadRequest part bytes key s
  | .lpddrSectorRead addr r => Sys2Proof.Machine.execLpddrSectorRead addr r s
  | .uncorrectableDirtySector addr stager => Sys2Proof.Machine.execUncorrectableDirtySector addr stager s
  | .pageRetirementComplete k frame => Sys2Proof.Machine.execPageRetirementComplete k frame s
  | .sramUncorrectable p => Sys2Proof.Machine.execSramUncorrectable p s
  | .correctedErrorRecord die src => Sys2Proof.Machine.execCorrectedErrorRecord die src s
  | .lockstepMismatch c hdr => Sys2Proof.Machine.execLockstepMismatch c hdr s
  | .viral die src => Sys2Proof.Machine.execViral die src s
  | .viralFlitReceived port => Sys2Proof.Machine.execViralFlitReceived port s
  | .linkSilenceTimeout port => Sys2Proof.Machine.execLinkSilenceTimeout port s
  | .flitReceive port f => Sys2Proof.Machine.execFlitReceive port f s
  | .flitResend port upto => Sys2Proof.Machine.execFlitResend port upto s
  | .resyncTimeout port => Sys2Proof.Machine.execResyncTimeout port s
  | .keepalive port => Sys2Proof.Machine.execKeepalive port s
  | .routineKeyUpdate port => Sys2Proof.Machine.execRoutineKeyUpdate port s
  | .packageReset firmware => Sys2Proof.Machine.execPackageReset firmware s
  | .frescoScan die bad weak => Sys2Proof.Machine.execFrescoScan die bad weak s
  | .peerSession port peer chainOk => Sys2Proof.Machine.execPeerSession port peer chainOk s
  | .getVersion port => Sys2Proof.Machine.execGetVersion port s
  | .getCapabilities port req => Sys2Proof.Machine.execGetCapabilities port req s
  | .negotiateAlgorithms port req => Sys2Proof.Machine.execNegotiateAlgorithms port req s
  | .getDigests port req => Sys2Proof.Machine.execGetDigests port req s
  | .getCertificate port req => Sys2Proof.Machine.execGetCertificate port req s
  | .challenge port req => Sys2Proof.Machine.execChallenge port req s
  | .getMeasurements port req => Sys2Proof.Machine.execGetMeasurements port req s
  | .keyExchange port req => Sys2Proof.Machine.execKeyExchange port req s
  | .finish port req => Sys2Proof.Machine.execFinish port req s
  | .heartbeat port req => Sys2Proof.Machine.execHeartbeat port req s
  | .keyUpdate port req => Sys2Proof.Machine.execKeyUpdate port req s
  | .endSession port req => Sys2Proof.Machine.execEndSession port req s
  | .heartbeatTimeout part => Sys2Proof.Machine.execHeartbeatTimeout part s
  | .graceExpiry part => Sys2Proof.Machine.execGraceExpiry part s
  | .installRequest part world image slots aid => Sys2Proof.Machine.execInstallRequest part world image slots aid s
  | .bucketConfig part port rate burst => Sys2Proof.Machine.execBucketConfig part port rate burst s
  | .egressBucketRefill part port ticks => Sys2Proof.Machine.execEgressBucketRefill part port ticks s
  | .logCheckpoint => Sys2Proof.Machine.execLogCheckpoint s
  | .logRead part what => Sys2Proof.Machine.execLogRead part what s
  | .hostAccess acc => Sys2Proof.Machine.execHostAccess acc s
  | .portReset port => Sys2Proof.Machine.execPortReset port s
  | .islandControlWrite die isl w => Sys2Proof.Machine.execIslandControlWrite die isl w s
  | .operatingPointChange die isl => Sys2Proof.Machine.execOperatingPointChange die isl s
  | .thermalStep die isl temp => Sys2Proof.Machine.execThermalStep die isl temp s
  | .overtemperature die isl temp => Sys2Proof.Machine.execOvertemperature die isl temp s
  | .powerLimitExceeded watts => Sys2Proof.Machine.execPowerLimitExceeded watts s
  | .coolantFault flow inlet => Sys2Proof.Machine.execCoolantFault flow inlet s
  | .coolantRestore flow inlet => Sys2Proof.Machine.execCoolantRestore flow inlet s
  | .wearLimitSet die limit => Sys2Proof.Machine.execWearLimitSet die limit s
  | .graphUnregistration part addr => Sys2Proof.Machine.execGraphUnregistration part addr s
  | .imageRemoval part id => Sys2Proof.Machine.execImageRemoval part id s
  | .powerLimitSet watts => Sys2Proof.Machine.execPowerLimitSet watts s
  | .move g src dst => Sys2Proof.Machine.execMove g src dst s
  | .addAlu0 g src => Sys2Proof.Machine.execAddAlu0 g src s
  | .addAlu1 g src => Sys2Proof.Machine.execAddAlu1 g src s
  | .subAlu0 g src => Sys2Proof.Machine.execSubAlu0 g src s
  | .subAlu1 g src => Sys2Proof.Machine.execSubAlu1 g src s
  | .andAlu0 g src => Sys2Proof.Machine.execAndAlu0 g src s
  | .andAlu1 g src => Sys2Proof.Machine.execAndAlu1 g src s
  | .orAlu0 g src => Sys2Proof.Machine.execOrAlu0 g src s
  | .orAlu1 g src => Sys2Proof.Machine.execOrAlu1 g src s
  | .xorAlu0 g src => Sys2Proof.Machine.execXorAlu0 g src s
  | .xorAlu1 g src => Sys2Proof.Machine.execXorAlu1 g src s
  | .andnAlu0 g src => Sys2Proof.Machine.execAndnAlu0 g src s
  | .andnAlu1 g src => Sys2Proof.Machine.execAndnAlu1 g src s
  | .shlAlu0 g src => Sys2Proof.Machine.execShlAlu0 g src s
  | .shlAlu1 g src => Sys2Proof.Machine.execShlAlu1 g src s
  | .shrAlu0 g src => Sys2Proof.Machine.execShrAlu0 g src s
  | .shrAlu1 g src => Sys2Proof.Machine.execShrAlu1 g src s
  | .sarAlu0 g src => Sys2Proof.Machine.execSarAlu0 g src s
  | .sarAlu1 g src => Sys2Proof.Machine.execSarAlu1 g src s
  | .rolAlu0 g src => Sys2Proof.Machine.execRolAlu0 g src s
  | .rolAlu1 g src => Sys2Proof.Machine.execRolAlu1 g src s
  | .minAlu0 g src => Sys2Proof.Machine.execMinAlu0 g src s
  | .minAlu1 g src => Sys2Proof.Machine.execMinAlu1 g src s
  | .maxAlu0 g src => Sys2Proof.Machine.execMaxAlu0 g src s
  | .maxAlu1 g src => Sys2Proof.Machine.execMaxAlu1 g src s
  | .minuAlu0 g src => Sys2Proof.Machine.execMinuAlu0 g src s
  | .minuAlu1 g src => Sys2Proof.Machine.execMinuAlu1 g src s
  | .maxuAlu0 g src => Sys2Proof.Machine.execMaxuAlu0 g src s
  | .maxuAlu1 g src => Sys2Proof.Machine.execMaxuAlu1 g src s
  | .eqAlu0 g src => Sys2Proof.Machine.execEqAlu0 g src s
  | .eqAlu1 g src => Sys2Proof.Machine.execEqAlu1 g src s
  | .neAlu0 g src => Sys2Proof.Machine.execNeAlu0 g src s
  | .neAlu1 g src => Sys2Proof.Machine.execNeAlu1 g src s
  | .ltAlu0 g src => Sys2Proof.Machine.execLtAlu0 g src s
  | .ltAlu1 g src => Sys2Proof.Machine.execLtAlu1 g src s
  | .ltuAlu0 g src => Sys2Proof.Machine.execLtuAlu0 g src s
  | .ltuAlu1 g src => Sys2Proof.Machine.execLtuAlu1 g src s
  | .leAlu0 g src => Sys2Proof.Machine.execLeAlu0 g src s
  | .leAlu1 g src => Sys2Proof.Machine.execLeAlu1 g src s
  | .leuAlu0 g src => Sys2Proof.Machine.execLeuAlu0 g src s
  | .leuAlu1 g src => Sys2Proof.Machine.execLeuAlu1 g src s
  | .selAlu0 g src => Sys2Proof.Machine.execSelAlu0 g src s
  | .selAlu1 g src => Sys2Proof.Machine.execSelAlu1 g src s
  | .clzAlu0 g src => Sys2Proof.Machine.execClzAlu0 g src s
  | .clzAlu1 g src => Sys2Proof.Machine.execClzAlu1 g src s
  | .ctzAlu0 g src => Sys2Proof.Machine.execCtzAlu0 g src s
  | .ctzAlu1 g src => Sys2Proof.Machine.execCtzAlu1 g src s
  | .popcAlu0 g src => Sys2Proof.Machine.execPopcAlu0 g src s
  | .popcAlu1 g src => Sys2Proof.Machine.execPopcAlu1 g src s
  | .sextAlu0 g src => Sys2Proof.Machine.execSextAlu0 g src s
  | .sextAlu1 g src => Sys2Proof.Machine.execSextAlu1 g src s
  | .zextAlu0 g src => Sys2Proof.Machine.execZextAlu0 g src s
  | .zextAlu1 g src => Sys2Proof.Machine.execZextAlu1 g src s
  | .bfxAlu0 g src => Sys2Proof.Machine.execBfxAlu0 g src s
  | .bfxAlu1 g src => Sys2Proof.Machine.execBfxAlu1 g src s
  | .bfiAlu0 g src => Sys2Proof.Machine.execBfiAlu0 g src s
  | .bfiAlu1 g src => Sys2Proof.Machine.execBfiAlu1 g src s
  | .mul g src => Sys2Proof.Machine.execMul g src s
  | .mulh g src => Sys2Proof.Machine.execMulh g src s
  | .mulhu g src => Sys2Proof.Machine.execMulhu g src s
  | .mulw g src => Sys2Proof.Machine.execMulw g src s
  | .madd g src => Sys2Proof.Machine.execMadd g src s
  | .div g src => Sys2Proof.Machine.execDiv g src s
  | .divu g src => Sys2Proof.Machine.execDivu g src s
  | .rem g src => Sys2Proof.Machine.execRem g src s
  | .remu g src => Sys2Proof.Machine.execRemu g src s
  | .jmp g src => Sys2Proof.Machine.execJmp g src s
  | .bra g src => Sys2Proof.Machine.execBra g src s
  | .brz g src => Sys2Proof.Machine.execBrz g src s
  | .brnz g src => Sys2Proof.Machine.execBrnz g src s
  | .call g src => Sys2Proof.Machine.execCall g src s
  | .ret g src => Sys2Proof.Machine.execRet g src s
  | .loops g src => Sys2Proof.Machine.execLoops g src s
  | .loopx g src => Sys2Proof.Machine.execLoopx g src s
  | .trap g src => Sys2Proof.Machine.execTrap g src s
  | .exit g src => Sys2Proof.Machine.execExit g src s
  | .spld g src => Sys2Proof.Machine.execSpld g src s
  | .spst g src => Sys2Proof.Machine.execSpst g src s
  | .ldb g src => Sys2Proof.Machine.execLdb g src s
  | .ldbs g src => Sys2Proof.Machine.execLdbs g src s
  | .ldh g src => Sys2Proof.Machine.execLdh g src s
  | .ldhs g src => Sys2Proof.Machine.execLdhs g src s
  | .ldw g src => Sys2Proof.Machine.execLdw g src s
  | .ldws g src => Sys2Proof.Machine.execLdws g src s
  | .ldd g src => Sys2Proof.Machine.execLdd g src s
  | .stb g src => Sys2Proof.Machine.execStb g src s
  | .sth g src => Sys2Proof.Machine.execSth g src s
  | .stw g src => Sys2Proof.Machine.execStw g src s
  | .std g src => Sys2Proof.Machine.execStd g src s
  | .tch g src => Sys2Proof.Machine.execTch g src s
  | .gld g src => Sys2Proof.Machine.execGld g src s
  | .gst g src => Sys2Proof.Machine.execGst g src s
  | .aadd g src => Sys2Proof.Machine.execAadd g src s
  | .amax g src => Sys2Proof.Machine.execAmax g src s
  | .amin g src => Sys2Proof.Machine.execAmin g src s
  | .axchg g src => Sys2Proof.Machine.execAxchg g src s
  | .acas g src => Sys2Proof.Machine.execAcas g src s
  | .mfsr g src => Sys2Proof.Machine.execMfsr g src s
  | .mtsr g src => Sys2Proof.Machine.execMtsr g src s
  | .yield g src => Sys2Proof.Machine.execYield g src s
  | .prio g src => Sys2Proof.Machine.execPrio g src s
  | .sysc g src => Sys2Proof.Machine.execSysc g src s
  | .rft g src => Sys2Proof.Machine.execRft g src s
  | .tokq g src => Sys2Proof.Machine.execTokq g src s
  | .tokc g src => Sys2Proof.Machine.execTokc g src s
  | .fflgs g src => Sys2Proof.Machine.execFflgs g src s
  | .sleep g src => Sys2Proof.Machine.execSleep g src s
  | .wake g src => Sys2Proof.Machine.execWake g src s
  | .ctxq g src => Sys2Proof.Machine.execCtxq g src s
  | .rdef g src => Sys2Proof.Machine.execRdef g src s
  | .rtag g src => Sys2Proof.Machine.execRtag g src s
  | .rclr g src => Sys2Proof.Machine.execRclr g src s
  | .rdrop g src => Sys2Proof.Machine.execRdrop g src s
  | .vld g src => Sys2Proof.Machine.execVld g src s
  | .vlds g src => Sys2Proof.Machine.execVlds g src s
  | .vldg g src => Sys2Proof.Machine.execVldg g src s
  | .vst g src => Sys2Proof.Machine.execVst g src s
  | .vsts g src => Sys2Proof.Machine.execVsts g src s
  | .vstm g src => Sys2Proof.Machine.execVstm g src s
  | .vstg g src => Sys2Proof.Machine.execVstg g src s
  | .vldbf g src => Sys2Proof.Machine.execVldbf g src s
  | .vstbf g src => Sys2Proof.Machine.execVstbf g src s
  | .vldf8 g src => Sys2Proof.Machine.execVldf8 g src s
  | .vldi8 g src => Sys2Proof.Machine.execVldi8 g src s
  | .vldz8 g src => Sys2Proof.Machine.execVldz8 g src s
  | .vldx g src => Sys2Proof.Machine.execVldx g src s
  | .vlde g src => Sys2Proof.Machine.execVlde g src s
  | .vstp g src => Sys2Proof.Machine.execVstp g src s
  | .vgld g src => Sys2Proof.Machine.execVgld g src s
  | .vgst g src => Sys2Proof.Machine.execVgst g src s
  | .vstmc g src => Sys2Proof.Machine.execVstmc g src s
  | .viadd g src => Sys2Proof.Machine.execViadd g src s
  | .visub g src => Sys2Proof.Machine.execVisub g src s
  | .vimul g src => Sys2Proof.Machine.execVimul g src s
  | .vimin g src => Sys2Proof.Machine.execVimin g src s
  | .vimax g src => Sys2Proof.Machine.execVimax g src s
  | .viminu g src => Sys2Proof.Machine.execViminu g src s
  | .vimaxu g src => Sys2Proof.Machine.execVimaxu g src s
  | .vand g src => Sys2Proof.Machine.execVand g src s
  | .vor g src => Sys2Proof.Machine.execVor g src s
  | .vxor g src => Sys2Proof.Machine.execVxor g src s
  | .vandn g src => Sys2Proof.Machine.execVandn g src s
  | .vshl g src => Sys2Proof.Machine.execVshl g src s
  | .vshr g src => Sys2Proof.Machine.execVshr g src s
  | .vsar g src => Sys2Proof.Machine.execVsar g src s
  | .vieq g src => Sys2Proof.Machine.execVieq g src s
  | .vilt g src => Sys2Proof.Machine.execVilt g src s
  | .viltu g src => Sys2Proof.Machine.execViltu g src s
  | .vsel g src => Sys2Proof.Machine.execVsel g src s
  | .viota g src => Sys2Proof.Machine.execViota g src s
  | .vpopm g src => Sys2Proof.Machine.execVpopm g src s
  | .vmand g src => Sys2Proof.Machine.execVmand g src s
  | .vmor g src => Sys2Proof.Machine.execVmor g src s
  | .vmxor g src => Sys2Proof.Machine.execVmxor g src s
  | .vmnot g src => Sys2Proof.Machine.execVmnot g src s
  | .vbeq8 g src => Sys2Proof.Machine.execVbeq8 g src s
  | .viadds g src => Sys2Proof.Machine.execViadds g src s
  | .fadd g src => Sys2Proof.Machine.execFadd g src s
  | .fsub g src => Sys2Proof.Machine.execFsub g src s
  | .fmul g src => Sys2Proof.Machine.execFmul g src s
  | .fma g src => Sys2Proof.Machine.execFma g src s
  | .fms g src => Sys2Proof.Machine.execFms g src s
  | .fnma g src => Sys2Proof.Machine.execFnma g src s
  | .fmax g src => Sys2Proof.Machine.execFmax g src s
  | .fmin g src => Sys2Proof.Machine.execFmin g src s
  | .fabs g src => Sys2Proof.Machine.execFabs g src s
  | .fneg g src => Sys2Proof.Machine.execFneg g src s
  | .feq g src => Sys2Proof.Machine.execFeq g src s
  | .flt g src => Sys2Proof.Machine.execFlt g src s
  | .fle g src => Sys2Proof.Machine.execFle g src s
  | .funord g src => Sys2Proof.Machine.execFun g src s
  | .fclmp g src => Sys2Proof.Machine.execFclmp g src s
  | .fsubx g src => Sys2Proof.Machine.execFsubx g src s
  | .hadd g src => Sys2Proof.Machine.execHadd g src s
  | .hmul g src => Sys2Proof.Machine.execHmul g src s
  | .hfma g src => Sys2Proof.Machine.execHfma g src s
  | .hmax g src => Sys2Proof.Machine.execHmax g src s
  | .cvtfi g src => Sys2Proof.Machine.execCvtfi g src s
  | .cvtif g src => Sys2Proof.Machine.execCvtif g src s
  | .cvtfh g src => Sys2Proof.Machine.execCvtfh g src s
  | .cvthf g src => Sys2Proof.Machine.execCvthf g src s
  | .cvtf8 g src => Sys2Proof.Machine.execCvtf8 g src s
  | .cvt8f g src => Sys2Proof.Machine.execCvt8f g src s
  | .cvtf5 g src => Sys2Proof.Machine.execCvtf5 g src s
  | .cvt5f g src => Sys2Proof.Machine.execCvt5f g src s
  | .cvtfp16 g src => Sys2Proof.Machine.execCvtfp16 g src s
  | .cvtp16f g src => Sys2Proof.Machine.execCvtp16f g src s
  | .qpal g src => Sys2Proof.Machine.execQpal g src s
  | .dqpal g src => Sys2Proof.Machine.execDqpal g src s
  | .frnd g src => Sys2Proof.Machine.execFrnd g src s
  | .fscl g src => Sys2Proof.Machine.execFscl g src s
  | .fxpn g src => Sys2Proof.Machine.execFxpn g src s
  | .exp2 g src => Sys2Proof.Machine.execExp2 g src s
  | .log2 g src => Sys2Proof.Machine.execLog2 g src s
  | .rcp g src => Sys2Proof.Machine.execRcp g src s
  | .rsqrt g src => Sys2Proof.Machine.execRsqrt g src s
  | .sqrt g src => Sys2Proof.Machine.execSqrt g src s
  | .tanh g src => Sys2Proof.Machine.execTanh g src s
  | .sigm g src => Sys2Proof.Machine.execSigm g src s
  | .rsum g src => Sys2Proof.Machine.execRsum g src s
  | .rmax g src => Sys2Proof.Machine.execRmax g src s
  | .rmin g src => Sys2Proof.Machine.execRmin g src s
  | .rsumi g src => Sys2Proof.Machine.execRsumi g src s
  | .ramax g src => Sys2Proof.Machine.execRamax g src s
  | .scan g src => Sys2Proof.Machine.execScan g src s
  | .perm g src => Sys2Proof.Machine.execPerm g src s
  | .vrot g src => Sys2Proof.Machine.execVrot g src s
  | .vext g src => Sys2Proof.Machine.execVext g src s
  | .vins g src => Sys2Proof.Machine.execVins g src s
  | .vcmp g src => Sys2Proof.Machine.execVcmp g src s
  | .vxpd g src => Sys2Proof.Machine.execVxpd g src s
  | .zip g src => Sys2Proof.Machine.execZip g src s
  | .unzip g src => Sys2Proof.Machine.execUnzip g src s
  | .vbit g src => Sys2Proof.Machine.execVbit g src s
  | .pset g src => Sys2Proof.Machine.execPset g src s
  | .pget g src => Sys2Proof.Machine.execPget g src s
  | .punpk g src => Sys2Proof.Machine.execPunpk g src s
  | .ppack g src => Sys2Proof.Machine.execPpack g src s
  | .chk16 g src => Sys2Proof.Machine.execChk16 g src s
  | .sphdr g src => Sys2Proof.Machine.execSphdr g src s
  | .msel g src => Sys2Proof.Machine.execMsel g src s
  | .mset g src => Sys2Proof.Machine.execMset g src s
  | .mldw g src => Sys2Proof.Machine.execMldw g src s
  | .mstr g src => Sys2Proof.Machine.execMstr g src s
  | .mdrn g src => Sys2Proof.Machine.execMdrn g src s
  | .mzero g src => Sys2Proof.Machine.execMzero g src s
  | .mstat g src => Sys2Proof.Machine.execMstat g src s
  | .mcan g src => Sys2Proof.Machine.execMcan g src s
  | .cset g src => Sys2Proof.Machine.execCset g src s
  | .cgo g src => Sys2Proof.Machine.execCgo g src s
  | .cstat g src => Sys2Proof.Machine.execCstat g src s
  | .ccan g src => Sys2Proof.Machine.execCcan g src s
  | .csel g src => Sys2Proof.Machine.execCsel g src s
  | .gset g src => Sys2Proof.Machine.execGset g src s
  | .gsend g src => Sys2Proof.Machine.execGsend g src s
  | .grecv g src => Sys2Proof.Machine.execGrecv g src s
  | .gred g src => Sys2Proof.Machine.execGred g src s
  | .gcan g src => Sys2Proof.Machine.execGcan g src s
  | .gprec g src => Sys2Proof.Machine.execGprec g src s
  | .tset g src => Sys2Proof.Machine.execTset g src s
  | .twrt g src => Sys2Proof.Machine.execTwrt g src s
  | .tstat g src => Sys2Proof.Machine.execTstat g src s
  | .twear g src => Sys2Proof.Machine.execTwear g src s
  | .tmap g src => Sys2Proof.Machine.execTmap g src s
  | .binit g src => Sys2Proof.Machine.execBinit g src s
  | .barv g src => Sys2Proof.Machine.execBarv g src s
  | .bexp g src => Sys2Proof.Machine.execBexp g src s
  | .btst g src => Sys2Proof.Machine.execBtst g src s
  | .bwait g src => Sys2Proof.Machine.execBwait g src s
  | .fence g src => Sys2Proof.Machine.execFence g src s
  | .twait g src => Sys2Proof.Machine.execTwait g src s

end Sys2Proof.Machine
end

