-- ==== Sys2Proof/Machine/Place.lean ====
section
/-! DEFINITION. One move syllable placed where the next step issues it: a bundle of that one move in an opened line of the first
core's fetch buffer, its context ready, its core next to issue (DESIGN CHOICE, log entry 21). -/

namespace Sys2Proof.Machine

/-- The context and core that run a placed instruction. -/
def placeCtx : CtxId := ⟨0, 0, 0, 0⟩
def placeCore : CoreId := ⟨0, 0, 0⟩
/-- Long immediates that a source field needs (R26): 0x3F0 one, 0x3F1 and 0x3F2 two, 0x3F3 one. -/
def longsNeeded (src : Nat) : Nat := if src = 0x3F0 ∨ src = 0x3F3 then 1 else if src = 0x3F1 ∨ src = 0x3F2 then 2 else 0
/-- The bundle: header with slot 0, the move, long immediates of zeros. -/
def placeLine (w : Nat) : FetchLine :=
  ⟨0, false, encodeHeader ⟨1, 0, false, longsNeeded (w / 2 ^ 11 % 1024)⟩ :: BitVec.ofNat 24 w :: List.replicate 14 0⟩
/-- The context, ready at address 0. -/
def placeStart (c : Ctx) : Ctx :=
  { c with
    run := .runnable, nap := .awake, stopped := false, pc := 0, via := none, yieldAt := none, landing := [], redirects := [], twait := 0, touchLost := none,
    replayTrap := none, rft := none, calling := none }
def placeWord24 (s : State) (nbits w : Nat) : State :=
  if nbits = 24 ∧ w < 2 ^ 24 then
    { s with
      agenda := [], focus := some placeCore, viral := false,
      ctxs := assocSet placeCtx (placeStart (getCtx s placeCtx)) (s.ctxs.filter fun x => x.1.coreId != placeCore),
      cores := assocSet placeCore { getCore s placeCore with fetch := [placeLine w] } s.cores }
  else s

end Sys2Proof.Machine
end

