-- ==== Sys2Proof/Machine/Step.lean ====
section
/-! DEFINITION. One step of the package: the first entry of the agenda when there is one, else the next event or issue that the
machine comes to by itself, else the end of the wall cycle. -/

namespace Sys2Proof.Machine

def step (s : State) : Host.Outcome State Fault Refusal :=
  match s.agenda with
  | e :: r => exec e { s with agenda := r }
  | [] =>
    match nextInstr s with
    | some e => exec e (afterTurn e s)
    | none => .next (endCycle s)

/-- The state with one instruction placed where the next step issues it (Place.lean). -/
def State.withFetchWord (s : State) (nbits w : Nat) : State := placeWord24 s nbits w

end Sys2Proof.Machine
end

