-- ==== Sys2Proof/Safety.lean ====
section
/-! DEFINITION. The terms that claims use: when a run is safe, the context an instruction runs in and what that context sees,
when nothing stops its bundle, and the state after a bundle of one move. -/

namespace Sys2Proof.Machine

/-! ## Safe runs and the canonical form -/

/-- A step is safe when it does not name a unit the package lacks. -/
def Safe (s : State) : Prop := ∃ t, step s = .next t
/-- Memory and the fresco tier are in canonical form (R161, R171). -/
def Canonical (s : State) : Prop := Memory.wf s.mem = true ∧ Memory.wf s.fresco = true

/-! ## The selected context -/

/-- The context an instruction runs in. -/
def own (s : State) : Ctx := getCtx s s.sel.who
/-- The context as its bundle sees it: everything due at its position has landed (R47). -/
def view (s : State) : Ctx := seen (own s)
/-- The value that a move of a source brings to a port of a type (R26, R31). -/
def brought (s : State) (ty : Ty) (src : Source) : Val := broadcast ty (readSrc (view s) s.sel.longs src)
/-- A scalar operand port of a unit, and the scalar brought. -/
def portSc (s : State) (u k : Nat) : Sc := valSc (getPort (view s) u k)
def portVec (s : State) (u k : Nat) : List Lane := valVec (getPort (view s) u k)
def portMask (s : State) (u k : Nat) : List MLane := valMask (getPort (view s) u k)
def trigSc (s : State) (src : Source) : Sc := valSc (brought s .s src)
def trigVec (s : State) (src : Source) : List Lane := valVec (brought s .v src)
def trigMask (s : State) (src : Source) : List MLane := valMask (brought s .m src)

/-! ## Nothing stops the bundle -/

/-- Nothing outside the move itself holds back or traps the bundle of one move: the context may issue (R57, R58), awaits no
token (R56), its bundle lies in instruction memory with at most two long immediates (R16, R32), and none of the causes 2 to 4 and
9 of R34 is pending. No handler is ending (R70). -/
def Quiet (s : State) : Prop :=
  awake s s.sel.who (own s) = true ∧ (own s).twait = 0 ∧ s.sel.await = 0 ∧ s.sel.slot < 8 ∧ s.sel.longs.length ≤ 2
    ∧ (own s).pc + 2 + s.sel.longs.length ≤ 2 ^ 18 ∧ outerTrap (own s) = none ∧ (own s).replayTrap = none ∧ (view s).rft = none
/-- Nothing holds back or traps the bundle, and a handler ends with it (R70): `p` is its RFT's, whose second delay bundle this is. -/
def Ending (s : State) (p : RftPend) : Prop :=
  awake s s.sel.who (own s) = true ∧ (own s).twait = 0 ∧ s.sel.await = 0 ∧ s.sel.slot < 8 ∧ s.sel.longs.length ≤ 2
    ∧ (own s).pc + 2 + s.sel.longs.length ≤ 2 ^ 18 ∧ outerTrap (own s) = none ∧ (own s).replayTrap = none
    ∧ (view s).rft = some p ∧ p.pos = (view s).bclk + 1
/-- The move passes its guard (R20), finds its long immediates (R26), brings a type its port takes (R31), and needs no replay
(R246). -/
def Brings (s : State) (g : Guard) (src : Source) (ty : Ty) : Prop :=
  guardPasses (view s) g = true ∧ guardPoisoned (view s) g = false ∧ longNeed src ≤ s.sel.longs.length
    ∧ ty.takes (srcTy (view s) src) = true ∧ (∀ n, src = .v n → needsReplay (view s) n = false)
/-- Capacity for landing entries, vector or mask results and scalar results (R52, R53). -/
def Room (s : State) (land vecs scs : Nat) : Prop :=
  (0 < land → bufferUse (view s) (view s).bclk + land ≤ 16) ∧ (0 < vecs → flightVecs (view s) (view s).bclk + vecs ≤ 24)
    ∧ (0 < scs → flightScs (view s) (view s).bclk + scs ≤ 64)

/-! ## The state after a bundle of one move -/

/-- Vector names a source reads. -/
def readNames (src : Source) : List Nat := match src with | .v n => [n] | _ => []
/-- The context an operation starts from: landed, a vector name it reads noted as accessed, and a LOOPEND bundle's count taken
down (R61, R62, R241). -/
def entry (s : State) (src : Source) : Ctx :=
  { touchNames (readNames src) (view s) with
    twait := 0, touchLost := none, replayTrap := none, loopCnt := (loopStep (view s) (own s).pc).1 }
/-- The bundle's length. -/
def oneLen (s : State) : Nat := 2 + s.sel.longs.length
/-- The context goes on after a bundle of one move: a redirect due here, a loop's return, or the next address (R61, R62). -/
def advance (s : State) (c : Ctx) : Ctx :=
  let q := (view s).bclk + 1
  let rs := c.redirects.filter fun r => decide (q < r.pos)
  match redirectAt c q with
  | some r => { c with bclk := q, pc := r.target, via := some r.src, redirects := rs }
  | none =>
    if (loopStep (view s) (own s).pc).2 then { c with bclk := q, pc := (view s).loopStart, via := some (own s).pc, redirects := rs }
    else { c with bclk := q, pc := ((own s).pc + oneLen s) % 2 ^ 18, via := none, redirects := rs }
/-- A bundle of one move whose operation changes its own context only, by `f`. -/
def after (s : State) (src : Source) (f : Ctx → Ctx) : State := setCtx s.sel.who (advance s (f (entry s src))) s
/-- What the first delay bundle of a CALL leaves when it changes the loop state that its second one is tested against: LINK is settled anew,
from the context after it (R117). After every other bundle the state is as it is. -/
def relink (s u : State) : State :=
  if (view s).calling = some ((view s).bclk + 2) then
    let r := settleLink s.sel.who ((view s).bclk + 1) 1 [] (getCtx u s.sel.who) u
    setCtx s.sel.who r.1 r.2
  else u
/-- Results put in flight. -/
def inFlight (fs : List Flight) (c : Ctx) : Ctx := { c with flight := c.flight ++ fs }
/-- A scalar in a unit's latch x at a latency. -/
def latchSc (s : State) (unit lat : Nat) (v : Dword) (p : Bool) : Flight := ⟨(view s).bclk + lat, .latch unit false, .sc ⟨v, p⟩, 0, 0, (view s).bclk⟩
/-- A vector or mask in latch x or y, with flags. -/
def latchVal (s : State) (unit lat : Nat) (y : Bool) (v : Val) (fl : BitVec 5) : Flight := ⟨(view s).bclk + lat, .latch unit y, v, fl, 0, (view s).bclk⟩
/-- A special-register write, seen from the next bundle. -/
def specialW (s : State) (i v : Nat) : Flight := ⟨(view s).bclk + 1, .special i, .sc ⟨BitVec.ofNat 64 v, false⟩, 0, 0, (view s).bclk⟩
/-- What a unit's operation reads, as one move gives it. -/
def given (s : State) (field : Nat) (ty : Ty) (src : Source) : OpIn :=
  ⟨s.sel.who, s.sel.slot, (own s).pc, oneLen s, (view s).bclk, view s, getPort (view s) (field / 32) 0, getPort (view s) (field / 32) 1,
    getPort (view s) (field / 32) 2, getPort (view s) (field / 32) 3, brought s ty src, [field],
    readNames src⟩
/-- The state an operation starts from. -/
def started (s : State) (src : Source) : State := setCtx s.sel.who (entry s src) s
/-- The context goes on in a state an operation has left. -/
def goOn (s : State) (t : State) : State := setCtx s.sel.who (advance s (getCtx t s.sel.who)) t

/-! ## What a trap leaves -/

/-- Trap entry of the selected context (R68), when its snapshot slot is free. -/
def trapped (s : State) (t : Trap) : State := setCtx s.sel.who (trapCtx t (own s)) s

/-! ## What stays -/

/-- Every part of the state but the contexts is unchanged, and so is every other context. -/
def OthersKept (s t : State) : Prop := { t with ctxs := s.ctxs } = s ∧ ∀ k, k ≠ s.sel.who → getCtx t k = getCtx s k
/-- The registers a program names: general, operand, predicate, mask and vector registers, operand ports and latches. -/
def RegsKept (c d : Ctx) : Prop :=
  d.g = c.g ∧ d.o = c.o ∧ d.p = c.p ∧ d.m = c.m ∧ d.vo = c.vo ∧ (∀ n, readV d n = readV c n) ∧ d.ports = c.ports ∧ d.latches = c.latches
/-- The special registers, pattern and sketch registers, tokens, pins, spill window and parameter sets. -/
def SpecialsKept (c d : Ctx) : Prop :=
  d.sr = c.sr ∧ d.pats = c.pats ∧ d.sketches = c.sketches ∧ d.tokens = c.tokens ∧ d.pins = c.pins ∧ d.spill = c.spill
    ∧ d.spillPoison = c.spillPoison ∧ d.mexPar = c.mexPar ∧ d.cpyPar = c.cpyPar ∧ d.glzPar = c.glzPar ∧ d.rtcPar = c.rtcPar
    ∧ d.snap = c.snap ∧ d.parity = c.parity

/-! ## Memory as claims see it -/

/-- No write is kept that some reader may still miss, and no node stages a byte: reads see memory itself (R201, R208, R364). -/
def Settled (s : State) : Prop := s.past = [] ∧ s.overlay = []
/-- Only contexts and the counts of memory events differ, and of the contexts only the selected one. -/
def OneEvent (s t : State) : Prop := { t with ctxs := s.ctxs, seq := s.seq, tally := s.tally } = s ∧ ∀ k, k ≠ s.sel.who → getCtx t k = getCtx s k
/-- Bytes of scratchpad or accumulator space at a local address (R161). -/
def InLocal (a n : Nat) : Prop := a + n ≤ 0x300000 ∨ (0x400000 ≤ a ∧ a + n ≤ 0x500000)
/-- The physical address of a local address of the selected context. -/
def localAt (s : State) (a : Nat) : Nat := physLocal s.sel.who.clId a
/-- A landing-buffer entry the operation takes, with its data fixed. -/
def lands (s : State) (delta : Nat) (dst : LandDst) (data : LandData) (c : Ctx) : Ctx :=
  { c with landing := c.landing ++ [⟨(view s).bclk + delta, (view s).bclk, s.sel.slot, dst, false, data, c.nextId, 0⟩], nextId := c.nextId + 1 }
/-- Whether one of `n` bytes at a physical address is poisoned. -/
def badBytes (s : State) (a n : Nat) : Bool := (List.range n).any fun i => byteBad s (a + i)
/-- The context has gone on by one bundle, its registers and special registers as its bundle saw them. -/
def WentOn (s t : State) : Prop :=
  RegsKept (view s) (getCtx t s.sel.who) ∧ SpecialsKept (view s) (getCtx t s.sel.who) ∧ (getCtx t s.sel.who).bclk = (own s).bclk + 1
/-- Bytes written from an address on, every other byte of memory as before. -/
def Stored (s t : State) (a : Nat) (bs : List Byte) : Prop :=
  (∀ i, i < bs.length → Memory.get t.mem (a + i) = bs.getD i 0) ∧ ∀ x, (x < a ∨ a + bs.length ≤ x) → Memory.get t.mem x = Memory.get s.mem x
/-- One pin covers `n` bytes of a global access, through a leaf that is no multicast leaf and meets no alias (R169, R304). -/
def Covered (s : State) (va n : Nat) (q : Pin) : Prop :=
  va + n ≤ 2 ^ 56 ∧ (∀ i, i < n → pinFor (view s) (view s).bclk (va + i) = some q) ∧ pteMulti q.pte.toNat = false ∧ s.lines = []
/-- The physical address a pin gives. -/
def pinAt (q : Pin) (va : Nat) : Nat := ptePhys q.pte.toNat q.size va
/-- One pin covers `n` bytes of a global access, whatever its leaf permits (R169). -/
def Reached (s : State) (va n : Nat) (q : Pin) : Prop := va + n ≤ 2 ^ 56 ∧ ∀ i, i < n → pinFor (view s) (view s).bclk (va + i) = some q
/-- Some byte of a global access has an address above 56 bits, or no pin that covers it (R169, R176). -/
def Untouched (s : State) (va n : Nat) : Prop := ∃ i, i < n ∧ (2 ^ 56 ≤ va + i ∨ pinFor (view s) (view s).bclk (va + i) = none)
/-- A leaf does not permit an access of a kind: 0 load, 1 store, 2 atomic (R162, R301, R303). -/
def Denied (kind e : Nat) : Prop := (kind ≠ 1 ∧ (pteRead e = false ∨ pteMulti e = true)) ∨ (kind ≠ 0 ∧ pteWrite e = false)

/-- Only one context has changed. -/
def OnlyCtx (c : CtxId) (s t : State) : Prop := { t with ctxs := s.ctxs } = s ∧ ∀ k, k ≠ c → getCtx t k = getCtx s k
/-- A command's token after its completion, for a context that still takes it: the count falls, a failure sets the error bit, and the
first failing status stays (R56). -/
def TokenEnds (who : CtxId) (tok : Nat) (failed : Bool) (status : Nat) (s t : State) : Prop :=
  alive s who = true → tok < (getCtx s who).tokens.length →
    let k := getTok (getCtx s who) tok
    let n := getTok (getCtx t who) tok
    n.count = k.count - 1 ∧ n.err = (k.err || failed) ∧ n.first = (if failed && !k.err then BitVec.ofNat 64 status else k.first)
/-- The node of a key, in a state. -/
def NodeIs (t : State) (n : Nat) (p : Node → Prop) : Prop := ∃ d, getNode t n = some d ∧ p d

end Sys2Proof.Machine
end

