-- ==== Sys2Proof/Certificates/Slice0/Obligations.lean ====
section
/-! DEFINITION. The statements for the provers. Each formalises rules R<n> of spec/, or says in its docstring that it rests on a choice
of the model. A statement about an instruction takes a bundle of that one move in the selected context, in a state that nothing else
stops (`Quiet`, `Brings`, `Room`: Safety.lean), and gives the next state. -/

open Sys2Proof Sys2Proof.Machine

/-! ## Encoding (R16, R19 to R26, R95) -/

/-- Words written out from R19 to R26 and R95: guard, source and destination fields side by side, one instruction of every unit. A header
reads back its fields (R16). -/
def Obligations.WordsDecode : Prop :=
  (decodeMove 0b000_0000000001_0_00000_00100#24 = .ok (.addAlu0 .always (.g 1))
  ∧ decodeMove 0b001_1100000101_0_00001_00101#24 = .ok (.subAlu1 .p1 (.short 5))
  ∧ decodeMove 0b100_1000010000_0_00010_00100#24 = .ok (.mul .notP1 (.latch 2 false))
  ∧ decodeMove 0b000_1111110000_0_00011_00101#24 = .ok (.bra .always .long0)
  ∧ decodeMove 0b010_0000111111_0_00100_01100#24 = .ok (.ldd .p2 (.g 63))
  ∧ decodeMove 0b110_0100001111_0_00101_00101#24 = .ok (.mtsr .notP3 (.o 15))
  ∧ decodeMove 0b000_1111101111_0_00110_00111#24 = .ok (.vst .always (.short 0xEF))
  ∧ decodeMove 0b000_0001000000_0_00111_00100#24 = .ok (.viadd .always (.v 0))
  ∧ decodeMove 0b000_0100010111_0_01000_00100#24 = .ok (.fadd .always (.vo 7))
  ∧ decodeMove 0b011_0001011111_0_01001_00100#24 = .ok (.cvtfi .p3 (.v 31))
  ∧ decodeMove 0b000_1001010001_0_01010_00100#24 = .ok (.exp2 .always (.latch 10 true))
  ∧ decodeMove 0b101_0001100111_0_01011_01110#24 = .ok (.vcmp .notP2 (.m 7))
  ∧ decodeMove 0b000_0001101000_0_01100_00101#24 = .ok (.pget .always (.p 1))
  ∧ decodeMove 0b000_1100000000_0_01101_00110#24 = .ok (.mldw .always (.short 0))
  ∧ decodeMove 0b000_1111110010_0_01110_00101#24 = .ok (.cgo .always .longBoth)
  ∧ decodeMove 0b000_1111110011_0_01111_00110#24 = .ok (.grecv .always .long0z)
  ∧ decodeMove 0b000_1111110001_0_10000_00101#24 = .ok (.twrt .always .long1)
  ∧ decodeMove 0b000_1110000000_0_10001_01001#24 = .ok (.fence .always (.short 0x80))
  ∧ decodeMove 0b000_0000000010_1_00_00000011#24 = .ok (.move .always (.g 2) (.g 3))
  ∧ decodeMove 0b000_0000000010_0_00000_00000#24 = .ok (.move .always (.g 2) (.port 0 0))
  ∧ headerFields 0b1111_00000101_00000011_1_10_0#24 = ⟨5, 3, true, 2⟩)
  ∧ (∀ h : Header, h.mask < 256 → h.await < 256 → h.longs < 3 →
    decodeHeader (encodeHeader h) = .ok h ∧ h.length = 1 + ((List.range 8).filter fun k => h.mask.testBit k).length + h.longs)

/-- Which syllables are moves (R20 to R24, R26, R94, R95): guard codes 0 to 6, the source levels and indices R21 and R26 list, the operand
and trigger ports of the 18 units and the registers of R22; every other syllable is refused and never falls to a neighbour. -/
def Obligations.LegalMoves : Prop :=
  ∀ w : Syllable, let src := w.toNat / 2 ^ 11 % 2 ^ 10
    let d := w.toNat % 2 ^ 11
    (∃ i, decodeMove w = .ok i) ↔
      w.toNat / 2 ^ 21 < 7
      ∧ (src < 0x6B ∨ (0x100 ≤ src ∧ src < 0x118) ∨ (0x200 ≤ src ∧ src < 0x290 ∧ src % 8 < 2) ∨ (0x300 ≤ src ∧ src < 0x3F4))
      ∧ ((d < 0x240 ∧ d % 32 < 4 + [28, 28, 9, 10, 21, 16, 18, 26, 20, 15, 7, 15, 6, 8, 5, 6, 5, 7].getD (d / 32) 0)
        ∨ (0x400 ≤ d ∧ d < 0x46B) ∨ (0x500 ≤ d ∧ d < 0x518))

/-- Every well-formed instruction that has a syllable reads back from it, every operand at every value its field admits, and every syllable
that decodes is the one its well-formed instruction encodes to: no two syllables stand for one instruction (R19 to R26, R95). -/
def Obligations.EncodingRoundTrip : Prop :=
  ∀ (i : Instr) (w : Syllable), (i.wf = true ∧ encode i = some w) ↔ decodeMove w = .ok i

/-! ## A step -/

/-- R16 and R57 to R60: where one context of the core next to issue is the one that issues, and the syllables at its pc are the header of a
bundle of one move, a syllable that decodes to i, and the long immediates, step is exec of i in the state in which the core has noted its
cycle (`prepare`) and the context and that bundle are selected. -/
def Obligations.StepRunsDecoded : Prop :=
  ∀ (s : State) (c : CoreId) (k slot await n : Nat) (solo : Bool) (longs : List Syllable) (w : Syllable) (i : Instr),
    s.agenda = [] → s.focus = some c → c.wf = true → slot < 8 → await < 256 → n ≤ 2 → longs.length = n →
    let s0 := { afterTurn (.bundleIssue c) s with focus := none }
    let s1 := prepare opOfField c s0
    let h := (getCtx s1 (c.ctxId k)).pc
    issuers opOfField c s0 = [c.ctxId k] → h + 2 + n ≤ 2 ^ 18 →
    fetchSyl s1 c h = some (some (encodeHeader ⟨2 ^ slot, await, solo, n⟩)) → fetchSyl s1 c (h + 1) = some (some w) →
    (∀ j, j < n → fetchSyl s1 c (h + 2 + j) = some (some (longs.getD j 0))) → decodeMove w = .ok i →
      step s = exec i { s1 with sel := ⟨c.ctxId k, slot, await, solo, longs⟩ }

/-- The model's choice (DESIGN CHOICE, log entry 20: the spec orders the agents of a cycle in no way): a step takes the first entry of the
agenda, else the core in focus, else the first due event or the next core; and when nothing is due and no core may issue, the wall cycle
ends. -/
def Obligations.StepOrder : Prop :=
  ∀ s : State, (∀ e r, s.agenda = e :: r → step s = exec e { s with agenda := r })
    ∧ (∀ c, s.agenda = [] → s.focus = some c → step s = exec (.bundleIssue c) (afterTurn (.bundleIssue c) s))
    ∧ (s.agenda = [] → s.focus = none → (∃ e, firstDue (dueEvents s) = some e ∧ step s = exec e (afterTurn e s))
      ∨ (firstDue (dueEvents s) = none ∧ ∃ c, nextCore s = some c ∧ step s = exec (.bundleIssue c) (afterTurn (.bundleIssue c) s))
      ∨ (firstDue (dueEvents s) = none ∧ nextCore s = none ∧ step s = .next (endCycle s)))

/-- Memory and the fresco tier keep their canonical form in every step. -/
def Obligations.StepKeepsCanonical : Prop := ∀ s t : State, Canonical s → step s = .next t → Canonical t

/-- The state after reset: canonical, nothing started, 8 dies, 64 islands, 18 ports and 2 host ports. That a context which no node has
started holds the values that R27 and R108 give for context start is the model's choice (DESIGN CHOICE, log entry 2: the spec gives none at
package reset). -/
def Obligations.ResetState : Prop :=
  Canonical State.reset ∧ State.reset.cycle = 0 ∧ State.reset.dies.length = 8 ∧ State.reset.islands.length = 64 ∧ State.reset.ports.length = 18
  ∧ State.reset.hosts.length = 2
  ∧ ∀ k, let c := getCtx State.reset k
    c.run = .notStarted ∧ c.bclk = 0 ∧ (∀ i, c.g.getD i .zero = .zero) ∧ (∀ i, c.o.getD i .zero = .zero) ∧ c.p = List.replicate 3 (false, false)
    ∧ (∀ n, readV c n = vecZero) ∧ (∀ n, (getV c n).st = .unwritten) ∧ c.sr.link = 0 ∧ c.loopCnt = 0 ∧ c.loopEnd = 0 ∧ c.sr.frm = 0 ∧ c.sr.fflags = 0
    ∧ c.sr.quota = 16 ∧ c.sr.trapvec = 0 ∧ c.sr.trappc = 0 ∧ c.sr.trapcause = 0 ∧ c.sr.info0 = 0 ∧ c.sr.info1 = 0 ∧ tokStat c = 0 ∧ c.sr.prio = 0
    ∧ c.sr.mcwin = 0 ∧ c.sr.engsel = 0

/-! ## Moves, guards and landing (R20, R25, R31, R47, R80) -/

/-- R47 and R31: a move to a main-file register lands two bundles later, to an operand-file register one bundle later, with the source's
value broadcast to the destination's type; a move to an operand port is there for the bundle's own triggers and later ones. A vector name
takes storage when its bundle issues (R240): its own, else a free register of the quota, else that of the name R241 picks, which is dropped
and keeps its binding; where none is droppable the bundle traps 0x09 with the name and VQUOTA (R240, R72). -/
def Obligations.MoveLands : Prop :=
  ∀ (s : State) (g : Guard) (src : Source) (d : Dest), Quiet s → Brings s g src (destTy d) →
    (∀ u k, d = .port u k → exec (.move g src d) s = .next (after s src (setPort u k (brought s (portTy u k) src))))
    ∧ (Room s 0 0 1 → ∀ i, d = .g i → exec (.move g src d) s = .next (after s src (inFlight [⟨(view s).bclk + 2, .main i, brought s .s src, 0, 0, (view s).bclk⟩])))
    ∧ (Room s 0 0 1 → ∀ i, d = .p i → exec (.move g src d) s = .next (after s src (inFlight [⟨(view s).bclk + 2, .main (0x67 + i), brought s .s src, 0, 0, (view s).bclk⟩])))
    ∧ (Room s 0 1 0 → ∀ i, d = .m i → exec (.move g src d) s = .next (after s src (inFlight [⟨(view s).bclk + 2, .main (0x60 + i), brought s .m src, 0, 0, (view s).bclk⟩])))
    ∧ (Room s 0 0 1 → ∀ i, d = .o i → exec (.move g src d) s = .next (after s src (inFlight [⟨(view s).bclk + 1, .oper i, brought s .s src, 0, 0, (view s).bclk⟩])))
    ∧ (Room s 0 1 0 → ∀ i, d = .vo i → exec (.move g src d) s = .next (after s src (inFlight [⟨(view s).bclk + 1, .oper (0x10 + i), brought s .v src, 0, 0, (view s).bclk⟩])))
    ∧ (Room s 0 1 0 → ∀ n, d = .v n → (vHolds (view s) n = true ∨ residentCount (view s) < (view s).sr.quota) →
      ∃ t, exec (.move g src d) s = .next t ∧ OthersKept s t ∧ SpecialsKept (view s) (getCtx t s.sel.who)
        ∧ (getCtx t s.sel.who).flight = (view s).flight ++ [⟨(view s).bclk + 2, .main (0x40 + n), brought s .v src, 0, 0, (view s).bclk⟩]
        ∧ RegsKept (view s) (getCtx t s.sel.who))
    ∧ (Room s 0 1 0 → ∀ n k, d = .v n → vHolds (view s) n = false → (view s).sr.quota ≤ residentCount (view s) →
      evictee (view s) (readNames src ++ [n]) = some k →
      (∀ m, droppable (view s) (readNames src ++ [n]) m = true → m < 32 →
        (getV (view s) k).access < (getV (view s) m).access ∨ ((getV (view s) k).access = (getV (view s) m).access ∧ k ≤ m))
      ∧ ∃ t, exec (.move g src d) s = .next t ∧ OthersKept s t ∧ SpecialsKept (view s) (getCtx t s.sel.who)
        ∧ (let x := getCtx t s.sel.who
           x.flight = (view s).flight ++ [⟨(view s).bclk + 2, .main (0x40 + n), brought s .v src, 0, 0, (view s).bclk⟩]
           ∧ (getV x k).st = .dropped ∧ (getV x k).bound = (getV (view s) k).bound ∧ (∀ m, m ≠ k → readV x m = readV (view s) m)
           ∧ x.g = (view s).g ∧ x.o = (view s).o ∧ x.p = (view s).p ∧ x.m = (view s).m ∧ x.vo = (view s).vo ∧ x.ports = (view s).ports
           ∧ x.latches = (view s).latches))
    ∧ (Room s 0 1 0 → ∀ n, d = .v n → vHolds (view s) n = false → (view s).sr.quota ≤ residentCount (view s) →
      evictee (view s) (readNames src ++ [n]) = none → (own s).snap = none →
      exec (.move g src d) s = .next (trapped s ⟨0x09, n, vquotaWord (readNames src ++ [n]) (view s)⟩))

/-- R20: a move whose guard fails writes nothing and starts no operation, whatever its destination; its bundle still issues. R20 and R64: a
guard that fails on a poisoned predicate still traps at point 1, by the parity record's trap when that is set (R65). R31: a move whose
source has another type than its destination, and is no scalar, traps 0x03 with its slot and field, whether its guard passes or not; a
vector never goes to a scalar, nor a mask to a vector. -/
def Obligations.MovesHeldBack : Prop :=
  (∀ (s : State) (i : Instr) (g : Guard) (src : Source) (f : Nat), moveParts i = some (g, src, f) → i.wf = true → Quiet s →
    guardPasses (view s) g = false → guardPoisoned (view s) g = false → longNeed src ≤ s.sel.longs.length → srcTy (view s) src = .s →
    ∃ t, exec i s = .next t ∧ OthersKept s t ∧ RegsKept (view s) (getCtx t s.sel.who) ∧ SpecialsKept (view s) (getCtx t s.sel.who)
      ∧ (getCtx t s.sel.who).flight = (view s).flight ∧ (getCtx t s.sel.who).landing = (view s).landing
      ∧ (getCtx t s.sel.who).bclk = (own s).bclk + 1)
  ∧ (∀ (s : State) (i : Instr) (g : Guard) (src : Source) (f : Nat), moveParts i = some (g, src, f) → i.wf = true → Quiet s →
    guardPasses (view s) g = false → guardPoisoned (view s) g = true → longNeed src ≤ s.sel.longs.length → srcTy (view s) src = .s →
    (own s).snap = none →
    exec i s = .next (trapped s (if (view s).parity = 0 then ⟨0x08, 1, s.sel.slot⟩ else ⟨0x0B, 1, (view s).parity.toNat⟩)))
  ∧ (∀ (s : State) (g : Guard) (src : Source) (d : Dest), Quiet s → longNeed src ≤ s.sel.longs.length → srcTy (view s) src ≠ .s →
    srcTy (view s) src ≠ destTy d → Room s 0 1 1 → (own s).snap = none → (Instr.move g src d).wf = true →
    exec (.move g src d) s = .next (trapped s ⟨0x03, s.sel.slot, encodeDest d⟩))

/-- R47, R48 and R80: what is in flight for a position lands at it, whatever lands beside it: a latch takes the value of the result
triggered last, fixed-latency or timed (R48), and a register, predicate, mask, vector or special register the value of the last write of it;
FFLAGS becomes the OR of every flag that lands, over what an MTSR or FFLGS write of FFLAGS brings (R80). A touched pattern register takes
its descriptor (R154); that an invalid one leaves its bytes there is the model's choice (DESIGN CHOICE, log entry 145). A sketch entry is
defined by a valid one and else stays cleared (R243, R248). What nothing is in flight for stays. Two writes of one vector name beside a
write of VQUOTA are left to `SpecialRegisters`. -/
def Obligations.ResultsLand : Prop :=
  ∀ (c : Ctx) (q : Nat), let d := landAt q c
    let due := c.flight.filter fun f => f.land == q
    let timed := c.landing.filter fun l => l.land == q
    d.flight = (c.flight.filter fun f => f.land != q) ∧ d.landing = (c.landing.filter fun l => l.land != q) ∧ d.pc = c.pc ∧ d.bclk = c.bclk
    ∧ ((∀ f ∈ due, f.dst ≠ .special 8) → d.sr.fflags = due.foldl (fun a f => a ||| f.flags) c.sr.fflags)
    ∧ (∀ f ∈ due, (∀ k ∈ due, k.dst = f.dst → k = f ∨ k.issued < f.issued) →
      let v := (valSc f.val).v.toNat
      (∀ u y, f.dst = .latch u y → latchIx u y < c.latches.length → (∀ l ∈ timed, l.dst = .latch u → y = false → l.issued < f.issued) →
        d.latches[latchIx u y]? = some f.val)
      ∧ (∀ i, f.dst = .main i → i < 0x40 → i < c.g.length → d.g[i]? = some (valSc f.val))
      ∧ (∀ i, f.dst = .main (0x40 + i) → i < 32 → i < c.v.length → (∀ k ∈ due, k.dst ≠ .special 9) →
        getV d i = { getV c i with st := .resident, val := valVec f.val, bound := none })
      ∧ (∀ i, f.dst = .main (0x60 + i) → i < 8 → i < c.m.length → d.m[i]? = some (valMask f.val))
      ∧ (∀ i, f.dst = .main (0x68 + i) → i < c.p.length → d.p[i]? = some (decide ((valSc f.val).v ≠ 0), (valSc f.val).p))
      ∧ (∀ i, f.dst = .oper i → i < 16 → i < c.o.length → d.o[i]? = some (valSc f.val))
      ∧ (∀ i, f.dst = .oper (0x10 + i) → i < c.vo.length → d.vo[i]? = some (valVec f.val))
      ∧ (f.dst = .special 8 → d.sr.fflags = due.foldl (fun a k => a ||| k.flags) (BitVec.ofNat 5 v))
      ∧ (∀ r ∈ ([(0x04, 2 ^ 18, fun x => x.sr.link.toNat), (0x05, 2 ^ 32, Ctx.loopCnt), (0x06, 2 ^ 18, Ctx.loopEnd), (0x07, 4, fun x => x.sr.frm.toNat),
          (0x09, 64, fun x => x.sr.quota), (0x0A, 2 ^ 18, fun x => x.sr.trapvec), (0x0B, 2 ^ 18, fun x => x.sr.trappc),
          (0x0C, 256, fun x => x.sr.trapcause), (0x0D, 2 ^ 64, fun x => x.sr.info0.toNat), (0x0E, 2 ^ 64, fun x => x.sr.info1.toNat),
          (0x10, 8, fun x => x.sr.prio), (0x12, 2 ^ 32, fun x => x.sr.mcwin.toNat)] : List (Nat × Nat × (Ctx → Nat))),
        f.dst = .special r.1 → r.2.2 d = v % r.2.1)
      ∧ (f.dst = .special 0x13 → (∀ k ∈ due, k.dst ≠ .special 0x113 ∧ k.dst ≠ .special 0x213) → d.sr.engsel.toNat = v % 256)
      ∧ (f.dst = .special 0x113 → (∀ k ∈ due, k.dst ≠ .special 0x13) → d.sr.engsel.toNat % 4 = v % 4)
      ∧ (f.dst = .special 0x213 → (∀ k ∈ due, k.dst ≠ .special 0x13) → d.sr.engsel.toNat / 4 % 8 = v % 8))
    ∧ (∀ l ∈ timed, (∀ k ∈ timed, k.dst = l.dst → k = l ∨ k.issued < l.issued) →
      (∀ u v par, l.dst = .latch u → l.data = .value v par → latchIx u false < c.latches.length →
        (∀ f ∈ due, f.dst = .latch u false → f.issued < l.issued) → d.latches[latchIx u false]? = some v)
      ∧ (∀ k bs bad, l.dst = .pattern k → l.data = .desc bs bad → k < c.pats.length → d.pats[k]? = some ⟨bs, patternOk bs, bad⟩)
      ∧ (∀ k frm bs bad, l.dst = .sketch k frm → l.data = .desc bs bad → k < c.sketches.length →
        (∀ x ∈ timed, ∀ f, x.dst = .sketch k f → x = l) → (∀ n, (getV c n).st ≠ .dropped) → (∀ f ∈ due, f.dst ≠ .special 9) →
        d.sketches[k]? = some (if sketchOk bs then ⟨bs, true, frm, bad⟩ else .cleared)))
    ∧ (∀ u y, (∀ f ∈ due, f.dst ≠ .latch u y) → (∀ l ∈ timed, l.dst = .latch u → y = true) → d.latches[latchIx u y]? = c.latches[latchIx u y]?)
    ∧ (∀ i, i < 0x40 → (∀ f ∈ due, f.dst ≠ .main i) → d.g[i]? = c.g[i]?)
    ∧ (∀ i, i < 32 → (∀ f ∈ due, f.dst ≠ .main (0x40 + i) ∧ f.dst ≠ .special 9) → getV d i = getV c i)
    ∧ (∀ i, i < 8 → (∀ f ∈ due, f.dst ≠ .main (0x60 + i)) → d.m[i]? = c.m[i]?)
    ∧ (∀ i, (∀ f ∈ due, f.dst ≠ .main (0x68 + i)) → d.p[i]? = c.p[i]?)
    ∧ (∀ i, i < 16 → (∀ f ∈ due, f.dst ≠ .oper i) → d.o[i]? = c.o[i]?)
    ∧ (∀ i, (∀ f ∈ due, f.dst ≠ .oper (0x10 + i)) → d.vo[i]? = c.vo[i]?)
    ∧ ((∀ f ∈ due, ∀ i, f.dst ≠ .special i) → d.sr = { c.sr with fflags := d.sr.fflags } ∧ d.loopCnt = c.loopCnt ∧ d.loopEnd = c.loopEnd)

/-! ## Traps (R64, R65, R68, R71) -/

/-- R68: trap entry saves the address and cause, captures the results in flight with their remaining counts, the ports, latches, loop state,
redirects and awaited tokens, empties the pipeline, clears the parity record, and goes on at TRAPVEC without delay bundles. R71: a trap with
the snapshot slot occupied halts the context, which issues nothing more, and kills its node. Stated for a node in the running state, no
image saved, with no engine holding a command. That BCLK stays (DEDUCED, log entry 55) and that TRAPVEC is read as it stood before anything
lands at the faulting bundle (DEDUCED, log entry 111) is the model's reading. -/
def Obligations.TrapEntry : Prop :=
  (∀ (s : State) (who : CtxId) (t : Trap), let c := getCtx s who
    c.snap = none → t.cause < 256 →
    let d := getCtx (trapEnter who t s) who
    d.sr = { c.sr with trappc := c.pc, trapcause := t.cause, info0 := BitVec.ofNat 64 t.info0, info1 := BitVec.ofNat 64 t.info1 }
    ∧ d.pc = c.sr.trapvec ∧ d.parity = 0 ∧ d.flight = [] ∧ d.landing = [] ∧ d.redirects = [] ∧ d.twait = 0 ∧ d.bclk = c.bclk
    ∧ RegsKept c d
    ∧ (∃ sn, d.snap = some sn ∧ sn.ports = c.ports ∧ sn.latches = c.latches ∧ sn.loopStart = c.loopStart ∧ sn.loopCnt = c.loopCnt
      ∧ sn.loopEnd = c.loopEnd ∧ sn.twait = c.twait ∧ sn.flight = c.flight.map (fun f => { f with land := f.land - c.bclk })
      ∧ sn.landing = c.landing.map (fun l => { l with land := l.land - c.bclk })
      ∧ sn.redirects = c.redirects.map fun r => { r with pos := r.pos - c.bclk })
    ∧ (trapEnter who t s).mem = s.mem ∧ ∀ k, k ≠ who → getCtx (trapEnter who t s) k = getCtx s k)
  ∧ (∀ (s : State) (who : CtxId) (t : Trap) (n : Nat) (d : Node), (getCtx s who).snap.isSome → (getCtx s who).node = some n → getNode s n = some d →
    d.st = .running → d.saved = none → s.mex = [] → s.cpy = [] → s.glz = [] → s.rtc = [] →
    let u := trapEnter who t s
    (getCtx u who).run = .halted ∧ (getCtx u who).flight = [] ∧ awake u who (getCtx u who) = false
    ∧ (∃ e, getNode u n = some e ∧ e.st = .killed ∧ e.kill2 = true) ∧ ∀ k, (getCtx s k).node = some n → (getCtx u k).stopped = true)

/-- R64: the points at which a poisoned scalar traps, in the value that triggers and in each operand port that the instruction reads. A
poisoned address, offset or index of a memory access or touch is point 2, a poisoned value of a store point 0, an operand of an atomic point
3, of a control transfer point 1, of a matrix, copy, glaze, retouch or barrier instruction, MTSR, PRIO or SYSC point 4. RFT, legal only with
the snapshot slot occupied (R130), halts there by a double fault (R71). That poison comes before the other checks of an instruction is the
model's reading (DEDUCED, log entry 48). -/
def Obligations.PoisonPoints : Prop :=
  (∀ (s : State) (g : Guard) (src : Source), Quiet s → Brings s g src .s → Room s 1 1 2 → (own s).snap = none →
    (view s).parity = 0 → (∀ k, (getTok (view s) k).count < 15) → s.mex = [] → s.cpy = [] → s.glz = [] → s.rtc = [] →
    (∀ p, (getPart s p).shares = []) → (getDie s s.sel.who.die).calls = [] →
    ((trigSc s src).p = true →
      ∀ r ∈ ([(2, [Instr.ldb, Instr.ldbs, Instr.ldh, Instr.ldhs, Instr.ldw, Instr.ldws, Instr.ldd, Instr.stb, Instr.sth, Instr.stw, Instr.std, Instr.spld,
            Instr.spst, Instr.tch, Instr.gld, Instr.gst, Instr.vld, Instr.vlds, Instr.vst, Instr.vsts, Instr.vstm, Instr.vldbf, Instr.vstbf, Instr.vldf8,
            Instr.vldi8, Instr.vldz8, Instr.vldx, Instr.vlde, Instr.vstp, Instr.vgld, Instr.vgst, Instr.vstmc, Instr.pset, Instr.rdef, Instr.rtag, Instr.rclr,
            Instr.rdrop]),
          (3, [Instr.aadd, Instr.amax, Instr.amin, Instr.axchg, Instr.acas]),
          (1, [Instr.jmp, Instr.bra, Instr.brz, Instr.brnz, Instr.call, Instr.loops, Instr.loopx]),
          (4, [Instr.mtsr, Instr.prio, Instr.sysc, Instr.msel, Instr.mset, Instr.mldw, Instr.mstr, Instr.mdrn, Instr.mzero, Instr.mstat, Instr.mcan, Instr.cset,
            Instr.cgo, Instr.cstat, Instr.ccan, Instr.csel, Instr.gset, Instr.gsend, Instr.grecv, Instr.gred, Instr.gcan, Instr.gprec, Instr.tset, Instr.twrt,
            Instr.tstat, Instr.twear, Instr.tmap, Instr.binit, Instr.barv, Instr.bexp, Instr.btst, Instr.bwait, Instr.fence, Instr.twait])]
          : List (Nat × List (Guard → Source → Instr))),
        ∀ i ∈ r.2, exec (i g src) s = .next (trapped s ⟨0x08, r.1, s.sel.slot⟩))
    ∧ (∀ r ∈ ([(1, 3, 0, [Instr.brz, Instr.brnz, Instr.loops, Instr.loopx]), (1, 3, 1, [Instr.loopx]),
          (2, 4, 0, [Instr.gld]), (2, 4, 1, [Instr.gst]), (2, 4, 2, [Instr.gld]),
          (3, 4, 0, [Instr.aadd, Instr.amax, Instr.amin, Instr.axchg, Instr.acas]), (3, 4, 1, [Instr.acas]),
          (3, 4, 2, [Instr.aadd, Instr.amax, Instr.amin, Instr.axchg, Instr.acas]),
          (4, 5, 0, [Instr.mtsr, Instr.sysc]), (4, 5, 1, [Instr.sysc]), (2, 5, 0, [Instr.rdef, Instr.rtag]),
          (2, 6, 1, [Instr.vlds, Instr.vsts, Instr.vldf8, Instr.vldx, Instr.vlde, Instr.vstp]), (2, 6, 2, [Instr.vstp, Instr.vgld]), (2, 12, 0, [Instr.pset]),
          (4, 13, 0, [Instr.mset, Instr.mzero]), (4, 14, 0, [Instr.cset]), (4, 15, 0, [Instr.gset, Instr.gcan, Instr.gprec]), (4, 16, 0, [Instr.tset]),
          (4, 17, 0, [Instr.binit, Instr.bexp, Instr.bwait]), (4, 17, 2, [Instr.btst])]
          : List (Nat × Nat × Nat × List (Guard → Source → Instr))),
        (portSc s r.2.1 r.2.2.1).p = true → ∀ i ∈ r.2.2.2, exec (i g src) s = .next (trapped s ⟨0x08, r.1, s.sel.slot⟩))
    ∧ ((trigSc s src).p = false →
      (∀ r ∈ ([(1, Instr.stb), (2, Instr.sth), (4, Instr.stw), (8, Instr.std)] : List (Nat × (Guard → Source → Instr))),
        (portSc s 4 0).p = true → (trigSc s src).v.toNat % r.1 = 0 → InLocal (trigSc s src).v.toNat r.1 →
          exec (r.2 g src) s = .next (trapped s ⟨0x08, 0, s.sel.slot⟩))
      ∧ (∀ r ∈ ([(4, Instr.vst), (2, Instr.vstbf)] : List (Nat × (Guard → Source → Instr))),
        (∃ l < 128, (laneAt (portVec s 6 0) l).p = true) → (trigSc s src).v.toNat % r.1 = 0 → InLocal (trigSc s src).v.toNat (128 * r.1) →
          exec (r.2 g src) s = .next (trapped s ⟨0x08, 0, s.sel.slot⟩))
      ∧ (∀ q, (portSc s 4 0).p = true → (portSc s 4 1).p = false → (portSc s 4 1).v.toNat < 4 →
        let n := 2 ^ (portSc s 4 1).v.toNat
        (trigSc s src).v.toNat % n = 0 → Covered s (trigSc s src).v.toNat n q → pteWrite q.pte.toNat = true →
          exec (.gst g src) s = .next (trapped s ⟨0x08, 0, s.sel.slot⟩))))
  ∧ (∀ (s : State) (g : Guard) (src : Source), Quiet s → Brings s g src .s → (trigSc s src).p = true → (own s).snap.isSome →
    exec (.rft g src) s = .next (doubleFault s.sel.who s))

/-! ## Scalar arithmetic (R110 to R114) -/

/-- R111, for alu0 and alu1: fields 0x004 to 0x017 and 0x024 to 0x037, one scalar in latch x of the unit, readable from the next bundle,
poisoned when a or t is; no flag, no other change. R112: SEL, the bit counts and the field instructions of alu0 and alu1. Each function
takes a, b, c and t; each row says which of a, b and c it reads. -/
def Obligations.AluResults : Prop :=
  (∀ (s : State) (g : Guard) (src : Source), Quiet s → Brings s g src .s → Room s 0 0 1 →
    ∀ r ∈ ([(4, Instr.addAlu0, Instr.addAlu1, fun a t => BitVec.ofNat 64 (a.toNat + t.toNat)),
        (5, Instr.subAlu0, Instr.subAlu1, fun a t => BitVec.ofInt 64 ((a.toNat : Int) - t.toNat)),
        (6, Instr.andAlu0, Instr.andAlu1, fun a t => a &&& t), (7, Instr.orAlu0, Instr.orAlu1, fun a t => a ||| t),
        (8, Instr.xorAlu0, Instr.xorAlu1, fun a t => a ^^^ t), (9, Instr.andnAlu0, Instr.andnAlu1, fun a t => a &&& ~~~t),
        (10, Instr.shlAlu0, Instr.shlAlu1, fun a t => BitVec.ofNat 64 (a.toNat * 2 ^ (t.toNat % 64))),
        (11, Instr.shrAlu0, Instr.shrAlu1, fun a t => BitVec.ofNat 64 (a.toNat / 2 ^ (t.toNat % 64))),
        (12, Instr.sarAlu0, Instr.sarAlu1, fun a t => BitVec.ofInt 64 (a.toInt / (2 ^ (t.toNat % 64) : Nat))),
        (13, Instr.rolAlu0, Instr.rolAlu1, fun a t => (a <<< (t.toNat % 64)) ||| (a >>> (64 - t.toNat % 64))),
        (14, Instr.minAlu0, Instr.minAlu1, fun a t => if a.toInt ≤ t.toInt then a else t),
        (15, Instr.maxAlu0, Instr.maxAlu1, fun a t => if t.toInt ≤ a.toInt then a else t),
        (16, Instr.minuAlu0, Instr.minuAlu1, fun a t => if a.toNat ≤ t.toNat then a else t),
        (17, Instr.maxuAlu0, Instr.maxuAlu1, fun a t => if t.toNat ≤ a.toNat then a else t),
        (18, Instr.eqAlu0, Instr.eqAlu1, fun a t => if a = t then 1 else 0), (19, Instr.neAlu0, Instr.neAlu1, fun a t => if a = t then 0 else 1),
        (20, Instr.ltAlu0, Instr.ltAlu1, fun a t => if a.toInt < t.toInt then 1 else 0),
        (21, Instr.ltuAlu0, Instr.ltuAlu1, fun a t => if a.toNat < t.toNat then 1 else 0),
        (22, Instr.leAlu0, Instr.leAlu1, fun a t => if a.toInt ≤ t.toInt then 1 else 0),
        (23, Instr.leuAlu0, Instr.leuAlu1, fun a t => if a.toNat ≤ t.toNat then 1 else 0)]
        : List (Nat × (Guard → Source → Instr) × (Guard → Source → Instr) × (Dword → Dword → Dword))),
      moveParts (r.2.1 g src) = some (g, src, r.1) ∧ moveParts (r.2.2.1 g src) = some (g, src, 0x20 + r.1)
      ∧ exec (r.2.1 g src) s = .next (after s src (inFlight
          [latchSc s 0 1 (r.2.2.2 (portSc s 0 0).v (trigSc s src).v) ((portSc s 0 0).p || (trigSc s src).p)]))
      ∧ exec (r.2.2.1 g src) s = .next (after s src (inFlight
          [latchSc s 1 1 (r.2.2.2 (portSc s 1 0).v (trigSc s src).v) ((portSc s 1 0).p || (trigSc s src).p)])))
  ∧ (∀ (s : State) (g : Guard) (src : Source), Quiet s → Brings s g src .s → Room s 0 0 1 →
    ∀ r ∈ ([(24, Instr.selAlu0, Instr.selAlu1, (true, true, false), fun a b _ t => if t = 0 then b else a),
        (25, Instr.clzAlu0, Instr.clzAlu1, (false, false, false), fun _ _ _ t => BitVec.ofNat 64 ((List.range 64).takeWhile fun i => !t.getMsbD i).length),
        (26, Instr.ctzAlu0, Instr.ctzAlu1, (false, false, false), fun _ _ _ t => BitVec.ofNat 64 ((List.range 64).takeWhile fun i => !t.getLsbD i).length),
        (27, Instr.popcAlu0, Instr.popcAlu1, (false, false, false), fun _ _ _ t => BitVec.ofNat 64 ((List.range 64).filter fun i => t.getLsbD i).length),
        (28, Instr.sextAlu0, Instr.sextAlu1, (true, false, false), fun a _ _ t => BitVec.ofInt 64 (Int.bmod a.toNat (2 ^ min t.toNat 64))),
        (29, Instr.zextAlu0, Instr.zextAlu1, (true, false, false), fun a _ _ t => a &&& BitVec.ofNat 64 (2 ^ min t.toNat 64 - 1)),
        (30, Instr.bfxAlu0, Instr.bfxAlu1, (true, true, false), fun a b _ t => (a >>> (b.toNat % 64)) &&& BitVec.ofNat 64 (2 ^ min t.toNat 64 - 1)),
        (31, Instr.bfiAlu0, Instr.bfiAlu1, (true, true, true), fun a b c t =>
          let m : Dword := BitVec.ofNat 64 ((2 ^ min t.toNat 64 - 1) * 2 ^ (b.toNat % 64))
          (a &&& ~~~m) ||| (BitVec.ofNat 64 (c.toNat * 2 ^ (b.toNat % 64)) &&& m))]
        : List (Nat × (Guard → Source → Instr) × (Guard → Source → Instr) × (Bool × Bool × Bool) × (Dword → Dword → Dword → Dword → Dword))),
      let tag : Nat → Bool := fun u => (r.2.2.2.1.1 && (portSc s u 0).p) || (r.2.2.2.1.2.1 && (portSc s u 1).p)
        || (r.2.2.2.1.2.2 && (portSc s u 2).p) || (trigSc s src).p
      moveParts (r.2.1 g src) = some (g, src, r.1) ∧ moveParts (r.2.2.1 g src) = some (g, src, 0x20 + r.1)
      ∧ exec (r.2.1 g src) s = .next (after s src (inFlight
          [latchSc s 0 1 (r.2.2.2.2 (portSc s 0 0).v (portSc s 0 1).v (portSc s 0 2).v (trigSc s src).v) (tag 0)]))
      ∧ exec (r.2.2.1 g src) s = .next (after s src (inFlight
          [latchSc s 1 1 (r.2.2.2.2 (portSc s 1 0).v (portSc s 1 1).v (portSc s 1 2).v (trigSc s src).v) (tag 1)])))

/-- R113 and R114: products from exact 128-bit products, division rounding toward zero with its two corners; latencies 3 and 20. -/
def Obligations.MultiplyDivideResults : Prop :=
  ∀ (s : State) (g : Guard) (src : Source), Quiet s → Brings s g src .s → Room s 0 0 1 →
    ∀ r ∈ ([(0x044, Instr.mul, 3, false, fun a _ t => BitVec.ofNat 64 (a.toNat * t.toNat)),
        (0x045, Instr.mulh, 3, false, fun a _ t => (a.signExtend 128 * t.signExtend 128).extractLsb' 64 64),
        (0x046, Instr.mulhu, 3, false, fun a _ t => (a.setWidth 128 * t.setWidth 128).extractLsb' 64 64),
        (0x047, Instr.mulw, 3, false, fun a _ t => (a.setWidth 32 * t.setWidth 32).signExtend 64),
        (0x048, Instr.madd, 3, true, fun a b t => BitVec.ofNat 64 (a.toNat * t.toNat + b.toNat)),
        (0x049, Instr.div, 20, false, fun a _ t => if t = 0 then BitVec.allOnes 64
          else if a.toInt = -2 ^ 63 ∧ t.toInt = -1 then 0x8000000000000000 else BitVec.ofInt 64 (a.toInt.tdiv t.toInt)),
        (0x04A, Instr.divu, 20, false, fun a _ t => if t = 0 then BitVec.allOnes 64 else BitVec.ofNat 64 (a.toNat / t.toNat)),
        (0x04B, Instr.rem, 20, false, fun a _ t => if t = 0 then a
          else if a.toInt = -2 ^ 63 ∧ t.toInt = -1 then 0 else BitVec.ofInt 64 (a.toInt.tmod t.toInt)),
        (0x04C, Instr.remu, 20, false, fun a _ t => if t = 0 then a else BitVec.ofNat 64 (a.toNat % t.toNat))]
        : List (Nat × (Guard → Source → Instr) × Nat × Bool × (Dword → Dword → Dword → Dword))),
      moveParts (r.2.1 g src) = some (g, src, r.1)
      ∧ exec (r.2.1 g src) s = .next (after s src (inFlight [latchSc s 2 r.2.2.1
          (r.2.2.2.2 (portSc s 2 0).v (portSc s 2 1).v (trigSc s src).v)
          ((portSc s 2 0).p || (r.2.2.2.1 && (portSc s 2 1).p) || (trigSc s src).p)]))

/-! ## Control (R61, R62, R115 to R121) -/

/-- R115 and R116 with R61: a taken JMP, BRA, BRZ, BRNZ or RET decides the third bundle after its own; BRZ and BRNZ not taken change no
flow. R117: the transfer of CALL decides the third bundle, and LINK gets the address that flow would reach after the second one, a pending
transfer and the loop state that these bundles see included; where a delay bundle has no header LINK is a free value (DESIGN CHOICE, log
entry 16). R118: LOOPS and LOOPX write the loop state; LOOPX with a count of 0 also transfers behind the bundle at LOOPEND. The model's
readings: in the first delay bundle of a CALL either one settles LINK anew (`relink`; DEDUCED, log entry 53), and addresses wrap modulo 2^18
(DEDUCED, log entry 47). -/
def Obligations.Transfers : Prop :=
  (∀ (s : State) (g : Guard) (src : Source), Quiet s → Brings s g src .s →
    let h := (own s).pc
    let rel : Nat := (((h : Int) + (trigSc s src).v.toInt) % (2 ^ 18 : Nat)).toNat
    let goes : Nat → State := fun target => after s src fun c => { c with redirects := c.redirects ++ [⟨(view s).bclk + 3, target, h⟩] }
    ((trigSc s src).p = false →
      exec (.jmp g src) s = .next (goes ((trigSc s src).v.toNat % 2 ^ 18)) ∧ exec (.bra g src) s = .next (goes rel))
    ∧ exec (.ret g src) s = .next (goes ((view s).sr.link.toNat % 2 ^ 18))
    ∧ ((trigSc s src).p = false → (portSc s 3 0).p = false →
      exec (.brz g src) s = .next (if (portSc s 3 0).v = 0 then goes rel else after s src id)
      ∧ exec (.brnz g src) s = .next (if (portSc s 3 0).v = 0 then after s src id else goes rel)))
  ∧ (∀ (s : State) (g : Guard) (src : Source), Quiet s → Brings s g src .s → (trigSc s src).p = false →
    let c1 := advance s (entry s src)
    let c2 := seen c1
    let beyond : Nat × Nat → Syllable → Nat × Nat := fun x w =>
      let hit := decide (x.1 = c2.loopEnd) && decide (x.2 ≠ 0)
      (if hit && decide (x.2 - 1 ≠ 0) then c2.loopStart else (x.1 + (headerFields w).length) % 2 ^ 18, if hit then x.2 - 1 else x.2)
    let second : Syllable → Nat × Nat := fun w =>
      match redirectAt c1 (c1.bclk + 1) with
      | some r => (r.target, (beyond (c1.pc, c2.loopCnt) w).2)
      | none => beyond (c1.pc, c2.loopCnt) w
    ∃ t, exec (.call g src) s = .next t ∧ OthersKept s { t with free := s.free } ∧ RegsKept (view s) (getCtx t s.sel.who)
      ∧ (getCtx t s.sel.who).redirects = c1.redirects ++ [⟨(view s).bclk + 3, (trigSc s src).v.toNat % 2 ^ 18, (own s).pc⟩]
      ∧ (getCtx t s.sel.who).pc = c1.pc ∧ (getCtx t s.sel.who).bclk = (own s).bclk + 1
      ∧ (∃ l, (getCtx t s.sel.who).sr = { (view s).sr with link := l })
      ∧ ∀ w1 w2, peekSyl s s.sel.who.coreId c1.pc = some w1 → isHeader w1 = true →
        peekSyl s s.sel.who.coreId (second w1).1 = some w2 → isHeader w2 = true →
        t.free = s.free ∧ (getCtx t s.sel.who).sr.link = BitVec.ofNat 64 (beyond (second w1) w2).1)
  ∧ (∀ (s : State) (g : Guard) (src : Source), Quiet s → Brings s g src .s → (trigSc s src).p = false → (portSc s 3 0).p = false →
    let h := (own s).pc
    let rel : Dword → Nat := fun v => (((h : Int) + v.toInt) % (2 ^ 18 : Nat)).toNat
    let n := (portSc s 3 0).v.toNat % 2 ^ 32
    let e := rel (trigSc s src).v
    exec (.loops g src) s = .next (relink s (after s src fun c =>
        { c with loopCnt := n, loopEnd := e, loopStart := (h + oneLen s) % 2 ^ 18 }))
    ∧ ((portSc s 3 1).p = false →
      exec (.loopx g src) s = .next (relink s (after s src fun c =>
        { c with
          loopCnt := n, loopEnd := e, loopStart := rel (portSc s 3 1).v,
          redirects := if n = 0 then c.redirects ++ [⟨(view s).bclk + 3,
            (match peekSyl s s.sel.who.coreId e with
              | some w => if isHeader w then (e + (headerFields w).length) % 2 ^ 18 else e
              | none => e), h⟩] else c.redirects }))))

/-- R120: TRAP raises trap 0x10 in its own bundle, whatever t and a hold: TRAPINFO0 receives t, TRAPINFO1 receives a, TRAPPC the bundle's
address; with the snapshot slot occupied it is a double fault and the context halts (R71). Entry to the handler is that of R68, at the
TRAPVEC and with the snapshot of before anything lands at the bundle, which is the model's reading (DEDUCED, log entry 111). -/
def Obligations.TrapInstruction : Prop :=
  ∀ (s : State) (g : Guard) (src : Source), Quiet s → Brings s g src .s →
    ((own s).snap = none → ∃ t, exec (.trap g src) s = .next t ∧ OthersKept s t
      ∧ (getCtx t s.sel.who).sr = { (own s).sr with
          trappc := (own s).pc, trapcause := 0x10, info0 := (trigSc s src).v, info1 := (portSc s 3 0).v }
      ∧ (getCtx t s.sel.who).pc = (own s).sr.trapvec ∧ (getCtx t s.sel.who).snap = some (snapshot (own s))
      ∧ RegsKept (own s) (getCtx t s.sel.who))
    ∧ ((own s).snap.isSome → exec (.trap g src) s = .next (doubleFault s.sel.who s))

/-- R121: EXIT with status 0 retires the context at once: nothing of it stays in flight, its vector storage and its pending flow are gone,
and no other context or memory byte changes. Another status, or a poisoned one, which counts as 0xFFFFFFFF, also stops every other context
of the node, notes the failure and its status in the node, and takes the queued commands of the other contexts out of their engines; those
of the context itself stay. -/
def Obligations.ExitRetires : Prop :=
  (∀ (s : State) (g : Guard) (src : Source), Quiet s → Brings s g src .s → (trigSc s src).p = false → (trigSc s src).v.setWidth 32 = 0#32 →
    ∃ t, exec (.exit g src) s = .next t ∧ OthersKept s t
      ∧ (let d := getCtx t s.sel.who
         d.run = .retired ∧ d.exitStatus = 0 ∧ d.flight = [] ∧ d.landing = [] ∧ d.redirects = [] ∧ d.snap = none
         ∧ residentCount d = 0 ∧ d.g = (view s).g ∧ d.sr = (view s).sr ∧ awake t s.sel.who d = false))
  ∧ ∀ (s : State) (g : Guard) (src : Source), Quiet s → Brings s g src .s →
    let status : Word32 := if (trigSc s src).p then 0xFFFFFFFF#32 else (trigSc s src).v.setWidth 32
    status ≠ 0#32 → ∃ t, exec (.exit g src) s = .next t
      ∧ (let d := getCtx t s.sel.who
         d.run = .retired ∧ d.exitStatus = status ∧ d.flight = [] ∧ d.landing = [] ∧ d.redirects = [] ∧ d.snap = none ∧ residentCount d = 0
         ∧ awake t s.sel.who d = false)
      ∧ (nodeOf s s.sel.who = none → OthersKept s t)
      ∧ ∀ n d, nodeOf s s.sel.who = some n → getNode s n = some d →
        NodeIs t n (fun x => x.stop = .exit ∧ x.exitSt = status ∧ x.st = d.st ∧ x.clusters = d.clusters)
        ∧ (∀ k, k ≠ s.sel.who → nodeOf s k = some n → (getCtx t k).stopped = true)
        ∧ (let other : CtxId → Bool := fun k => decide (k ≠ s.sel.who) && nodeOf s k == some n
           (∀ e, (getMex t e).queue = (getMex s e).queue.filter (fun c => !other c.who) ∧ (getMex t e).runs = (getMex s e).runs)
           ∧ (∀ e, (getCpy t e).queue = (getCpy s e).queue.filter (fun c => !other c.who) ∧ (getCpy t e).runs = (getCpy s e).runs)
           ∧ (∀ e, (getGlz t e).queue = (getGlz s e).queue.filter (fun c => !other c.who) ∧ (getGlz t e).runs = (getGlz s e).runs)
           ∧ ∀ e, (getRtc t e).queue = (getRtc s e).queue.filter (fun c => !other c.who) ∧ (getRtc t e).run = (getRtc s e).run)
        ∧ (s.mex = [] → s.cpy = [] → s.glz = [] → s.rtc = [] → t.mem = s.mem ∧ ∀ k, nodeOf s k ≠ some n → getCtx t k = getCtx s k)

/-! ## Scalar memory (R167, R178 to R184) -/

/-- R179: SPST writes the dword with its tag into the context's spill window, SPLD lands both; an offset that is not 8-aligned or lies above
0x3FF8 raises trap 0x14 with the offset and the slot. -/
def Obligations.SpillAccesses : Prop :=
  ∀ (s : State) (g : Guard) (src : Source), Quiet s → Brings s g src .s → (trigSc s src).p = false →
    let o := (trigSc s src).v.toNat
    ((o % 8 ≠ 0 ∨ 0x3FF8 < o) → (own s).snap = none →
      (Room s 0 0 1 → exec (.spld g src) s = .next (trapped s ⟨0x14, o, s.sel.slot⟩))
      ∧ exec (.spst g src) s = .next (trapped s ⟨0x14, o, s.sel.slot⟩))
    ∧ (o % 8 = 0 → o ≤ 0x3FF8 →
    (Room s 0 0 1 → exec (.spld g src) s = .next (after s src (inFlight
      [latchSc s 4 1 (BitVec.ofNat 64 (ofBytes (Memory.gets (view s).spill o 8))) ((view s).spillPoison.contains o)])))
    ∧ (Memory.wf (view s).spill = true → ∃ t, exec (.spst g src) s = .next t ∧ OthersKept s t
        ∧ (let d := getCtx t s.sel.who
           (∀ i, i < 8 → Memory.get d.spill (o + i) = (toBytes 8 (portSc s 4 0).v.toNat).getD i 0)
           ∧ (∀ x, (x < o ∨ o + 8 ≤ x) → Memory.get d.spill x = Memory.get (view s).spill x)
           ∧ d.spillPoison.contains o = (portSc s 4 0).p ∧ (∀ x, x ≠ o → d.spillPoison.contains x = (view s).spillPoison.contains x)
           ∧ RegsKept (view s) d ∧ d.sr = (view s).sr ∧ Memory.wf d.spill = true)))

/-- R180 for aligned addresses of scratchpad and accumulator space: the bytes of memory, little-endian, zero- or sign-extended, take a
landing-buffer entry that lands lsu.x five bundles later; only that and one memory event change. -/
def Obligations.LocalLoads : Prop :=
  ∀ (s : State) (g : Guard) (src : Source), Quiet s → Brings s g src .s → Room s 1 0 0 → (trigSc s src).p = false → Settled s →
    s.sel.who.wf = true →
    let a := (trigSc s src).v.toNat
    ∀ r ∈ ([(Instr.ldb, 1, false), (Instr.ldbs, 1, true), (Instr.ldh, 2, false), (Instr.ldhs, 2, true), (Instr.ldw, 4, false),
        (Instr.ldws, 4, true), (Instr.ldd, 8, false)] : List ((Guard → Source → Instr) × Nat × Bool)),
      a % r.2.1 = 0 → InLocal a r.2.1 → (∀ i, i < r.2.1 → macFailed s (localAt s a + i) = false) →
      let v := ofBytes (Memory.gets s.mem (localAt s a) r.2.1)
      let x : Dword := if r.2.2 then BitVec.ofInt 64 (Int.bmod v (2 ^ (8 * r.2.1))) else BitVec.ofNat 64 v
      ∃ t, exec (r.1 g src) s = .next t ∧ OneEvent s t
        ∧ getCtx t s.sel.who = advance s (lands s 5 (.latch 4) (.value (.sc ⟨x, badBytes s (localAt s a) r.2.1⟩) 0) (entry s src))

/-- R181 for aligned addresses of scratchpad and accumulator space: the low bytes of a go to memory at the local address, little-endian, and
every other byte stays; registers and special registers stay. -/
def Obligations.LocalStores : Prop :=
  ∀ (s : State) (g : Guard) (src : Source), Quiet s → Brings s g src .s → (trigSc s src).p = false → (portSc s 4 0).p = false →
    Memory.wf s.mem = true → s.sel.who.wf = true →
    let a := (trigSc s src).v.toNat
    ∀ r ∈ ([(Instr.stb, 1), (Instr.sth, 2), (Instr.stw, 4), (Instr.std, 8)] : List ((Guard → Source → Instr) × Nat)),
      a % r.2 = 0 → InLocal a r.2 →
      ∃ t, exec (r.1 g src) s = .next t ∧ Stored s t (localAt s a) (toBytes r.2 (portSc s 4 0).v.toNat) ∧ WentOn s t

/-- Where memory accesses trap (R176); nothing else changes. R180, R181 and R185 to R191: a misaligned local access or lane raises trap 0x12
with its address and alignment; where all lanes are aligned, the first outside its rows of the local map raises trap 0x06 with its address
and access kind. R189: a sparse vector that passes scratchpad raises trap 0x06, one above its reserve trap 0x0A with both sizes. R183, R184,
R190 and R194: a global access that no pin covers raises trap 0x07, a misaligned one 0x12, one that its leaf does not permit 0x06, in this
order; an atomic outside the accumulators 0x06 with kind 2, a barrier word outside scratchpad 0x0D with misuse kind 2, and an operand that
R194 bars 0x0D with its misuse kind. R304: an access that meets an alias raises trap 0x0E, after the permission test (DESIGN CHOICE, log
entry 51). That TRAPINFO0 of trap 0x0D has all bits of the address word but bit 63 is the model's choice (DESIGN CHOICE, log entry 146).
R182 and R305: TCH takes an entry that lands two bundles later. Where a live pin of a context of the cluster covers the address and its page
is not being remapped, the page's touch word is there and the context has a pin of the page; else the walk of the address starts. R306:
where the page is being remapped, the pins that cover the address end and the walk starts. An address above 56 bits raises trap 0x05 with
fault kind 0. -/
def Obligations.MemoryAccessTraps : Prop :=
  (∀ (s : State) (g : Guard) (src : Source), Quiet s → Brings s g src .s → Room s 1 0 0 → (trigSc s src).p = false → (own s).snap = none →
    let a := (trigSc s src).v.toNat
    ∀ r ∈ ([(Instr.ldb, 1, 0), (Instr.ldbs, 1, 0), (Instr.ldh, 2, 0), (Instr.ldhs, 2, 0), (Instr.ldw, 4, 0), (Instr.ldws, 4, 0),
        (Instr.ldd, 8, 0), (Instr.stb, 1, 1), (Instr.sth, 2, 1), (Instr.stw, 4, 1), (Instr.std, 8, 1)]
        : List ((Guard → Source → Instr) × Nat × Nat)),
      (a % r.2.1 ≠ 0 → exec (r.1 g src) s = .next (trapped s ⟨0x12, a, r.2.1⟩))
      ∧ (a % r.2.1 = 0 → ¬ InLocal a r.2.1 → (r.2.2 = 1 → ¬ (0x800000 ≤ a ∧ a + r.2.1 ≤ 0x900000)) →
        exec (r.1 g src) s = .next (trapped s ⟨0x06, a, r.2.2⟩)))
  ∧ (∀ (s : State) (g : Guard) (src : Source), Quiet s → Brings s g src .s → Room s 1 0 0 → (trigSc s src).p = false →
    let a := (trigSc s src).v.toNat
    let locked := lockedPins (given s 0x091 .s src) s
    let moving : List Pin → Bool := fun ps => remapping s (partOf s s.sel.who) (worldOf s s.sel.who) ps a
    let live := locked.find? fun p => pinCovers p a
    (∀ p, p ∈ locked ↔ (p ∈ (view s).pins ∧ (view s).bclk ≤ p.last)
      ∨ ∃ k c, (k, c) ∈ s.ctxs ∧ k.clId = s.sel.who.clId ∧ k ≠ s.sel.who ∧ c.node.isSome ∧ c.stopped = false ∧ p ∈ c.pins ∧ coverFrom c ≤ p.last)
    ∧ (∀ p, a < 2 ^ 56 → moving locked = false → live = some p → exec (.tch g src) s = .next (after s src fun c => { c with
        landing := c.landing ++ [⟨(view s).bclk + 2, (view s).bclk, s.sel.slot, .latch 4, true,
          .value (.sc ⟨BitVec.ofNat 64 (p.size + (if pteRead p.pte.toNat then 4 else 0) + (if pteWrite p.pte.toNat then 8 else 0)
            + (if pteGuard p.pte.toNat then 16 else 0) + (if pteWorld p.pte.toNat then 32 else 0)), false⟩) 0, c.nextId, 0⟩],
        nextId := c.nextId + 1,
        pins := addPin (view s).bclk ⟨a, p.size, p.pte, (view s).bclk + 2, (view s).bclk + 2047, p.born⟩ c.pins }))
    ∧ (a < 2 ^ 56 → (moving locked = true ∨ live = none) → exec (.tch g src) s = .next (after s src fun c => lands s 2 (.latch 4) (.walk a)
        { c with pins := if moving (view s).pins then
            c.pins.map fun q => if pinCovers q a then { q with last := min q.last ((view s).bclk + 1) } else q
          else c.pins }))
    ∧ (2 ^ 56 ≤ a → (own s).snap = none → exec (.tch g src) s = .next (trapped s ⟨0x05, a, 0⟩)))
  ∧ (∀ (s : State) (g : Guard) (src : Source), Quiet s → Room s 1 0 1 → (own s).snap = none →
    let a := (trigSc s src).v.toNat
    let b := portSc s 6 1
    let stops : (Nat → Nat → Prop) → Instr → (Nat → Nat) → Nat → Nat → (Nat → Prop) → Prop := fun row i at' n kind on =>
      ∀ l, l < 128 → on l →
        (at' l % n ≠ 0 → (∀ k, k < l → on k → at' k % n = 0) → exec i s = .next (trapped s ⟨0x12, at' l, n⟩))
        ∧ ((∀ k, k < 128 → on k → at' k % n = 0) → ¬ row (at' l) n → (∀ k, k < l → on k → row (at' k) n) →
          exec i s = .next (trapped s ⟨0x06, at' l, kind⟩))
    let all : Nat → Prop := fun _ => True
    (Brings s g src .s → (trigSc s src).p = false →
      stops InLocal (.vld g src) (fun l => a + 4 * l) 4 0 all ∧ stops InLocal (.vldbf g src) (fun l => a + 2 * l) 2 0 all
      ∧ stops InLocal (.vldi8 g src) (fun l => a + l) 1 0 all ∧ stops InLocal (.vldz8 g src) (fun l => a + l) 1 0 all
      ∧ stops InLocal (.vst g src) (fun l => a + 4 * l) 4 1 all ∧ stops InLocal (.vstbf g src) (fun l => a + 2 * l) 2 1 all
      ∧ ((portMask s 6 3).any (·.p) = false →
        stops InLocal (.vstm g src) (fun l => a + 4 * l) 4 1 fun l => (maskAt (portMask s 6 3) l).v = true)
      ∧ stops (fun x n => 0x800000 ≤ x ∧ x + n ≤ 0x900000) (.vstmc g src) (fun l => a + 4 * l) 4 1 all
      ∧ (b.p = false →
        let lane : Nat → Nat := fun l => (((a : Int) + l * b.v.toInt) % (2 ^ 64 : Nat)).toNat
        stops InLocal (.vlds g src) lane 4 0 all ∧ stops InLocal (.vsts g src) lane 4 1 all
        ∧ (b.v.toNat ≤ 1 → stops InLocal (.vldf8 g src) (fun l => a + l) 1 0 all)
        ∧ (b.v.toNat < 8 → (getPat (view s) b.v.toNat).valid = true → stops InLocal (.vldx g src) (fun l => a + 4 * l) 4 0 all)
        ∧ (b.v.toNat < 0x10000 → (a % 16 ≠ 0 → exec (.vlde g src) s = .next (trapped s ⟨0x12, a, 16⟩))
          ∧ (a % 16 = 0 → 0x300000 < a + 16 → exec (.vlde g src) s = .next (trapped s ⟨0x06, a, 0⟩)))
        ∧ (1 < b.v.toNat → exec (.vldf8 g src) s = .next (trapped s ⟨0x01, s.sel.slot, 0⟩))
        ∧ ((8 ≤ b.v.toNat ∨ (getPat (view s) b.v.toNat).valid = false) → exec (.vldx g src) s = .next (trapped s ⟨0x01, s.sel.slot, 0⟩))
        ∧ (0x10000 ≤ b.v.toNat → exec (.vlde g src) s = .next (trapped s ⟨0x01, s.sel.slot, 0⟩))
        ∧ ((portSc s 6 2).p = false →
          let c := (portSc s 6 2).v.toNat
          let n0 := c % 2 ^ 16
          let o := c / 2 ^ 16 % 2 ^ 16
          let z0 := c / 2 ^ 32 % 2 ^ 16
          let fmt := c / 2 ^ 48 % 2 ^ 8
          let legal := b.v.toNat < 2 ^ 32 ∧ c < 2 ^ 56 ∧ 1 ≤ fmt ∧ fmt ≤ 8 ∧ o < n0 ∧ o % 8 = 0 ∧ z0 ≤ o
          let size := P4.codeSize fmt
          let n := min (512 / size) (n0 - o)
          let els := (List.range n).map (segElem (portVec s 6 0) size)
          let total := 16 + ceilTo 16 ((n0 + 7) / 8) + ceilTo 16 ((z0 + (els.filter fun e => !P4.codeZero fmt e).length) * size)
          (¬ legal → exec (.vstp g src) s = .next (trapped s ⟨0x01, s.sel.slot, 0⟩))
          ∧ (legal → (a % 16 ≠ 0 → exec (.vstp g src) s = .next (trapped s ⟨0x12, a, 16⟩))
            ∧ (a % 16 = 0 → 0x300000 < a + total → exec (.vstp g src) s = .next (trapped s ⟨0x06, a, 1⟩))
            ∧ (a % 16 = 0 → a + total ≤ 0x300000 → b.v.toNat < total →
              exec (.vstp g src) s = .next (trapped s ⟨0x0A, total, b.v.toNat⟩))))))
    ∧ (Brings s g src .v → b.p = false → (trigVec s src).any (·.p) = false →
      let lane : Nat → Nat := fun l => (b.v.toNat + (laneAt (trigVec s src) l).v.toNat) % 2 ^ 64
      stops InLocal (.vldg g src) lane 4 0 all ∧ stops InLocal (.vstg g src) lane 4 1 all))
  ∧ (∀ (s : State) (g : Guard) (src : Source), Quiet s → Brings s g src .s → Room s 1 0 1 → (own s).snap = none → (trigSc s src).p = false →
    let w := (trigSc s src).v.toNat
    let ok : Nat → Nat → Sc := portSc s
    let stops : Instr → Nat → Nat → Nat → Prop := fun i va n kind =>
      (Untouched s va n → exec i s = .next (trapped s ⟨0x07, va, s.sel.slot⟩))
      ∧ ∀ q, Reached s va n q → (va % n ≠ 0 → exec i s = .next (trapped s ⟨0x12, va, n⟩))
        ∧ (va % n = 0 → Denied kind q.pte.toNat → exec i s = .next (trapped s ⟨0x06, va, kind⟩))
        ∧ (∀ t, va % n = 0 → ¬ Denied kind q.pte.toNat →
          aliasTrap s va ((List.range n).map fun i => ⟨pinAt q (va + i), q.pte.toNat⟩) = some t → exec i s = .next (trapped s t))
    let lanes : Instr → Nat → Prop := fun i kind =>
      (∀ l, l < 128 → Untouched s (w + 4 * l) 4 → (∀ k, k < l → ¬ Untouched s (w + 4 * k) 4) → exec i s = .next (trapped s ⟨0x07, w + 4 * l, s.sel.slot⟩))
      ∧ ((∀ l, l < 128 → ¬ Untouched s (w + 4 * l) 4) →
        (w % 4 ≠ 0 → exec i s = .next (trapped s ⟨0x12, w, 4⟩))
        ∧ ∀ l q, w % 4 = 0 → l < 128 → Reached s (w + 4 * l) 4 q → Denied kind q.pte.toNat →
          (∀ k, k < l → ∃ r, Reached s (w + 4 * k) 4 r ∧ ¬ Denied kind r.pte.toNat) → exec i s = .next (trapped s ⟨0x06, w + 4 * l, kind⟩))
    ((ok 4 0).p = false → (ok 4 2).p = false →
      ((ok 4 0).v.toNat < 8 → stops (.gld g src) w (2 ^ ((ok 4 0).v.toNat % 4)) 0)
      ∧ (8 ≤ (ok 4 0).v.toNat → exec (.gld g src) s = .next (trapped s ⟨0x01, s.sel.slot, 0⟩)))
    ∧ ((ok 4 1).p = false → ((ok 4 1).v.toNat < 4 → stops (.gst g src) w (2 ^ (ok 4 1).v.toNat) 1)
      ∧ (4 ≤ (ok 4 1).v.toNat → exec (.gst g src) s = .next (trapped s ⟨0x01, s.sel.slot, 0⟩)))
    ∧ ((ok 6 2).p = false → lanes (.vgld g src) 0) ∧ lanes (.vgst g src) 1
    ∧ ((ok 4 0).p = false → (ok 4 1).p = false → (ok 4 2).p = false → ∀ i ∈ [Instr.aadd, Instr.amax, Instr.amin, Instr.axchg, Instr.acas],
      (w < 2 ^ 63 → (w % 4 ≠ 0 → exec (i g src) s = .next (trapped s ⟨0x12, w, 4⟩))
        ∧ (w % 4 = 0 → ¬ (0x400000 ≤ w ∧ w + 4 ≤ 0x500000) → exec (i g src) s = .next (trapped s ⟨0x06, w, 2⟩)))
      ∧ (2 ^ 63 ≤ w → stops (i g src) (w - 2 ^ 63) 4 2 ∧ ∀ q, Covered s (w - 2 ^ 63) 4 q → w % 4 = 0 → ¬ Denied 2 q.pte.toNat →
        isAcc (pinAt q (w - 2 ^ 63)) = false → exec (i g src) s = .next (trapped s ⟨0x06, w - 2 ^ 63, 2⟩)))
    ∧ (∀ r ∈ ([(Instr.binit, 2, (ok 17 0).p = false ∧ 0 < (ok 17 0).v.toNat ∧ (ok 17 0).v.toNat < 2 ^ 56), (Instr.barv, 2, True),
        (Instr.bexp, 2, (ok 17 0).p = false ∧ (ok 17 0).v.toNat < 2 ^ 40), (Instr.btst, 0, (ok 17 2).p = false),
        (Instr.bwait, 0, (ok 17 0).p = false ∧ (ok 17 0).v.toNat ≤ 1)] : List ((Guard → Source → Instr) × Nat × Prop)), r.2.2 →
      (w < 2 ^ 63 → (w % 16 ≠ 0 → exec (r.1 g src) s = .next (trapped s ⟨0x12, w, 16⟩))
        ∧ (w % 16 = 0 → 0x300000 < w + 16 → exec (r.1 g src) s = .next (trapped s ⟨0x0D, w, 2⟩)))
      ∧ (2 ^ 63 ≤ w → stops (r.1 g src) (w - 2 ^ 63) 16 r.2.1 ∧ ∀ q, Covered s (w - 2 ^ 63) 16 q → w % 16 = 0 → ¬ Denied r.2.1 q.pte.toNat →
        isSpad (pinAt q (w - 2 ^ 63)) = false → exec (r.1 g src) s = .next (trapped s ⟨0x0D, w - 2 ^ 63, 2⟩)))
    ∧ ((ok 17 0).p = false →
      (((ok 17 0).v = 0 ∨ 2 ^ 56 ≤ (ok 17 0).v.toNat) → exec (.binit g src) s = .next (trapped s ⟨0x0D, w % 2 ^ 63, 1⟩))
      ∧ (1 < (ok 17 0).v.toNat → exec (.bwait g src) s = .next (trapped s ⟨0x0D, w % 2 ^ 63, 3⟩))
      ∧ (2 ^ 40 ≤ (ok 17 0).v.toNat → exec (.bexp g src) s = .next (trapped s ⟨0x0D, w % 2 ^ 63, 4⟩))))

/-- R183 for aligned accesses that one pin covers: GLD lands the bytes behind the pin at its arrival delta, GST stores the low bytes of a
there, in memory, or, where the context's node stages the page (R364) and its share is not exceeded, in the node's overlay alone. The store
is stated for pages of the package. -/
def Obligations.GlobalScalars : Prop :=
  ∀ (s : State) (g : Guard) (src : Source) (q : Pin), Quiet s → Brings s g src .s → (trigSc s src).p = false → Memory.wf s.mem = true →
    let a := (trigSc s src).v.toNat
    (∀ (k : Nat) (ext : Bool), k < 4 → (portSc s 4 0).v.toNat = k + (if ext then 4 else 0) → (portSc s 4 0).p = false → (portSc s 4 2).p = false →
      Room s 1 0 0 → Settled s → a % 2 ^ k = 0 → Covered s a (2 ^ k) q → pteRead q.pte.toNat = true →
      (∀ i, i < 2 ^ k → macFailed s (pinAt q a + i) = false) →
      let v := ofBytes (Memory.gets s.mem (pinAt q a) (2 ^ k))
      let x : Dword := if ext then BitVec.ofInt 64 (Int.bmod v (2 ^ (8 * 2 ^ k))) else BitVec.ofNat 64 v
      let delta := max 16 (min 4095 (portSc s 4 2).v.toNat)
      ∃ t, exec (.gld g src) s = .next t ∧ t.mem = s.mem
        ∧ getCtx t s.sel.who = advance s (lands s delta (.latch 4) (.value (.sc ⟨x, badBytes s (pinAt q a) (2 ^ k)⟩) 0) (entry s src)))
    ∧ (∀ k, k < 4 → (portSc s 4 1) = ⟨BitVec.ofNat 64 k, false⟩ → (portSc s 4 0).p = false → a % 2 ^ k = 0 → Covered s a (2 ^ k) q →
      pteWrite q.pte.toNat = true →
      (∀ i, i < 2 ^ k → physHost (pinAt q a + i) = false ∧ stageOf s (nodeOf s s.sel.who) (pinAt q a + i) q.pte.toNat = none) →
      ∃ t, exec (.gst g src) s = .next t ∧ Stored s t (pinAt q a) (toBytes (2 ^ k) (portSc s 4 0).v.toNat) ∧ WentOn s t)
    ∧ (∀ k n, k < 4 → (portSc s 4 1) = ⟨BitVec.ofNat 64 k, false⟩ → (portSc s 4 0).p = false → a % 2 ^ k = 0 → Covered s a (2 ^ k) q →
      pteWrite q.pte.toNat = true → (∀ i, i < 2 ^ k → stageOf s (nodeOf s s.sel.who) (pinAt q a + i) q.pte.toNat = some n) →
      stagingOver s (partOf s s.sel.who) ((List.range (2 ^ k)).map fun i => pinAt q a + i) = none →
      ∃ t, exec (.gst g src) s = .next t ∧ t.mem = s.mem ∧ WentOn s t
        ∧ (∀ i, i < 2 ^ k → assoc (n, pinAt q a + i) t.overlay = some ((toBytes (2 ^ k) (portSc s 4 0).v.toNat).getD i 0))
        ∧ ∀ x, (∀ i, i < 2 ^ k → x ≠ (n, pinAt q a + i)) → assoc x t.overlay = assoc x s.overlay)

/-- R184 in the local form: the old element lands lsu.x eight bundles later, the new one is in memory, every other byte stays. -/
def Obligations.LocalAtomics : Prop :=
  ∀ (s : State) (g : Guard) (src : Source), Quiet s → Brings s g src .s → Room s 1 0 0 → (trigSc s src).p = false →
    (portSc s 4 0).p = false → (portSc s 4 1).p = false → (portSc s 4 2).p = false → Memory.wf s.mem = true → s.sel.who.wf = true →
    let a := (trigSc s src).v.toNat
    a % 4 = 0 → 0x400000 ≤ a → a + 4 ≤ 0x500000 →
    let pa := localAt s a
    let old : Word32 := BitVec.ofNat 32 (ofBytes (Memory.gets s.mem pa 4))
    let opd : Word32 := (portSc s 4 0).v.setWidth 32
    let int := intElement s pa
    ∀ r ∈ ([(Instr.aadd, if int then BitVec.ofInt 32 (max (-2 ^ 31) (min (2 ^ 31 - 1) (old.toInt + opd.toInt))) else (Fp.add32 .rne old opd).v),
        (Instr.amax, if int then (if opd.toInt ≤ old.toInt then old else opd) else Fp.max32 old opd),
        (Instr.amin, if int then (if old.toInt ≤ opd.toInt then old else opd) else Fp.min32 old opd), (Instr.axchg, opd),
        (Instr.acas, if old = (portSc s 4 1).v.setWidth 32 then opd else old)] : List ((Guard → Source → Instr) × Word32)),
      ∃ t, exec (r.1 g src) s = .next t ∧ Stored s t pa (toBytes 4 r.2.toNat) ∧ RegsKept (view s) (getCtx t s.sel.who)
        ∧ (getCtx t s.sel.who).landing = (view s).landing ++ [⟨(view s).bclk + 8, (view s).bclk, s.sel.slot, .latch 4, false,
            .value (.sc ⟨old.setWidth 64, byteBad s pa⟩) 0, (view s).nextId, 0⟩]

/-! ## Vector memory (R185 to R191) -/

/-- R185 and R186 for aligned runs and lanes of scratchpad and accumulator space: each lane is the bytes at its own address, widened as its
instruction says, in one entry that lands vls.x six bundles later. R187 and R188: VLDX unpacks 512 bytes through a valid pattern register, a
lane poisoned with it or with a byte that holds a bit of its field; VLDE expands 128 elements of a sparse vector; both land vls.x six
bundles later and write no memory. That the lanes of VLDS and VLDG, each an event of its own (R185, R202), are read in one moment is the
model's choice (DESIGN CHOICE, log entry 119). -/
def Obligations.LocalVectorLoads : Prop :=
  (∀ (s : State) (g : Guard) (src : Source), Quiet s → Room s 1 0 0 → Settled s → s.sel.who.wf = true →
    let loads : Instr → (Nat → Nat) → Nat → (Nat → Word32) → Prop := fun i at' n widen =>
      (∀ l, l < 128 → at' l % n = 0 ∧ InLocal (at' l) n) →
      ∃ t, exec i s = .next t ∧ OneEvent s t ∧ getCtx t s.sel.who = advance s (lands s 6 (.latch 6) (.value (.vec (vecOf fun l =>
          ⟨widen (ofBytes (Memory.gets s.mem (localAt s (at' l)) n)), badBytes s (localAt s (at' l)) n⟩)) 0) (entry s src))
    (Brings s g src .s → (trigSc s src).p = false →
      let a := (trigSc s src).v.toNat
      loads (.vld g src) (fun l => a + 4 * l) 4 (BitVec.ofNat 32)
      ∧ loads (.vldbf g src) (fun l => a + 2 * l) 2 (Fp.widen Fp.bf16)
      ∧ loads (.vldi8 g src) (fun l => a + l) 1 (fun b => BitVec.ofInt 32 (Int.bmod b 256))
      ∧ loads (.vldz8 g src) (fun l => a + l) 1 (BitVec.ofNat 32)
      ∧ ((portSc s 6 1).p = false →
        loads (.vlds g src) (fun l => (((a : Int) + l * (portSc s 6 1).v.toInt) % (2 ^ 64 : Nat)).toNat) 4 (BitVec.ofNat 32)
        ∧ ((portSc s 6 1).v = 0 → loads (.vldf8 g src) (fun l => a + l) 1 (Fp.widen Fp.e4m3))
        ∧ ((portSc s 6 1).v = 1 → loads (.vldf8 g src) (fun l => a + l) 1 (Fp.widen Fp.e5m2))))
    ∧ (Brings s g src .v → (portSc s 6 1).p = false → (trigVec s src).any (·.p) = false →
      loads (.vldg g src) (fun l => ((portSc s 6 1).v.toNat + (laneAt (trigVec s src) l).v.toNat) % 2 ^ 64) 4 (BitVec.ofNat 32)))
  ∧ (∀ (s : State) (g : Guard) (src : Source), Quiet s → Brings s g src .s → Room s 1 0 0 → Settled s → s.sel.who.wf = true →
    (trigSc s src).p = false → (portSc s 6 1).p = false →
    let a := (trigSc s src).v.toNat
    let b := (portSc s 6 1).v.toNat
    (b < 8 → (getPat (view s) b).valid = true → a % 4 = 0 → InLocal a 512 →
      let p := getPat (view s) b
      let v := patUnpack p (vecOf fun l => ⟨BitVec.ofNat 32 (ofBytes (Memory.gets s.mem (localAt s a + 4 * l) 4)), false⟩)
      let first : Nat → Nat := fun l => patBase p.bytes l / 8
      let last : Nat → Nat := fun l => (patBase p.bytes l + patWidth p.bytes (l % patCount p.bytes) - 1) / 8
      ∃ t, exec (.vldx g src) s = .next t ∧ OneEvent s t
        ∧ getCtx t s.sel.who = advance s (lands s 6 (.latch 6) (.value (.vec (vecOf fun l => ⟨(laneAt v l).v, p.poisoned
            || (List.range 512).any fun i => decide (first l ≤ i) && decide (i ≤ last l) && byteBad s (localAt s a + i)⟩)) 0) (entry s src)))
    ∧ (b < 0x10000 → a % 16 = 0 → a + 16 ≤ 0x300000 →
      let hdr := Memory.gets s.mem (localAt s a) 16
      let body := min (ceilTo 16 ((ofBytes (hdr.take 2) + 7) / 8) + ofBytes ((hdr.drop 2).take 2) * P4.codeSize (hdr.getD 4 0).toNat) (0x300000 - (a + 16))
      ∃ t, exec (.vlde g src) s = .next t ∧ OneEvent s t
        ∧ getCtx t s.sel.who = advance s (lands s 6 (.latch 6) (.value (.vec (expandLanes (Memory.gets s.mem (localAt s a) (16 + body))
            ((List.range (16 + body)).map fun i => byteBad s (localAt s a + i)) b (0x300000 - a))) 0) (entry s src))))

/-- R185 and R186: the contiguous vector stores. VST writes 128 lanes, VSTM the lanes its mask enables, VSTBF 128 lanes narrowed to BF16
under FRM, whose flags land in the next bundle. Every other byte stays. R185: strided and scattered stores write each lane at its own
address in lane order, so that where lanes overlap the highest lane's byte stays; every byte no lane names is unchanged. R189 for a segment
that fits and has no poisoned element: VSTP writes the header, the mask bytes and the nonzero values where `packSegment` places them, and
nothing else. That the lanes of VSTS and VSTG, each an event of its own (R185, R202), are written in one moment is the model's choice
(DESIGN CHOICE, log entry 119), as is that marks on mask bytes stored before do not matter (DESIGN CHOICE, log entry 159). -/
def Obligations.LocalVectorStores : Prop :=
  (∀ (s : State) (g : Guard) (src : Source), Quiet s → Brings s g src .s → (trigSc s src).p = false → Memory.wf s.mem = true →
    s.sel.who.wf = true →
    let a := (trigSc s src).v.toNat
    let lane : Nat → Lane := laneAt (portVec s 6 0)
    let on : Nat → Bool := fun l => (maskAt (portMask s 6 3) l).v
    (a % 4 = 0 → InLocal a 512 → (∀ l, l < 128 → (lane l).p = false) →
      ∃ t, exec (.vst g src) s = .next t ∧ Stored s t (localAt s a) ((List.range 128).flatMap fun l => toBytes 4 (lane l).v.toNat) ∧ WentOn s t)
    ∧ ((portMask s 6 3).any (·.p) = false → (∀ l, l < 128 → on l = true → (a + 4 * l) % 4 = 0 ∧ InLocal (a + 4 * l) 4 ∧ (lane l).p = false) →
      ∃ t, exec (.vstm g src) s = .next t ∧ WentOn s t
        ∧ (∀ l k, l < 128 → k < 4 → on l = true → Memory.get t.mem (localAt s (a + 4 * l) + k) = (toBytes 4 (lane l).v.toNat).getD k 0)
        ∧ (∀ x, (∀ l, l < 128 → on l = true → x < localAt s (a + 4 * l) ∨ localAt s (a + 4 * l) + 4 ≤ x) → Memory.get t.mem x = Memory.get s.mem x))
    ∧ (a % 2 = 0 → InLocal a 256 → (∀ l, l < 128 → (lane l).p = false) →
      let nar : Nat → Fp.Res := fun l => Fp.narrow Fp.bf16 (frmOf (view s)) (lane l).v
      ∃ t, exec (.vstbf g src) s = .next t
        ∧ Stored s t (localAt s a) ((List.range 128).flatMap fun l => toBytes 2 (nar l).bits)
        ∧ RegsKept (view s) (getCtx t s.sel.who) ∧ SpecialsKept (view s) (getCtx t s.sel.who)
        ∧ ((portVec s 6 0).length = 128 → (getCtx t s.sel.who).flight = (view s).flight ++
            [⟨(view s).bclk + 1, .flags, .sc .zero, orFlags ((List.range 128).map fun l => (nar l).flags), 0, (view s).bclk⟩])))
  ∧ (∀ (s : State) (g : Guard) (src : Source), Quiet s → Memory.wf s.mem = true → s.sel.who.wf = true → (portSc s 6 1).p = false →
    (portVec s 6 0).length = 128 → (portVec s 6 0).any (·.p) = false →
    let stores : Instr → (Nat → Nat) → Prop := fun i at' =>
      (∀ l, l < 128 → at' l % 4 = 0 ∧ InLocal (at' l) 4) →
      ∃ t, exec i s = .next t ∧ WentOn s t ∧ ∀ x,
        Memory.get t.mem x = match ((List.range 128).filter fun l => decide (localAt s (at' l) ≤ x) && decide (x < localAt s (at' l) + 4)).getLast? with
          | some l => (toBytes 4 (laneAt (portVec s 6 0) l).v.toNat).getD (x - localAt s (at' l)) 0
          | none => Memory.get s.mem x
    (Brings s g src .s → (trigSc s src).p = false →
      stores (.vsts g src) fun l => ((((trigSc s src).v.toNat : Int) + l * (portSc s 6 1).v.toInt) % (2 ^ 64 : Nat)).toNat)
    ∧ (Brings s g src .v → (trigVec s src).any (·.p) = false →
      stores (.vstg g src) fun l => ((portSc s 6 1).v.toNat + (laneAt (trigVec s src) l).v.toNat) % 2 ^ 64))
  ∧ (∀ (s : State) (g : Guard) (src : Source), Quiet s → Brings s g src .s → (trigSc s src).p = false → (portSc s 6 1).p = false →
    (portSc s 6 2).p = false → Settled s → s.sel.who.wf = true →
    let a := (trigSc s src).v.toNat
    let reserve := (portSc s 6 1).v.toNat
    ∀ n0 o z0 fmt, (portSc s 6 2).v.toNat = fmt * 2 ^ 48 + z0 * 2 ^ 32 + o * 2 ^ 16 + n0 → n0 < 2 ^ 16 → o < n0 → z0 ≤ o → o % 8 = 0 →
      1 ≤ fmt → fmt ≤ 8 → reserve < 2 ^ 32 → a % 16 = 0 →
      let size := P4.codeSize fmt
      let n := min (512 / size) (n0 - o)
      let els := (List.range n).map (segElem (portVec s 6 0) size)
      let z := z0 + (els.filter fun e => !P4.codeZero fmt e).length
      let total := 16 + ceilTo 16 ((n0 + 7) / 8) + ceilTo 16 (z * size)
      a + total ≤ 0x300000 → total ≤ reserve → (∀ l, l < (n * size + 3) / 4 → (laneAt (portVec s 6 0) l).p = false) →
      ∃ t, exec (.vstp g src) s = .next t ∧ WentOn s t
        ∧ t.mem = writeCells ((packSegment a n0 o z0 fmt reserve els (Memory.gets s.mem (localAt s (a + 16)) (ceilTo 16 ((n0 + 7) / 8)))).map
            fun w => (physSpad s.sel.who.clId w.1, w.2)) s.mem)

/-- R190 for 512 bytes that one pin covers: VGLD lands 128 lanes at its arrival delta and writes no memory; VGST writes 128 lanes there,
stated for pages of the package that nothing stages. R172 and R191: a store into the multicast window writes no memory now; its bytes are to
land 24 cycles later in every cluster of the node that MCWIN names, and with none named nothing follows. That the 512 bytes of a VGLD or
VGST are read or written in one moment, with no other context's event between them, is the model's choice (DESIGN CHOICE, log entry 119). -/
def Obligations.GlobalVectors : Prop :=
  (∀ (s : State) (g : Guard) (src : Source) (q : Pin), Quiet s → Brings s g src .s → (trigSc s src).p = false →
    let a := (trigSc s src).v.toNat
    a % 4 = 0 → Covered s a 512 q →
    (Room s 1 0 0 → Settled s → (portSc s 6 2).p = false → pteRead q.pte.toNat = true →
      (∀ i, i < 512 → macFailed s (pinAt q a + i) = false) →
      ∃ t, exec (.vgld g src) s = .next t ∧ t.mem = s.mem
        ∧ getCtx t s.sel.who = advance s (lands s (max 16 (min 4095 (portSc s 6 2).v.toNat)) (.latch 6) (.value (.vec (vecOf fun l =>
            ⟨BitVec.ofNat 32 (ofBytes (Memory.gets s.mem (pinAt q a + 4 * l) 4)), badBytes s (pinAt q a + 4 * l) 4⟩)) 0) (entry s src)))
    ∧ (Memory.wf s.mem = true → pteWrite q.pte.toNat = true → (portVec s 6 0).length = 128 → (portVec s 6 0).any (·.p) = false →
      (∀ i, i < 512 → physHost (pinAt q a + i) = false ∧ stageOf s (nodeOf s s.sel.who) (pinAt q a + i) q.pte.toNat = none) →
      ∃ t, exec (.vgst g src) s = .next t ∧ WentOn s t
        ∧ Stored s t (pinAt q a) ((List.range 128).flatMap fun l => toBytes 4 (laneAt (portVec s 6 0) l).v.toNat)))
  ∧ (∀ (s : State) (g : Guard) (src : Source) (n : Nat) (d : Node), Quiet s → Brings s g src .s → (trigSc s src).p = false →
    (view s).node = some n → getNode s n = some d →
    let a := (trigSc s src).v.toNat
    let named : List ClId := (d.clusters.zipIdx.filter fun y => bit (view s).sr.mcwin.toNat y.2).map (·.1)
    let pours : Instr → List Byte → Prop := fun i bs =>
      ∃ t, exec i s = .next t ∧ t.mem = s.mem ∧ WentOn s t
        ∧ t.pours = if named.isEmpty then s.pours else s.pours ++ [⟨s.sel.who, named, a - 0x800000, bs, clk s s.sel.who.clId + 24⟩]
    ((portSc s 4 0).p = false → ∀ r ∈ ([(Instr.stb, 1), (Instr.sth, 2), (Instr.stw, 4), (Instr.std, 8)] : List ((Guard → Source → Instr) × Nat)),
      a % r.2 = 0 → 0x800000 ≤ a → a + r.2 ≤ 0x900000 → pours (r.1 g src) (toBytes r.2 (portSc s 4 0).v.toNat))
    ∧ (a % 4 = 0 → 0x800000 ≤ a → a + 512 ≤ 0x900000 → (portVec s 6 0).length = 128 → (portVec s 6 0).any (·.p) = false →
      pours (.vstmc g src) ((List.range 128).flatMap fun l => toBytes 4 (laneAt (portVec s 6 0) l).v.toNat)))

/-! ## Vector arithmetic (R135 to R152) -/

/-- R138: the lane-wise integer and logic instructions of val, two bundles later in val.x; a lane is poisoned when a lane it reads is. R138:
the mask instructions of val, its select, its lane numbers and its count. -/
def Obligations.VectorIntegerResults : Prop :=
  (∀ (s : State) (g : Guard) (src : Source), Quiet s → Brings s g src .v → Room s 0 1 0 →
    let av : Nat → Lane := laneAt (portVec s 7 0)
    let tv : Nat → Lane := laneAt (trigVec s src)
    (∀ r ∈ ([(Instr.viadd, fun a t => a + t), (Instr.visub, fun a t => a - t), (Instr.vimul, fun a t => a * t),
        (Instr.vimin, fun a t => if a.toInt ≤ t.toInt then a else t), (Instr.vimax, fun a t => if t.toInt ≤ a.toInt then a else t),
        (Instr.viminu, fun a t => if a.toNat ≤ t.toNat then a else t), (Instr.vimaxu, fun a t => if t.toNat ≤ a.toNat then a else t),
        (Instr.vand, fun a t => a &&& t), (Instr.vor, fun a t => a ||| t), (Instr.vxor, fun a t => a ^^^ t), (Instr.vandn, fun a t => a &&& ~~~t),
        (Instr.vshl, fun a t => BitVec.ofNat 32 (a.toNat * 2 ^ (t.toNat % 32))), (Instr.vshr, fun a t => BitVec.ofNat 32 (a.toNat / 2 ^ (t.toNat % 32))),
        (Instr.vsar, fun a t => BitVec.ofInt 32 (a.toInt / (2 ^ (t.toNat % 32) : Nat))),
        (Instr.viadds, fun a t => BitVec.ofInt 32 (max (-2 ^ 31) (min (2 ^ 31 - 1) (a.toInt + t.toInt)))),
        (Instr.vbeq8, fun a t => (if a.extractLsb' 24 8 = t.extractLsb' 24 8 then 0xFF#8 else 0#8) ++ (if a.extractLsb' 16 8 = t.extractLsb' 16 8 then 0xFF#8 else 0#8)
          ++ (if a.extractLsb' 8 8 = t.extractLsb' 8 8 then 0xFF#8 else 0#8) ++ (if a.extractLsb' 0 8 = t.extractLsb' 0 8 then 0xFF#8 else 0#8))]
        : List ((Guard → Source → Instr) × (Word32 → Word32 → Word32))),
      exec (r.1 g src) s = .next (after s src (inFlight
        [latchVal s 7 2 false (.vec (vecOf fun l => ⟨r.2 (av l).v (tv l).v, (av l).p || (tv l).p⟩)) 0])))
    ∧ (∀ r ∈ ([(Instr.vieq, fun a t => decide (a = t)), (Instr.vilt, fun a t => decide (a.toInt < t.toInt)),
        (Instr.viltu, fun a t => decide (a.toNat < t.toNat))] : List ((Guard → Source → Instr) × (Word32 → Word32 → Bool))),
      exec (r.1 g src) s = .next (after s src (inFlight
        [latchVal s 7 2 false (.mask (maskOf fun l => ⟨r.2 (av l).v (tv l).v, (av l).p || (tv l).p⟩)) 0]))))
  ∧ (∀ (s : State) (g : Guard) (src : Source), Quiet s →
    let tm : Nat → MLane := maskAt (trigMask s src)
    let cm : Nat → MLane := maskAt (portMask s 7 2)
    let av : Nat → Lane := laneAt (portVec s 7 0)
    let bv : Nat → Lane := laneAt (portVec s 7 1)
    (Brings s g src .m → Room s 0 1 0 →
      (∀ r ∈ ([(Instr.vmand, fun c t => c && t), (Instr.vmor, fun c t => c || t), (Instr.vmxor, fun c t => xor c t)]
          : List ((Guard → Source → Instr) × (Bool → Bool → Bool))),
        exec (r.1 g src) s = .next (after s src (inFlight
          [latchVal s 7 2 false (.mask (maskOf fun l => ⟨r.2 (cm l).v (tm l).v, (cm l).p || (tm l).p⟩)) 0])))
      ∧ exec (.vmnot g src) s = .next (after s src (inFlight [latchVal s 7 2 false (.mask (maskOf fun l => ⟨!(tm l).v, (tm l).p⟩)) 0]))
      ∧ exec (.vsel g src) s = .next (after s src (inFlight [latchVal s 7 2 false
          (.vec (vecOf fun l => ⟨if (tm l).v then (av l).v else (bv l).v, (av l).p || (bv l).p || (tm l).p⟩)) 0])))
    ∧ (Brings s g src .m → Room s 0 0 1 → (trigMask s src).length = 128 →
      exec (.vpopm g src) s = .next (after s src (inFlight
        [latchSc s 7 2 (BitVec.ofNat 64 ((List.range 128).filter fun l => (tm l).v).length) ((List.range 128).any fun l => (tm l).p)])))
    ∧ (Brings s g src .s → Room s 0 1 0 →
      exec (.viota g src) s = .next (after s src (inFlight
        [latchVal s 7 2 false (.vec (vecOf fun l => ⟨(trigSc s src).v.setWidth 32 + BitVec.ofNat 32 l, (trigSc s src).p⟩)) 0]))))

/-- R139 to R141: the lane-wise float instructions of vfa under FRM as their bundle sees it, four bundles later in vfa.x, with the OR of the
lanes' flags; comparisons give masks and raise no flag. The arithmetic of one lane is Machine/Fp.lean's (R74 to R82). R146 and R92: the
special functions of xfu, eight bundles later (SQRT twelve). SQRT is correctly rounded; each other function is its correctly rounded value
moved by the free value of its error as far as R92's bound from the exact result allows (DESIGN CHOICE, log entry 10). -/
def Obligations.VectorFloatResults : Prop :=
  (∀ (s : State) (g : Guard) (src : Source), Quiet s → Brings s g src .v → Room s 0 1 0 →
    let av : Nat → Lane := laneAt (portVec s 8 0)
    let bv : Nat → Lane := laneAt (portVec s 8 1)
    let tv : Nat → Lane := laneAt (trigVec s src)
    let rm := frmOf (view s)
    let h : Word32 → Nat → Nat := half
    (∀ r ∈ ([(Instr.fadd, true, false, fun a _ t => Fp.add32 rm a t), (Instr.fsub, true, false, fun a _ t => Fp.sub32 rm a t),
        (Instr.fmul, true, false, fun a _ t => Fp.mul32 rm a t), (Instr.fma, true, true, fun a b t => Fp.fma32 rm a b t),
        (Instr.fms, true, true, fun a b t => Fp.fms32 rm a b t), (Instr.fnma, true, true, fun a b t => Fp.fnma32 rm a b t),
        (Instr.fmax, true, false, fun a _ t => ⟨Fp.max32 a t, 0⟩), (Instr.fmin, true, false, fun a _ t => ⟨Fp.min32 a t, 0⟩),
        (Instr.fabs, false, false, fun _ _ t => ⟨Fp.abs32 t, 0⟩), (Instr.fneg, false, false, fun _ _ t => ⟨Fp.neg32 t, 0⟩),
        (Instr.fclmp, true, true, fun a b t => ⟨Fp.min32 (Fp.max32 t a) b, 0⟩), (Instr.fsubx, true, false, fun a _ t => Fp.subx32 rm a t),
        (Instr.hadd, true, false, fun a _ t => packH (Fp.addB rm (h a 0) (h t 0)) (Fp.addB rm (h a 1) (h t 1))),
        (Instr.hmul, true, false, fun a _ t => packH (Fp.mulB rm (h a 0) (h t 0)) (Fp.mulB rm (h a 1) (h t 1))),
        (Instr.hfma, true, true, fun a b t => packH (Fp.fmaB rm (h a 0) (h b 0) (h t 0)) (Fp.fmaB rm (h a 1) (h b 1) (h t 1))),
        (Instr.hmax, true, false, fun a _ t => packH ⟨Fp.maxB (h a 0) (h t 0), 0⟩ ⟨Fp.maxB (h a 1) (h t 1), 0⟩)]
        : List ((Guard → Source → Instr) × Bool × Bool × (Word32 → Word32 → Word32 → Fp.R32))),
      exec (r.1 g src) s = .next (after s src (inFlight [latchVal s 8 4 false
        (.vec (vecOf fun l => ⟨(r.2.2.2 (av l).v (bv l).v (tv l).v).v, (r.2.1 && (av l).p) || (r.2.2.1 && (bv l).p) || (tv l).p⟩))
        (orFlags ((List.range 128).map fun l => (r.2.2.2 (av l).v (bv l).v (tv l).v).fl))])))
    ∧ (∀ r ∈ ([(Instr.feq, Fp.cmp32 true false), (Instr.flt, Fp.cmp32 false true), (Instr.fle, Fp.cmp32 true true),
        (Instr.funord, fun a t => Fp.isNan32 a || Fp.isNan32 t)] : List ((Guard → Source → Instr) × (Word32 → Word32 → Bool))),
      exec (r.1 g src) s = .next (after s src (inFlight
        [latchVal s 8 4 false (.mask (maskOf fun l => ⟨r.2 (av l).v (tv l).v, (av l).p || (tv l).p⟩)) 0]))))
  ∧ (∀ (s : State) (g : Guard) (src : Source), Quiet s → Brings s g src .v → Room s 0 1 0 →
    ∀ r ∈ ([(Instr.exp2, 8, Fp.exp2F Config.exp2Err), (Instr.log2, 8, Fp.log2F Config.log2Err), (Instr.rcp, 8, Fp.rcpF Config.rcpErr),
        (Instr.rsqrt, 8, Fp.rsqrtF Config.rsqrtErr), (Instr.sqrt, 12, Fp.sqrt32 (frmOf (view s))), (Instr.tanh, 8, Fp.tanhF Config.tanhErr),
        (Instr.sigm, 8, Fp.sigmF Config.sigmErr)] : List ((Guard → Source → Instr) × Nat × (Word32 → Fp.R32))),
      exec (r.1 g src) s = .next (after s src (inFlight [latchVal s 10 r.2.1 false
        (.vec (vecOf fun l => ⟨(r.2.2 (laneAt (trigVec s src) l).v).v, (laneAt (trigVec s src) l).p⟩))
        (orFlags ((List.range 128).map fun l => (r.2.2 (laneAt (trigVec s src) l).v).fl))])))

/-- R142 and R143: the conversions of vfb, three bundles later in vfb.x, with vfb.y for the pairs. The conversion of one lane is
Machine/Fp.lean's (R81, R82). R144 and R145: QPAL packs 128 lanes into four P4 blocks, vfb.x the data and vfb.y the sidecars, a block
poisoned by a lane of it or by the mask; DQPAL unpacks four blocks, a block poisoned by its bytes, its sidecar's lane or failing parity; the
parity record takes 0x8000000000000000 plus the lowest block that fails. Which code an all-zero block takes of two levels equally near zero
is the model's choice (`P4.quantise`; DESIGN CHOICE, log entry 144). -/
def Obligations.ConversionResults : Prop :=
  (∀ (s : State) (g : Guard) (src : Source), Quiet s →
    let av : Nat → Lane := laneAt (portVec s 9 0)
    let tv : Nat → Lane := laneAt (trigVec s src)
    let rm := frmOf (view s)
    let n := (trigSc s src).v.toNat
    (Brings s g src .v → Room s 0 1 0 →
      ∀ r ∈ ([(Instr.cvtfi, false, fun _ t => Fp.toI32 rm t), (Instr.cvtif, false, fun _ t => Fp.ofI32 rm t.toInt),
          (Instr.cvtfh, true, fun a t => packH (Fp.narrow Fp.bf16 rm a) (Fp.narrow Fp.bf16 rm t)),
          (Instr.cvtfp16, true, fun a t => packH (Fp.narrow Fp.fp16 rm a) (Fp.narrow Fp.fp16 rm t)),
          (Instr.frnd, false, fun _ t => Fp.rnd32 rm t), (Instr.fscl, true, fun a t => Fp.scale32 rm a t.toInt),
          (Instr.fxpn, false, fun _ t => ⟨Fp.fxpn32 t, 0⟩)] : List ((Guard → Source → Instr) × Bool × (Word32 → Word32 → Fp.R32))),
        exec (r.1 g src) s = .next (after s src (inFlight [latchVal s 9 3 false
          (.vec (vecOf fun l => ⟨(r.2.2 (av l).v (tv l).v).v, (r.2.1 && (av l).p) || (tv l).p⟩))
          (orFlags ((List.range 128).map fun l => (r.2.2 (av l).v (tv l).v).fl))])))
    ∧ (Brings s g src .v → Room s 0 2 0 →
      ∀ r ∈ ([(Instr.cvthf, Fp.bf16), (Instr.cvtp16f, Fp.fp16)] : List ((Guard → Source → Instr) × Fp.Fmt)),
        exec (r.1 g src) s = .next (after s src (inFlight
          [latchVal s 9 3 false (.vec (vecOf fun l => ⟨Fp.widen r.2 (half (tv l).v 0), (tv l).p⟩)) 0,
           latchVal s 9 3 true (.vec (vecOf fun l => ⟨Fp.widen r.2 (half (tv l).v 1), (tv l).p⟩)) 0])))
    ∧ (Brings s g src .s → Room s 0 1 0 →
      ∀ r ∈ ([(Instr.cvtf8, Instr.cvt8f, Fp.e4m3), (Instr.cvtf5, Instr.cvt5f, Fp.e5m2)]
          : List ((Guard → Source → Instr) × (Guard → Source → Instr) × Fp.Fmt)),
        (n < 8 →
          let res : Nat → Fp.Res := fun l => Fp.toFp8 r.2.2 (bit n 2) (av l).v ((portSc s 9 1).v.setWidth 32)
          exec (r.1 g src) s = .next (after s src (inFlight [latchVal s 9 3 false
            (.vec (vecOf fun l => ⟨putByte (laneAt (portVec s 9 2) l).v (n % 4) (res l).bits,
              (av l).p || (portSc s 9 1).p || (laneAt (portVec s 9 2) l).p || (trigSc s src).p⟩))
            (orFlags ((List.range 128).map fun l => (res l).flags))])))
        ∧ (n < 4 →
          exec (r.2.1 g src) s = .next (after s src (inFlight [latchVal s 9 3 false
            (.vec (vecOf fun l => ⟨Fp.widen r.2.2 ((av l).v.toNat / 2 ^ (8 * n) % 256), (av l).p || (trigSc s src).p⟩)) 0])))))
  ∧ (∀ (s : State) (g : Guard) (src : Source), Quiet s →
    let user := palettesOf (given s 302 .s src) s
    let sideOf : Nat → Nat := fun k => half (laneAt (trigVec s src) (k / 2)).v (k % 2)
    (Brings s g src .s → Room s 0 2 0 →
      let m := (trigSc s src).v.toNat % 256
      let block : Nat → P4.Block := fun k =>
        P4.quantise user (if m = 0 then 1 else m) ((((portVec s 9 0).drop (32 * k)).take 32).map (·.v))
      let bad : Nat → Bool := fun k => (trigSc s src).p || (((portVec s 9 0).drop (32 * k)).take 32).any (·.p)
      exec (.qpal g src) s = .next (after s src (inFlight
        [latchVal s 9 6 false (.vec (vecOf fun l =>
            ⟨BitVec.ofNat 32 (ofBytes ((((List.range 4).flatMap fun k => (block k).data).drop (4 * l)).take 4)), decide (l < 16) && bad (l / 4)⟩))
          (orFlags ((List.range 4).map fun k => (block k).flags)),
         latchVal s 9 6 true (.vec (vecOf fun l =>
            ⟨BitVec.ofNat 32 (ofBytes ((((List.range 4).flatMap fun k => toBytes 2 (block k).side).drop (4 * l)).take 4)),
              decide (l < 2) && (bad (2 * l) || bad (2 * l + 1))⟩)) 0])))
    ∧ (Brings s g src .v → Room s 0 1 0 →
      let el : Nat → Fp.R32 := fun l => P4.elem32 user ((((portVec s 9 0).map fun x => toBytes 4 x.v.toNat).flatten.drop (16 * (l / 32))).take 16) (sideOf (l / 32)) (l % 32)
      let fails : List Nat := (List.range 4).filter fun k => !P4.sidecarOk (sideOf k)
      let bad : Nat → Bool := fun k => !P4.sidecarOk (sideOf k) || (laneAt (trigVec s src) (k / 2)).p || (((portVec s 9 0).drop (4 * k)).take 4).any (·.p)
      let par : Dword := match fails with
        | [] => 0
        | k :: _ => BitVec.ofNat 64 (0x8000000000000000 + k)
      exec (.dqpal g src) s = .next (after s src (inFlight [⟨(view s).bclk + 3, .latch 9 false,
        .vec (vecOf fun l => ⟨(el l).v, bad (l / 32)⟩), orFlags ((List.range 128).map fun l => (el l).fl), par, (view s).bclk⟩]))))

/-- R147 to R149: reductions over the lanes the mask c enables, six bundles later; SCAN eight. RSUM adds pairwise (R91); a disabled lane
counts as the operation's identity; a poisoned mask lane or enabled lane poisons the result, in SCAN that of the lanes from there on. RAMAX
gives the canonical NaN with the lowest enabled lane that holds one, and -infinity with 128 where no lane is enabled. R150 to R152:
permutes, lane moves, interleaves, packing by mask and bit tests of vrd; PERM four bundles later, the rest six. -/
def Obligations.LaneResults : Prop :=
  (∀ (s : State) (g : Guard) (src : Source), Quiet s → Brings s g src .v →
    let on : Nat → Bool := fun l => (maskAt (portMask s 11 2) l).v
    let tv : Nat → Lane := laneAt (trigVec s src)
    let bad := (portMask s 11 2).any (·.p) || (List.range 128).any fun l => on l && (tv l).p
    let lanes : Word32 → List Fp.R32 := fun idv => (List.range 128).map fun l => ⟨if on l then (tv l).v else idv, 0⟩
    (Room s 0 0 1 →
      (∀ r ∈ ([(Instr.rsum, treeReduce treeAdd (lanes 0x80000000#32)), (Instr.rmax, treeReduce (treePick Fp.max32) (lanes 0xFF800000#32)),
          (Instr.rmin, treeReduce (treePick Fp.min32) (lanes 0x7F800000#32))] : List ((Guard → Source → Instr) × Fp.R32)),
        exec (r.1 g src) s = .next (after s src (inFlight [latchVal s 11 6 false (.sc ⟨r.2.v.setWidth 64, bad⟩) r.2.fl])))
      ∧ exec (.rsumi g src) s = .next (after s src (inFlight [latchSc s 11 6
          (BitVec.ofInt 64 (((List.range 128).map fun l => if on l then (tv l).v.toInt else 0).sum)) bad])))
    ∧ (Room s 0 0 2 → (∀ l, on l = true → Fp.isNan32 (tv l).v = false) → ∀ k, k < 128 → on k = true →
      (∀ l, l < 128 → on l = true → Fp.key32 (tv l).v < Fp.key32 (tv k).v ∨ (Fp.key32 (tv l).v = Fp.key32 (tv k).v ∧ k ≤ l)) →
      exec (.ramax g src) s = .next (after s src (inFlight [latchSc s 11 6 ((tv k).v.setWidth 64) bad,
        latchVal s 11 6 true (.sc ⟨BitVec.ofNat 64 k, bad⟩) 0])))
    ∧ (Room s 0 0 2 → ∀ k, k < 128 → on k = true → Fp.isNan32 (tv k).v = true → (∀ l, l < k → on l = true → Fp.isNan32 (tv l).v = false) →
      exec (.ramax g src) s = .next (after s src (inFlight [latchSc s 11 6 0x7FC00000#64 bad, latchVal s 11 6 true (.sc ⟨BitVec.ofNat 64 k, bad⟩) 0])))
    ∧ (Room s 0 0 2 → (∀ l, l < 128 → on l = false) →
      exec (.ramax g src) s = .next (after s src (inFlight [latchSc s 11 6 0xFF800000#64 bad, latchVal s 11 6 true (.sc ⟨128#64, bad⟩) 0])))
    ∧ (Room s 0 1 0 →
      let before : Nat → Word32 := fun l => (List.range l).foldl (fun a j => if on j then (Fp.add32 .rne a (tv j).v).v else a) 0x80000000#32
      exec (.scan g src) s = .next (after s src (inFlight [latchVal s 11 8 false
        (.vec (vecOf fun l => ⟨before (l + 1), (List.range (l + 1)).any fun j => (maskAt (portMask s 11 2) j).p || (on j && (tv j).p)⟩))
        (orFlags ((List.range 128).map fun l => if on l then (Fp.add32 .rne (before l) (tv l).v).fl else 0))]))))
  ∧ (∀ (s : State) (g : Guard) (src : Source), Quiet s →
    let av : Nat → Lane := laneAt (portVec s 11 0)
    let tv : Nat → Lane := laneAt (trigVec s src)
    let tm := trigMask s src
    let n := (trigSc s src).v.toNat
    let p := (trigSc s src).p
    let en : List Nat := (List.range 128).filter fun l => (maskAt tm l).v
    (Brings s g src .v → Room s 0 1 0 →
      exec (.perm g src) s = .next (after s src (inFlight [latchVal s 11 4 false (.vec (vecOf fun l =>
        if (tv l).v.msb then ⟨0, (tv l).p⟩ else ⟨(av ((tv l).v.toNat % 128)).v, (av ((tv l).v.toNat % 128)).p || (tv l).p⟩)) 0]))
      ∧ exec (.vbit g src) s = .next (after s src (inFlight [latchVal s 11 6 false (.mask (maskOf fun l =>
        if 4096 ≤ (tv l).v.toNat then ⟨false, (tv l).p⟩
        else ⟨(av ((tv l).v.toNat / 32)).v.getLsbD ((tv l).v.toNat % 32), (tv l).p || (av ((tv l).v.toNat / 32)).p⟩)) 0])))
    ∧ (Brings s g src .v → Room s 0 2 0 →
      exec (.zip g src) s = .next (after s src (inFlight
        [latchVal s 11 6 false (.vec (vecOf fun l => if l % 2 = 0 then av (l / 2) else tv (l / 2))) 0,
         latchVal s 11 6 true (.vec (vecOf fun l => if l % 2 = 0 then av (64 + l / 2) else tv (64 + l / 2))) 0]))
      ∧ exec (.unzip g src) s = .next (after s src (inFlight
        [latchVal s 11 6 false (.vec (vecOf fun l => if l < 64 then av (2 * l) else tv (2 * (l - 64)))) 0,
         latchVal s 11 6 true (.vec (vecOf fun l => if l < 64 then av (2 * l + 1) else tv (2 * (l - 64) + 1))) 0])))
    ∧ (Brings s g src .s → Room s 0 1 1 →
      exec (.vrot g src) s = .next (after s src (inFlight [latchVal s 11 6 false (.vec (vecOf fun l => ⟨(av ((l + n) % 128)).v, (av ((l + n) % 128)).p || p⟩)) 0]))
      ∧ (n < 128 → exec (.vext g src) s = .next (after s src (inFlight [latchSc s 11 6 ((av n).v.setWidth 64) ((av n).p || p)]))
        ∧ exec (.vins g src) s = .next (after s src (inFlight [latchVal s 11 6 false (.vec (vecOf fun l =>
          if l = n then ⟨(portSc s 11 1).v.setWidth 32, (portSc s 11 1).p || p⟩ else ⟨(av l).v, (av l).p || p⟩)) 0]))))
    ∧ (Brings s g src .m → Room s 0 1 1 →
      exec (.vcmp g src) s = .next (after s src (inFlight
        [latchVal s 11 6 false (.vec (vecOf fun j => match en[j]? with
          | some l => ⟨(av l).v, (av l).p || tm.any (·.p)⟩
          | none => ⟨0, tm.any (·.p)⟩)) 0,
         latchVal s 11 6 true (.sc ⟨BitVec.ofNat 64 en.length, tm.any (·.p)⟩) 0]))
      ∧ exec (.vxpd g src) s = .next (after s src (inFlight [latchVal s 11 6 false (.vec (vecOf fun l =>
        if (maskAt tm l).v then ⟨(av (en.filter (· < l)).length).v, (av (en.filter (· < l)).length).p || tm.any (·.p)⟩ else ⟨0, tm.any (·.p)⟩)) 0]))))

/-! ## Transforms (R153 to R159) -/

/-- R154 to R156, R158 and R159: PSET reads a descriptor of 72 bytes that lands its pattern register four bundles later; PGET, PUNPK, PPACK,
SPHDR and CHK16 land trn.x four bundles later, with the poison of what they examine. The model's readings: which bytes of a descriptor with
a field count above 32 its poison covers (DESIGN CHOICE, log entry 123), that the poison of operand a covers every lane of PUNPK and PPACK
(DEDUCED, log entry 49), and how PPACK gathers it (`patPack`; DEDUCED, log entry 50). -/
def Obligations.TransformResults : Prop :=
  ∀ (s : State) (g : Guard) (src : Source), Quiet s →
    let a := portSc s 12 0
    let n := a.v.toNat
    let t := (trigSc s src).v.toNat
    let pat := getPat (view s) n
    (Brings s g src .s → Room s 1 0 0 → Settled s → s.sel.who.wf = true → a.p = false → (trigSc s src).p = false → n < 8 → t % 8 = 0 →
      t + 72 ≤ 0x300000 →
      let bs := Memory.gets s.mem (localAt s t) 72
      let k := 8 + 2 * min (patCount bs) 32
      ∃ u, exec (.pset g src) s = .next u ∧ OneEvent s u
        ∧ getCtx u s.sel.who = advance s (lands s 4 (.pattern n) (.desc (bs.take k) (badBytes s (localAt s t) k)) (entry s src)))
    ∧ (Brings s g src .s → Room s 0 0 1 → n < 8 → t ≤ 8 →
      exec (.pget g src) s = .next (after s src (inFlight [latchSc s 12 4 (BitVec.ofNat 64 (patWord pat t)) (a.p || (trigSc s src).p || pat.poisoned)])))
    ∧ (Brings s g src .v → Room s 0 1 1 →
      (n < 8 → pat.valid = true →
        ∀ r ∈ ([(Instr.punpk, patUnpack), (Instr.ppack, patPack)] : List ((Guard → Source → Instr) × (Pattern → List Lane → List Lane))),
          exec (r.1 g src) s = .next (after s src (inFlight
            [latchVal s 12 4 false (.vec ((r.2 pat (trigVec s src)).map fun l => ⟨l.v, l.p || a.p⟩)) 0])))
      ∧ (n ≤ 4096 → 1 ≤ (portSc s 12 1).v.toNat → (portSc s 12 1).v.toNat ≤ 9 → (portSc s 12 2).v.toNat < 2 ^ 32 →
        let h := toBytes 2 n ++ toBytes 2 (bitsBelow (trigVec s src) n) ++ [BitVec.ofNat 8 (portSc s 12 1).v.toNat]
        let crc := P4.crc8 (h ++ maskBytesBelow (trigVec s src) n)
        let bad := a.p || (portSc s 12 1).p || (portSc s 12 2).p || (List.range n).any fun i => (laneAt (trigVec s src) (i / 32)).p
        exec (.sphdr g src) s = .next (after s src (inFlight [latchVal s 12 4 false (.vec (vecOf fun l =>
          ⟨BitVec.ofNat 32 (ofBytes (((h ++ [BitVec.ofNat 8 crc] ++ [0, 0] ++ toBytes 4 (portSc s 12 2).v.toNat ++ [0, 0, 0, 0]).drop (4 * l)).take 4)),
            decide (l < 4) && bad⟩)) 0])))
      ∧ (let count := vecByte (trigVec s src) 0 + 256 * vecByte (trigVec s src) 1
        let bad := (List.range 4).any (fun l => (laneAt (trigVec s src) l).p)
          || (decide (count ≤ 4096) && (List.range ((count + 7) / 8)).any fun j => (laneAt (portVec s 12 3) (j / 4)).p)
        exec (.chk16 g src) s = .next (after s src (inFlight
          [latchSc s 12 4 (BitVec.ofNat 64 (chkWord (trigVec s src) (portVec s 12 3))) bad]))))

/-! ## Context and system (R108, R109, R122 to R134, R248 to R251) -/

/-- R123 and R108: MFSR lands the special register its index names, as its bundle sees it, in sys.x one bundle later; an index above 0x14
traps. The list gives every register; NODEID comes from the node's record, VQUOTA from the names resident and droppable. R124 and R109: MTSR
puts a write of the named register in flight, which the next bundle sees; in the first delay bundle of a CALL it settles LINK anew, which is
the model's reading of R117 (`relink`; DEDUCED, log entry 53). A write of VQUOTA needs a quota of at most 32 that the core's pool has room
for (R239) and else traps, as does a register marked RO or an index above 0x14; poison is checked first. What each write of R108 changes
when it lands: the listed field of its register, and no other register but VQUOTA's; that one drops droppable names, the one R241 picks
first, until the resident names fit the quota or none is droppable (R239), and a dropped name keeps its binding. -/
def Obligations.SpecialRegisters : Prop :=
  (∀ (s : State) (g : Guard) (src : Source), Quiet s → Brings s g src .s → Room s 0 0 1 →
    let c := view s
    let k := (trigSc s src).v.toNat % 256
    (∀ r ∈ ([(0x00, c.logical * 16 + s.sel.who.core * 4 + s.sel.who.ctx), (0x02, c.logical * 256 + s.sel.who.core * 16 + s.sel.who.ctx),
        (0x03, c.bclk), (0x04, c.sr.link.toNat), (0x05, c.loopCnt), (0x06, c.loopEnd), (0x07, c.sr.frm.toNat), (0x08, c.sr.fflags.toNat),
        (0x0A, c.sr.trapvec), (0x0B, c.sr.trappc), (0x0C, c.sr.trapcause), (0x0D, c.sr.info0.toNat), (0x0E, c.sr.info1.toNat),
        (0x0F, tokStat c), (0x10, c.sr.prio), (0x11, if worldOf s s.sel.who then 1 else 0), (0x12, c.sr.mcwin.toNat),
        (0x13, c.sr.engsel.toNat), (0x14, clk s s.sel.who.clId),
        (0x01, match c.node with | some m => (match getNode s m with | some d => d.idx % 2 ^ 32 | none => 0) | none => 0),
        (0x09, vquotaWord (readNames src) c)] : List (Nat × Nat)),
      k = r.1 → exec (.mfsr g src) s = .next (after s src (inFlight [latchSc s 5 1 (BitVec.ofNat 64 r.2) (trigSc s src).p])))
    ∧ (0x14 < k → (own s).snap = none → exec (.mfsr g src) s = .next (trapped s ⟨0x01, s.sel.slot, 0⟩)))
  ∧ (∀ (s : State) (g : Guard) (src : Source), Quiet s → Brings s g src .s → Room s 0 0 1 →
    let k := (portSc s 5 0).v.toNat % 256
    let v := (trigSc s src).v.toNat
    ((trigSc s src).p = false → (portSc s 5 0).p = false →
      (k ∈ [0x04, 0x05, 0x06, 0x07, 0x08, 0x0A, 0x0B, 0x0C, 0x0D, 0x0E, 0x10, 0x12, 0x13] →
        exec (.mtsr g src) s = .next (relink s (after s src (inFlight [specialW s k v]))))
      ∧ (k = 0x09 → v % 64 ≤ 32 → v % 64 + othersQuota s s.sel.who ≤ 64 →
        exec (.mtsr g src) s = .next (relink s (after s src (inFlight [specialW s k v]))))
      ∧ (k = 0x09 → (32 < v % 64 ∨ 64 < v % 64 + othersQuota s s.sel.who) → (own s).snap = none →
        exec (.mtsr g src) s = .next (trapped s ⟨0x01, s.sel.slot, 0⟩))
      ∧ (k ∈ [0x00, 0x01, 0x02, 0x03, 0x0F, 0x11, 0x14] ∨ 0x14 < k → (own s).snap = none →
        exec (.mtsr g src) s = .next (trapped s ⟨0x01, s.sel.slot, 0⟩)))
    ∧ (((trigSc s src).p = true ∨ (portSc s 5 0).p = true) → (own s).snap = none → (view s).parity = 0 →
      exec (.mtsr g src) s = .next (trapped s ⟨0x08, 4, s.sel.slot⟩)))
  ∧ (∀ (c : Ctx) (v : Dword), let n := v.toNat
    (writeSr 0x04 n c).sr = { c.sr with link := BitVec.ofNat 64 (n % 2 ^ 18) } ∧ (writeSr 0x05 n c).loopCnt = n % 2 ^ 32
    ∧ (writeSr 0x06 n c).loopEnd = n % 2 ^ 18 ∧ (writeSr 0x07 n c).sr = { c.sr with frm := v.setWidth 2 }
    ∧ (writeSr 0x08 n c).sr = { c.sr with fflags := v.setWidth 5 } ∧ (writeSr 0x0A n c).sr = { c.sr with trapvec := n % 2 ^ 18 }
    ∧ (writeSr 0x0B n c).sr = { c.sr with trappc := n % 2 ^ 18 } ∧ (writeSr 0x0C n c).sr = { c.sr with trapcause := n % 2 ^ 8 }
    ∧ (writeSr 0x0D n c).sr = { c.sr with info0 := v } ∧ (writeSr 0x0E n c).sr = { c.sr with info1 := v }
    ∧ (writeSr 0x10 n c).sr = { c.sr with prio := n % 8 } ∧ (writeSr 0x12 n c).sr = { c.sr with mcwin := v.setWidth 32 }
    ∧ (writeSr 0x13 n c).sr = { c.sr with engsel := v.setWidth 8 }
    ∧ (∀ i < 256, ∀ k < 3, let d := writeSr ((k * 256) + i) n c
        d.g = c.g ∧ d.o = c.o ∧ d.p = c.p ∧ d.m = c.m ∧ d.vo = c.vo ∧ d.ports = c.ports ∧ d.latches = c.latches ∧ d.pc = c.pc ∧ d.tokens = c.tokens
        ∧ d.spill = c.spill ∧ d.pins = c.pins ∧ (i ≠ 0x09 → d.v = c.v))
    ∧ (let d := writeSr 0x09 n c
       d.sr = { c.sr with quota := n % 64 } ∧ (residentCount c ≤ n % 64 → d.v = c.v) ∧ min (residentCount c) (n % 64) ≤ residentCount d
       ∧ (n % 64 < residentCount c → residentCount d = n % 64 ∨ evictee d [] = none)
       ∧ (∀ k, n % 64 < residentCount c → evictee c [] = some k → (getV d k).st = .dropped)
       ∧ ∀ m, getV d m = getV c m ∨ ((getV c m).st = .resident ∧ (liveSketch c m).isSome ∧ getV d m = { getV c m with st := .dropped, val := [] })))

/-- R125, R126, R131 and R132: YIELD, PRIO, TOKQ and FFLGS. R133 and R134: SLEEP takes the wake flag or sleeps; WAKE of a context wakes a
sleeping one and else sets its flag, waking itself included; CTXQ of the context itself lands state 1 and its own position, CTXQ of a
sibling that one's position, priority, tokens, flags and state; that one which YIELD alone holds back has code 2, and one that sleeps code 3
though it waits too, is the model's choice (DESIGN CHOICE, log entry 156). A number of a context above 3, of a token or a priority above 7,
raises trap 0x01. R127: SYSC enters the die's queue of calls on its token, with call number, argument, reply offset; with 64 calls
outstanding the bundle does not issue. -/
def Obligations.ContextControl : Prop :=
  (∀ (s : State) (g : Guard) (src : Source), Quiet s → Brings s g src .s →
    let t := (trigSc s src).v.toNat
    let p := (trigSc s src).p
    let c := view s
    exec (.yield g src) s = .next (after s src fun d => { d with yieldAt := some (clk s s.sel.who.clId + 1) })
    ∧ (Room s 0 0 2 → p = false → t < 8 →
      exec (.prio g src) s = .next (after s src (inFlight [latchSc s 5 1 (BitVec.ofNat 64 c.sr.prio) false, specialW s 0x10 t])))
    ∧ ((own s).snap = none →
      (Room s 0 0 2 → p = false → 8 ≤ t → exec (.prio g src) s = .next (trapped s ⟨0x01, s.sel.slot, 0⟩))
      ∧ (Room s 0 0 1 → 8 ≤ t → exec (.tokq g src) s = .next (trapped s ⟨0x01, s.sel.slot, 0⟩))
      ∧ (Room s 0 0 1 → 4 ≤ t → exec (.ctxq g src) s = .next (trapped s ⟨0x01, s.sel.slot, 0⟩))
      ∧ (4 ≤ t → exec (.wake g src) s = .next (trapped s ⟨0x01, s.sel.slot, 0⟩)))
    ∧ (Room s 0 0 1 → t < 8 →
      exec (.tokq g src) s = .next (after s src (inFlight
        [latchSc s 5 1 (BitVec.ofNat 64 ((getTok c t).count + (if (getTok c t).err then 16 else 0))) p])))
    ∧ (Room s 0 0 2 →
      exec (.fflgs g src) s = .next (after s src (inFlight
        [latchSc s 5 1 (c.sr.fflags.setWidth 64) p, specialW s 0x08 (c.sr.fflags &&& ~~~((trigSc s src).v.setWidth 5)).toNat]))))
  ∧ (∀ (s : State) (g : Guard) (src : Source), Quiet s → Brings s g src .s →
    let t := (trigSc s src).v.toNat
    exec (.sleep g src) s = .next (after s src fun c => if c.wake then { c with wake := false }
        else { c with nap := if t % 2 ^ 32 = 0 then .ever else .till (clk s s.sel.who.clId + t % 2 ^ 32) })
    ∧ (t < 4 →
      let other := s.sel.who.coreId.ctxId t
      ∃ u, exec (.wake g src) s = .next u ∧ { u with ctxs := s.ctxs } = s
        ∧ (∀ k, k ≠ s.sel.who → k ≠ other → getCtx u k = getCtx s k)
        ∧ (other ≠ s.sel.who → getCtx u other = match (getCtx s other).nap with
            | .awake => { getCtx s other with wake := true }
            | _ => { getCtx s other with nap := .awake, wake := false })
        ∧ (other = s.sel.who → (getCtx u s.sel.who).wake = true ∧ (getCtx u s.sel.who).run = .runnable)
        ∧ RegsKept (view s) (getCtx u s.sel.who))
    ∧ (Room s 0 0 1 → t = s.sel.who.ctx → t < 4 →
      let c := view s
      exec (.ctxq g src) s = .next (after s src (inFlight [latchSc s 5 1 (BitVec.ofNat 64 (c.bclk % 2 ^ 32 * 2 ^ 32 + c.sr.prio * 2 ^ 16
        + tokStat c % 256 * 2 ^ 8 + (if c.wake then 16 else 0) + (if c.snap.isSome then 8 else 0) + 1)) (trigSc s src).p])))
    ∧ (Room s 0 0 1 → t ≠ s.sel.who.ctx → t < 4 →
      let k := getCtx s (s.sel.who.coreId.ctxId t)
      let c := seen k
      let asleep : Nat → Nat := fun n => if k.nap = .awake then n else 3
      let code : Nat := match k.run with
        | .notStarted => 0
        | .retired => 4
        | .halted => 5
        | .runnable => asleep (if (getCore s s.sel.who.coreId).ready.contains t then 1 else 2)
        | .bwait .. => asleep 2
        | .fence _ => asleep 2
        | .replay .. => 2
      exec (.ctxq g src) s = .next (after s src (inFlight [latchSc s 5 1 (BitVec.ofNat 64 (c.bclk % 2 ^ 32 * 2 ^ 32 + c.sr.prio * 2 ^ 16
        + tokStat c % 256 * 2 ^ 8 + (if c.wake then 16 else 0) + (if c.snap.isSome then 8 else 0) + code)) (trigSc s src).p]))))
  ∧ (∀ (s : State) (g : Guard) (src : Source), Quiet s → Brings s g src .s → (trigSc s src).p = false → (portSc s 5 0).p = false →
    (portSc s 5 1).p = false → s.sel.who.die < s.dies.length →
    let t := (trigSc s src).v.toNat
    let b := (portSc s 5 1).v.toNat
    let d := getDie s s.sel.who.die
    (d.calls.length < 64 → t < 2 ^ 19 → b % 8 = 0 → b ≤ 0x3FF0 → (getTok (view s) (t / 2 ^ 16)).count < 15 →
      ∃ u, exec (.sysc g src) s = .next u ∧ u.mem = s.mem
        ∧ (getDie u s.sel.who.die).calls = d.calls ++ [⟨s.sel.who, t % 2 ^ 16, (portSc s 5 0).v, b, t / 2 ^ 16⟩]
        ∧ getCtx u s.sel.who = advance s (tokenUp (t / 2 ^ 16) (entry s src)) ∧ ∀ k, k ≠ s.sel.who → getCtx u k = getCtx s k)
    ∧ (64 ≤ d.calls.length → exec (.sysc g src) s = .next s))

/-- R70 and R130: RFT in a handler, not in another RFT's delay bundles, ends the handler after two more bundles; without an occupied
snapshot slot, or with a mode above 1, it traps. R70: the end of a handler, which its second delay bundle brings (stated with a YIELD
there): operand ports, latches and loop state are the snapshot's again, its results, requests and redirects come at their remaining counts,
or in skip mode (1) one bundle sooner, the handler's own requests go on, the slot is free, and the context goes on with every register the
handler left, at the TRAPPC that the RFT bundle saw or, in skip mode, behind the bundle there. In retry mode (0) the awaited tokens are
awaited again. Where the trap came in the delay bundles of a CALL and the handler resumes elsewhere than at the trapping bundle, LINK alone
is settled anew, which is the model's reading of R117 (DEDUCED, log entry 53). -/
def Obligations.ReturnFromTrap : Prop :=
  (∀ (s : State) (g : Guard) (src : Source), Quiet s → Brings s g src .s → (trigSc s src).p = false →
    let t := (trigSc s src).v.toNat
    ((view s).snap.isSome → t ≤ 1 → exec (.rft g src) s = .next (after s src fun c =>
      { c with rft := some ⟨(view s).bclk + 3, t, (own s).pc, (view s).sr.trappc⟩ }))
    ∧ ((own s).snap = none → exec (.rft g src) s = .next (trapped s ⟨0x01, s.sel.slot, 0⟩))
    ∧ (1 < t → (own s).snap.isSome → exec (.rft g src) s = .next (doubleFault s.sel.who s)))
  ∧ (∀ (s : State) (g : Guard) (src : Source) (p : RftPend), Ending s p → Brings s g src .s →
    exec (.yield g src) s = .next (endHandler s.sel.who (after s src fun c => { c with yieldAt := some (clk s s.sel.who.clId + 1) })))
  ∧ (∀ (s : State) (who : CtxId) (sn : Snap) (r : RftPend) (w : Syllable), let c := getCtx s who
    c.rft = some r → c.snap = some sn → r.mode ≤ 1 → (∀ x ∈ sn.redirects, r.mode < x.pos) →
    (r.mode = 1 → peekSyl s who.coreId r.pc = some w ∧ isHeader w = true) →
    getCtx (finishRft who s) who = { c with
      snap := none, rft := none, calling := sn.calling.map fun k => k.1 + c.bclk - r.mode, ports := sn.ports, latches := sn.latches, loopStart := sn.loopStart, loopCnt := sn.loopCnt,
      loopEnd := sn.loopEnd, twait := if r.mode = 0 then c.twait ||| sn.twait else c.twait,
      pc := if r.mode = 0 then r.pc else (r.pc + (headerFields w).length) % 2 ^ 18, via := if r.mode = 0 then some r.src else none,
      redirects := sn.redirects.map fun x => { x with pos := x.pos + c.bclk - r.mode },
      flight := sn.flight.map fun f => { f with land := f.land + c.bclk - r.mode },
      landing := (sn.landing.map fun l => { l with land := l.land + c.bclk - r.mode }) ++ c.landing }
    ∧ (finishRft who s).mem = s.mem ∧ (∀ k, k ≠ who → getCtx (finishRft who s) k = getCtx s k)
    ∧ ((∀ n h, sn.calling = some (n, h) → r.mode = 0 ∧ r.pc = h) → endHandler who s = finishRft who s)
    ∧ (∃ l q, let x := getCtx (finishRft who s) who
      getCtx (endHandler who s) who = { x with sr := { x.sr with link := l }, calling := q })
    ∧ { endHandler who s with ctxs := s.ctxs, free := s.free } = { finishRft who s with ctxs := s.ctxs, free := s.free }
    ∧ ∀ k, k ≠ who → getCtx (endHandler who s) k = getCtx s k)

/-- R248 to R251: RDEF clears its entry and reads 72 bytes that define it four bundles later; RTAG binds a name to a defined entry; RCLR
clears an entry; RDROP drops a resident name. -/
def Obligations.SketchInstructions : Prop :=
  ∀ (s : State) (g : Guard) (src : Source), Quiet s → Brings s g src .s → (trigSc s src).p = false →
    let a := (portSc s 5 0).v.toNat
    let t := (trigSc s src).v.toNat
    let c := view s
    (Room s 1 0 0 → Settled s → s.sel.who.wf = true → (portSc s 5 0).p = false → a < 16 → t % 8 = 0 → t + 72 ≤ 0x300000 →
      ∃ u, exec (.rdef g src) s = .next u ∧ OneEvent s u
        ∧ getCtx u s.sel.who = advance s (lands s 4 (.sketch a c.sr.frm)
            (.desc (Memory.gets s.mem (localAt s t) 72) (badBytes s (localAt s t) 72)) { entry s src with sketches := c.sketches.set a .cleared }))
    ∧ ((portSc s 5 0).p = false → a < 16 → t < 32 → (getSketch c a).defined = true → (sketchSources (getSketch c a).bytes).contains t = false →
      tooDeep t c (bindName t a c) = false → t < c.v.length →
      ∃ u, exec (.rtag g src) s = .next u ∧ OthersKept s u ∧ (getV (getCtx u s.sel.who) t).bound = some a
        ∧ (getV (getCtx u s.sel.who) t).st = (if (getV c t).st = .unwritten then .dropped else (getV c t).st)
        ∧ ∀ k, k ≠ t → getV (getCtx u s.sel.who) k = getV (entry s src) k)
    ∧ (t < 16 → exec (.rclr g src) s = .next (after s src fun d => { d with sketches := d.sketches.set t .cleared }))
    ∧ (t < 32 → t < c.v.length → (getV c t).st = .resident → vInFlight c t = false → tooDeep t c (dropName t c) = false →
      ∃ u, exec (.rdrop g src) s = .next u ∧ OthersKept s u ∧ (getV (getCtx u s.sel.who) t).st = .dropped
        ∧ (getV (getCtx u s.sel.who) t).bound = (getV c t).bound ∧ ∀ k, k ≠ t → getV (getCtx u s.sel.who) k = getV (entry s src) k)

/-- R131, R233, R263 and R275: TOKC, MCAN, CCAN and GCAN note a cancel that acts at the end of their cycle and lands its count one bundle
later; nothing else changes in their own bundle. When it acts, TOKC takes the context's queued commands of the tokens it names out of every
engine and MCAN and CCAN those of their scope out of theirs, each completing as cancelled: its token falls with no error, its status says
cancelled and its barrier gets the bytes that are left. CCAN also stops its started copies at their next chunk. GCAN cancels the blocks it
names: at once before the match, else its contributors stop. Every other command stays. R232, R264, R274, R276, R344, R346 and R348: the
reports of the engines land two bundles later and change nothing else. That a report is kept for each token and not for each engine
(DEDUCED, log entry 136) and that TARGET names a completed receive too (DEDUCED, log entry 35) is the model's reading. -/
def Obligations.EngineReports : Prop :=
  (∀ (s : State) (g : Guard) (src : Source), Quiet s → Brings s g src .s → Room s 0 0 1 →
    let t := (trigSc s src).v.toNat
    let c := view s
    let noted : Instr → Cancel → Prop := fun i k =>
      ∃ u, exec i s = .next u ∧ { u with ctxs := s.ctxs, cancels := s.cancels } = s ∧ u.cancels = s.cancels ++ [k]
        ∧ getCtx u s.sel.who = advance s (entry s src) ∧ ∀ j, j ≠ s.sel.who → getCtx u j = getCtx s j
    noted (.tokc g src) ⟨s.sel.who, 5, 0, t, 0, none, some (c.bclk + 1), (trigSc s src).p⟩
    ∧ ((trigSc s src).p = false →
      (t ≤ 2 → noted (.mcan g src) ⟨s.sel.who, 13, engMex c, t, 0, none, some (c.bclk + 1), false⟩)
      ∧ (t % 4 ≠ 3 → t < 2 ^ 7 → t / 4 % 4 = 0 → noted (.ccan g src) ⟨s.sel.who, 14, engCpy c, t, 0, none, some (c.bclk + 1), false⟩)
      ∧ ((portSc s 15 0).p = false → 1 ≤ t → t ≤ 0x400000 → (portSc s 15 0).v.toNat ≤ 0x3FFFFF →
        noted (.gcan g src) ⟨s.sel.who, 15, engGlz c, t, (portSc s 15 0).v.toNat,
          (targetRecv (given s 488 .s src)).map (·.cmd), some (c.bclk + 1), false⟩)))
  ∧ (∀ (s : State) (g : Guard) (src : Source), Quiet s → Brings s g src .s → Room s 0 0 1 → (trigSc s src).p = false →
    let c := view s
    let t := (trigSc s src).v.toNat
    let x := given s 0 .s src
    let report : Instr → Nat → Nat → Prop := fun i unit w => exec i s = .next (after s src (inFlight [latchSc s unit 2 (BitVec.ofNat 64 w) false]))
    (t = 0 → report (.mstat g src) 13 (mstatWord (clk s s.sel.who.clId) (getMex s ⟨s.sel.who.die, s.sel.who.cl, engMex c⟩)))
    ∧ (t = 1 → report (.mstat g src) 13 (c.mexLast.getD (engMex c) 0).toNat)
    ∧ (t < 16 → report (.cstat g src) 14 (reportWord (reported c.cpyRep (t % 8)) (decide (8 ≤ t))))
    ∧ (t < 16 → pendingRtc s x (t % 8) = none → report (.tstat g src) 16 (reportWord (reported c.rtcRep (t % 8)) (decide (8 ≤ t))))
    ∧ (t < 16 → ∀ w, pendingRtc s x (t % 8) = some w → report (.tstat g src) 16 (if 8 ≤ t then w.2.toNat else w.1.toNat))
    ∧ (t < 2 ^ 35 → t % 64 = 0 → ∀ f, nodeFresco s x t = some f →
      report (.twear g src) 16 ((if (freeSpare s (bankOf (f / 64))).isNone then 2 ^ 49 else 0) + (if isSpare (servingRow s (f / 64)) then 2 ^ 48 else 0)
        + (getDie s (f / 2 ^ 35)).wearLimit * 2 ^ 24 + wearOf s (servingRow s (f / 64))))
    ∧ (t < 2 ^ 32 → report (.tmap g src) 16 (match frescoEntry s (partOf s s.sel.who) (worldOf s s.sel.who) t with
        | some e => tmapWord s x e
        | none => 0))
    ∧ ((portSc s 15 0).p = false → 1 ≤ t → t ≤ 8 → (portSc s 15 0).v.toNat ≤ 0x3FFFFF →
      (targetRecv (given s 489 .s src) = none → report (.gprec g src) 15 0)
      ∧ (∀ r, targetRecv (given s 489 .s src) = some r → s.past = [] →
        report (.gprec g src) 15 (ofBytes ((((recvCounters s x r).drop (portSc s 15 0).v.toNat).take t).map (BitVec.ofNat 8))))))
  ∧ (∀ (s : State) (k : Cancel), s.cancels = [k] →
    let u := applyCancels s
    let counts : Nat → Prop := fun n => ∀ q, k.land = some q → (getCtx u k.who).flight = (getCtx s k.who).flight
      ++ [⟨q, .latch k.unit false, .sc ⟨BitVec.ofNat 64 n, k.poison⟩, 0, 0, q - 1⟩]
    let falls : (CtxId → Nat → Nat) → Prop := fun n => ∀ w tok, alive s w = true → tok < (getCtx s w).tokens.length →
      (getTok (getCtx u w) tok).count = (getTok (getCtx s w) tok).count - n w tok ∧ (getTok (getCtx u w) tok).err = (getTok (getCtx s w) tok).err
    u.cancels = []
    ∧ (k.unit = 5 →
      let named : CtxId → Nat → Bool := fun w tok => w == k.who && bit (k.t % 256) tok
      let mt : MexCmd → Nat := fun c => (param c.par 0x18) % 8
      (∀ e, (getMex u e).queue = (getMex s e).queue.filter (fun c => !named c.who (mt c)) ∧ (getMex u e).runs = (getMex s e).runs)
      ∧ (∀ e, (getCpy u e).queue = (getCpy s e).queue.filter (fun c => !named c.who (cpyTok c)) ∧ (getCpy u e).runs = (getCpy s e).runs)
      ∧ (∀ e, (getGlz u e).queue = (getGlz s e).queue.filter (fun c => !named c.who (glzTok c.par)) ∧ (getGlz u e).runs = (getGlz s e).runs)
      ∧ (∀ e, (getRtc u e).queue = (getRtc s e).queue.filter (fun c => !named c.who (rtcTok c)) ∧ (getRtc u e).run = (getRtc s e).run)
      ∧ ((s.mex.map (·.1)).Nodup → (s.cpy.map (·.1)).Nodup → (s.glz.map (·.1)).Nodup → (s.rtc.map (·.1)).Nodup →
        let on : Nat → Nat := fun tok => (s.mex.map fun x => (x.2.queue.filter fun c => c.who == k.who && mt c == tok).length).sum
          + (s.cpy.map fun x => (x.2.queue.filter fun c => c.who == k.who && cpyTok c == tok).length).sum
          + (s.glz.map fun x => (x.2.queue.filter fun c => c.who == k.who && glzTok c.par == tok).length).sum
          + (s.rtc.map fun x => (x.2.queue.filter fun c => c.who == k.who && rtcTok c == tok).length).sum
        counts (((List.range 8).filter (bit (k.t % 256))).map on).sum ∧ falls fun w tok => if named w tok then on tok else 0))
    ∧ (k.unit = 13 →
      let e : EngId := ⟨k.who.die, k.who.cl, k.eng⟩
      let q := (getMex s e).queue
      let takes : (MexCmd → Bool) → Prop := fun sel =>
        let gone := q.filter sel
        (getMex u e).queue = q.filter (fun c => !sel c) ∧ (getMex u e).runs = (getMex s e).runs ∧ (∀ f, f ≠ e → getMex u f = getMex s f)
        ∧ counts gone.length ∧ falls (fun w tok => (gone.filter fun c => c.who == w && param c.par 0x18 % 8 == tok).length)
        ∧ ∀ c, gone = [c] → u.mem = (pay c.who (localBar e.clId (param c.par 0x19)) c.seq (mexCount c) ⟨true, false, false⟩ s).mem
          ∧ (alive s c.who = true → e.eng < (getCtx s c.who).mexLast.length →
            (getCtx u c.who).mexLast.getD e.eng 0 = BitVec.ofNat 64 (mexStatus c e.eng 0 0 true))
      (k.t = 0 → takes fun c => c.who == k.who) ∧ (k.t = 2 → takes fun _ => true)
      ∧ (k.t = 1 → (∀ c ∈ q, c.who ≠ k.who) → takes fun _ => false)
      ∧ (∀ c ∈ q, k.t = 1 → c.who = k.who → (∀ d ∈ q, d.who = k.who → d ≠ c → d.seq < c.seq) → (∀ d ∈ q, d.seq = c.seq → d = c) →
        takes fun d => d == c))
    ∧ (k.unit = 14 →
      let e : DieEng := ⟨k.who.die, k.eng⟩
      let q := (getCpy s e).queue
      let rs := (getCpy s e).runs
      let all := q ++ rs.map (·.cmd)
      let takes : (CpyCmd → Bool) → Prop := fun sel =>
        let gone := q.filter sel
        (getCpy u e).queue = q.filter (fun c => !sel c)
        ∧ (getCpy u e).runs = rs.map (fun r => if sel r.cmd then { r with cancelling := true } else r)
        ∧ (∀ f, f ≠ e → getCpy u f = getCpy s f)
        ∧ counts (gone.length + (rs.filter fun r => sel r.cmd && !r.cancelling).length)
        ∧ falls (fun w tok => (gone.filter fun c => c.who == w && cpyTok c == tok).length)
        ∧ ∀ c, gone = [c] → u.mem = (pay c.who (cpyBar s c) c.seq (cpyTotal c.par - cpyCounted c.par c.chunk) ⟨true, false, false⟩ s).mem
          ∧ (alive s c.who = true → cpyTok c < (getCtx s c.who).cpyRep.length →
            ((getCtx u c.who).cpyRep.getD (cpyTok c) .none).last.map (·.1) = some (BitVec.ofNat 64 (cpyStatus c e.eng 0 0 true)))
      (k.t % 4 = 0 → takes fun c => c.who == k.who)
      ∧ (k.t % 4 = 2 → takes fun c => c.who == k.who && cpyTok c == k.t / 16 % 8)
      ∧ (k.t % 4 = 1 → (∀ c ∈ all, c.who ≠ k.who) → takes fun _ => false)
      ∧ (∀ c ∈ all, k.t % 4 = 1 → c.who = k.who → (∀ d ∈ all, d.who = k.who → d ≠ c → d.seq < c.seq) → takes fun d => d == c))
    ∧ (k.unit = 15 →
      let e : DieEng := ⟨k.who.die, k.eng⟩
      let m := getGlz s e
      let names : Nat → (Nat → Bool) → List Nat := fun total free =>
        (List.range total).filter fun b => decide (k.a ≤ b) && decide (b < k.a + k.t) && free b
      (k.target = none → counts 0 ∧ getGlz u e = m)
      ∧ (∀ seq c, k.target = some seq → m.queue.find? (fun c => c.seq == seq) = some c →
        let ks := names (glzBlocks s c) fun b => !c.pre.contains b
        counts ks.length ∧ (getGlz u e).runs = m.runs
          ∧ (getGlz u e).queue = m.queue.map fun x => if x.seq = seq then { x with pre := x.pre ++ ks } else x)
      ∧ (∀ seq r, k.target = some seq → m.queue.find? (fun c => c.seq == seq) = none → m.runs.find? (fun r => r.cmd.seq == seq) = some r →
        let ks := names r.blocks.length fun b => (r.blocks.getD b ⟨[], 0, false, false⟩).flag == 0 && !r.cancelling.contains b
        counts ks.length ∧ (getGlz u e).queue = m.queue
          ∧ (ks = [] → (getGlz u e).runs = m.runs)
          ∧ (ks ≠ [] → (getGlz u e).runs = m.runs.map fun x => if x.cmd.seq = seq then
              (if r.matched then { r with cancelling := r.cancelling ++ ks }
               else { r with cancelled := true, blocks := r.blocks.zipIdx.map fun y => if ks.contains y.2 then { y.1 with flag := 0x40, paid := true } else y.1 })
            else x))))

/-! ## Engine commands (R109, R214, R220, R223 to R233, R254, R255, R263, R264, R276, R336, R344 to R348) -/

/-- R223, R263, R267 and R336: MSET, CSET, GSET and TSET write one parameter of the selected engine's set and land its previous value in the
unit's latch x one bundle later. R109, R223 and R263: MSEL and CSEL write their field of ENGSEL, seen from the next bundle, and land the
field as it was. -/
def Obligations.ParameterWrites : Prop :=
  (∀ (s : State) (g : Guard) (src : Source), Quiet s → Brings s g src .s → Room s 0 0 1 → (trigSc s src).p = false →
    let c := view s
    let t := (trigSc s src).v
    ((portSc s 13 0).p = false → (portSc s 13 0).v.toNat ≤ 0x19 →
      let ps := c.mexPar.getD (engMex c) mexParZero
      exec (.mset g src) s = .next (after s src fun d => inFlight [latchSc s 13 1 (ps.getD (portSc s 13 0).v.toNat 0) false]
        { d with mexPar := d.mexPar.set (engMex c) (ps.set (portSc s 13 0).v.toNat t) }))
    ∧ ((portSc s 14 0).p = false → (portSc s 14 0).v.toNat ≤ 0x0F →
      let ps := c.cpyPar.getD (engCpy c) cpyParZero
      exec (.cset g src) s = .next (after s src fun d => inFlight [latchSc s 14 1 (ps.getD (portSc s 14 0).v.toNat 0) false]
        { d with cpyPar := d.cpyPar.set (engCpy c) (ps.set (portSc s 14 0).v.toNat t) }))
    ∧ ((portSc s 15 0).p = false → (portSc s 15 0).v.toNat ≤ 0x0F →
      let ps := c.glzPar.getD (engGlz c) glzParZero
      exec (.gset g src) s = .next (after s src fun d => inFlight [latchSc s 15 1 (ps.getD (portSc s 15 0).v.toNat 0) false]
        { d with glzPar := d.glzPar.set (engGlz c) (ps.set (portSc s 15 0).v.toNat t) }))
    ∧ ((portSc s 16 0).p = false → (portSc s 16 0).v.toNat ≤ 8 →
      let ps := c.rtcPar.getD (engRtc c) rtcParZero
      exec (.tset g src) s = .next (after s src fun d => inFlight [latchSc s 16 1 (ps.getD (portSc s 16 0).v.toNat 0) false]
        { d with rtcPar := d.rtcPar.set (engRtc c) (ps.set (portSc s 16 0).v.toNat t) })))
  ∧ (∀ (s : State) (g : Guard) (src : Source), Quiet s → Brings s g src .s → Room s 0 0 2 → (trigSc s src).p = false →
    ((view s).flight.any fun f => f.dst == .special 0x13 && f.land == (view s).bclk + 1) = false →
    let t := (trigSc s src).v.toNat
    (t ≤ 3 → exec (.msel g src) s = .next (after s src (inFlight
      [latchSc s 13 1 (BitVec.ofNat 64 ((view s).sr.engsel.toNat % 4)) false, specialW s 0x113 t])))
    ∧ (t ≤ 7 → exec (.csel g src) s = .next (after s src (inFlight
      [latchSc s 14 1 (BitVec.ofNat 64 ((view s).sr.engsel.toNat / 4 % 8)) false, specialW s 0x213 t])))
    ∧ ∀ (c : Ctx) (n : Nat), (writeSr 0x113 n c).sr.engsel = (c.sr.engsel.extractLsb' 2 6 ++ (BitVec.ofNat 2 n))
        ∧ (writeSr 0x213 n c).sr.engsel = (c.sr.engsel.extractLsb' 5 3 ++ (BitVec.ofNat 3 n) ++ c.sr.engsel.extractLsb' 0 2))

/-- R214, R220, R225: a matrix command enters its engine's queue as one memory event with a copy of the parameters, raises its token's
count, and lands its entry word one bundle later; a full queue holds its bundle back. R254, R255, R263, R276 and R345: CGO, GSEND, GRECV,
GRED and TWRT enter their engine's queue of 32, 16 or 8 in the same way. Stated for a partition whose share of the queue is not used up. -/
def Obligations.EngineCommandsEnter : Prop :=
  (∀ (s : State) (g : Guard) (src : Source), Quiet s → Brings s g src .s → Room s 0 0 1 → (trigSc s src).p = false → (portSc s 13 0).p = false →
    let c := view s
    let t := (trigSc s src).v.toNat
    let a := (portSc s 13 0).v.toNat
    let e : EngId := ⟨s.sel.who.die, s.sel.who.cl, engMex c⟩
    let ps := c.mexPar.getD (engMex c) mexParZero
    let tok := (ps.getD 0x18 0).toNat % 8
    let m := getMex s e
    (getTok c tok).count < 15 →
    ∀ r ∈ ([(Instr.mldw, MexKind.mldw, 0, decide (t < 2 ^ 32)), (Instr.mstr, MexKind.mstr, 0, decide (t < 4)), (Instr.mdrn, MexKind.mdrn, 0, decide (t < 2)),
        (Instr.mzero, MexKind.mzero, a, decide (a ≤ 511) && decide (1 ≤ t) && decide (a + t ≤ 512))]
        : List ((Guard → Source → Instr) × MexKind × Nat × Bool)),
      (m.queue.length < 4 → r.2.2.2 = true →
        ∃ u, exec (r.1 g src) s = .next u ∧ u.mem = s.mem ∧ u.seq = s.seq + 1
          ∧ (∃ cmd : MexCmd, cmd.id = m.counter ∧ cmd.kind = r.2.1 ∧ cmd.who = s.sel.who ∧ cmd.ctl = t ∧ cmd.row = r.2.2.1 ∧ cmd.par = ps ∧ cmd.seq = s.seq + 1
            ∧ (getMex u e).queue = insertBy (·.entered) cmd m.queue) ∧ (getMex u e).counter = (m.counter + 1) % 2 ^ 16
          ∧ getCtx u s.sel.who = advance s (inFlight [latchSc s 13 1 (BitVec.ofNat 64 (m.counter * 2 ^ 16 + (m.queue.length + 1) * 2 ^ 8 + engMex c)) false]
              (tokenUp tok (entry s src))))
      ∧ (4 ≤ m.queue.length → exec (r.1 g src) s = .next s))
  ∧ (∀ (s : State) (g : Guard) (src : Source), Quiet s → Brings s g src .s → Room s 0 0 1 → (trigSc s src).p = false →
    let c := view s
    let t := (trigSc s src).v.toNat
    let entered : OpIn := given s 0 .s src
    let goesOn : State → Nat → Nat → Nat → (Ctx → Ctx) → Prop := fun u unit word tok f =>
      u.mem = s.mem ∧ u.seq = s.seq + 1 ∧ getCtx u s.sel.who = advance s (inFlight [latchSc s unit 1 (BitVec.ofNat 64 word) false] (tokenUp tok (f (entry s src))))
    (let e : DieEng := ⟨s.sel.who.die, engCpy c⟩
     let ps := c.cpyPar.getD (engCpy c) cpyParZero
     let m := getCpy s e
     queueFull s entered 0 (engCpy c) 32 (m.queue.map (·.who)) = false → (getTok c ((ps.getD 0x0D 0).toNat % 8)).count < 15 → t < 2 ^ 40 →
     ∃ u, exec (.cgo g src) s = .next u ∧ goesOn u 14 (m.counter * 2 ^ 16 + (m.queue.length + 1) * 2 ^ 8 + engCpy c) ((ps.getD 0x0D 0).toNat % 8) id
       ∧ (∃ k : CpyCmd, k.id = m.counter ∧ k.who = s.sel.who ∧ k.off = t ∧ k.par = ps ∧ k.seq = s.seq + 1 ∧ k.chunk = 0 ∧ k.written = 0
         ∧ (getCpy u e).queue = insertBy (fun x => entryOrder x.entered x.who) k m.queue))
    ∧ (let e : DieEng := ⟨s.sel.who.die, engGlz c⟩
       let ps := c.glzPar.getD (engGlz c) glzParZero
       let m := getGlz s e
       queueFull s entered 1 (engGlz c) 16 (m.queue.map (·.who)) = false → (getTok c ((ps.getD 0x0C 0).toNat % 8)).count < 15 → t = 0 →
       ∀ r ∈ ([(Instr.gsend, GlzKind.send), (Instr.grecv, GlzKind.recv), (Instr.gred, GlzKind.red)] : List ((Guard → Source → Instr) × GlzKind)),
         ∃ u, exec (r.1 g src) s = .next u
           ∧ goesOn u 15 (m.counter * 2 ^ 16 + (m.queue.length + 1) * 2 ^ 8 + engGlz c) ((ps.getD 0x0C 0).toNat % 8)
               (if r.2 = .send then id else noteRecv (engGlz c) m.counter (s.seq + 1) ps)
           ∧ (∃ k : GlzCmd, k.id = m.counter ∧ k.kind = r.2 ∧ k.who = s.sel.who ∧ k.par = ps ∧ k.seq = s.seq + 1 ∧ k.pre = []
             ∧ (getGlz u e).queue = insertBy (fun x => entryOrder x.entered x.who) k m.queue))
    ∧ (let e : DieEng := ⟨s.sel.who.die, engRtc c⟩
       let ps := c.rtcPar.getD (engRtc c) rtcParZero
       let m := getRtc s e
       queueFull s entered 2 (engRtc c) 8 (m.queue.map (·.who)) = false → (getTok c ((ps.getD 7 0).toNat % 8)).count < 15 → t < 2 ^ 8 →
       ∃ u, exec (.twrt g src) s = .next u ∧ goesOn u 16 (m.counter * 2 ^ 16 + (m.queue.length + 1) * 2 ^ 8 + engRtc c) ((ps.getD 7 0).toNat % 8) id
         ∧ (∃ k : RtcCmd, k.id = m.counter ∧ k.who = s.sel.who ∧ k.off = t ∧ k.par = ps ∧ k.seq = s.seq + 1 ∧ k.done = 0 ∧ k.remapped = 0 ∧ k.iters = 0 ∧ k.maxIter = 0
           ∧ (getRtc u e).queue = insertBy (fun x => entryOrder x.entered x.who) k m.queue)))

/-! ## Barriers (R192 to R199) -/

/-- R193: an update of a barrier word: bytes are added before the arrival counts, underflow and misuse set the error flag, and a word whose
counts reach zero by an arrival or by counted bytes flips exactly once and is loaded again. -/
def Obligations.BarrierUpdate : Prop :=
  ∀ (b : BarWord) (add sub : Nat) (arrive : Bool) (fl : BarFlags),
    let r := b.update add arrive sub fl
    let pb1 := min (b.pb + add) (2 ^ 40 - 1)
    let pa := if arrive then b.pa - 1 else b.pa
    let err := b.error || fl.error || decide (2 ^ 40 - 1 < b.pb + add) || (arrive && decide (b.pa = 0)) || decide (pb1 < sub)
    (r.2 = true ↔ (arrive = true ∨ 0 < sub) ∧ pa = 0 ∧ pb1 - sub = 0)
    ∧ (r.2 = true → r.1 = { b with
        phase := !b.phase, cancelled := false, abort := false, error := false, pa := b.initArr, pb := b.initBytes,
        last := (if b.cancelled || fl.cancelled then 4 else 0) + (if b.abort || fl.abort then 2 else 0) + (if err then 1 else 0) })
    ∧ (r.2 = false → r.1 = { b with
        pa := pa, pb := pb1 - sub, error := err, abort := b.abort || fl.abort, cancelled := b.cancelled || fl.cancelled })

/-- R194 and R195 at an aligned local word: BINIT writes word 0 and the pending counts and keeps the phase; BARV and BEXP apply the update
of R193 to word 1; each lands status 1 in syn.x one bundle later, and no byte outside the word changes. R195, R196, R198 and R199 at an
aligned local word: BTST lands word 1 five bundles later; BWAIT goes on when the phase differs from its operand and else waits on the word;
FENCE makes the context wait for its kind's condition; TWAIT names tokens for the next bundle. -/
def Obligations.BarrierInstructions : Prop :=
  (∀ (s : State) (g : Guard) (src : Source), Quiet s → Brings s g src .s → Room s 0 0 1 → (trigSc s src).p = false → Memory.wf s.mem = true →
    let a := (trigSc s src).v.toNat
    let n := (portSc s 17 0).v.toNat
    a % 16 = 0 → a + 16 ≤ 0x300000 →
    let w := physSpad s.sel.who.clId a
    let b := barFields (memDword s w) (memDword s (w + 8))
    let status : State → Prop := fun u => (getCtx u s.sel.who).flight = (view s).flight ++ [latchSc s 17 1 1 false]
      ∧ RegsKept (view s) (getCtx u s.sel.who) ∧ SpecialsKept (view s) (getCtx u s.sel.who)
    ((portSc s 17 0).p = false → n < 2 ^ 56 → n ≠ 0 →
      ∃ u, exec (.binit g src) s = .next u ∧ status u
        ∧ Stored s u w (toBytes 8 n ++ toBytes 8 ((if b.phase then 2 ^ 56 else 0) + n)))
    ∧ (∃ u, exec (.barv g src) s = .next u ∧ status u ∧ Stored s u (w + 8) (toBytes 8 (b.update 0 true 0 .none).1.word1))
    ∧ ((portSc s 17 0).p = false → n < 2 ^ 40 →
      ∃ u, exec (.bexp g src) s = .next u ∧ status u ∧ Stored s u (w + 8) (toBytes 8 (b.update n true 0 .none).1.word1)))
  ∧ (∀ (s : State) (g : Guard) (src : Source), Quiet s → Brings s g src .s → (trigSc s src).p = false →
    let a := (trigSc s src).v.toNat
    let w := physSpad s.sel.who.clId a
    (Room s 1 0 0 → Settled s → s.sel.who.wf = true → (portSc s 17 2).p = false → a % 16 = 0 → a + 16 ≤ 0x300000 →
      ∃ u, exec (.btst g src) s = .next u ∧ OneEvent s u
        ∧ getCtx u s.sel.who = advance s (lands s 5 (.latch 17) (.value (.sc ⟨BitVec.ofNat 64 (memDword s (w + 8)), badBytes s (w + 8) 8⟩) 0) (entry s src)))
    ∧ (s.past = [] → ∀ ph : Bool, (portSc s 17 0) = ⟨if ph then 1 else 0, false⟩ → a % 16 = 0 → a + 16 ≤ 0x300000 →
      ∃ u, exec (.bwait g src) s = .next u ∧ OneEvent s u
        ∧ getCtx u s.sel.who = advance s (if bit (memDword s (w + 8)) 56 = ph then { entry s src with run := .bwait w ph a (flipsOf s w) .waiting } else entry s src))
    ∧ (a ≤ 2 → exec (.fence g src) s = .next (after s src fun c => { c with run := .fence a }))
    ∧ exec (.twait g src) s = .next (after s src fun c => { c with twait := a % 256 }))

/-! ## Frames -/

/-- What no instruction of these shapes changes when it answers a next state, in any state whose context has no trap pending in its snapshot
slot and awaits no token: the scalar, vector, transform and report instructions that only put results in flight. Every byte of memory, every
part of the state but the contexts, and every other context stay; the context's own registers and special registers are those its bundle
saw, or, where the bundle waited or trapped, as before but for the trap's own registers. The loads, touches and descriptor reads in any
state whose context has no snapshot and awaits no token: every byte of memory and every other context stay, and so do the registers and
special registers the bundle saw (the landing comes later, by R47 and R51); a touch changes its context's pins besides. -/
def Obligations.RegisterFrames : Prop :=
  (∀ (s t : State) (g : Guard) (src : Source), (own s).snap = none → (own s).twait = 0 → s.sel.await = 0 →
    ∀ i ∈ ([Instr.addAlu0, Instr.subAlu0, Instr.andAlu0, Instr.orAlu0, Instr.xorAlu0, Instr.andnAlu0, Instr.shlAlu0, Instr.shrAlu0, Instr.sarAlu0,
        Instr.rolAlu0, Instr.minAlu0, Instr.maxAlu0, Instr.minuAlu0, Instr.maxuAlu0, Instr.eqAlu0, Instr.neAlu0, Instr.ltAlu0, Instr.ltuAlu0, Instr.leAlu0,
        Instr.leuAlu0, Instr.selAlu0, Instr.clzAlu0, Instr.ctzAlu0, Instr.popcAlu0, Instr.sextAlu0, Instr.zextAlu0, Instr.bfxAlu0, Instr.bfiAlu0,
        Instr.addAlu1, Instr.subAlu1, Instr.andAlu1, Instr.orAlu1, Instr.xorAlu1, Instr.andnAlu1, Instr.shlAlu1, Instr.shrAlu1, Instr.sarAlu1,
        Instr.rolAlu1, Instr.minAlu1, Instr.maxAlu1, Instr.minuAlu1, Instr.maxuAlu1, Instr.eqAlu1, Instr.neAlu1, Instr.ltAlu1, Instr.ltuAlu1, Instr.leAlu1,
        Instr.leuAlu1, Instr.selAlu1, Instr.clzAlu1, Instr.ctzAlu1, Instr.popcAlu1, Instr.sextAlu1, Instr.zextAlu1, Instr.bfxAlu1, Instr.bfiAlu1,
        Instr.mul, Instr.mulh, Instr.mulhu, Instr.mulw, Instr.madd, Instr.div, Instr.divu, Instr.rem, Instr.remu, Instr.spld, Instr.mfsr, Instr.tokq, Instr.ctxq,
        Instr.viadd, Instr.visub, Instr.vimul, Instr.vimin, Instr.vimax, Instr.viminu, Instr.vimaxu, Instr.vand, Instr.vor, Instr.vxor, Instr.vandn,
        Instr.vshl, Instr.vshr, Instr.vsar, Instr.vieq, Instr.vilt, Instr.viltu, Instr.vsel, Instr.viota, Instr.vpopm, Instr.vmand, Instr.vmor, Instr.vmxor,
        Instr.vmnot, Instr.vbeq8, Instr.viadds, Instr.fadd, Instr.fsub, Instr.fmul, Instr.fma, Instr.fms, Instr.fnma, Instr.fmax, Instr.fmin, Instr.fabs,
        Instr.fneg, Instr.feq, Instr.flt, Instr.fle, Instr.funord, Instr.fclmp, Instr.fsubx, Instr.hadd, Instr.hmul, Instr.hfma, Instr.hmax, Instr.cvtfi,
        Instr.cvtif, Instr.cvtfh, Instr.cvthf, Instr.cvtf8, Instr.cvt8f, Instr.cvtf5, Instr.cvt5f, Instr.cvtfp16, Instr.cvtp16f, Instr.qpal, Instr.dqpal,
        Instr.frnd, Instr.fscl, Instr.fxpn, Instr.exp2, Instr.log2, Instr.rcp, Instr.rsqrt, Instr.sqrt, Instr.tanh, Instr.sigm, Instr.rsum, Instr.rmax,
        Instr.rmin, Instr.rsumi, Instr.ramax, Instr.scan, Instr.perm, Instr.vrot, Instr.vext, Instr.vins, Instr.vcmp, Instr.vxpd, Instr.zip, Instr.unzip,
        Instr.vbit, Instr.pget, Instr.punpk, Instr.ppack, Instr.chk16, Instr.sphdr, Instr.mstat, Instr.cstat, Instr.tstat, Instr.twear, Instr.tmap]
        : List (Guard → Source → Instr)),
      exec (i g src) s = .next t →
        OthersKept s t ∧ (∀ a, Memory.get t.mem a = Memory.get s.mem a)
        ∧ (let d := getCtx t s.sel.who
           (RegsKept (view s) d ∧ SpecialsKept (view s) d ∧ d.bclk = (own s).bclk + 1 ∧ ∃ fs, d.flight = (view s).flight ++ fs)
           ∨ (RegsKept (own s) d ∧ d.bclk = (own s).bclk ∧ d.tokens = (own s).tokens ∧ d.spill = (own s).spill
             ∧ d.sr = { (own s).sr with trappc := d.sr.trappc, trapcause := d.sr.trapcause, info0 := d.sr.info0, info1 := d.sr.info1 })))
  ∧ (∀ (s t : State) (g : Guard) (src : Source), (own s).snap = none → (own s).twait = 0 → s.sel.await = 0 →
    ∀ i ∈ ([Instr.ldb, Instr.ldbs, Instr.ldh, Instr.ldhs, Instr.ldw, Instr.ldws, Instr.ldd, Instr.gld, Instr.vld, Instr.vlds, Instr.vldg,
        Instr.vldbf, Instr.vldf8, Instr.vldi8, Instr.vldz8, Instr.vldx, Instr.vlde, Instr.vgld, Instr.pset] : List (Guard → Source → Instr)),
      exec (i g src) s = .next t →
        (∀ a, Memory.get t.mem a = Memory.get s.mem a) ∧ t.marks = s.marks ∧ t.overlay = s.overlay ∧ t.mex = s.mex
        ∧ (∀ k, k ≠ s.sel.who → getCtx t k = getCtx s k)
        ∧ (let d := getCtx t s.sel.who
           (RegsKept (view s) d ∧ SpecialsKept (view s) d)
           ∨ (RegsKept (own s) d ∧ d.tokens = (own s).tokens ∧ d.spill = (own s).spill
             ∧ d.sr = { (own s).sr with trappc := d.sr.trappc, trapcause := d.sr.trapcause, info0 := d.sr.info0, info1 := d.sr.info1 })))
  ∧ (∀ (s t : State) (g : Guard) (src : Source), (own s).snap = none → (own s).twait = 0 → s.sel.await = 0 → exec (.tch g src) s = .next t →
    OthersKept s t ∧ (∀ a, Memory.get t.mem a = Memory.get s.mem a)
    ∧ (let d := getCtx t s.sel.who
       (RegsKept (view s) d ∧ SpecialsKept (view s) { d with pins := (view s).pins })
       ∨ (RegsKept (own s) d ∧ d.tokens = (own s).tokens ∧ d.spill = (own s).spill
         ∧ d.sr = { (own s).sr with trappc := d.sr.trappc, trapcause := d.sr.trapcause, info0 := d.sr.info0, info1 := d.sr.info1 })))

/-- The stores, atomics and barrier instructions in any state whose context has no snapshot: every byte of memory outside the bytes stored
to, at the address the meaning itself stores to, is as before; a pour, a trap or a waiting bundle stores nothing at all. BWAIT, BTST and a
vector pour store nothing. A global store that its node stages writes its overlay (R364); where it overflows the staging share, the bytes
that the node had staged go to memory as well (R365). The context's registers and special registers are those its bundle saw, or, where the
bundle waited or trapped, as before but for the trap's own registers. -/
def Obligations.LocalStoreFrame : Prop :=
  ∀ (s t : State) (g : Guard) (src : Source), (own s).snap = none → s.sel.who.wf = true →
    let a := (trigSc s src).v.toNat
    let same : (Nat → Prop) → Prop := fun stored => ∀ x, ¬ stored x → Memory.get t.mem x = Memory.get s.mem x
    let run : Nat → Nat → Prop := fun n x => InLocal a n ∧ localAt s a ≤ x ∧ x < localAt s a + n
    let lanes : (Nat → Bool) → (Nat → Nat) → Nat → Prop := fun on at' x => ∃ l < 128, on l = true ∧ localAt s (at' l) ≤ x ∧ x < localAt s (at' l) + 4
    let regs : Prop := (RegsKept (view s) (getCtx t s.sel.who) ∧ (getCtx t s.sel.who).sr = (view s).sr)
      ∨ (RegsKept (own s) (getCtx t s.sel.who) ∧ { (getCtx t s.sel.who).sr with
          trappc := (own s).sr.trappc, trapcause := (own s).sr.trapcause, info0 := (own s).sr.info0, info1 := (own s).sr.info1 } = (own s).sr)
    (∀ r ∈ ([(Instr.stb, 1), (Instr.sth, 2), (Instr.stw, 4), (Instr.std, 8), (Instr.vst, 512), (Instr.vstbf, 256)]
        : List ((Guard → Source → Instr) × Nat)), exec (r.1 g src) s = .next t → same (run r.2) ∧ regs)
    ∧ (exec (.vstm g src) s = .next t → same (lanes (fun l => (maskAt (portMask s 6 3) l).v) fun l => a + 4 * l) ∧ regs)
    ∧ (exec (.vsts g src) s = .next t →
      same (lanes (fun _ => true) fun l => (((a : Int) + l * (portSc s 6 1).v.toInt) % (2 ^ 64 : Nat)).toNat) ∧ regs)
    ∧ (exec (.vstg g src) s = .next t →
      same (lanes (fun _ => true) fun l => ((portSc s 6 1).v.toNat + (laneAt (trigVec s src) l).v.toNat) % 2 ^ 64) ∧ regs)
    ∧ (exec (.vstp g src) s = .next t → same (fun x => localAt s a ≤ x ∧ x < localAt s a + (portSc s 6 1).v.toNat) ∧ regs)
    ∧ (exec (.vstmc g src) s = .next t → same (fun _ => False) ∧ regs)
    ∧ (let writes : List GByte → Nat → Prop := fun bs x => (∃ b ∈ bs, b.pa = x)
        ∨ ((∃ b ∈ bs, (stageOf s (nodeOf s s.sel.who) b.pa b.pte).isSome = true) ∧ ∃ n v, nodeOf s s.sel.who = some n ∧ ((n, x), v) ∈ s.overlay)
      (exec (.gst g src) s = .next t → regs ∧ same fun x =>
        ∃ bs, coverBytes (view s) (view s).bclk a (2 ^ (portSc s 4 1).v.toNat) = .ok bs ∧ writes bs x)
      ∧ (exec (.vgst g src) s = .next t → regs ∧ same fun x =>
        ∃ l < 128, ∃ bs, coverBytes (view s) (view s).bclk (a + 4 * l) 4 = .ok bs ∧ writes bs x)
      ∧ (∀ r ∈ ([(Instr.aadd, 0x094), (Instr.amax, 0x095), (Instr.amin, 0x096), (Instr.axchg, 0x097), (Instr.acas, 0x098)]
          : List ((Guard → Source → Instr) × Nat)), exec (r.1 g src) s = .next t → regs ∧ same fun x =>
          ∃ bs delta, atomicTarget (given s r.2 .s src) s = .ok (bs, delta) ∧ ∃ b ∈ bs, b.pa = x))
    ∧ (∀ r ∈ ([(Instr.binit, 0x224), (Instr.barv, 0x225), (Instr.bexp, 0x226)] : List ((Guard → Source → Instr) × Nat)),
      exec (r.1 g src) s = .next t → regs ∧ same fun x => ∃ w, barTarget (given s r.2 .s src) s 2 = .ok w ∧ w ≤ x ∧ x < w + 16)
    ∧ (∀ i ∈ ([Instr.btst, Instr.bwait] : List (Guard → Source → Instr)), exec (i g src) s = .next t → same (fun _ => False) ∧ regs)

/-- The control transfers, moves and context instructions that write no memory (R61, R115 to R118, R121, R124, R127, R133, R240): every byte
stays, and every other context but the one that WAKE names; LOOPS, LOOPX, MTSR, CALL, MSEL and CSEL may use a free value of the model (R117;
log entries 17 and 53). A move changes, before it lands, at most an operand port, and a vector name that is dropped for its storage (R240).
RDROP drops at most the name it gives, RDEF clears at most its entry. The engine commands write no memory in their own bundle and leave
every other context alone; of their own context they change the token count, the results in flight and, for a receive, its list of receives:
no register, special register, snapshot, parameter set, pattern, sketch, pin or spill byte. -/
def Obligations.FlowFrame : Prop :=
  ∀ (s t : State) (g : Guard) (src : Source), (own s).snap = none → (own s).twait = 0 → s.sel.await = 0 →
    let d := getCtx t s.sel.who
    let still : Prop := ∀ a, Memory.get t.mem a = Memory.get s.mem a
    let alone : Prop := ∀ k, k ≠ s.sel.who → getCtx t k = getCtx s k
    let regs : Prop := (RegsKept (view s) d ∨ RegsKept (own s) d) ∧ d.spill = (own s).spill
    let held : Prop := RegsKept (own s) d ∧ d.bclk = (own s).bclk ∧ d.tokens = (own s).tokens ∧ d.spill = (own s).spill ∧ d.pins = (own s).pins
      ∧ d.pats = (own s).pats ∧ d.sketches = (own s).sketches ∧ d.mexPar = (own s).mexPar ∧ d.cpyPar = (own s).cpyPar ∧ d.glzPar = (own s).glzPar
      ∧ d.rtcPar = (own s).rtcPar ∧ d.recvs = (own s).recvs
      ∧ d.sr = { (own s).sr with trappc := d.sr.trappc, trapcause := d.sr.trapcause, info0 := d.sr.info0, info1 := d.sr.info1 }
    (∀ i ∈ ([Instr.jmp, Instr.bra, Instr.brz, Instr.brnz, Instr.ret, Instr.trap, Instr.yield, Instr.prio, Instr.fflgs, Instr.sleep,
        Instr.rft, Instr.rtag, Instr.rclr, Instr.twait, Instr.fence, Instr.mset, Instr.cset, Instr.gset, Instr.tset] : List (Guard → Source → Instr)),
      exec (i g src) s = .next t → OthersKept s t ∧ still ∧ regs)
    ∧ (∀ i ∈ ([Instr.loops, Instr.loopx, Instr.mtsr, Instr.call, Instr.msel, Instr.csel] : List (Guard → Source → Instr)),
      exec (i g src) s = .next t → OthersKept s { t with free := s.free } ∧ still ∧ regs)
    ∧ (∀ dest, exec (.move g src dest) s = .next t → OthersKept s t ∧ still
      ∧ ((d.g = (view s).g ∧ d.o = (view s).o ∧ d.p = (view s).p ∧ d.m = (view s).m ∧ d.vo = (view s).vo ∧ d.latches = (view s).latches
          ∧ SpecialsKept (view s) d ∧ ((∀ u k, dest ≠ .port u k) → d.ports = (view s).ports)
          ∧ ∀ n, readV d n = readV (view s) n ∨ ∃ m, dest = .v m ∧ evictee (view s) (readNames src ++ [m]) = some n ∧ (getV d n).st = .dropped)
        ∨ held))
    ∧ (exec (.rdrop g src) s = .next t → OthersKept s t ∧ still
      ∧ ((d.g = (view s).g ∧ d.o = (view s).o ∧ d.p = (view s).p ∧ d.m = (view s).m ∧ d.vo = (view s).vo ∧ d.latches = (view s).latches
          ∧ d.ports = (view s).ports ∧ SpecialsKept (view s) d ∧ ∀ n, n ≠ (trigSc s src).v.toNat → readV d n = readV (view s) n) ∨ held))
    ∧ (exec (.rdef g src) s = .next t → { t with ctxs := s.ctxs, seq := s.seq, tally := s.tally, free := s.free } = s ∧ alone
      ∧ ((RegsKept (view s) d ∧ SpecialsKept (view s) { d with sketches := (view s).sketches }
          ∧ ∀ k, k ≠ (portSc s 5 0).v.toNat → d.sketches[k]? = (view s).sketches[k]?) ∨ held))
    ∧ (exec (.wake g src) s = .next t → { t with ctxs := s.ctxs } = s ∧ regs
      ∧ ∀ k, k ≠ s.sel.who → getCtx t k = getCtx s k ∨ (k = s.sel.who.coreId.ctxId (trigSc s src).v.toNat ∧ getCtx t k = wakeCtx (getCtx s k)))
    ∧ (exec (.sysc g src) s = .next t → { t with ctxs := s.ctxs, dies := s.dies } = s ∧ alone ∧ regs
      ∧ ∀ k, k ≠ s.sel.who.die → getDie t k = getDie s k)
    ∧ (exec (.bwait g src) s = .next t → { t with ctxs := s.ctxs, seq := s.seq, tally := s.tally, past := s.past } = s ∧ alone ∧ regs)
    ∧ (exec (.exit g src) s = .next t → ((trigSc s src).v.setWidth 32 = 0#32 → OthersKept s t)
      ∧ (((d.g = (view s).g ∧ d.o = (view s).o ∧ d.p = (view s).p ∧ d.m = (view s).m ∧ d.vo = (view s).vo ∧ d.ports = (view s).ports
          ∧ d.latches = (view s).latches ∧ d.sr = (view s).sr ∧ d.spill = (view s).spill) ∧ d.run = .retired) ∨ held))
    ∧ (∀ i ∈ ([Instr.mldw, Instr.mstr, Instr.mdrn, Instr.mzero, Instr.cgo, Instr.gsend, Instr.grecv, Instr.gred, Instr.twrt, Instr.mcan, Instr.ccan,
        Instr.gcan, Instr.tokc] : List (Guard → Source → Instr)),
      exec (i g src) s = .next t → still ∧ t.marks = s.marks ∧ t.nodes = s.nodes ∧ t.parts = s.parts ∧ alone
        ∧ ((RegsKept (view s) d ∧ SpecialsKept (view s) { d with tokens := (view s).tokens } ∧ d.landing = (view s).landing
          ∧ d.redirects = (view s).redirects.filter (fun r => decide ((view s).bclk + 1 < r.pos)) ∧ d.loopEnd = (view s).loopEnd
          ∧ d.bclk = (own s).bclk + 1) ∨ held))

/-! ## Steps of a core and of its contexts -/

/-- R57 to R59: a core cycle issues at most two contexts, the lead first. The lead is a ready context: one that has waited 64 cycles, the
longest wait first; else the lead of the core's cycle before while it is ready; else the highest priority, the lowest number. The one other
ready context of the highest priority and the lowest number merges, and no other does: exactly when its bundle and the lead's use none of
one another's slots and units, neither asks to issue alone, and they read at most 8 vector registers. What a bundle without a known header
does there is the model's choice (DESIGN CHOICE, log entry 116), as is that every move counts whatever its guard (DESIGN CHOICE, log entry
140). -/
def Obligations.CoreCycles : Prop :=
  ∀ (s : State) (c : CoreId), c.wf = true →
    let s0 := { s with focus := none }
    let s1 := beginStalls opOfField c (openCycle c s0)
    let ks := readyList opOfField c s1
    let w : Nat → Nat := fun k => (lately s1 c).waits.getD k 0
    let p : Nat → Nat := fun k => min 7 (prioOf s1 c k)
    let ch := choose opOfField c s1
    (∃ t, exec (.bundleIssue c) s = .next t ∧ (ks = [] → t = noteCycle c [] none none s1))
    ∧ (∀ l, ch.1 = some l → ∃ t, exec (.bundleIssue c) s = .next t ∧
        t = ((l :: ch.2.toList).map c.ctxId).foldl (fun u k => attempt k (fetchBundle opOfField (prepare opOfField c s0) k)
            (selected k (fetchBundle opOfField (prepare opOfField c s0) k) u)) (prepare opOfField c s0))
    ∧ (ks ≠ [] → ∃ l, ch.1 = some l ∧ l ∈ ks
      ∧ ((∃ k ∈ ks, 64 ≤ w k) → 64 ≤ w l ∧ ∀ k ∈ ks, w k < w l ∨ (w k = w l ∧ l ≤ k))
      ∧ ((∀ k ∈ ks, w k < 64) → (∀ k, (lately s1 c).lead = some k → k ∈ ks → l = k)
        ∧ ((∀ k, (lately s1 c).lead = some k → k ∉ ks) → ∀ k ∈ ks, p k < p l ∨ (p k = p l ∧ l ≤ k))))
    ∧ (∀ l m, ch.1 = some l → (ch.2 = some m ↔ m ∈ ks ∧ m ≠ l ∧ (∀ k ∈ ks, k ≠ l → p k < p m ∨ (p k = p m ∧ m ≤ k))
      ∧ ∃ a b, fetchBundle opOfField s1 (c.ctxId l) = .got a ∧ fetchBundle opOfField s1 (c.ctxId m) = .got b ∧ a.sig = true ∧ b.sig = true
        ∧ a.hdr.mask &&& b.hdr.mask = 0 ∧ a.hdr.solo = false ∧ b.hdr.solo = false
        ∧ (∀ u ∈ bundleUnits a, u ∉ bundleUnits b) ∧ bundleVReads a + bundleVReads b ≤ 8))
    ∧ (someStarved c s = true → ∃ t, exec (.starvationLead c) s = .next t ∧ exec (.bundleIssue c) s = .next t)

/-- R14, R47, R51, R54, R169, R182 and R305: a line enters the fetch buffer of eight; results due land; data arrives; a timed request lands
and gives up its entry, with what else is due there in the order of R48, or traps; a walk gives a pin and a dword, or a fault; pins end, but
not while a BWAIT that needs them waits (R196). The model's choices: a full buffer gives up the line that entered first (DESIGN CHOICE, log
entry 114), results land by themselves only at a bundle that issues (DEDUCED, log entry 25), and a failed line that carries a tag leaves a
record in the log (DEDUCED, log entry 151). -/
def Obligations.LandingEvents : Prop :=
  ∀ (s : State) (c : CtxId), c.wf = true → let x := getCtx s c
    (∀ (k : CoreId) (n : Nat), k.wf = true → n < 2 ^ 14 → bufLine s k n = none →
      let u := setCore k { getCore s k with fetch := ((getCore s k).fetch ++ [openLine s k.clId n]).drop ((getCore s k).fetch.length - 7) } s
      (((openLine s k.clId n).failed = false ∨ assoc n (getCl s k.clId).tags = none) → exec (.lineFetch k n) s = .next u)
      ∧ ((openLine s k.clId n).failed = true → (assoc n (getCl s k.clId).tags).isSome → ∃ t, exec (.lineFetch k n) s = .next t
        ∧ t.cores = u.cores ∧ t.ctxs = s.ctxs ∧ t.mem = s.mem ∧ t.log.length = s.log.length + 1))
    ∧ (fixedDue x ≠ [] → timedDue x = [] → commits c s = true →
      exec (.latchLanding c) s = .next (setCtx c (seen x) s) ∧ ∀ f ∈ (seen x).flight, x.bclk < f.land)
    ∧ (∀ k l, findLanding x k = some l → isWalk l.data = false → ∃ t, exec (.timedDataArrival c k) s = .next t ∧ OnlyCtx c s t
      ∧ ∀ y ∈ allLandings (getCtx t c), y.id = k → y.arrived = true ∧ y.data = l.data)
    ∧ (timedDue x ≠ [] → commits c s = true → exec (.timedLanding c) s = .next (setCtx c (seen x) s) ∧ (seen x).bclk = x.bclk
      ∧ ((∀ l ∈ x.landing, x.bclk ≤ l.land) → (∀ f ∈ x.flight, x.bclk ≤ f.land) →
        (seen x).landing = x.landing.filter (fun y => decide (x.bclk < y.land)) ∧ (seen x).flight = x.flight.filter (fun y => decide (x.bclk < y.land))
        ∧ ∀ l u v a, timedDue x = [l] → fixedDue x = [] → l.dst = .latch u → l.data = .value v a → (seen x).latches = x.latches.set (2 * u) v))
    ∧ (∀ tr y b, timedDue x ≠ [] → verdictOf c s = .trap tr y → outerTrap x = some (tr, b) →
      exec (.timedLanding c) s = .next (trapEnter c tr (setCtx c y s)))
    ∧ (∀ k l va, findLanding x k = some l → l.data = .walk va → walkWaits s (partOf s c) va = false →
      ∃ t, exec (.pageWalkComplete c k) s = .next t ∧ OnlyCtx c s t
        ∧ (∀ f, walk s (partOf s c) (worldOf s c) (nodeOf s c) va = .fault f →
          (getCtx t c).pins = x.pins ∧ ∀ y ∈ allLandings (getCtx t c), y.id = k → y.arrived = true ∧ y.data = .walkFault va f)
        ∧ (∀ e size, walk s (partOf s c) (worldOf s c) (nodeOf s c) va = .leaf e size →
          (∃ p ∈ (getCtx t c).pins, p.va = va ∧ p.size = size ∧ p.pte = BitVec.ofNat 64 e ∧ p.first ≤ l.issued + 2 ∧ p.last = l.issued + 2047 ∧ p.born = s.stamp)
          ∧ ∀ y ∈ allLandings (getCtx t c), y.id = k → y.arrived = true ∧ y.data = .value (.sc ⟨BitVec.ofNat 64 (touchWord e size), false⟩) 0))
    ∧ (let from0 := match x.run with
        | .bwait _ _ _ _ _ => x.bclk - 1
        | _ => x.bclk
      x.pins.any (fun p => decide (p.last < from0)) = true →
        exec (.pinExpiry c) s = .next (setCtx c { x with pins := x.pins.filter fun p => decide (from0 ≤ p.last) } s))

/-- R127, R133, R172, R196, R198 and R246: what ends a wait. A sleep's limit, a changed phase bit, a fence's condition and a finished replay
make the context ready; a pour lands in every cluster it names and takes the wall cycle with it; a call's reply lies in the spill window and
lowers its token. That the reply goes to the window of the place that made the call, whoever runs there by then, is the model's choice
(DESIGN CHOICE, log entry 120). -/
def Obligations.WakeEvents : Prop :=
  ∀ (s : State) (c : CtxId), c.wf = true → let x := getCtx s c
    (∀ n, x.nap = .till n → n < clk s c.clId → x.stopped = false → exec (.sleepTimeout c) s = .next (setCtx c { x with nap := .awake } s))
    ∧ (∀ w ph a n, x.run = .bwait w ph a n .byStore → x.stopped = false →
      ∃ t, exec (.bwaitWake c) s = .next t ∧ t.seq = s.seq + 1 ∧ t.mem = s.mem ∧ getCtx t c = { x with run := .runnable })
    ∧ (∀ w ph a n k, x.run = .bwait w ph a n (.byFlip k) → x.stopped = false →
      ∃ t, exec (.bwaitWake c) s = .next t ∧ t.seq = s.seq + 1 ∧ t.mem = s.mem ∧ getCtx t c = { x with run := .runnable }
        ∧ ∀ q ∈ s.past, q.engine = true → (∃ j, q.bar = some (w, j) ∧ j < k) → ∃ q' ∈ t.past, q'.addr = q.addr ∧ (assoc c q'.acq).isSome)
    ∧ (∀ k, x.run = .fence k → (∀ p ∈ s.pours, p.who ≠ c) →
      (1 ≤ k → (∀ l ∈ allLandings x, l.arrived = true) ∧ storesWait c s = false) →
      (2 ≤ k → hasCommands (fun w => w == c) s = false ∧ ∀ y ∈ x.tokens, y.count = 0) →
      ∃ t, exec (.fenceComplete c) s = .next t ∧ getCtx t c = { x with run := .runnable } ∧ t.mem = s.mem
        ∧ ∀ q ∈ t.past, q.who = c → q.all = true ∨ (q.engine = true ∧ k ≠ 2))
    ∧ (∀ n b began, x.run = .replay n began → fetchBundle opOfField s c = .got b → x.stopped = false → began + replayCycles (seen x) n ≤ clk s c.clId →
      ∃ t, exec (.sketchReplayComplete c) s = .next t ∧ OnlyCtx c s t ∧ (getCtx t c).run = .runnable ∧ (getCtx t c).bclk = x.bclk
        ∧ (getCtx t c).flight = x.flight
        ∧ ∀ d, replayName c (vReads (passing (seen x) b) ++ (n :: replayReads (seen x) 3 n)) 3 n (seen x) = .ok d → x.flight = [] → x.v.length = 32 → n < 32 →
          (getV (getCtx t c) n).st = .resident ∧ (getV (getCtx t c) n).val = (getV d n).val)
    ∧ (∀ p, s.pours = [p] → p.due < clk (runClocks s) p.who.clId → s.cancels = [] → s.mex = [] → Memory.wf s.mem = true → p.off + p.data.length ≤ 0x300000 →
      ∃ t, exec .pourLanding s = .next t ∧ t.cycle = s.cycle + 1 ∧ t.pours = []
        ∧ ∀ k ∈ p.targets, k.wf = true → (∀ j ∈ p.targets, j.wf = true) → ∀ i, i < p.data.length →
          Memory.get t.mem (physSpad k (p.off + i)) = p.data.getD i 0)
    ∧ (∀ die k ks, Config.hasDie die = true → (getDie s die).calls = k :: ks → Memory.wf (getCtx s k.who).spill = true →
      ∃ t, exec (.syscReply die) s = .next t ∧ (die < s.dies.length → (getDie t die).calls = ks)
        ∧ ofBytes (Memory.gets (getCtx t k.who).spill k.off 8) = (sysReply s k).1 % 2 ^ 64
        ∧ ofBytes (Memory.gets (getCtx t k.who).spill (k.off + 8) 8) = (sysReply s k).2
        ∧ TokenEnds k.who k.tok (decide ((sysReply s k).2 ≠ 0)) (sysReply s k).2 s t)

/-! ## Engines at work -/

/-- R213, R221, R222, R226 to R231 and R234 to R236: a matrix command that may start passes its checks and runs, or completes with its error
in the start cycle; MSTR's flip exchanges the planes; each end takes the command out, lowers its token and leaves its status word. That a
command whose reserved bits or BAR fail leaves the planes (DEDUCED, log entry 30), that MZERO zeroes its rows as it completes (DEDUCED, log
entry 31), that an activation vector is read when its partial is promoted (DEDUCED, log entry 32) and that an overrun sets the token's error
bit (DEDUCED, log entry 33) is the model's reading. -/
def Obligations.MatrixEvents : Prop :=
  ∀ (s : State) (e : EngId), e.wf = true → let m := getMex s e
    let gone : State → MexRun → Prop := fun t r => (getMex t e).runs = m.runs.filter fun y => y.cmd.seq != r.cmd.seq
    let ends : State → MexRun → Nat → Nat → Prop := fun t r err detail =>
      gone t r ∧ TokenEnds r.cmd.who (bits (param r.cmd.par 0x18) 2 0) (decide (err ≠ 0)) (mexStatus r.cmd e.eng err detail false) s t
    (∀ c q, m.queue = c :: q → c.entered + 2 ≤ clk s e.clId → mayStart s c.who = true → pipeBusy (clk s e.clId) m c.kind.pipe = false → hazardFree m c = true →
      (∀ k d, commonCheck c = some (k, d) → ∃ t, exec (.mexCommandStart e) s = .next t ∧ (getMex t e).queue = q ∧ (getMex t e).runs = m.runs
        ∧ (getMex t e).act = m.act ∧ TokenEnds c.who (bits (param c.par 0x18) 2 0) true (mexStatus c e.eng k d false) s t)
      ∧ (commonCheck c = none →
        let m1 := if c.kind = .mstr ∧ bit c.ctl 0 = true then { m with act := m.sh, sh := m.act } else m
        (match c.kind with
          | .mzero => True
          | .mdrn => mdrnCheck m c = none
          | .mstr => mstrCheck m1 c = none
          | .mldw => mldwCheck c = none ∧ ∃ l, mldwSlots s e c = .ok l) →
        ∃ t, exec (.mexCommandStart e) s = .next t ∧ { t with mex := s.mex } = s ∧ (getMex t e).queue = q ∧ (getMex t e).act = m1.act ∧ (getMex t e).sh = m1.sh
          ∧ ∃ r, (getMex t e).runs = m.runs ++ [r] ∧ r.cmd = c ∧ r.start = clk s e.clId ∧ r.done = 0
            ∧ (c.kind = .mstr → r.plane = m1.act) ∧ (c.kind = .mldw → r.plane.tile = (param c.par 0 + c.ctl) % 2 ^ 32 ∧ r.plane.fmt = param c.par 1)))
    ∧ (∀ r, runOf s e .mldw (fun r => decide (tileBytes (param r.cmd.par 1) ≤ 2048 * r.done) && decide (r.start + mexBusy r.cmd ≤ clk s e.clId)) = some r →
      ∃ t, exec (.mldwComplete e) s = .next t ∧ gone t r ∧ (getMex t e).act = m.act ∧ (getMex t e).sh.image = r.plane.image
        ∧ (badSidecar r.plane = none → (getMex t e).sh = r.plane ∧ ends t r r.plane.err r.plane.detail)
        ∧ (∀ o, badSidecar r.plane = some o → r.plane.poisoned = false → (getMex t e).sh.poisoned = true ∧ ends t r 8 (2 ^ 31 + o)))
    ∧ (∀ r, runOf s e .mstr (fun r => decide (r.done < mexRows r.cmd) &&
        decide (r.start + r.done * (if mexAfmt r.cmd.par = 2 then 2 else 1) + 12 ≤ clk s e.clId)) = some r →
      ∃ t, exec (.streamPromotion e) s = .next t ∧ (∃ r' ∈ (getMex t e).runs, r'.cmd = r.cmd ∧ r'.done = r.done + 1)
        ∧ rowInt (getMex t e) (mexFirst r.cmd + r.done) = bit (param r.cmd.par 0x0A) 17
        ∧ (s.past = [] → Memory.wf s.mem = true → mexAfmt r.cmd.par ≠ 9 → bits (param r.cmd.par 7) 21 0 = 0 → bit (param r.cmd.par 0x0A) 17 = false →
          ∀ n, n < 128 → accWord t e (mexFirst r.cmd + r.done) n =
            P4.promote (mstrAdd r.cmd) (accWord s e (mexFirst r.cmd + r.done) n)
              (P4.passColumn (actElems (mexAfmt r.cmd.par) (userTables s r.cmd.who)
                (Memory.gets s.mem (physSpad e.clId (bits (param r.cmd.par 3) 21 0 + r.done * mexAstride r.cmd.par)) (actSize (mexAfmt r.cmd.par))) [])
                (weightColumn r.plane (userTables s r.cmd.who) n))
              0x3F800000#32 (BitVec.ofNat 32 (param r.cmd.par 2))))
    ∧ (∀ r, runOf s e .mstr (fun r => r.done == mexRows r.cmd && decide (r.start + mexBusy r.cmd + 12 ≤ clk s e.clId)) = some r →
      ∃ t, exec (.mstrComplete e) s = .next t ∧ ends t r r.err r.detail)
    ∧ (∀ r, runOf s e .mzero (fun r => decide (r.start + mexBusy r.cmd + 2 ≤ clk s e.clId)) = some r →
      ∃ t, exec (.mzeroComplete e) s = .next t ∧ ends t r r.err r.detail
        ∧ ∀ k, k < r.cmd.ctl → rowInt (getMex t e) (r.cmd.row + k) = bit (param r.cmd.par 0x0A) 17
          ∧ (Memory.wf s.mem = true → r.cmd.row + r.cmd.ctl ≤ 512 → ∀ n, n < 128 → accWord t e (r.cmd.row + k) n = 0))
    ∧ (∀ r, runOf s e .mdrn (fun r => decide (r.done < mexRows r.cmd) && decide (r.start + r.done ≤ clk s e.clId)) = some r → mexPacks r.cmd.par = false →
      let row := mexFirst r.cmd + r.done
      let dst := bits (param r.cmd.par 0x0B) 21 0 + r.done * mexDstride r.cmd.par
      ∃ t, exec (.drainRow e) s = .next t ∧ (∃ r' ∈ (getMex t e).runs, r'.cmd = r.cmd ∧ r'.done = r.done + 1)
        ∧ (mexDfmt r.cmd.par = 8 → Memory.wf s.mem = true → dst + 512 ≤ 0x300000 → row < 512 →
          (∀ n, n < 128 → ofBytes (Memory.gets t.mem (physSpad e.clId (dst + 4 * n)) 4) = (accWord s e row n).toNat)
          ∧ (bit r.cmd.ctl 0 = true → ∀ n, n < 128 → accWord t e row n = 0)))
    ∧ (∀ r, runOf s e .mdrn (fun r => r.done == mexRows r.cmd && decide (r.start + mexBusy r.cmd + 10 ≤ clk s e.clId)) = some r →
      ∃ t, exec (.mdrnComplete e) s = .next t ∧ ends t r r.err r.detail)

/-- R260 to R262 and R264: a copy starts or fails at its start; a chunk is fetched whole, then written and paid; a copy ends finished,
failed or cancelled. A resumed copy whose link was fenced while it was saved names its chunk (R371). The detail of a cancelled copy is the
model's reading (DEDUCED, log entry 64). -/
def Obligations.CopyEvents : Prop :=
  ∀ (s : State) (e : DieEng), e.wfN 8 = true → let m := getCpy s e
    (∀ c, m.queue.find? (fun c => mayStart s c.who) = some c → c.entered + 2 ≤ nominal s → m.runs.length < 4 →
      rangeWaits s c.who (param c.par 0x0E, 16) = false →
      (∀ bar port, cpyCheck s c = .ok (bar, port) → ∃ t, exec (.copyStart e) s = .next t ∧ { t with cpy := s.cpy } = s
        ∧ (getCpy t e).queue = m.queue.filter (fun x => x.seq != c.seq)
        ∧ (getCpy t e).runs = m.runs ++ [⟨c, bar, port, c.chunk, c.written, none, 0, 0, false, 0, 0⟩])
      ∧ (∀ k d, cpyCheck s c = .error (k, d) → k ≠ 0 → ∃ t, exec (.copyStart e) s = .next t ∧ (getCpy t e).runs = m.runs
        ∧ TokenEnds c.who (cpyTok c) true (cpyStatus c e.eng k (if k = 0x0E ∧ 0 < c.chunk then c.chunk else d) false) s t))
    ∧ (∀ id r, findCpy s e id = some r → r.err = 0 → r.fetched = none → r.cancelling = false → r.chunk < cpyChunks r.cmd.par →
      savesNode s r.cmd.who = false →
      ((chunkSources r.cmd (param r.cmd.par 0) r.chunk ++ chunkSources r.cmd (param r.cmd.par 2) r.chunk).any (rangeWaits s r.cmd.who)) = false →
      (∀ d bs s1 o, fetchOnce r.cmd (param r.cmd.par 0) r.chunk s = .ok (d, bs, 0, s1) → chunkOut r.cmd.par d = some o →
        ∃ t r', exec (.chunkFetch e id false) s = .next t ∧ t.mem = s.mem ∧ findCpy t e id = some r' ∧ r'.cmd = r.cmd ∧ r'.chunk = r.chunk
          ∧ ∃ ch, r'.fetched = some ch ∧ ch.bytes = o)
      ∧ (∀ k, fetchOnce r.cmd (param r.cmd.par 0) r.chunk s = .error k →
        ∃ t r', exec (.chunkFetch e id false) s = .next t ∧ t.mem = s.mem ∧ findCpy t e id = some r' ∧ r'.err = k ∧ r'.detail = r.chunk))
    ∧ (∀ id r ch bs, findCpy s e id = some r → r.fetched = some ch → r.err = 0 → r.port = none → cpyReduce r.cmd.par = false →
      ((chunkDests r.cmd r.chunk ch.bytes.length).any fun x => rangeWaits s r.cmd.who x) = false →
      resolveAll s r.cmd.who pteWrite (chunkDests r.cmd r.chunk ch.bytes.length) = .ok bs → (∀ b ∈ bs, physHost b.pa = false) →
      ∃ t r', exec (.chunkWrite e id) s = .next t ∧ findCpy t e id = some r' ∧ r'.chunk = r.chunk + 1 ∧ r'.written = r.written + ch.bytes.length
        ∧ r'.fetched = none ∧ r'.err = 0)
    ∧ (∀ id r, findCpy s e id = some r →
      let ended : Nat → Nat → Bool → Prop := fun err detail cancelled => ∃ t, exec (.copyComplete e id) s = .next t
        ∧ (getCpy t e).runs = m.runs.filter (fun y => y.cmd.seq != r.cmd.seq)
        ∧ TokenEnds r.cmd.who (cpyTok r.cmd) (decide (err ≠ 0)) (cpyStatus r.cmd e.eng err detail cancelled) s t
      (r.err ≠ 0 → ended r.err r.detail false)
      ∧ (r.err = 0 → r.fetched = none → r.chunk = cpyChunks r.cmd.par → r.cancelling = false → ended 0 (r.refetched % 2 ^ 16 * 2 ^ 16 + r.replicas % 2 ^ 16) false)
      ∧ (r.err = 0 → r.fetched = none → r.cancelling = true →
        ended 0 (r.refetched % 2 ^ 16 * 2 ^ 16 + r.replicas % 2 ^ 16) true))

/-- R268, R269, R272, R273 and R275: a glaze command starts and registers, or fails; its collective is matched or its members disagree; a
round is sent, a plane arrives or finds the block's sums in memory lost (R276), a cancel freezes the blocks it names, a timeout and an abort
end the command, and so do its settled blocks. Where the sums lie and when an error meets them (`areaFailure`; DESIGN CHOICE, log entry 74),
that a block cut before its first plane writes nothing (DEDUCED, log entry 70) and that an abort spreads to registered members (DEDUCED, log
entry 71) is the model's choice. -/
def Obligations.GlazeEvents : Prop :=
  ∀ (s : State) (e : DieEng), e.wfN 2 = true → let m := getGlz s e
    (∀ c, m.queue.find? (fun c => mayStart s c.who) = some c → c.entered + 2 ≤ nominal s → m.runs.length < 4 →
      m.runs.all (fun r => !r.paused) = true →
      (∀ ports, glzCheck s e c = .ok ports → ∃ t, exec (.glazeStart e) s = .next t ∧ t.mem = s.mem
        ∧ (∃ r, (getGlz t e).runs = m.runs ++ [r] ∧ r.cmd = c ∧ r.start = nominal s ∧ r.matched = false ∧ r.ports = ports)
        ∧ ∃ k ∈ t.colls, k.matched = false ∧ k.group = glzGroup c.par ∧ k.tag = glzTag c.par ∧ (glzSelf c.par, c.seq) ∈ k.reg)
      ∧ (∀ k d, glzCheck s e c = .error (k, d) → k ≠ 0 → ∃ t, exec (.glazeStart e) s = .next t ∧ (getGlz t e).runs = m.runs ∧ t.colls = s.colls
        ∧ TokenEnds c.who (glzTok c.par) true (glzStatus c e.eng k d (!c.pre.isEmpty) false) s t))
    ∧ (∀ k x, s.colls[k]? = some x → x.matched = false → collFull s x = true → (collRuns s x).any (fun y => y.2.aborted) = false → collRuns s x ≠ [] →
      (collMembers s x).all memberHere = true →
      (collAgrees s x = true → ∃ t y, exec (.glazeMatch k) s = .next t ∧ t.colls[k]? = some y ∧ y.matched = true ∧ y.reg = x.reg ∧ t.mem = s.mem)
      ∧ (collAgrees s x = false → ∃ t, exec (.glazeMatch k) s = .next t ∧ ∀ y ∈ collRuns s x, glzRunOf t y.2.cmd.seq = none))
    ∧ (∀ id r k, findGlz s e id = some r → collOf s r.cmd.seq = some k → r.matched = false → r.aborted = false →
      let n := bits (param r.cmd.par 0x0E) 31 0
      n ≠ 0 → r.start + n ≤ nominal s →
      ∃ t r', exec (.glazeTimeout e id) s = .next t ∧ t.mem = s.mem ∧ findGlz t e id = some r' ∧ r'.aborted = true ∧ r'.err = 0x0F ∧ r'.cmd = r.cmd)
    ∧ (∀ id r k, findGlz s e id = some r → collOf s r.cmd.seq = some k → r.matched = true → r.aborted = false → r.cmd.kind.contributes = true →
      sentOf k (glzSelf r.cmd.par) < k.planes → savesNode s r.cmd.who = false → r.ports = [] → r.paused = false →
      ∃ t k', exec (.glazeRoundSend e id) s = .next t ∧ t.mem = s.mem ∧ collOf t r.cmd.seq = some k'
        ∧ sentOf k' (glzSelf r.cmd.par) = sentOf k (glzSelf r.cmd.par) + 1)
    ∧ (∀ id r k blk con x, findGlz s e id = some r → collOf s r.cmd.seq = some k → r.blocks[blk]? = some x → r.matched = true → r.aborted = false →
      x.flag = 0 → con ∈ blockCons r.cmd k blk → savesNode s r.cmd.who = false →
      let pos := if glzForm r.cmd.par = 1 then 0 else con
      x.planes.getD pos 0 < sentOf k (k.cons.getD con 0) → pos < x.planes.length →
      (∀ i y, i < blk → con ∈ blockCons r.cmd k i → r.blocks[i]? = some y → y.flag ≠ 0 ∨ x.planes.getD pos 0 < y.planes.getD pos 0) →
      r.paused = false →
      (areaFailure s r k blk x = none → ∃ t r' y, exec (.glazePlaneReceive e id blk con) s = .next t ∧ findGlz t e id = some r' ∧ r'.blocks[blk]? = some y
        ∧ y.planes.getD pos 0 = x.planes.getD pos 0 + 1)
      ∧ (∀ err, areaFailure s r k blk x = some err → ∃ t r', exec (.glazePlaneReceive e id blk con) s = .next t ∧ t.mem = s.mem
        ∧ findGlz t e id = some r' ∧ r'.aborted = true ∧ r'.err = err ∧ r'.detail = blk ∧ r'.cmd = r.cmd))
    ∧ (∀ id r k, findGlz s e id = some r → collOf s r.cmd.seq = some k → r.cancelling ≠ [] → r.matched = true → r.aborted = false →
      ∃ t r', exec (.glazeCancelAck e id) s = .next t ∧ findGlz t e id = some r' ∧ r'.cancelling = [] ∧ r'.cancelled = true
        ∧ ∀ b ∈ r.cancelling, ∀ x, r.blocks[b]? = some x → x.flag = 0 → ∃ y, r'.blocks[b]? = some y ∧ y.flag = 0x40 ∧ y.planes = x.planes)
    ∧ (∀ id r, findGlz s e id = some r → r.aborted = true →
      ∃ t, exec (.glazeAbort e id) s = .next t ∧ glzRunOf t r.cmd.seq = none
        ∧ TokenEnds r.cmd.who (glzTok r.cmd.par) true (glzStatus r.cmd e.eng r.err r.detail r.cancelled true) s t)
    ∧ (∀ id r k, findGlz s e id = some r → collOf s r.cmd.seq = some k → r.matched = true → r.aborted = false → r.cancelling = [] →
      (∀ b ∈ r.blocks, b.flag ≠ 0) → (r.cmd.kind.contributes = true → sentAll s k r.cmd = true) →
      ∃ t, exec (.glazeComplete e id) s = .next t ∧ glzRunOf t r.cmd.seq = none
        ∧ TokenEnds r.cmd.who (glzTok r.cmd.par) (decide (r.err ≠ 0) || r.blocks.any (·.poisoned)) (glzStatus r.cmd e.eng r.err r.detail r.cancelled false) s t)

/-- R334, R337 to R342: a retouch command translates its tile and runs, or fails at its start; a row is captured, verified and committed
with its old contents served until then; an iteration that does not verify is followed by the next, the last one by a spare row or error
0x11; the command's end is logged. Until cycle s + 7 each granule of a row's source may be read again as memory then has it: in which of
these cycles it is read last is a free choice of the model (DEDUCED, log entry 67). -/
def Obligations.RetouchEvents : Prop :=
  ∀ (s : State) (e : DieEng), e.wfN 4 = true → let m := getRtc s e
    (∀ c, m.run = none → m.queue.find? (fun c => mayStart s c.who) = some c → c.entered + 2 ≤ nominal s → m.nextStart ≤ nominal s →
      (∀ f, rtcCheck s e c = .ok f → ∃ t r, exec (.retouchCommandStart e) s = .next t ∧ { t with rtc := s.rtc } = s ∧ (getRtc t e).run = some r
        ∧ r.cmd = c ∧ r.tile = f ∧ r.row = rtcFirst c ∧ r.next = c.done ∧ r.cur = none ∧ (getRtc t e).queue = m.queue.filter fun x => x.seq != c.seq)
      ∧ (∀ k d, rtcCheck s e c = .error (k, d) → k ≠ 0 → ∃ t, exec (.retouchCommandStart e) s = .next t ∧ (getRtc t e).run = none
        ∧ t.log.length = s.log.length + 1 ∧ TokenEnds c.who (rtcTok c) true (rtcStatus c e.eng k d false) s t))
    ∧ (∀ r, m.run = some r → r.cur = none → r.finish = none → r.cancelled = false → mayStart s r.cmd.who = true → r.start ≤ nominal s →
      let row := r.tile / 64 + (r.row + r.next)
      rowHeld s e (r.tile / 64 + r.row + r.next) = false → rtcFmt r.cmd = 0 → s.past = [] →
      ∃ t r' u, exec (.retouchRowStart e) s = .next t ∧ t.fresco = s.fresco ∧ t.mem = s.mem ∧ (getRtc t e).run = some r' ∧ r'.cur = some u ∧ u.row = row
        ∧ u.start = nominal s ∧ u.target = servingRow s row ∧ u.iter = 0
        ∧ u.src = Memory.gets s.mem (physSpad r.cmd.who.clId (rtcSrc r.cmd + 64 * r.next)) 64)
    ∧ (∀ n0 r u, rtcFmt r.cmd = 0 → s.past = [] → u.seen.length = 64 → n0 ≤ u.start + 7 → nominal s < u.start + 7 →
      let at0 := physSpad r.cmd.who.clId (rtcSrc r.cmd + 64 * r.next)
      ∃ r' u', (getRtc (captureTick n0 e r u s) e).run = some r' ∧ r'.cur = some u' ∧ (captureTick n0 e r u s).mem = s.mem ∧ ∀ g, g < 4 →
        (∀ i, i < 16 → u'.src.getD (16 * g + i) 0 = Memory.get s.mem (at0 + 16 * g + i))
        ∨ ∀ i, i < 16 → u'.src.getD (16 * g + i) 0 = (u.seen.getD (16 * g + i) (0, false)).1)
    ∧ (∀ r u, m.run = some r → r.cur = some u →
      let c := u.start + 8 + 256 * iterations r u
      (c < nominal s → u.src.length = 64 → Memory.wf s.fresco = true → ∃ t r', exec (.writeAndCheckLoop e true) s = .next t ∧ (getRtc t e).run = some r'
        ∧ r'.cur = none ∧ r'.next = r.next + 1 ∧ r'.committed = r.committed + 1 ∧ Memory.gets t.fresco (64 * u.row) 64 = u.src
        ∧ (∀ a, (a < 64 * u.row ∨ 64 * u.row + 64 ≤ a) → Memory.get t.fresco a = Memory.get s.fresco a)
        ∧ wearOf t u.target = min 0xFFFFFF (wearOf s u.target + 1))
      ∧ (c ≤ nominal s → u.iter + 1 < rtcLimit r.cmd → ∃ t r', exec (.writeAndCheckLoop e false) s = .next t ∧ (getRtc t e).run = some r'
        ∧ r'.cur = some { u with iter := u.iter + 1 } ∧ t.fresco = s.fresco)
      ∧ (c ≤ nominal s → rtcLimit r.cmd ≤ u.iter + 1 → (u.tookSpare = true ∨ freeSpare s (bankOf u.row) = none) →
        ∃ t r', exec (.writeAndCheckLoop e false) s = .next t ∧ (getRtc t e).run = some r' ∧ r'.cur = none ∧ r'.err = 0x11 ∧ r'.detail = r.next
          ∧ r'.lastIter = iterations r u ∧ t.fresco = s.fresco ∧ wearOf t u.target = min 0xFFFFFF (wearOf s u.target + 1))
      ∧ (∀ k, c ≤ nominal s → rtcLimit r.cmd ≤ u.iter + 1 → u.tookSpare = false → freeSpare s (bankOf u.row) = some k →
        ∃ t r', exec (.writeAndCheckLoop e false) s = .next t ∧ (getRtc t e).run = some r' ∧ t.fresco = s.fresco
          ∧ r'.cur = some { u with target := .spare (bankOf u.row) k, tookSpare := true, iter := 0, failed := u.failed + 1 }))
    ∧ (∀ r f, m.run = some r → r.finish = some f → f ≤ nominal s → ∃ t x, exec (.twrtComplete e) s = .next t ∧ (getRtc t e).run = none
      ∧ t.log = s.log ++ [x] ∧ x.kind = 2
      ∧ TokenEnds r.cmd.who (rtcTok r.cmd) (decide (r.err ≠ 0)) (rtcStatus r.cmd e.eng r.err
          (if r.err = 0 then r.remapped % 2 ^ 16 * 2 ^ 16 + r.maxIter % 256 * 2 ^ 8 else r.detail) r.cancelled) s t)
    ∧ (∀ die n, Config.hasDie die = true → 1000 ≤ n → n ≤ 16777215 → die < s.dies.length →
      ∃ t, exec (.wearLimitSet die n) s = .next t ∧ (getDie t die).wearLimit = n ∧ { t with dies := s.dies } = s)

/-! ## Nodes, partitions, faults, links, sessions -/

/-- R121, R284, R286, R289 to R293: the states a node passes. -/
def Obligations.NodeEvents : Prop :=
  ∀ (s : State) (n : Nat) (d : Node), getNode s n = some d →
    (d.st = .armed → ∀ w, inputWord s d = some w → phaseAt s w = d.expected → ∃ t, exec (.nodeReady n) s = .next t ∧ NodeIs t n fun x =>
      x.st = .ready ∧ x.attempts = 1 ∧ x.reason = 0 ∧ x.exitSt = 0 ∧ x.firings = d.firings ∧ x.record = d.record)
    ∧ (actable s n d = true → isNext s n d = true →
      (∀ cs h, decideNode s n d = some (.place cs h) → ∃ t, exec (.placement n) s = .next t
        ∧ NodeIs t n (fun x => x.st = .placed ∧ x.clusters = cs) ∧ ∀ c ∈ cs, (getCl t c).node = some n ∧ (getCl t c).world = nodeWorld d)
      ∧ (∀ ns ms, decideNode s n d = some (.stopFor ns ms) → ∃ t, exec (.placement n) s = .next t
        ∧ ∀ k ∈ ns, ∀ q, getNode s k = some q → q.st = .running → q.stop = .no → NodeIs t k fun x => x.st = .running ∧ x.stop = .preempt))
    ∧ (d.st = .placed → d.saved = none → d.clusters.all (clusterAwake s) = true → s.viral = false →
      (nodeImage s d = none → ∃ t, exec (.nodeStart n) s = .next t ∧ NodeIs t n fun x => x.st = .failed ∧ x.reason = 5)
      ∧ (∀ im gs tbl pal, nodeImage s d = some (im, gs, tbl) → hitsResident s d gs = false → nodePalettes s d = some pal → ∃ t,
        exec (.nodeStart n) s = .next t ∧ NodeIs t n (fun x => x.st = .running ∧ x.palettes = pal)
        ∧ (d.clusters.Nodup → ∀ i c core k pc, d.clusters[i]? = some c → core < 4 → k < 4 → entryOf tbl i core k = some pc → nodeLockstep d = false →
          (getCtx t ⟨c.die, c.cl, core, k⟩).run = .runnable ∧ (getCtx t ⟨c.die, c.cl, core, k⟩).pc = pc
          ∧ (getCtx t ⟨c.die, c.cl, core, k⟩).node = some n ∧ (getCtx t ⟨c.die, c.cl, core, k⟩).bclk = 0)))
    ∧ (d.st = .running → d.saved = none → d.stop = .no → allRetired s n = true → hasCommands (nodeCtx s n) s = false → s.viral = false →
      ∃ t, exec (.nodeCommit n) s = .next t ∧ NodeIs t n fun x => x.firings = (d.firings + 1) % 256
        ∧ ((x.st = .armed ∧ x.expected = !d.expected) ∨ (x.st = .failed ∧ x.reason = 4)))
    ∧ (d.st = .running → d.stop = .exit → hasCommands (nodeCtx s n) s = false →
      ∃ t, exec (.nodeFail n) s = .next t ∧ NodeIs t n fun x => x.st = .failed ∧ x.reason = 1 ∧ x.clusters = [])
    ∧ (d.st = .killed → hasCommands (nodeCtx s n) s = false → ∃ t, exec (.killedNodeRelease n) s = .next t ∧ NodeIs t n fun x =>
      match killVerdict s d with
      | some r => x.st = .failed ∧ x.reason = r
      | none => x.st = .ready ∧ x.attempts = d.attempts + 1)
    ∧ (∀ part addr count rs, part < 64 → (assoc part s.parts).isSome → 1 ≤ count → count ≤ 4096 → addr % 64 = 0 → allRecords s part addr count = some rs →
      (∀ q ∈ s.nodes, q.part ≠ part ∨ q.graph ≠ addr) → ∃ t, exec (.graphRegistration part addr count) s = .next t
        ∧ ∀ i, i < count → ∃ k, findNode t part addr i = some k ∧ NodeIs t k fun x => x.st = .armed ∨ (x.st = .failed ∧ x.reason = 4))
    ∧ (d.part < 64 → d.st ≠ .dormant → (∀ q ∈ s.nodes, q.part = d.part → q.graph = d.graph → q.st ≠ .dormant →
        q.saved = none ∧ (q.st = .armed ∨ q.st = .ready ∨ q.st = .failed)) →
      ∃ t, exec (.graphUnregistration d.part d.graph) s = .next t ∧ ∀ q ∈ t.nodes, q.part = d.part → q.graph = d.graph → q.st = .dormant)

/-- R292, R311 to R316, R325, R326 and R388: a node told to stop gives its commands up to its image, is swapped out and leaves its clusters
free, is accessed in its image, and is restored or, where an image does not open or has another revision, killed; islands wake and are
gated. That a cluster's memory stands for its part of the image until another node takes the cluster is the model's choice (DESIGN CHOICE,
log entry 78), as is that a restore takes registers, pc and spill window from the node's saved contexts, which the image also holds (DESIGN
CHOICE, log entry 29); that palettes are read again (DEDUCED, log entry 166) and that a gate drains all but resident areas (DEDUCED, log
entry 131) is its reading. -/
def Obligations.SaveEvents : Prop :=
  (∀ (s : State) (n : Nat) (d : Node), getNode s n = some d →
    (d.st = .running → d.stop = .preempt → d.saved = none → quiesced s n = true → ∃ t, exec (.quiesceComplete n) s = .next t
      ∧ NodeIs t n (fun x => x.saved.isSome ∧ x.clusters = d.clusters) ∧ t.mem = s.mem ∧ t.ctxs = s.ctxs
      ∧ ∀ y ∈ t.cpy, (∀ q ∈ y.2.queue, nodeOf s q.who ≠ some n) ∧ ∀ r ∈ y.2.runs, nodeOf s r.cmd.who ≠ some n)
    ∧ (d.st = .running → ∀ v, d.saved = some v → ∃ t, exec (.swapSaveComplete n) s = .next t
      ∧ NodeIs t n (fun x => x.st = .ready ∧ x.clusters = [] ∧ x.stop = .no ∧ ∃ y, x.saved = some y ∧ y.homes = v.homes ∧ y.engs = v.engs
        ∧ y.copies = v.copies ∧ ∀ w c, (w, c) ∈ s.ctxs → c.node = some n → (parkWho n d.clusters w, savedCtx (clk s w.clId) c) ∈ y.ctxs)
      ∧ ∀ c ∈ d.clusters, (getCl s c).node = some n → (getCl t c).node = none ∧ (getCl t c).keeps = some n)
    ∧ (d.st = .placed → ∀ v, d.saved = some v → v.handoffOnly = false → d.clusters.all (clusterAwake s) = true → s.viral = false →
      (∀ im gs tbl pal, placement s d = .ok (im, gs, tbl, pal) →
        (∀ s0, openSaved n d (reclaim n v s) = .ok s0 → ∃ t, exec (.restoreComplete n) s = .next t
          ∧ NodeIs t n (fun x => x.st = .running ∧ x.saved = none ∧ x.palettes = pal)
          ∧ ∀ w c, v.ctxs = [(w, c)] → let y := getCtx t (unparkWho n d.clusters w)
            y.stopped = false ∧ y.g = c.g ∧ y.v = c.v ∧ y.pc = c.pc ∧ y.bclk = c.bclk ∧ y.spill = c.spill)
        ∧ (∀ tag, openSaved n d (reclaim n v s) = .error tag → ∃ t, exec (.restoreComplete n) s = .next t ∧ NodeIs t n fun x => x.st = .killed))
      ∧ (∀ r, placement s d = .error r → r ∈ [5, 7, 8] ∧ ∃ t, exec (.restoreComplete n) s = .next t
        ∧ NodeIs t n fun x => x.st = .failed ∧ x.reason = r))
    ∧ (d.st = .ready → ∀ v, d.saved = some v → (∀ who a data, savedFits s v (.plain who (.write a data)) = true → (∀ q, who = .host q → portOpen s q = true) →
      (assoc (a / 0x400000) v.sealed = none → Memory.wf s.mem = true →
        let at0 := savedPhys s n v (a / 0x400000) (a % 0x400000)
        let base := imageAt v (a / 0x400000)
        ∃ t, exec (.savedNodeAccess n (.plain who (.write a data))) s = .next t ∧ t.seq = s.seq + 1 ∧ t.nodes = s.nodes
          ∧ (∀ i, i < data.length → Memory.get t.mem (at0 + i) = data.getD i 0)
          ∧ ∀ b, (b < at0 ∨ at0 + data.length ≤ b) → (b < base + 0x400000 ∨ base + 0x410000 ≤ b) → Memory.get t.mem b = Memory.get s.mem b)
      ∧ (openImage n (a / 0x400000) s = none → ∃ t, exec (.savedNodeAccess n (.plain who (.write a data))) s = .next t
          ∧ NodeIs t n fun x => x.st = .killed))
      ∧ ∀ a k, savedFits s v (.plain .other (.read a k)) = true → assoc (a / 0x400000) v.sealed = none →
        let bytes := memBytes s (savedPhys s n v (a / 0x400000) (a % 0x400000)) k
        (∀ port, portOpen s port = true → (∀ x ∈ s.hostReads, x.node ≠ some n) →
          let q := askBucket d.part (18 + port) ⟨s.seq + 1, outside, k, false, [], true, false⟩ (bumpSeq s)
          ∃ t, exec (.savedNodeAccess n (.plain (.host port) (.read a k))) s = .next t ∧ t.mem = s.mem ∧ t.nodes = s.nodes
            ∧ t.hostReads = s.hostReads ++ (if q.1 then [] else [⟨s.seq + 1, some n, d.part, .read a k, port⟩])
            ∧ (getHost t port).replies = (getHost s port).replies ++ (if q.1 then [.bytes a bytes] else []))
        ∧ ∀ w e signed l x p, l ∈ (getCtx s w).landing → l.id = e → l.arrived = false → l.data = .value (.sc x) p →
          ∃ t y, exec (.savedNodeAccess n (.plain (.load w e signed) (.read a k))) s = .next t ∧ t.mem = s.mem ∧ t.nodes = s.nodes
            ∧ y.v = extendBytes signed bytes ∧ { l with data := .value (.sc y) p } ∈ (getCtx t w).landing)
    ∧ (d.part < 64 → d.st = .running → d.stop = .no → ∃ t, exec (.partitionSwap d.part) s = .next t ∧ NodeIs t n fun x => x.stop = .preempt))
  ∧ ∀ (s : State) (die isl : Nat), Config.hasIsland die isl = true → let x := getIsland s die isl
    (x.gated = true → x.waking = true → exec (.islandWake die isl) s = .next (setIsland die isl { x with gated := false, waking := false } s))
    ∧ (x.gated = false → (∀ c ∈ islandClusters die isl, (getCl s c).node = none ∧ (getCl s c).heldFor = none ∧ (getCl s c).freeSince + 1800000 ≤ s.cycle) →
      ∃ t, exec (.islandGate die isl) s = .next t ∧ getIsland t die isl = { x with gated := true, waking := false }
        ∧ ∀ c ∈ islandClusters die isl, (getCl t c).image = none ∧ (getCl t c).key = [] ∧ (getCl t c).tags = [] ∧ (getCl t c).node = none)

/-- R288, R306 to R309 and R362: what the partition manager writes into tables and maps, and when a range or a page is free. A change that
would map a table, or reuse a frame that a shootdown in progress has not freed (`remapOk`, `rangeHeld`), or that changes a page outside its
range (`changesWithin`), is not made. The sealing and nonces of a session's replies are the model's choice (DESIGN CHOICE, log entry 102).
What a shootdown waits for and which frames are free (DEDUCED, log entry 135) and that every segment of an image must fit its memory
(DEDUCED, log entry 82) is the model's reading. -/
def Obligations.TranslationEvents : Prop :=
  ∀ (s : State) (p : Nat), p < 64 →
    (∀ world lo hi a v, partExists s p = true → lo < hi → isLpddr a = true → a % 8 = 0 → physOk a = true → meetsRegion s a 8 = false →
      let u := beginShoot p world lo hi [(a, v)] s (writeEntries p world lo hi [(a, v)] s)
      (remapOk s u = true → changesWithin p world lo hi s u = true → ∃ t k, exec (.shootdown p world lo hi [(a, v)]) s = .next t
        ∧ k ∈ t.shoots ∧ k.part = p ∧ k.world = world ∧ k.lo = lo ∧ k.hi = hi ∧ k.began = s.cycle ∧ k.stamp = s.stamp + 1
        ∧ (s.nodes = [] → Memory.wf s.mem = true → memDword t a = v.toNat))
      ∧ ((remapOk s u = false ∨ changesWithin p world lo hi s u = false) → exec (.shootdown p world lo hi [(a, v)]) s = .next s))
    ∧ (∀ k x, s.shoots[k]? = some x →
      (shootHolders s x = [] → exec (.shootdownComplete k) s = .next { s with shoots := s.shoots.eraseIdx k })
      ∧ (x.began + 180000 ≤ s.cycle → shootHolders s x ≠ [] → ∃ t, exec (.shootdownTimeout k) s = .next t
        ∧ ∀ w ∈ shootHolders s x, ∀ n d, nodeOf s w = some n → getNode s n = some d → d.st = .running → d.stop = .no →
          NodeIs t n fun y => y.stop = .preempt))
    ∧ (∀ world vtile entry, partExists s p = true → vtile < 2 ^ 24 →
      (bit entry.toNat 0 = true → frescoOwned (getPart s p) world (bits entry.toNat 39 16) = true) →
      ∃ t, exec (.frescoMapChange p world vtile entry) s = .next t ∧ assoc (world, vtile) (getPart t p).fmap = some (BitVec.ofNat 64 (entry.toNat &&& 0xFFFFFF0007)) ∧ { t with parts := s.parts } = s)
    ∧ (sessionOk s p = true →
      (partExists s p = false → ∃ t, exec (.partitionChange (.create p)) s = .next t ∧ partExists t p = true ∧ t.mem = s.mem)
      ∧ (∀ world root, partExists s p = true → isLpddr root = true → root % 0x100000 = 0 → physOk root = true →
        (remapOk s (newRoot p world root s) = true → ∃ t k, exec (.partitionChange (.tables p world root)) s = .next t
          ∧ assoc world (getPart t p).roots = some root ∧ k ∈ t.shoots ∧ k.part = p ∧ k.world = world ∧ k.lo = 0 ∧ k.hi = 2 ^ 56)
        ∧ (remapOk s (newRoot p world root s) = false → exec (.partitionChange (.tables p world root)) s = .next (hear p s)))
      ∧ (∀ c, (getPart s p).clusters.any (fun x => x.1 == c) = true → clusterIdle s c = true → c.wf = true → (getCl s c).resident = 0 → Memory.wf s.mem = true →
        (rangeHeld s (physSpad c 0) 0x300000 = false → rangeHeld s (physAcc c 0) 0x100000 = false →
          ∃ t, exec (.partitionChange (.dropCluster p c)) s = .next t ∧ (getCl t c).part = none
            ∧ ∀ a, a < 0x300000 → Memory.get t.mem (physSpad c a) = 0)
        ∧ (rangeHeld s (physSpad c 0) 0x300000 = true → exec (.partitionChange (.dropCluster p c)) s = .next (hear p s)))
      ∧ (∀ bytes key x, partExists s p = true → assoc p s.sessions = some x → x.port < s.hosts.length →
        (imageOk bytes key = true → ∃ t im, exec (.imageLoadRequest p bytes key) s = .next t ∧ im ∈ (getPart t p).images
          ∧ im.id = (getPart s p).nextImage ∧ im.bytes = bytes ∧ im.key = key ∧ (getPart t p).nextImage = (getPart s p).nextImage + 1
          ∧ (getHost t x.port).replies = (getHost s x.port).replies ++ [secure p x (.imageId (getPart s p).nextImage)])
        ∧ (imageOk bytes key = false → ∃ t, exec (.imageLoadRequest p bytes key) s = .next t ∧ (getPart t p).images = (getPart s p).images
          ∧ (getHost t x.port).replies = (getHost s x.port).replies ++ [secure p x .imageRejected]))
      ∧ (∀ id, (getPart s p).images.any (fun i => i.id == id) = true → ∃ t, exec (.imageRemoval p id) s = .next t
        ∧ ∀ i ∈ (getPart t p).images, i.id ≠ id))
    ∧ (∀ k frame r, s.retires[k]? = some r → r.maps = [] → isLpddr frame = true → frame % 0x10000 = 0 → frame ≠ r.frame → frame ∉ s.retiredFrames →
      sameRegion s r.frame frame = true → mappingsOf s frame = [] → rangeHeld s frame 0x10000 = false → Memory.wf s.mem = true →
      r.frame % 0x10000 = 0 → retireHolders s r = [] →
      ∃ t, exec (.pageRetirementComplete k frame) s = .next t ∧ r.frame ∈ t.retiredFrames
        ∧ ∀ i, i < 0x10000 → Memory.get t.mem (frame + i) = Memory.get s.mem (r.frame + i))

/-- R354 to R361, R366, R368, R370: marks of failed sectors and cells, the node an error kills, and what a fatal error stops. That the event
of a dirty sector says whether it met the ordinary or a staged one (DEDUCED, log entry 87) and that the sector of an owner whose state R361
does not list is marked (DEDUCED, log entry 88) is the model's reading; that a record of corrected errors also counts those that its own
event names is the model's choice (DESIGN CHOICE, log entry 132). -/
def Obligations.FaultEvents : Prop :=
  ∀ (s : State),
    (∀ a, isLpddr a = true → physOk a = true → let sec := a / 64 * 64
      (¬ (assoc sec s.dirty = none ∧ markOf s sec = some .integrity) → exec (.lpddrSectorRead a .good) s = .next s)
      ∧ (assoc sec s.dirty = none → markOf s sec = some .integrity → ∃ t, exec (.lpddrSectorRead a .good) s = .next t ∧ markOf t sec = none ∧ t.mem = s.mem)
      ∧ (assoc sec s.dirty = none → markOf s sec = none → ∃ t u, exec (.lpddrSectorRead a .media) s = .next t ∧ markOf t sec = some .media ∧ t.mem = s.mem
        ∧ exec (.lpddrSectorRead a .integrity) s = .next u ∧ markOf u sec = some .integrity ∧ u.log.length = s.log.length + 1)
      ∧ (∀ b, assoc sec s.dirty = some (.host, b) → ∃ t, exec (.uncorrectableDirtySector a none) s = .next t ∧ markOf t sec = some .poison)
      ∧ (∀ k part graph idx x b, assoc sec s.dirty = some (.node k part graph idx x, b) →
        (killable s k = true → ∃ t, exec (.uncorrectableDirtySector a none) s = .next t ∧ NodeIs t k fun x => x.st = .killed)
        ∧ (killable s k = false → ∃ t, exec (.uncorrectableDirtySector a none) s = .next t ∧ markOf t sec = some .poison))
      ∧ (∀ k v pa, ((k, pa), v) ∈ s.overlay → pa / 64 * 64 = sec → killable s k = true →
        ∃ t, exec (.uncorrectableDirtySector a (some k)) s = .next t ∧ NodeIs t k fun x => x.st = .killed))
    ∧ (∀ a, isSpad a = true → physOk a = true → ∃ t, exec (.sramUncorrectable (.granule a)) s = .next t ∧ markOf t a = some .media ∧ t.mem = s.mem)
    ∧ (∀ row, row < 2 ^ 32 → row ∉ s.frescoBad → exec (.sramUncorrectable (.fresco row)) s = .next { s with frescoBad := row :: s.frescoBad })
    ∧ (∀ c n, nodeOf s c = some n → killable s n = true → ∃ t, exec (.sramUncorrectable (.core c)) s = .next t ∧ NodeIs t n fun x => x.st = .killed)
    ∧ (∀ (c : CtxId) h n, c.wf = true → lockstepNode s c.coreId = some n → ∃ t, exec (.lockstepMismatch c h) s = .next t ∧ NodeIs t n fun x => x.st = .killed)
    ∧ (∀ die src more, let k := (assoc src (getDie s die).corrected).getD 0 + more
      Config.hasDie die = true → die < s.dies.length → src ≤ 9 → k ≠ 0 → (getDie s die).ring = [] →
      ∃ t r, exec (.correctedErrorRecord die ⟨src, more⟩) s = .next t ∧ (getDie t die).ring = [r] ∧ bits (param r 0) 23 16 = 1
        ∧ bits (param r 0) 31 24 = src ∧ bits (param r 2) 47 16 = k % 2 ^ 32 ∧ assoc src (getDie t die).corrected = none)
    ∧ (∀ die src addr ecc loc, Config.hasDie die = true → s.viral = false → ∃ t r, exec (.viral die ⟨src, addr, ecc, loc⟩) s = .next t ∧ t.viral = true
      ∧ t.retained = some (die, r) ∧ param r 5 = loc.toNat ∧ t.mem = s.mem ∧ (∀ h ∈ t.hosts, h.blocked = true)
      ∧ (∀ k, k < 18 → k < s.ports.length → (getPort18 s k).st = .up → (getPort18 t k).sentViral = true ∧ (getPort18 t k).tx = (getPort18 s k).tx + 1) ∧ ∀ c, awake t c (getCtx t c) = false)

/-- R349, R352 and R375: a package reset keeps the fresco tier and the log and starts the dies whose firmware verifies; the scan of a die;
an install maps its slots once every row is programmed, and otherwise leaves them unmapped. What a reset keeps (DEDUCED, log entry 98), that
an install unmaps first and maps last (DEDUCED, log entry 99) and that a die starts whose firmware equals die 0's (DEDUCED, log entry 101)
is the model's reading. -/
def Obligations.StartUpEvents : Prop :=
  ∀ (s : State),
    (∀ fw, ∃ t, exec (.packageReset fw) s = .next t ∧ t.cycle = 0 ∧ t.viral = false ∧ t.ctxs = [] ∧ t.fresco = s.fresco ∧ t.wear = s.wear ∧ t.remap = s.remap
      ∧ s.log <+: t.log ∧ t.mem = State.reset.mem
      ∧ ∀ d, d < 8 → (getDie t d).started = (Config.mldsaVerify (Config.secret 0) (fw.getD d []) && (fw.getD d [] == fw.getD 0 [])))
    ∧ (∀ die bad, Config.hasDie die = true → (getDie s die).started = true → (getDie s die).scanned = false → die < s.dies.length →
      (∀ r ∈ bad, r / 2 ^ 29 = die) → ∃ t, exec (.frescoScan die bad []) s = .next t ∧ (getDie t die).scanned = true ∧ t.fresco = s.fresco
        ∧ ∀ r ∈ bad, r ∈ t.frescoBad)
    ∧ (∀ p world image slot aid, p < 64 → partExists s p = true → sessionOk s p = true → let im := memBytes s image (installBytes 1)
      installPlace s p image (installBytes 1) = true → installOk s p world im [slot] = true →
      let y := if sectorsFail s image 0x630 then (false, unmapSlots p [slot] s) else installTiles image im aid [(slot, 0)] (unmapSlots p [slot] s)
      ∃ t, exec (.installRequest p world image [slot] aid) s = .next t ∧ t.log.length = s.log.length + 1
        ∧ (y.1 = true → assoc (world, installTile im 0) (getPart t p).fmap = some (BitVec.ofNat 64 (slot * 2 ^ 16 + (if world then 2 else 0) + 1)))
        ∧ (y.1 = false → ∀ x ∈ (getPart t p).fmap, bits x.2.toNat 39 16 ≠ slot))

/-- R371 to R373, R379 and R386: the events of a Chrolin port. A flit whose tag fails at the counter nearest the expected one is answered
with a negative acknowledgement, whatever its counter bits say. That a flit out of counter order is dropped without an answer (DEDUCED, log
entry 94), which flits end a resynchronisation and what keeps its counters (DEDUCED, log entry 95), the decoded parts and messages of a flit
(DESIGN CHOICE, log entry 96) and that a peer session starts from down or training (DEDUCED, log entry 97) is the model's choice. -/
def Obligations.LinkEvents : Prop :=
  ∀ (s : State) (k : Nat), Config.hasPort k = true → k < s.ports.length → let p := getPort18 s k
    let fences : Instr → Prop := fun i => ∃ t, exec i s = .next t ∧ (getPort18 t k).st = .fenced ∧ (getPort18 t k).fences = p.fences + 1
      ∧ t.log.length = s.log.length + 1
    (p.st = .up →
      fences (.viralFlitReceived k)
      ∧ (p.heard + 1800000 ≤ s.cycle → fences (.linkSilenceTimeout k))
      ∧ (∀ c, p.resyncing = some c → c + 180000 ≤ s.cycle → fences (.resyncTimeout k))
      ∧ (∀ f : Flit, s.viral = false → flitCounter f.bytes = p.rx % 2 ^ 16 →
        (∀ d, openFlit p p.rxKey p.rx f.bytes = some d → p.resyncing = none →
          (flitKind f.bytes = 0 → f.delivers = none → f.nackOf = none → ∃ t, exec (.flitReceive k f) s = .next t ∧ { t with ports := s.ports } = s
            ∧ (getPort18 t k).rx = p.rx + 1 ∧ (getPort18 t k).inbox = p.inbox ++ [d] ∧ (getPort18 t k).heard = s.cycle
            ∧ (getPort18 t k).replay = p.replay.filter (fun x => decide (f.ackUpto ≤ x.1)))
          ∧ (∀ m, flitKind f.bytes = 0 → f.delivers = some m → ∃ u, exec (.flitReceive k f) s = .next (takeMessage k p.peer u m)
            ∧ { u with ports := s.ports } = s ∧ (getPort18 u k).rx = p.rx + 1 ∧ (getPort18 u k).inbox = p.inbox)
          ∧ (flitKind f.bytes = 3 → f.delivers = none → ∃ t, exec (.flitReceive k f) s = .next t ∧ { t with ports := s.ports } = s
            ∧ (getPort18 t k).rx = p.rx + 1 ∧ (getPort18 t k).rxKey = Config.nextKey p.rxKey)
          ∧ (flitKind f.bytes = 3 → f.delivers = some .resync → ∃ t, exec (.flitReceive k f) s = .next t
            ∧ (getPort18 t k).rx = 0 ∧ (getPort18 t k).resyncs = p.resyncs + 1 ∧ (getPort18 t k).rxKey = Config.nextKey p.rxKey)
          ∧ (flitKind f.bytes = 4 → ∃ t, exec (.flitReceive k f) s = .next t ∧ (getPort18 t k).st = .fenced))
        ∧ (∀ d, openFlit p p.rxKey p.rx f.bytes = some d → p.resyncing.isSome = true → flitKind f.bytes = 3 →
          ∃ t, exec (.flitReceive k f) s = .next t ∧ (getPort18 t k).resyncing = none ∧ (getPort18 t k).rx = 0
            ∧ (getPort18 t k).tx = (p.replay.filter fun x => flitKind x.2 != 3).length ∧ (getPort18 t k).resyncs = p.resyncs + 1 ∧ (getPort18 t k).rxKey = Config.nextKey p.rxKey))
      ∧ (∀ f : Flit, s.viral = false →
        (openFlit p p.rxKey (nearCounter p.rx (flitCounter f.bytes)) f.bytes = none → p.resyncing = none →
          (p.fails < 2 → ∃ t, exec (.flitReceive k f) s = .next t ∧ (getPort18 t k).rx = p.rx ∧ (getPort18 t k).fails = p.fails + 1
            ∧ (getPort18 t k).inbox = p.inbox ∧ (getPort18 t k).tx = p.tx + 1)
          ∧ (2 ≤ p.fails → ∃ t, exec (.flitReceive k f) s = .next t ∧ (getPort18 t k).resyncing = some s.cycle ∧ (getPort18 t k).tx = p.tx + 2))
        ∧ (∀ d, flitCounter f.bytes ≠ p.rx % 2 ^ 16 → openFlit p p.rxKey (nearCounter p.rx (flitCounter f.bytes)) f.bytes = some d →
          exec (.flitReceive k f) s = .next s))
      ∧ (p.resyncing = none → s.viral = false →
        (∀ n, (∃ x ∈ p.resend, x.1 ≤ n) → ∃ t, exec (.flitResend k n) s = .next t ∧ { t with ports := s.ports } = s
          ∧ (getPort18 t k).resend = p.resend.filter (fun x => decide (n < x.1)) ∧ (getPort18 t k).replay = p.replay)
        ∧ (p.sent + 1800 ≤ s.cycle → p.replay.length < 1024 → ∃ t, exec (.keepalive k) s = .next t ∧ { t with ports := s.ports } = s
          ∧ (getPort18 t k).tx = p.tx + 1 ∧ (getPort18 t k).sent = s.cycle
          ∧ (getPort18 t k).replay = p.replay ++ [(p.tx, sealFlit p 2 p.tx false [])])
        ∧ (2 ^ 32 ≤ p.sinceKey → p.replay.length < 1024 → ∃ t, exec (.routineKeyUpdate k) s = .next t ∧ { t with ports := s.ports } = s
          ∧ (getPort18 t k).keyEpoch = p.keyEpoch + 1 ∧ (getPort18 t k).txKey = Config.nextKey p.txKey ∧ (getPort18 t k).tx = p.tx + 1
          ∧ (getPort18 t k).sinceKey = 0 ∧ (getPort18 t k).oldKey = p.txKey ∧ (getPort18 t k).keyFrom = p.tx + 1)))
    ∧ (p.st = .down ∨ p.st = .training → booted s = true → s.viral = false → ∀ (peer : PeerHello) challenge, ∃ t, exec (.peerSession k peer challenge) s = .next t
      ∧ { t with ports := s.ports } = s ∧ (getPort18 t k).st = (if peerGenuine (decide (ownIdentity < identityOf peer.key)) peer challenge
        && peer.accepted && knownPeer s (identityOf peer.key) && identityOf peer.key != ownIdentity then .up else .down))
    ∧ (p.st = .fenced → ∀ part, sessionOk s part = true → ∃ t, exec (.portReset ⟨part, k⟩) s = .next t
      ∧ { t with ports := s.ports, sessions := s.sessions } = s ∧ (getPort18 t k).st = .training)

/-- R376 to R378: the responder answers each supported request through the port it came by, in its last reply; inside a session requests
open and replies are sealed under the session's keys. The nonces, SESSION_REQUIRED, the default grace of 100 ms and the order of requests
(DESIGN CHOICE, log entry 102), that END_SESSION has no grace (DEDUCED, log entry 103) and that a port's IDE key comes from the first
session FINISH establishes there (DESIGN CHOICE, log entry 152) is the model's choice. -/
def Obligations.ResponderEvents : Prop :=
  ∀ (s : State) (k : Nat) (q : SpdmReq), Config.hasHostPort k = true → k < s.hosts.length → answers s k = true → q.unsupported = false →
    let h := getHost s k
    let sends : Instr → Reply → (State → Prop) → Prop := fun i r more => ∃ t, exec i s = .next t ∧ (getHost t k).replies = h.replies ++ [r] ∧ t.mem = s.mem ∧ more t
    sends (.getVersion k) .version (fun t => (getHost t k).negotiated = false)
    ∧ sends (.getCapabilities k q) .capabilities (fun _ => True)
    ∧ sends (.negotiateAlgorithms k q) .algorithms (fun t => (getHost t k).negotiated = true)
    ∧ sends (.getDigests k q) (.digests (Crypto.shake256 Config.certChain 64)) (fun _ => True)
    ∧ (q.slot = 0 → sends (.getCertificate k q) (.certificate Config.certChain) (fun _ => True)
      ∧ ∃ sig, sends (.challenge k q) (.challengeAuth sig) fun t => t.log.length = s.log.length + 1)
    ∧ (∃ sig, sends (.getMeasurements k q) (.measurements (if q.slot = 0xFF then s.measures else s.measures.filter fun m => m.1 == q.slot) sig)
        fun t => t.log.length = s.log.length + 1)
    ∧ (assoc q.part s.sessions = none → q.part < 64 → 1 ≤ q.period → q.period ≤ 60 → q.grace.getD 100 ≤ 10000 →
      q.slot = 0 → ∃ ct, sends (.keyExchange k q) (.keyExchanged ct (Config.mldsaSign (q.data ++ ct))) fun t =>
        (getHost t k).exchange = some (q.part, q.period * 1000000, q.grace.getD 100 * 1000, Config.mlkemShared ct))
    ∧ (∀ part period grace secret, h.exchange = some (part, period, grace, secret) → assoc part s.sessions = none →
      let x : Session := ⟨k, secret, period, grace, 0, 0, 0, s.cycle, none⟩
      sends (.finish k q) (secure part x .finished) fun t => assoc part t.sessions = some { x with sent := 1 }
        ∧ (getHost t k).ide = if h.ide = [] then (Config.sessionKey secret 2).toList else h.ide)
    ∧ (∀ x, s.sessions = [(q.part, x)] → x.port = k → x.losing = none → opens x q = true →
      let y : Session := { x with heard := s.cycle, received := x.received + 1 }
      sends (.heartbeat k q) (secure q.part y .heartbeatAck) (fun t => assoc q.part t.sessions = some { y with sent := x.sent + 1 })
      ∧ sends (.keyUpdate k q) (secure q.part y .keyUpdateAck) (fun t =>
        assoc q.part t.sessions = some { y with key := Config.nextKey x.key, keyEpoch := x.keyEpoch + 1, received := 0, sent := 0 })
      ∧ sends (.endSession k q) (secure q.part y .sessionEnded) (fun t => assoc q.part t.sessions = none))
    ∧ ((∀ x, assoc q.part s.sessions = some x → x.port ≠ k ∨ x.losing ≠ none ∨ opens x q = false) → ∀ i ∈ [Instr.heartbeat k q, Instr.keyUpdate k q, Instr.endSession k q], sends i .sessionRequired fun t => t.sessions = s.sessions)

/-- R378, R380, R381, R384 and R385: loss of a session and the end of its grace, buckets, checkpoints and the log, and the host's accesses:
a write through BAR 2 and a read, which is answered when its port's bucket holds its bytes and waits for them else; a port that is closed
answers nothing (R370, R375). The fields and nonces of a session's messages (DESIGN CHOICE, log entry 102), that the end of grace fires
twice (DEDUCED, log entry 104), how BAR 2 is split (DEDUCED, log entry 105), that the log keeps a free number of entries (DESIGN CHOICE, log
entry 107) and how BAR 0 shows a port (DESIGN CHOICE, log entry 152) is the model's choice. -/
def Obligations.SessionEvents : Prop :=
  ∀ (s : State) (p : Nat), p < 64 →
    (∀ x, assoc p s.sessions = some x → x.losing = none → x.heard + 3600 * x.period ≤ s.cycle → partExists s p = true →
      ∃ t, exec (.heartbeatTimeout p) s = .next t ∧ assoc p t.sessions = some { x with losing := some s.cycle }
        ∧ (getPart t p).noFiring = true ∧ (getPart t p).noEgress = true ∧ t.mem = s.mem)
    ∧ (∀ x c, assoc p s.sessions = some x → x.losing = some c → c + 1800 * x.grace ≤ s.cycle → partExists s p = true →
      (∀ n, liveNodes s p = [n] → ∃ t, exec (.graceExpiry p) s = .next t ∧ NodeIs t n (fun d => d.st = .killed) ∧ (getPart t p).zeroised = true)
      ∧ (liveNodes s p = [] → dyingNodes s p = false → ∃ t, exec (.graceExpiry p) s = .next t ∧ assoc p t.sessions = none
        ∧ (∀ i ∈ (getPart t p).images, i.key = []) ∧ t.log.length = s.log.length + 1
        ∧ (Memory.wf s.mem = true → ∀ r ∈ (getPart s p).regions, r.die < 8 → ∀ a, r.base ≤ a → a < r.base + r.size → a < Config.lpddrBytes →
          Memory.get t.mem (r.die * 2 ^ 48 + a) = 0)))
    ∧ (∀ port rate burst, port < 20 → partExists s p = true → sessionOk s p = true → rate ≤ 262143 → 4096 ≤ burst → burst ≤ 16777216 →
      ∃ t, exec (.bucketConfig p port rate burst) s = .next t ∧ (bucketOf t p port).rate = rate ∧ (bucketOf t p port).burst = burst
        ∧ (bucketOf t p port).level ≤ burst)
    ∧ (∀ port n, port < 20 → partExists s p = true → 0 < n → (bucketOf s p port).upto + n ≤ s.cycle →
      let b := bucketOf s p port
      let grows : Nat → Nat := fun left => min b.burst ((1800 * (b.level - left) + b.frac + b.rate * n) / 1800)
      (b.waiting = [] → ∃ t, exec (.egressBucketRefill p port n) s = .next t ∧ { t with parts := s.parts } = s
        ∧ (bucketOf t p port).level = grows 0 ∧ (bucketOf t p port).upto = b.upto + n)
      ∧ (∀ r, b.waiting = [r] → r.ready = true → r.stays = false → r.store = false → r.bytes ≤ b.level → b.level < b.burst → b.frac < 1800 →
        (getPart s p).noEgress = false → ∃ t, exec (.egressBucketRefill p port n) s = .next t ∧ { t with parts := s.parts } = s
          ∧ (bucketOf t p port).level = grows r.bytes ∧ (bucketOf t p port).waiting = [] ∧ (bucketOf t p port).granted = b.granted ++ [r.id])
      ∧ ((getPart s p).noEgress = true → ∃ t, exec (.egressBucketRefill p port n) s = .next t ∧ (bucketOf t p port).waiting = b.waiting
          ∧ (bucketOf t p port).granted = b.granted))
    ∧ (∀ l e, s.log = l ++ [e] → s.checkpoints = [] → (4096 ≤ e.num + 1 ∨ 1800000000 ≤ s.cycle) → ∃ t k, exec .logCheckpoint s = .next t
      ∧ t.checkpoints = [k] ∧ k.num = e.num ∧ k.made = s.cycle ∧ k.sig = Config.mldsaSign (toBytes 8 e.num ++ e.chain) ∧ t.log = s.log)
    ∧ (∀ x what r, assoc p s.sessions = some x → sessionOk s p = true → x.port < s.hosts.length → sessionReply s p what = some r →
      ∃ t, exec (.logRead p what) s = .next t ∧ (getHost t x.port).replies = (getHost s x.port).replies ++ [secure p x r] ∧ t.log = s.log
        ∧ assoc p t.sessions = some { x with heard := s.cycle, received := x.received + 1, sent := x.sent + 1 })
    ∧ (∀ n e, s.log[n]? = some e → s.log.length ≤ n + Config.logCapacity → ∃ f, sessionReply s p (.entry n) = some (.entry e f))
    ∧ (∀ n, n + Config.logCapacity < s.log.length → ∃ f, sessionReply s p (.entry n) = some (.checkpoint f))
    ∧ sessionReply s p .faults = some (.faults (getPart s p).ring)
    ∧ (∀ a data port part at0, windowPhys s a data.length = some (port, part, at0) → portOpen s port = true →
      Memory.wf s.mem = true → ∃ t, exec (.hostAccess (.write a data)) s = .next t ∧ Memory.gets t.mem at0 data.length = data
        ∧ ∀ b, (b < at0 ∨ at0 + data.length ≤ b) → Memory.get t.mem b = Memory.get s.mem b)
    ∧ (∀ a n port part at0, windowPhys s a n = some (port, part, at0) → portOpen s port = true → port < s.hosts.length → Settled s →
      (getPart s part).noEgress = false →
      let b := bucketOf s part (18 + port)
      let answered : State → Prop := fun t => t.mem = s.mem ∧ t.hostReads = []
        ∧ (getHost t port).replies = (getHost s port).replies ++ [.bytes a (Memory.gets s.mem at0 n)]
      (s.hostReads = [] → b.waiting = [] → b.granted = [] → b.upto = s.cycle → b.level < b.burst → b.frac < 1800 →
        (n ≤ b.level → ∃ t, exec (.hostAccess (.read a n)) s = .next t ∧ answered t ∧ (bucketOf t part (18 + port)).level = b.level - n)
        ∧ (b.level < n → ∃ t, exec (.hostAccess (.read a n)) s = .next t ∧ t.mem = s.mem ∧ t.hosts = s.hosts
          ∧ t.hostReads = [⟨s.seq + 1, none, part, .read a n, port⟩] ∧ (bucketOf t part (18 + port)).waiting.map (·.id) = [s.seq + 1]))
      ∧ ∀ k, s.hostReads = [⟨k, none, part, .read a n, port⟩] →
        (b.granted.contains k = true → ∃ t, exec (.hostAccess (.read a n)) s = .next t ∧ answered t)
        ∧ (b.granted.contains k = false → exec (.hostAccess (.read a n)) s = .next s))
    ∧ (∀ port, Config.hasHostPort port = true →
      exec (.hostAccess (.status port)) s = .next (if portOpen s port then answer port (hostStatus (getHost s port)) s else s))
    ∧ ∀ a n port part at0, windowPhys s a n = some (port, part, at0) → portOpen s port = false → exec (.hostAccess (.read a n)) s = .next s

/-- R387 to R390: the island control word, the operating point in force, thermal steps, and the package's power limits; the coolant of a
module caps its limit, a bare package has none (R1). The model's choices: at most 8 thermal steps, and islands that are not expert go first
(DEDUCED, log entry 109); an event says that its time has passed (DESIGN CHOICE, log entry 108); at the basic level the operating point is
an input (DESIGN CHOICE, log entry 133); the coolant's second is counted from reading to reading (DESIGN CHOICE, log entry 165); what a
session counts of requests that come decoded (DESIGN CHOICE, log entry 102). -/
def Obligations.PowerEvents : Prop :=
  ∀ (s : State) (die isl : Nat), Config.hasIsland die isl = true → s.islands.length = 64 → let x := getIsland s die isl
    let sets : Instr → Island → Prop := fun i y => ∃ t, exec i s = .next t ∧ { t with islands := s.islands } = s ∧ getIsland t die isl = y
    (∀ w : SessionWord, sessionOk s w.part = true → bits w.word.toNat 7 0 ≤ 100 →
      ∃ t, exec (.islandControlWrite die isl w) s = .next t ∧ { t with islands := s.islands, sessions := s.sessions } = s
        ∧ getIsland t die isl = (if bit w.word.toNat 15 then { x with expert := true, setpoint := bits w.word.toNat 7 0 } else { x with expert := false })
        ∧ ∀ y, assoc w.part s.sessions = some y → assoc w.part t.sessions = some { y with heard := s.cycle, received := y.received + 1 })
    ∧ (∀ point, point ≤ 100 → (x.expert = true → point = x.setpoint) → (x.setpoint ≠ point ∨ x.inForce ≠ point - 10 * x.steps) →
      sets (.operatingPointChange die ⟨isl, point⟩) { x with setpoint := point, inForce := point - 10 * x.steps })
    ∧ (x.stepped + 1800000 ≤ s.cycle → ∀ temp : Int,
      (95 < temp → x.steps < 8 → sets (.thermalStep die isl temp) { x with steps := x.steps + 1, stepped := s.cycle })
      ∧ (temp < 90 → 0 < x.steps → sets (.thermalStep die isl temp) { x with steps := x.steps - 1, stepped := s.cycle }))
    ∧ (∀ temp : Int, 110 ≤ temp → s.viral = false → ∃ t, exec (.overtemperature die isl temp) s = .next t ∧ t.viral = true ∧ t.mem = s.mem)
    ∧ (∀ watts, powerLimit s < watts → x.expert = false → x.steps < 8 → 10 * x.steps < x.setpoint →
      sets (.powerLimitExceeded watts) { x with steps := x.steps + 1 })
    ∧ (s.power.bare = false → ∀ flow inlet,
      let lowFrom := s.power.low.getD s.cycle
      let fineFrom := s.power.fine.getD s.cycle
      let reads : Instr → (State → Prop) → Prop := fun i more => ∃ t, exec i s = .next t ∧ { t with power := s.power } = s
        ∧ t.power.flow = flow ∧ t.power.inlet = inlet ∧ t.power.limit = s.power.limit ∧ more t
      (45 < inlet → reads (.coolantFault flow inlet) fun t => powerLimit t = min 1300 s.power.limit ∧ t.power.fine = none)
      ∧ (flow < 2000 → reads (.coolantFault flow inlet) fun t => t.power.low = some lowFrom ∧ t.power.fine = none
        ∧ (lowFrom + 1800000000 < s.cycle → powerLimit t = min 1300 s.power.limit)
        ∧ (s.cycle ≤ lowFrom + 1800000000 → inlet ≤ 45 → t.power.capped = s.power.capped))
      ∧ (2000 ≤ flow → inlet ≤ 45 → reads (.coolantRestore flow inlet) fun t => t.power.low = none ∧ t.power.fine = some fineFrom
        ∧ (fineFrom + 1800000000 ≤ s.cycle → powerLimit t = s.power.limit)
        ∧ (s.cycle < fineFrom + 1800000000 → t.power.capped = s.power.capped)))
    ∧ (s.power.bare = true → powerLimit s = s.power.limit
      ∧ ∀ flow inlet, exec (.coolantFault flow inlet) s = .next s ∧ exec (.coolantRestore flow inlet) s = .next s)
    ∧ (∀ part watts, sessionOk s part = true → watts ≤ (if s.power.bare then 2300 else 2600) →
      exec (.powerLimitSet ⟨part, watts⟩) s = .next (hear part { s with power := { s.power with limit := watts } }))

/-- R2 to R4, R255 and R308: an event that names a context, core, instruction line, engine, die, island, port, host port, partition, bucket
or LPDDR byte that the package does not have is no event of it; the model stops with a fault of its own (DESIGN CHOICE, log entry 22). -/
def Obligations.UnknownUnits : Prop :=
  ∀ (s : State), let stops : Instr → Prop := fun i => exec i s = .fault .noSuchUnit
    (∀ c : CoreId, c.wf = false → stops (.bundleIssue c) ∧ stops (.starvationLead c))
    ∧ (∀ (c : CoreId) (line : Nat), (c.wf = false ∨ 2 ^ 14 ≤ line) → stops (.lineFetch c line))
    ∧ (∀ (c : CtxId) (k : Nat), c.wf = false → ∀ i ∈ [Instr.latchLanding c, .timedDataArrival c k, .timedLanding c, .sketchReplayComplete c, .sleepTimeout c,
        .bwaitWake c, .fenceComplete c, .pinExpiry c, .pageWalkComplete c k, .lockstepMismatch c k], stops i)
    ∧ (∀ e : EngId, e.wf = false → ∀ i ∈ [Instr.mexCommandStart e, .mldwComplete e, .streamPromotion e, .mstrComplete e, .mzeroComplete e, .drainRow e,
        .mdrnComplete e], stops i)
    ∧ (∀ (e : DieEng) (id : Nat) (again : Bool), (8 ≤ e.die ∨ 8 ≤ e.eng) → ∀ i ∈ [Instr.copyStart e, .chunkFetch e id again, .chunkWrite e id,
        .copyComplete e id], stops i)
    ∧ (∀ (e : DieEng) (id blk con : Nat), (8 ≤ e.die ∨ 2 ≤ e.eng) → ∀ i ∈ [Instr.glazeStart e, .glazeTimeout e id, .glazeRoundSend e id,
        .glazePlaneReceive e id blk con, .glazeCancelAck e id, .glazeAbort e id, .glazeComplete e id], stops i)
    ∧ (∀ (e : DieEng) (again : Bool), (8 ≤ e.die ∨ 4 ≤ e.eng) → ∀ i ∈ [Instr.retouchCommandStart e, .retouchRowStart e, .writeAndCheckLoop e again,
        .twrtComplete e], stops i)
    ∧ (∀ (d n : Nat) (bad weak : List Nat) (src : ErrCount) (at' : ErrSite), 8 ≤ d → ∀ i ∈ [Instr.syscReply d, .frescoScan d bad weak,
        .correctedErrorRecord d src, .viral d at', .wearLimitSet d n], stops i)
    ∧ (∀ (d k point : Nat) (temp : Int) (w : SessionWord), (8 ≤ d ∨ 8 ≤ k) → ∀ i ∈ [Instr.islandWake d k, .islandGate d k, .islandControlWrite d k w,
        .operatingPointChange d ⟨k, point⟩, .thermalStep d k temp, .overtemperature d k temp], stops i)
    ∧ (∀ (k n : Nat) (f : Flit) (peer : PeerHello) (challenge : List Byte), 18 ≤ k → ∀ i ∈ [Instr.viralFlitReceived k, .linkSilenceTimeout k,
        .flitReceive k f, .flitResend k n, .resyncTimeout k, .keepalive k, .routineKeyUpdate k, .peerSession k peer challenge, .portReset ⟨n, k⟩], stops i)
    ∧ (∀ (h : Nat) (r : SpdmReq), 2 ≤ h → ∀ i ∈ [Instr.getVersion h, .getCapabilities h r, .negotiateAlgorithms h r, .getDigests h r, .getCertificate h r,
        .challenge h r, .getMeasurements h r, .keyExchange h r, .finish h r, .heartbeat h r, .keyUpdate h r, .endSession h r], stops i)
    ∧ (∀ (p a b c : Nat) (world : Bool) (entry : Dword), 64 ≤ p → ∀ i ∈ [Instr.graphRegistration p a b, .graphUnregistration p a,
        .frescoMapChange p world a entry, .partitionSwap p, .imageRemoval p a, .heartbeatTimeout p, .graceExpiry p, .bucketConfig p a b c,
        .egressBucketRefill p a b], stops i)
    ∧ (∀ (p a b : Nat) (world : Bool) (slots : List Nat) (aid : InstallAid) (ws : List (Nat × Dword)) (bytes key : List Byte) (what : SessionRead),
      64 ≤ p → stops (.installRequest p world a slots aid) ∧ stops (.shootdown p world a b ws) ∧ stops (.imageLoadRequest p bytes key) ∧ stops (.logRead p what))
    ∧ (∀ chg : PartChange, 64 ≤ chgPart chg → stops (.partitionChange chg))
    ∧ (∀ p port a b : Nat, 20 ≤ port → stops (.bucketConfig p port a b) ∧ stops (.egressBucketRefill p port a))
    ∧ (∀ (a : Nat) (r : SectorRead) (n : Option Nat), (isLpddr a && physOk a) = false → stops (.lpddrSectorRead a r) ∧ stops (.uncorrectableDirtySector a n))
end

