-- ==== Sys2Proof/Laws/Crypto.lean ====
section
/-! SUPPORT. What AES-256-GCM seals it opens again, under a key of 32 bytes; SHAKE256 gives as many bytes as it is asked for. -/

namespace Sys2Proof.Crypto

theorem xorBytes_length (a b : List Byte) : (xorBytes a b).length = min a.length b.length := by simp [xorBytes]
theorem xorBytes_cancel : ∀ a k : List Byte, a.length ≤ k.length → xorBytes (xorBytes a k) k = a
  | [], _, _ => rfl
  | _ :: _, [], h => absurd h (by simp)
  | x :: a, y :: k, h => by
    have := xorBytes_cancel a k (by simpa using h)
    simp only [xorBytes] at this
    simp [xorBytes, this]

/-- A step of the key schedule adds one word of four bytes. -/
theorem keyStep_words {ws : List (List Byte)} {j : Nat} (hj : j < ws.length) (hw : ∀ w ∈ ws, w.length = 4) :
    (keyStep ws j).length = ws.length + 1 ∧ ∀ w ∈ keyStep ws j, w.length = 4 := by
  have hlast : (ws.getLastD []).length = 4 := by
    have : ws ≠ [] := by intro e; simp [e] at hj
    rw [List.getLastD_eq_getLast?, List.getLast?_eq_some_getLast this]
    exact hw _ (List.getLast_mem this)
  have hg : (ws.getD j []).length = 4 := by
    simp only [List.getD_eq_getElem?_getD, List.getElem?_eq_getElem hj]
    exact hw _ (List.getElem_mem hj)
  refine ⟨by simp [keyStep], fun w hm => ?_⟩
  simp only [keyStep, List.mem_append, List.mem_singleton] at hm
  obtain hm | rfl := hm
  · exact hw w hm
  · generalize ws.getLastD [] = last at hlast
    rw [xorBytes_length, hg]
    split
    · simp [xorBytes_length, hlast]
    · split <;> simp [hlast]
theorem keySteps_words {ws : List (List Byte)} (h : 8 ≤ ws.length) (hw : ∀ w ∈ ws, w.length = 4) : ∀ n,
    ((List.range n).foldl keyStep ws).length = ws.length + n ∧ ∀ w ∈ (List.range n).foldl keyStep ws, w.length = 4
  | 0 => ⟨rfl, hw⟩
  | n + 1 => by
    have ih := keySteps_words h hw n
    rw [List.range_succ, List.foldl_append]
    have := keyStep_words (j := n) (by omega) ih.2
    exact ⟨by simp only [List.foldl_cons, List.foldl_nil]; omega, this.2⟩
/-- The key schedule of a key of 32 bytes: 60 words of four bytes. -/
theorem keyWords_words (key : List Byte) (h : key.length = 32) : (keyWords key).length = 60 ∧ ∀ w ∈ keyWords key, w.length = 4 := by
  have := keySteps_words (ws := (List.range 8).map fun i => (key.drop (4 * i)).take 4) (by simp) (by
    simp only [List.mem_map, List.mem_range]
    rintro w ⟨i, hi, rfl⟩
    simp [h]; omega) 52
  exact ⟨this.1.trans (by simp), this.2⟩
theorem roundKey_length {ws : List (List Byte)} (h : ws.length = 60) (hw : ∀ w ∈ ws, w.length = 4) (r : Nat) (hr : r ≤ 14) :
    (roundKey ws r).length = 16 := by
  have e : ∀ x ∈ (ws.drop (4 * r)).take 4, x.length = 4 := fun x m => hw x (List.mem_of_mem_drop (List.mem_of_mem_take m))
  have l : ((ws.drop (4 * r)).take 4).length = 4 := by simp [h]; omega
  match hv : (ws.drop (4 * r)).take 4, l with
  | [a, b, c, d], _ => rw [hv] at e; simp [roundKey, hv, e]
theorem aesEncrypt_length (key blk : List Byte) (h : key.length = 32) : (aesEncrypt key blk).length = 16 := by
  have k := keyWords_words key h
  have r := roundKey_length k.1 k.2 14 (by omega)
  simp [aesEncrypt, xorBytes_length, r, shiftRows]

theorem ctrFrom_length {key : List Byte} (hk : key.length = 32) (nonce : List Byte) : ∀ (n c : Nat) (bs : List Byte), bs.length ≤ 16 * n →
    (ctrFrom key nonce n c bs).length = bs.length
  | 0, _, bs, h => by simp [ctrFrom]; omega
  | n + 1, c, bs, h => by
    rw [ctrFrom, List.length_append, xorBytes_length, aesEncrypt_length _ _ hk, ctrFrom_length hk nonce n (c + 1) _ (by simp; omega)]
    simp; omega
theorem ctrFrom_cancel {key : List Byte} (hk : key.length = 32) (nonce : List Byte) : ∀ (n c : Nat) (bs : List Byte), bs.length ≤ 16 * n →
    ctrFrom key nonce n c (ctrFrom key nonce n c bs) = bs
  | 0, _, bs, h => by
    have : bs = [] := List.length_eq_zero_iff.mp (by omega)
    simp [ctrFrom, this]
  | n + 1, c, bs, h => by
    have hx : (xorBytes (bs.take 16) (aesEncrypt key (nonce ++ toBytesBE 4 c))).length = min 16 bs.length := by
      rw [xorBytes_length, aesEncrypt_length _ _ hk]; simp
    have hc := ctrFrom_cancel hk nonce n (c + 1) (bs.drop 16) (by simp; omega)
    rw [ctrFrom, ctrFrom]
    by_cases hb : 16 ≤ bs.length
    · rw [List.take_append_of_le_length (by omega), List.drop_append_of_le_length (by omega), List.take_of_length_le (by omega),
        List.drop_of_length_le (by omega), List.nil_append, hc, xorBytes_cancel _ _ (by rw [aesEncrypt_length _ _ hk]; simp)]
      exact List.take_append_drop 16 bs
    · have hd : bs.drop 16 = [] := List.drop_of_length_le (by omega)
      have he : ∀ c, ctrFrom key nonce n c [] = [] := fun c => List.length_eq_zero_iff.mp (by rw [ctrFrom_length hk nonce n c [] (by simp)]; rfl)
      rw [hd, he, List.append_nil, List.take_of_length_le (by omega), List.drop_of_length_le (by omega), he, List.append_nil,
        xorBytes_cancel _ _ (by rw [aesEncrypt_length _ _ hk]; simp)]
      exact List.take_of_length_le (by omega)

theorem toBytes_length : ∀ k v : Nat, (toBytes k v).length = k
  | 0, _ => rfl
  | k + 1, v => by simp [toBytes, toBytes_length k]
theorem gcmTag_length {key : List Byte} (hk : key.length = 32) (nonce aad ct : List Byte) : (gcmTag key nonce aad ct).length = 16 := by
  rw [gcmTag, xorBytes_length, aesEncrypt_length _ _ hk]
  simp [toBytesBE, toBytes_length]
theorem gcmSeal_length {key : List Byte} (hk : key.length = 32) (nonce aad pt : List Byte) : (gcmSeal key nonce aad pt).length = pt.length + 16 := by
  simp only [gcmSeal, List.length_append, gcmTag_length hk, ctrFrom_length hk nonce ((pt.length + 15) / 16) 2 pt (by omega)]
/-- A sealed message opens to what was sealed. -/
theorem gcmOpen_gcmSeal {key : List Byte} (hk : key.length = 32) (nonce aad pt : List Byte) : gcmOpen key nonce aad (gcmSeal key nonce aad pt) = some pt := by
  have hl := ctrFrom_length hk nonce ((pt.length + 15) / 16) 2 pt (by omega)
  have ht := gcmTag_length hk nonce aad (ctrFrom key nonce ((pt.length + 15) / 16) 2 pt)
  have hn : (gcmSeal key nonce aad pt).length - 16 = pt.length := by simp [gcmSeal, hl, ht]
  have h1 : (gcmSeal key nonce aad pt).take pt.length = ctrFrom key nonce ((pt.length + 15) / 16) 2 pt := by
    rw [gcmSeal, List.take_append_of_le_length (by omega), List.take_of_length_le (by omega)]
  have h2 : (gcmSeal key nonce aad pt).drop pt.length = gcmTag key nonce aad (ctrFrom key nonce ((pt.length + 15) / 16) 2 pt) := by
    rw [gcmSeal, List.drop_append_of_le_length (by omega), List.drop_of_length_le (by omega), List.nil_append]
  have hs : ¬ (gcmSeal key nonce aad pt).length < 16 := by simp [gcmSeal, ht]
  rw [gcmOpen, if_neg hs]
  simp only [hn, h1, h2, if_true, hl]
  rw [ctrFrom_cancel hk nonce _ 2 pt (by omega)]

theorem keccakF_length {s : List Dword} (h : s.length = 25) : (keccakF s).length = 25 := by
  suffices ∀ (l : List Dword) (s : List Dword), s.length = 25 → (l.foldl (fun s rc => keccakRound rc s) s).length = 25 from this _ _ h
  intro l
  induction l with
  | nil => exact fun _ h => h
  | cons rc l ih => exact fun s _ => ih _ (by simp [keccakRound])
theorem absorbAll_length : ∀ (n : Nat) (bs : List Byte) (s : List Dword), s.length = 25 → (absorbAll n bs s).length = 25
  | 0, _, _, h => h
  | n + 1, _, _, h => absorbAll_length n _ _ (keccakF_length (by simpa using h))
theorem squeeze_length : ∀ (n : Nat) (s : List Dword), s.length = 25 → (squeeze n s).length = 136 * n
  | 0, _, _ => rfl
  | n + 1, s, h => by
    rw [squeeze, List.length_append, squeeze_length n _ (keccakF_length h), List.length_take, List.length_flatMap]
    simp [toBytes_length, h]; omega
theorem shake256_length (msg : List Byte) (n : Nat) : (shake256 msg n).length = n := by
  rw [shake256, sponge256, List.length_take, squeeze_length _ _ (absorbAll_length _ _ _ (by simp))]
  omega

end Sys2Proof.Crypto
end

