-- ==== Sys2Proof/Laws/State.lean ====
section
/-! SUPPORT. What each update of the state leaves and changes, one lemma a field, and reading a part after writing it. -/

namespace Sys2Proof.Machine

/-! ## Association lists -/

theorem assoc_assocSet_same {α β : Type} [DecidableEq α] (k : α) (v : β) (l : List (α × β)) : assoc k (assocSet k v l) = some v := by
  induction l with
  | nil => simp [assocSet, assoc]
  | cons x r ih =>
    obtain ⟨a, b⟩ := x
    by_cases h : a = k <;> simp [assocSet, assoc, h, ih]

theorem assoc_assocSet_ne {α β : Type} [DecidableEq α] {j k : α} (v : β) (l : List (α × β)) (h : j ≠ k) :
    assoc j (assocSet k v l) = assoc j l := by
  induction l with
  | nil => simp [assocSet, assoc, Ne.symm h]
  | cons x r ih =>
    obtain ⟨a, b⟩ := x
    by_cases h1 : a = k
    · subst h1; simp [assocSet, assoc, Ne.symm h]
    · by_cases h2 : a = j
      · subst h2; simp [assocSet, assoc, h1]
      · simp [assocSet, assoc, h1, h2, ih]

theorem assocSet_assocSet {α β : Type} [DecidableEq α] (k : α) (v w : β) (l : List (α × β)) :
    assocSet k v (assocSet k w l) = assocSet k v l := by
  induction l with
  | nil => simp [assocSet]
  | cons x r ih =>
    obtain ⟨a, b⟩ := x
    by_cases h : a = k <;> simp [assocSet, h, ih]

/-! ## The state -/

@[simp] theorem setCtx_cycle (c : CtxId) (x : Ctx) (s : State) : (setCtx c x s).cycle = s.cycle := rfl
@[simp] theorem setCtx_free (c : CtxId) (x : Ctx) (s : State) : (setCtx c x s).free = s.free := rfl
@[simp] theorem setCtx_seq (c : CtxId) (x : Ctx) (s : State) : (setCtx c x s).seq = s.seq := rfl
@[simp] theorem setCtx_stamp (c : CtxId) (x : Ctx) (s : State) : (setCtx c x s).stamp = s.stamp := rfl
@[simp] theorem setCtx_agenda (c : CtxId) (x : Ctx) (s : State) : (setCtx c x s).agenda = s.agenda := rfl
@[simp] theorem setCtx_sel (c : CtxId) (x : Ctx) (s : State) : (setCtx c x s).sel = s.sel := rfl
@[simp] theorem setCtx_focus (c : CtxId) (x : Ctx) (s : State) : (setCtx c x s).focus = s.focus := rfl
@[simp] theorem setCtx_turn (c : CtxId) (x : Ctx) (s : State) : (setCtx c x s).turn = s.turn := rfl
@[simp] theorem setCtx_mem (c : CtxId) (x : Ctx) (s : State) : (setCtx c x s).mem = s.mem := rfl
@[simp] theorem setCtx_marks (c : CtxId) (x : Ctx) (s : State) : (setCtx c x s).marks = s.marks := rfl
@[simp] theorem setCtx_fresco (c : CtxId) (x : Ctx) (s : State) : (setCtx c x s).fresco = s.fresco := rfl
@[simp] theorem setCtx_frescoBad (c : CtxId) (x : Ctx) (s : State) : (setCtx c x s).frescoBad = s.frescoBad := rfl
@[simp] theorem setCtx_wear (c : CtxId) (x : Ctx) (s : State) : (setCtx c x s).wear = s.wear := rfl
@[simp] theorem setCtx_remap (c : CtxId) (x : Ctx) (s : State) : (setCtx c x s).remap = s.remap := rfl
@[simp] theorem setCtx_retired (c : CtxId) (x : Ctx) (s : State) : (setCtx c x s).retired = s.retired := rfl
@[simp] theorem setCtx_usedSpares (c : CtxId) (x : Ctx) (s : State) : (setCtx c x s).usedSpares = s.usedSpares := rfl
@[simp] theorem setCtx_cores (c : CtxId) (x : Ctx) (s : State) : (setCtx c x s).cores = s.cores := rfl
@[simp] theorem setCtx_clusters (c : CtxId) (x : Ctx) (s : State) : (setCtx c x s).clusters = s.clusters := rfl
@[simp] theorem setCtx_mex (c : CtxId) (x : Ctx) (s : State) : (setCtx c x s).mex = s.mex := rfl
@[simp] theorem setCtx_cpy (c : CtxId) (x : Ctx) (s : State) : (setCtx c x s).cpy = s.cpy := rfl
@[simp] theorem setCtx_glz (c : CtxId) (x : Ctx) (s : State) : (setCtx c x s).glz = s.glz := rfl
@[simp] theorem setCtx_rtc (c : CtxId) (x : Ctx) (s : State) : (setCtx c x s).rtc = s.rtc := rfl
@[simp] theorem setCtx_colls (c : CtxId) (x : Ctx) (s : State) : (setCtx c x s).colls = s.colls := rfl
@[simp] theorem setCtx_pours (c : CtxId) (x : Ctx) (s : State) : (setCtx c x s).pours = s.pours := rfl
@[simp] theorem setCtx_cancels (c : CtxId) (x : Ctx) (s : State) : (setCtx c x s).cancels = s.cancels := rfl
@[simp] theorem setCtx_past (c : CtxId) (x : Ctx) (s : State) : (setCtx c x s).past = s.past := rfl
@[simp] theorem setCtx_tally (c : CtxId) (x : Ctx) (s : State) : (setCtx c x s).tally = s.tally := rfl
@[simp] theorem setCtx_flips (c : CtxId) (x : Ctx) (s : State) : (setCtx c x s).flips = s.flips := rfl
@[simp] theorem setCtx_overlay (c : CtxId) (x : Ctx) (s : State) : (setCtx c x s).overlay = s.overlay := rfl
@[simp] theorem setCtx_stagedBy (c : CtxId) (x : Ctx) (s : State) : (setCtx c x s).stagedBy = s.stagedBy := rfl
@[simp] theorem setCtx_dirty (c : CtxId) (x : Ctx) (s : State) : (setCtx c x s).dirty = s.dirty := rfl
@[simp] theorem setCtx_lines (c : CtxId) (x : Ctx) (s : State) : (setCtx c x s).lines = s.lines := rfl
@[simp] theorem setCtx_nodes (c : CtxId) (x : Ctx) (s : State) : (setCtx c x s).nodes = s.nodes := rfl
@[simp] theorem setCtx_parts (c : CtxId) (x : Ctx) (s : State) : (setCtx c x s).parts = s.parts := rfl
@[simp] theorem setCtx_sessions (c : CtxId) (x : Ctx) (s : State) : (setCtx c x s).sessions = s.sessions := rfl
@[simp] theorem setCtx_shoots (c : CtxId) (x : Ctx) (s : State) : (setCtx c x s).shoots = s.shoots := rfl
@[simp] theorem setCtx_retires (c : CtxId) (x : Ctx) (s : State) : (setCtx c x s).retires = s.retires := rfl
@[simp] theorem setCtx_retiredFrames (c : CtxId) (x : Ctx) (s : State) : (setCtx c x s).retiredFrames = s.retiredFrames := rfl
@[simp] theorem setCtx_splits (c : CtxId) (x : Ctx) (s : State) : (setCtx c x s).splits = s.splits := rfl
@[simp] theorem setCtx_ways (c : CtxId) (x : Ctx) (s : State) : (setCtx c x s).ways = s.ways := rfl
@[simp] theorem setCtx_dies (c : CtxId) (x : Ctx) (s : State) : (setCtx c x s).dies = s.dies := rfl
@[simp] theorem setCtx_edges (c : CtxId) (x : Ctx) (s : State) : (setCtx c x s).edges = s.edges := rfl
@[simp] theorem setCtx_islands (c : CtxId) (x : Ctx) (s : State) : (setCtx c x s).islands = s.islands := rfl
@[simp] theorem setCtx_ports (c : CtxId) (x : Ctx) (s : State) : (setCtx c x s).ports = s.ports := rfl
@[simp] theorem setCtx_hosts (c : CtxId) (x : Ctx) (s : State) : (setCtx c x s).hosts = s.hosts := rfl
@[simp] theorem setCtx_hostReads (c : CtxId) (x : Ctx) (s : State) : (setCtx c x s).hostReads = s.hostReads := rfl
@[simp] theorem setCtx_log (c : CtxId) (x : Ctx) (s : State) : (setCtx c x s).log = s.log := rfl
@[simp] theorem setCtx_checkpoints (c : CtxId) (x : Ctx) (s : State) : (setCtx c x s).checkpoints = s.checkpoints := rfl
@[simp] theorem setCtx_measures (c : CtxId) (x : Ctx) (s : State) : (setCtx c x s).measures = s.measures := rfl
@[simp] theorem setCtx_power (c : CtxId) (x : Ctx) (s : State) : (setCtx c x s).power = s.power := rfl
@[simp] theorem setCtx_viral (c : CtxId) (x : Ctx) (s : State) : (setCtx c x s).viral = s.viral := rfl
@[simp] theorem setCtx_retained (c : CtxId) (x : Ctx) (s : State) : (setCtx c x s).retained = s.retained := rfl

@[simp] theorem setCore_cycle (c : CoreId) (x : Core) (s : State) : (setCore c x s).cycle = s.cycle := rfl
@[simp] theorem setCore_free (c : CoreId) (x : Core) (s : State) : (setCore c x s).free = s.free := rfl
@[simp] theorem setCore_seq (c : CoreId) (x : Core) (s : State) : (setCore c x s).seq = s.seq := rfl
@[simp] theorem setCore_stamp (c : CoreId) (x : Core) (s : State) : (setCore c x s).stamp = s.stamp := rfl
@[simp] theorem setCore_agenda (c : CoreId) (x : Core) (s : State) : (setCore c x s).agenda = s.agenda := rfl
@[simp] theorem setCore_sel (c : CoreId) (x : Core) (s : State) : (setCore c x s).sel = s.sel := rfl
@[simp] theorem setCore_focus (c : CoreId) (x : Core) (s : State) : (setCore c x s).focus = s.focus := rfl
@[simp] theorem setCore_turn (c : CoreId) (x : Core) (s : State) : (setCore c x s).turn = s.turn := rfl
@[simp] theorem setCore_mem (c : CoreId) (x : Core) (s : State) : (setCore c x s).mem = s.mem := rfl
@[simp] theorem setCore_marks (c : CoreId) (x : Core) (s : State) : (setCore c x s).marks = s.marks := rfl
@[simp] theorem setCore_fresco (c : CoreId) (x : Core) (s : State) : (setCore c x s).fresco = s.fresco := rfl
@[simp] theorem setCore_frescoBad (c : CoreId) (x : Core) (s : State) : (setCore c x s).frescoBad = s.frescoBad := rfl
@[simp] theorem setCore_wear (c : CoreId) (x : Core) (s : State) : (setCore c x s).wear = s.wear := rfl
@[simp] theorem setCore_remap (c : CoreId) (x : Core) (s : State) : (setCore c x s).remap = s.remap := rfl
@[simp] theorem setCore_retired (c : CoreId) (x : Core) (s : State) : (setCore c x s).retired = s.retired := rfl
@[simp] theorem setCore_usedSpares (c : CoreId) (x : Core) (s : State) : (setCore c x s).usedSpares = s.usedSpares := rfl
@[simp] theorem setCore_ctxs (c : CoreId) (x : Core) (s : State) : (setCore c x s).ctxs = s.ctxs := rfl
@[simp] theorem setCore_clusters (c : CoreId) (x : Core) (s : State) : (setCore c x s).clusters = s.clusters := rfl
@[simp] theorem setCore_mex (c : CoreId) (x : Core) (s : State) : (setCore c x s).mex = s.mex := rfl
@[simp] theorem setCore_cpy (c : CoreId) (x : Core) (s : State) : (setCore c x s).cpy = s.cpy := rfl
@[simp] theorem setCore_glz (c : CoreId) (x : Core) (s : State) : (setCore c x s).glz = s.glz := rfl
@[simp] theorem setCore_rtc (c : CoreId) (x : Core) (s : State) : (setCore c x s).rtc = s.rtc := rfl
@[simp] theorem setCore_colls (c : CoreId) (x : Core) (s : State) : (setCore c x s).colls = s.colls := rfl
@[simp] theorem setCore_pours (c : CoreId) (x : Core) (s : State) : (setCore c x s).pours = s.pours := rfl
@[simp] theorem setCore_cancels (c : CoreId) (x : Core) (s : State) : (setCore c x s).cancels = s.cancels := rfl
@[simp] theorem setCore_past (c : CoreId) (x : Core) (s : State) : (setCore c x s).past = s.past := rfl
@[simp] theorem setCore_tally (c : CoreId) (x : Core) (s : State) : (setCore c x s).tally = s.tally := rfl
@[simp] theorem setCore_flips (c : CoreId) (x : Core) (s : State) : (setCore c x s).flips = s.flips := rfl
@[simp] theorem setCore_overlay (c : CoreId) (x : Core) (s : State) : (setCore c x s).overlay = s.overlay := rfl
@[simp] theorem setCore_stagedBy (c : CoreId) (x : Core) (s : State) : (setCore c x s).stagedBy = s.stagedBy := rfl
@[simp] theorem setCore_dirty (c : CoreId) (x : Core) (s : State) : (setCore c x s).dirty = s.dirty := rfl
@[simp] theorem setCore_lines (c : CoreId) (x : Core) (s : State) : (setCore c x s).lines = s.lines := rfl
@[simp] theorem setCore_nodes (c : CoreId) (x : Core) (s : State) : (setCore c x s).nodes = s.nodes := rfl
@[simp] theorem setCore_parts (c : CoreId) (x : Core) (s : State) : (setCore c x s).parts = s.parts := rfl
@[simp] theorem setCore_sessions (c : CoreId) (x : Core) (s : State) : (setCore c x s).sessions = s.sessions := rfl
@[simp] theorem setCore_shoots (c : CoreId) (x : Core) (s : State) : (setCore c x s).shoots = s.shoots := rfl
@[simp] theorem setCore_retires (c : CoreId) (x : Core) (s : State) : (setCore c x s).retires = s.retires := rfl
@[simp] theorem setCore_retiredFrames (c : CoreId) (x : Core) (s : State) : (setCore c x s).retiredFrames = s.retiredFrames := rfl
@[simp] theorem setCore_splits (c : CoreId) (x : Core) (s : State) : (setCore c x s).splits = s.splits := rfl
@[simp] theorem setCore_ways (c : CoreId) (x : Core) (s : State) : (setCore c x s).ways = s.ways := rfl
@[simp] theorem setCore_dies (c : CoreId) (x : Core) (s : State) : (setCore c x s).dies = s.dies := rfl
@[simp] theorem setCore_edges (c : CoreId) (x : Core) (s : State) : (setCore c x s).edges = s.edges := rfl
@[simp] theorem setCore_islands (c : CoreId) (x : Core) (s : State) : (setCore c x s).islands = s.islands := rfl
@[simp] theorem setCore_ports (c : CoreId) (x : Core) (s : State) : (setCore c x s).ports = s.ports := rfl
@[simp] theorem setCore_hosts (c : CoreId) (x : Core) (s : State) : (setCore c x s).hosts = s.hosts := rfl
@[simp] theorem setCore_hostReads (c : CoreId) (x : Core) (s : State) : (setCore c x s).hostReads = s.hostReads := rfl
@[simp] theorem setCore_log (c : CoreId) (x : Core) (s : State) : (setCore c x s).log = s.log := rfl
@[simp] theorem setCore_checkpoints (c : CoreId) (x : Core) (s : State) : (setCore c x s).checkpoints = s.checkpoints := rfl
@[simp] theorem setCore_measures (c : CoreId) (x : Core) (s : State) : (setCore c x s).measures = s.measures := rfl
@[simp] theorem setCore_power (c : CoreId) (x : Core) (s : State) : (setCore c x s).power = s.power := rfl
@[simp] theorem setCore_viral (c : CoreId) (x : Core) (s : State) : (setCore c x s).viral = s.viral := rfl
@[simp] theorem setCore_retained (c : CoreId) (x : Core) (s : State) : (setCore c x s).retained = s.retained := rfl

@[simp] theorem setCl_cycle (c : ClId) (x : Cluster) (s : State) : (setCl c x s).cycle = s.cycle := rfl
@[simp] theorem setCl_free (c : ClId) (x : Cluster) (s : State) : (setCl c x s).free = s.free := rfl
@[simp] theorem setCl_seq (c : ClId) (x : Cluster) (s : State) : (setCl c x s).seq = s.seq := rfl
@[simp] theorem setCl_stamp (c : ClId) (x : Cluster) (s : State) : (setCl c x s).stamp = s.stamp := rfl
@[simp] theorem setCl_agenda (c : ClId) (x : Cluster) (s : State) : (setCl c x s).agenda = s.agenda := rfl
@[simp] theorem setCl_sel (c : ClId) (x : Cluster) (s : State) : (setCl c x s).sel = s.sel := rfl
@[simp] theorem setCl_focus (c : ClId) (x : Cluster) (s : State) : (setCl c x s).focus = s.focus := rfl
@[simp] theorem setCl_turn (c : ClId) (x : Cluster) (s : State) : (setCl c x s).turn = s.turn := rfl
@[simp] theorem setCl_mem (c : ClId) (x : Cluster) (s : State) : (setCl c x s).mem = s.mem := rfl
@[simp] theorem setCl_marks (c : ClId) (x : Cluster) (s : State) : (setCl c x s).marks = s.marks := rfl
@[simp] theorem setCl_fresco (c : ClId) (x : Cluster) (s : State) : (setCl c x s).fresco = s.fresco := rfl
@[simp] theorem setCl_frescoBad (c : ClId) (x : Cluster) (s : State) : (setCl c x s).frescoBad = s.frescoBad := rfl
@[simp] theorem setCl_wear (c : ClId) (x : Cluster) (s : State) : (setCl c x s).wear = s.wear := rfl
@[simp] theorem setCl_remap (c : ClId) (x : Cluster) (s : State) : (setCl c x s).remap = s.remap := rfl
@[simp] theorem setCl_retired (c : ClId) (x : Cluster) (s : State) : (setCl c x s).retired = s.retired := rfl
@[simp] theorem setCl_usedSpares (c : ClId) (x : Cluster) (s : State) : (setCl c x s).usedSpares = s.usedSpares := rfl
@[simp] theorem setCl_ctxs (c : ClId) (x : Cluster) (s : State) : (setCl c x s).ctxs = s.ctxs := rfl
@[simp] theorem setCl_cores (c : ClId) (x : Cluster) (s : State) : (setCl c x s).cores = s.cores := rfl
@[simp] theorem setCl_mex (c : ClId) (x : Cluster) (s : State) : (setCl c x s).mex = s.mex := rfl
@[simp] theorem setCl_cpy (c : ClId) (x : Cluster) (s : State) : (setCl c x s).cpy = s.cpy := rfl
@[simp] theorem setCl_glz (c : ClId) (x : Cluster) (s : State) : (setCl c x s).glz = s.glz := rfl
@[simp] theorem setCl_rtc (c : ClId) (x : Cluster) (s : State) : (setCl c x s).rtc = s.rtc := rfl
@[simp] theorem setCl_colls (c : ClId) (x : Cluster) (s : State) : (setCl c x s).colls = s.colls := rfl
@[simp] theorem setCl_pours (c : ClId) (x : Cluster) (s : State) : (setCl c x s).pours = s.pours := rfl
@[simp] theorem setCl_cancels (c : ClId) (x : Cluster) (s : State) : (setCl c x s).cancels = s.cancels := rfl
@[simp] theorem setCl_past (c : ClId) (x : Cluster) (s : State) : (setCl c x s).past = s.past := rfl
@[simp] theorem setCl_tally (c : ClId) (x : Cluster) (s : State) : (setCl c x s).tally = s.tally := rfl
@[simp] theorem setCl_flips (c : ClId) (x : Cluster) (s : State) : (setCl c x s).flips = s.flips := rfl
@[simp] theorem setCl_overlay (c : ClId) (x : Cluster) (s : State) : (setCl c x s).overlay = s.overlay := rfl
@[simp] theorem setCl_stagedBy (c : ClId) (x : Cluster) (s : State) : (setCl c x s).stagedBy = s.stagedBy := rfl
@[simp] theorem setCl_dirty (c : ClId) (x : Cluster) (s : State) : (setCl c x s).dirty = s.dirty := rfl
@[simp] theorem setCl_lines (c : ClId) (x : Cluster) (s : State) : (setCl c x s).lines = s.lines := rfl
@[simp] theorem setCl_nodes (c : ClId) (x : Cluster) (s : State) : (setCl c x s).nodes = s.nodes := rfl
@[simp] theorem setCl_parts (c : ClId) (x : Cluster) (s : State) : (setCl c x s).parts = s.parts := rfl
@[simp] theorem setCl_sessions (c : ClId) (x : Cluster) (s : State) : (setCl c x s).sessions = s.sessions := rfl
@[simp] theorem setCl_shoots (c : ClId) (x : Cluster) (s : State) : (setCl c x s).shoots = s.shoots := rfl
@[simp] theorem setCl_retires (c : ClId) (x : Cluster) (s : State) : (setCl c x s).retires = s.retires := rfl
@[simp] theorem setCl_retiredFrames (c : ClId) (x : Cluster) (s : State) : (setCl c x s).retiredFrames = s.retiredFrames := rfl
@[simp] theorem setCl_splits (c : ClId) (x : Cluster) (s : State) : (setCl c x s).splits = s.splits := rfl
@[simp] theorem setCl_ways (c : ClId) (x : Cluster) (s : State) : (setCl c x s).ways = s.ways := rfl
@[simp] theorem setCl_dies (c : ClId) (x : Cluster) (s : State) : (setCl c x s).dies = s.dies := rfl
@[simp] theorem setCl_edges (c : ClId) (x : Cluster) (s : State) : (setCl c x s).edges = s.edges := rfl
@[simp] theorem setCl_islands (c : ClId) (x : Cluster) (s : State) : (setCl c x s).islands = s.islands := rfl
@[simp] theorem setCl_ports (c : ClId) (x : Cluster) (s : State) : (setCl c x s).ports = s.ports := rfl
@[simp] theorem setCl_hosts (c : ClId) (x : Cluster) (s : State) : (setCl c x s).hosts = s.hosts := rfl
@[simp] theorem setCl_hostReads (c : ClId) (x : Cluster) (s : State) : (setCl c x s).hostReads = s.hostReads := rfl
@[simp] theorem setCl_log (c : ClId) (x : Cluster) (s : State) : (setCl c x s).log = s.log := rfl
@[simp] theorem setCl_checkpoints (c : ClId) (x : Cluster) (s : State) : (setCl c x s).checkpoints = s.checkpoints := rfl
@[simp] theorem setCl_measures (c : ClId) (x : Cluster) (s : State) : (setCl c x s).measures = s.measures := rfl
@[simp] theorem setCl_power (c : ClId) (x : Cluster) (s : State) : (setCl c x s).power = s.power := rfl
@[simp] theorem setCl_viral (c : ClId) (x : Cluster) (s : State) : (setCl c x s).viral = s.viral := rfl
@[simp] theorem setCl_retained (c : ClId) (x : Cluster) (s : State) : (setCl c x s).retained = s.retained := rfl

@[simp] theorem setMex_cycle (c : EngId) (x : Mex) (s : State) : (setMex c x s).cycle = s.cycle := rfl
@[simp] theorem setMex_free (c : EngId) (x : Mex) (s : State) : (setMex c x s).free = s.free := rfl
@[simp] theorem setMex_seq (c : EngId) (x : Mex) (s : State) : (setMex c x s).seq = s.seq := rfl
@[simp] theorem setMex_stamp (c : EngId) (x : Mex) (s : State) : (setMex c x s).stamp = s.stamp := rfl
@[simp] theorem setMex_agenda (c : EngId) (x : Mex) (s : State) : (setMex c x s).agenda = s.agenda := rfl
@[simp] theorem setMex_sel (c : EngId) (x : Mex) (s : State) : (setMex c x s).sel = s.sel := rfl
@[simp] theorem setMex_focus (c : EngId) (x : Mex) (s : State) : (setMex c x s).focus = s.focus := rfl
@[simp] theorem setMex_turn (c : EngId) (x : Mex) (s : State) : (setMex c x s).turn = s.turn := rfl
@[simp] theorem setMex_mem (c : EngId) (x : Mex) (s : State) : (setMex c x s).mem = s.mem := rfl
@[simp] theorem setMex_marks (c : EngId) (x : Mex) (s : State) : (setMex c x s).marks = s.marks := rfl
@[simp] theorem setMex_fresco (c : EngId) (x : Mex) (s : State) : (setMex c x s).fresco = s.fresco := rfl
@[simp] theorem setMex_frescoBad (c : EngId) (x : Mex) (s : State) : (setMex c x s).frescoBad = s.frescoBad := rfl
@[simp] theorem setMex_wear (c : EngId) (x : Mex) (s : State) : (setMex c x s).wear = s.wear := rfl
@[simp] theorem setMex_remap (c : EngId) (x : Mex) (s : State) : (setMex c x s).remap = s.remap := rfl
@[simp] theorem setMex_retired (c : EngId) (x : Mex) (s : State) : (setMex c x s).retired = s.retired := rfl
@[simp] theorem setMex_usedSpares (c : EngId) (x : Mex) (s : State) : (setMex c x s).usedSpares = s.usedSpares := rfl
@[simp] theorem setMex_ctxs (c : EngId) (x : Mex) (s : State) : (setMex c x s).ctxs = s.ctxs := rfl
@[simp] theorem setMex_cores (c : EngId) (x : Mex) (s : State) : (setMex c x s).cores = s.cores := rfl
@[simp] theorem setMex_clusters (c : EngId) (x : Mex) (s : State) : (setMex c x s).clusters = s.clusters := rfl
@[simp] theorem setMex_cpy (c : EngId) (x : Mex) (s : State) : (setMex c x s).cpy = s.cpy := rfl
@[simp] theorem setMex_glz (c : EngId) (x : Mex) (s : State) : (setMex c x s).glz = s.glz := rfl
@[simp] theorem setMex_rtc (c : EngId) (x : Mex) (s : State) : (setMex c x s).rtc = s.rtc := rfl
@[simp] theorem setMex_colls (c : EngId) (x : Mex) (s : State) : (setMex c x s).colls = s.colls := rfl
@[simp] theorem setMex_pours (c : EngId) (x : Mex) (s : State) : (setMex c x s).pours = s.pours := rfl
@[simp] theorem setMex_cancels (c : EngId) (x : Mex) (s : State) : (setMex c x s).cancels = s.cancels := rfl
@[simp] theorem setMex_past (c : EngId) (x : Mex) (s : State) : (setMex c x s).past = s.past := rfl
@[simp] theorem setMex_tally (c : EngId) (x : Mex) (s : State) : (setMex c x s).tally = s.tally := rfl
@[simp] theorem setMex_flips (c : EngId) (x : Mex) (s : State) : (setMex c x s).flips = s.flips := rfl
@[simp] theorem setMex_overlay (c : EngId) (x : Mex) (s : State) : (setMex c x s).overlay = s.overlay := rfl
@[simp] theorem setMex_stagedBy (c : EngId) (x : Mex) (s : State) : (setMex c x s).stagedBy = s.stagedBy := rfl
@[simp] theorem setMex_dirty (c : EngId) (x : Mex) (s : State) : (setMex c x s).dirty = s.dirty := rfl
@[simp] theorem setMex_lines (c : EngId) (x : Mex) (s : State) : (setMex c x s).lines = s.lines := rfl
@[simp] theorem setMex_nodes (c : EngId) (x : Mex) (s : State) : (setMex c x s).nodes = s.nodes := rfl
@[simp] theorem setMex_parts (c : EngId) (x : Mex) (s : State) : (setMex c x s).parts = s.parts := rfl
@[simp] theorem setMex_sessions (c : EngId) (x : Mex) (s : State) : (setMex c x s).sessions = s.sessions := rfl
@[simp] theorem setMex_shoots (c : EngId) (x : Mex) (s : State) : (setMex c x s).shoots = s.shoots := rfl
@[simp] theorem setMex_retires (c : EngId) (x : Mex) (s : State) : (setMex c x s).retires = s.retires := rfl
@[simp] theorem setMex_retiredFrames (c : EngId) (x : Mex) (s : State) : (setMex c x s).retiredFrames = s.retiredFrames := rfl
@[simp] theorem setMex_splits (c : EngId) (x : Mex) (s : State) : (setMex c x s).splits = s.splits := rfl
@[simp] theorem setMex_ways (c : EngId) (x : Mex) (s : State) : (setMex c x s).ways = s.ways := rfl
@[simp] theorem setMex_dies (c : EngId) (x : Mex) (s : State) : (setMex c x s).dies = s.dies := rfl
@[simp] theorem setMex_edges (c : EngId) (x : Mex) (s : State) : (setMex c x s).edges = s.edges := rfl
@[simp] theorem setMex_islands (c : EngId) (x : Mex) (s : State) : (setMex c x s).islands = s.islands := rfl
@[simp] theorem setMex_ports (c : EngId) (x : Mex) (s : State) : (setMex c x s).ports = s.ports := rfl
@[simp] theorem setMex_hosts (c : EngId) (x : Mex) (s : State) : (setMex c x s).hosts = s.hosts := rfl
@[simp] theorem setMex_hostReads (c : EngId) (x : Mex) (s : State) : (setMex c x s).hostReads = s.hostReads := rfl
@[simp] theorem setMex_log (c : EngId) (x : Mex) (s : State) : (setMex c x s).log = s.log := rfl
@[simp] theorem setMex_checkpoints (c : EngId) (x : Mex) (s : State) : (setMex c x s).checkpoints = s.checkpoints := rfl
@[simp] theorem setMex_measures (c : EngId) (x : Mex) (s : State) : (setMex c x s).measures = s.measures := rfl
@[simp] theorem setMex_power (c : EngId) (x : Mex) (s : State) : (setMex c x s).power = s.power := rfl
@[simp] theorem setMex_viral (c : EngId) (x : Mex) (s : State) : (setMex c x s).viral = s.viral := rfl
@[simp] theorem setMex_retained (c : EngId) (x : Mex) (s : State) : (setMex c x s).retained = s.retained := rfl

@[simp] theorem setCpy_cycle (c : DieEng) (x : Cpy) (s : State) : (setCpy c x s).cycle = s.cycle := rfl
@[simp] theorem setCpy_free (c : DieEng) (x : Cpy) (s : State) : (setCpy c x s).free = s.free := rfl
@[simp] theorem setCpy_seq (c : DieEng) (x : Cpy) (s : State) : (setCpy c x s).seq = s.seq := rfl
@[simp] theorem setCpy_stamp (c : DieEng) (x : Cpy) (s : State) : (setCpy c x s).stamp = s.stamp := rfl
@[simp] theorem setCpy_agenda (c : DieEng) (x : Cpy) (s : State) : (setCpy c x s).agenda = s.agenda := rfl
@[simp] theorem setCpy_sel (c : DieEng) (x : Cpy) (s : State) : (setCpy c x s).sel = s.sel := rfl
@[simp] theorem setCpy_focus (c : DieEng) (x : Cpy) (s : State) : (setCpy c x s).focus = s.focus := rfl
@[simp] theorem setCpy_turn (c : DieEng) (x : Cpy) (s : State) : (setCpy c x s).turn = s.turn := rfl
@[simp] theorem setCpy_mem (c : DieEng) (x : Cpy) (s : State) : (setCpy c x s).mem = s.mem := rfl
@[simp] theorem setCpy_marks (c : DieEng) (x : Cpy) (s : State) : (setCpy c x s).marks = s.marks := rfl
@[simp] theorem setCpy_fresco (c : DieEng) (x : Cpy) (s : State) : (setCpy c x s).fresco = s.fresco := rfl
@[simp] theorem setCpy_frescoBad (c : DieEng) (x : Cpy) (s : State) : (setCpy c x s).frescoBad = s.frescoBad := rfl
@[simp] theorem setCpy_wear (c : DieEng) (x : Cpy) (s : State) : (setCpy c x s).wear = s.wear := rfl
@[simp] theorem setCpy_remap (c : DieEng) (x : Cpy) (s : State) : (setCpy c x s).remap = s.remap := rfl
@[simp] theorem setCpy_retired (c : DieEng) (x : Cpy) (s : State) : (setCpy c x s).retired = s.retired := rfl
@[simp] theorem setCpy_usedSpares (c : DieEng) (x : Cpy) (s : State) : (setCpy c x s).usedSpares = s.usedSpares := rfl
@[simp] theorem setCpy_ctxs (c : DieEng) (x : Cpy) (s : State) : (setCpy c x s).ctxs = s.ctxs := rfl
@[simp] theorem setCpy_cores (c : DieEng) (x : Cpy) (s : State) : (setCpy c x s).cores = s.cores := rfl
@[simp] theorem setCpy_clusters (c : DieEng) (x : Cpy) (s : State) : (setCpy c x s).clusters = s.clusters := rfl
@[simp] theorem setCpy_mex (c : DieEng) (x : Cpy) (s : State) : (setCpy c x s).mex = s.mex := rfl
@[simp] theorem setCpy_glz (c : DieEng) (x : Cpy) (s : State) : (setCpy c x s).glz = s.glz := rfl
@[simp] theorem setCpy_rtc (c : DieEng) (x : Cpy) (s : State) : (setCpy c x s).rtc = s.rtc := rfl
@[simp] theorem setCpy_colls (c : DieEng) (x : Cpy) (s : State) : (setCpy c x s).colls = s.colls := rfl
@[simp] theorem setCpy_pours (c : DieEng) (x : Cpy) (s : State) : (setCpy c x s).pours = s.pours := rfl
@[simp] theorem setCpy_cancels (c : DieEng) (x : Cpy) (s : State) : (setCpy c x s).cancels = s.cancels := rfl
@[simp] theorem setCpy_past (c : DieEng) (x : Cpy) (s : State) : (setCpy c x s).past = s.past := rfl
@[simp] theorem setCpy_tally (c : DieEng) (x : Cpy) (s : State) : (setCpy c x s).tally = s.tally := rfl
@[simp] theorem setCpy_flips (c : DieEng) (x : Cpy) (s : State) : (setCpy c x s).flips = s.flips := rfl
@[simp] theorem setCpy_overlay (c : DieEng) (x : Cpy) (s : State) : (setCpy c x s).overlay = s.overlay := rfl
@[simp] theorem setCpy_stagedBy (c : DieEng) (x : Cpy) (s : State) : (setCpy c x s).stagedBy = s.stagedBy := rfl
@[simp] theorem setCpy_dirty (c : DieEng) (x : Cpy) (s : State) : (setCpy c x s).dirty = s.dirty := rfl
@[simp] theorem setCpy_lines (c : DieEng) (x : Cpy) (s : State) : (setCpy c x s).lines = s.lines := rfl
@[simp] theorem setCpy_nodes (c : DieEng) (x : Cpy) (s : State) : (setCpy c x s).nodes = s.nodes := rfl
@[simp] theorem setCpy_parts (c : DieEng) (x : Cpy) (s : State) : (setCpy c x s).parts = s.parts := rfl
@[simp] theorem setCpy_sessions (c : DieEng) (x : Cpy) (s : State) : (setCpy c x s).sessions = s.sessions := rfl
@[simp] theorem setCpy_shoots (c : DieEng) (x : Cpy) (s : State) : (setCpy c x s).shoots = s.shoots := rfl
@[simp] theorem setCpy_retires (c : DieEng) (x : Cpy) (s : State) : (setCpy c x s).retires = s.retires := rfl
@[simp] theorem setCpy_retiredFrames (c : DieEng) (x : Cpy) (s : State) : (setCpy c x s).retiredFrames = s.retiredFrames := rfl
@[simp] theorem setCpy_splits (c : DieEng) (x : Cpy) (s : State) : (setCpy c x s).splits = s.splits := rfl
@[simp] theorem setCpy_ways (c : DieEng) (x : Cpy) (s : State) : (setCpy c x s).ways = s.ways := rfl
@[simp] theorem setCpy_dies (c : DieEng) (x : Cpy) (s : State) : (setCpy c x s).dies = s.dies := rfl
@[simp] theorem setCpy_edges (c : DieEng) (x : Cpy) (s : State) : (setCpy c x s).edges = s.edges := rfl
@[simp] theorem setCpy_islands (c : DieEng) (x : Cpy) (s : State) : (setCpy c x s).islands = s.islands := rfl
@[simp] theorem setCpy_ports (c : DieEng) (x : Cpy) (s : State) : (setCpy c x s).ports = s.ports := rfl
@[simp] theorem setCpy_hosts (c : DieEng) (x : Cpy) (s : State) : (setCpy c x s).hosts = s.hosts := rfl
@[simp] theorem setCpy_hostReads (c : DieEng) (x : Cpy) (s : State) : (setCpy c x s).hostReads = s.hostReads := rfl
@[simp] theorem setCpy_log (c : DieEng) (x : Cpy) (s : State) : (setCpy c x s).log = s.log := rfl
@[simp] theorem setCpy_checkpoints (c : DieEng) (x : Cpy) (s : State) : (setCpy c x s).checkpoints = s.checkpoints := rfl
@[simp] theorem setCpy_measures (c : DieEng) (x : Cpy) (s : State) : (setCpy c x s).measures = s.measures := rfl
@[simp] theorem setCpy_power (c : DieEng) (x : Cpy) (s : State) : (setCpy c x s).power = s.power := rfl
@[simp] theorem setCpy_viral (c : DieEng) (x : Cpy) (s : State) : (setCpy c x s).viral = s.viral := rfl
@[simp] theorem setCpy_retained (c : DieEng) (x : Cpy) (s : State) : (setCpy c x s).retained = s.retained := rfl

@[simp] theorem setGlz_cycle (c : DieEng) (x : Glz) (s : State) : (setGlz c x s).cycle = s.cycle := rfl
@[simp] theorem setGlz_free (c : DieEng) (x : Glz) (s : State) : (setGlz c x s).free = s.free := rfl
@[simp] theorem setGlz_seq (c : DieEng) (x : Glz) (s : State) : (setGlz c x s).seq = s.seq := rfl
@[simp] theorem setGlz_stamp (c : DieEng) (x : Glz) (s : State) : (setGlz c x s).stamp = s.stamp := rfl
@[simp] theorem setGlz_agenda (c : DieEng) (x : Glz) (s : State) : (setGlz c x s).agenda = s.agenda := rfl
@[simp] theorem setGlz_sel (c : DieEng) (x : Glz) (s : State) : (setGlz c x s).sel = s.sel := rfl
@[simp] theorem setGlz_focus (c : DieEng) (x : Glz) (s : State) : (setGlz c x s).focus = s.focus := rfl
@[simp] theorem setGlz_turn (c : DieEng) (x : Glz) (s : State) : (setGlz c x s).turn = s.turn := rfl
@[simp] theorem setGlz_mem (c : DieEng) (x : Glz) (s : State) : (setGlz c x s).mem = s.mem := rfl
@[simp] theorem setGlz_marks (c : DieEng) (x : Glz) (s : State) : (setGlz c x s).marks = s.marks := rfl
@[simp] theorem setGlz_fresco (c : DieEng) (x : Glz) (s : State) : (setGlz c x s).fresco = s.fresco := rfl
@[simp] theorem setGlz_frescoBad (c : DieEng) (x : Glz) (s : State) : (setGlz c x s).frescoBad = s.frescoBad := rfl
@[simp] theorem setGlz_wear (c : DieEng) (x : Glz) (s : State) : (setGlz c x s).wear = s.wear := rfl
@[simp] theorem setGlz_remap (c : DieEng) (x : Glz) (s : State) : (setGlz c x s).remap = s.remap := rfl
@[simp] theorem setGlz_retired (c : DieEng) (x : Glz) (s : State) : (setGlz c x s).retired = s.retired := rfl
@[simp] theorem setGlz_usedSpares (c : DieEng) (x : Glz) (s : State) : (setGlz c x s).usedSpares = s.usedSpares := rfl
@[simp] theorem setGlz_ctxs (c : DieEng) (x : Glz) (s : State) : (setGlz c x s).ctxs = s.ctxs := rfl
@[simp] theorem setGlz_cores (c : DieEng) (x : Glz) (s : State) : (setGlz c x s).cores = s.cores := rfl
@[simp] theorem setGlz_clusters (c : DieEng) (x : Glz) (s : State) : (setGlz c x s).clusters = s.clusters := rfl
@[simp] theorem setGlz_mex (c : DieEng) (x : Glz) (s : State) : (setGlz c x s).mex = s.mex := rfl
@[simp] theorem setGlz_cpy (c : DieEng) (x : Glz) (s : State) : (setGlz c x s).cpy = s.cpy := rfl
@[simp] theorem setGlz_rtc (c : DieEng) (x : Glz) (s : State) : (setGlz c x s).rtc = s.rtc := rfl
@[simp] theorem setGlz_colls (c : DieEng) (x : Glz) (s : State) : (setGlz c x s).colls = s.colls := rfl
@[simp] theorem setGlz_pours (c : DieEng) (x : Glz) (s : State) : (setGlz c x s).pours = s.pours := rfl
@[simp] theorem setGlz_cancels (c : DieEng) (x : Glz) (s : State) : (setGlz c x s).cancels = s.cancels := rfl
@[simp] theorem setGlz_past (c : DieEng) (x : Glz) (s : State) : (setGlz c x s).past = s.past := rfl
@[simp] theorem setGlz_tally (c : DieEng) (x : Glz) (s : State) : (setGlz c x s).tally = s.tally := rfl
@[simp] theorem setGlz_flips (c : DieEng) (x : Glz) (s : State) : (setGlz c x s).flips = s.flips := rfl
@[simp] theorem setGlz_overlay (c : DieEng) (x : Glz) (s : State) : (setGlz c x s).overlay = s.overlay := rfl
@[simp] theorem setGlz_stagedBy (c : DieEng) (x : Glz) (s : State) : (setGlz c x s).stagedBy = s.stagedBy := rfl
@[simp] theorem setGlz_dirty (c : DieEng) (x : Glz) (s : State) : (setGlz c x s).dirty = s.dirty := rfl
@[simp] theorem setGlz_lines (c : DieEng) (x : Glz) (s : State) : (setGlz c x s).lines = s.lines := rfl
@[simp] theorem setGlz_nodes (c : DieEng) (x : Glz) (s : State) : (setGlz c x s).nodes = s.nodes := rfl
@[simp] theorem setGlz_parts (c : DieEng) (x : Glz) (s : State) : (setGlz c x s).parts = s.parts := rfl
@[simp] theorem setGlz_sessions (c : DieEng) (x : Glz) (s : State) : (setGlz c x s).sessions = s.sessions := rfl
@[simp] theorem setGlz_shoots (c : DieEng) (x : Glz) (s : State) : (setGlz c x s).shoots = s.shoots := rfl
@[simp] theorem setGlz_retires (c : DieEng) (x : Glz) (s : State) : (setGlz c x s).retires = s.retires := rfl
@[simp] theorem setGlz_retiredFrames (c : DieEng) (x : Glz) (s : State) : (setGlz c x s).retiredFrames = s.retiredFrames := rfl
@[simp] theorem setGlz_splits (c : DieEng) (x : Glz) (s : State) : (setGlz c x s).splits = s.splits := rfl
@[simp] theorem setGlz_ways (c : DieEng) (x : Glz) (s : State) : (setGlz c x s).ways = s.ways := rfl
@[simp] theorem setGlz_dies (c : DieEng) (x : Glz) (s : State) : (setGlz c x s).dies = s.dies := rfl
@[simp] theorem setGlz_edges (c : DieEng) (x : Glz) (s : State) : (setGlz c x s).edges = s.edges := rfl
@[simp] theorem setGlz_islands (c : DieEng) (x : Glz) (s : State) : (setGlz c x s).islands = s.islands := rfl
@[simp] theorem setGlz_ports (c : DieEng) (x : Glz) (s : State) : (setGlz c x s).ports = s.ports := rfl
@[simp] theorem setGlz_hosts (c : DieEng) (x : Glz) (s : State) : (setGlz c x s).hosts = s.hosts := rfl
@[simp] theorem setGlz_hostReads (c : DieEng) (x : Glz) (s : State) : (setGlz c x s).hostReads = s.hostReads := rfl
@[simp] theorem setGlz_log (c : DieEng) (x : Glz) (s : State) : (setGlz c x s).log = s.log := rfl
@[simp] theorem setGlz_checkpoints (c : DieEng) (x : Glz) (s : State) : (setGlz c x s).checkpoints = s.checkpoints := rfl
@[simp] theorem setGlz_measures (c : DieEng) (x : Glz) (s : State) : (setGlz c x s).measures = s.measures := rfl
@[simp] theorem setGlz_power (c : DieEng) (x : Glz) (s : State) : (setGlz c x s).power = s.power := rfl
@[simp] theorem setGlz_viral (c : DieEng) (x : Glz) (s : State) : (setGlz c x s).viral = s.viral := rfl
@[simp] theorem setGlz_retained (c : DieEng) (x : Glz) (s : State) : (setGlz c x s).retained = s.retained := rfl

@[simp] theorem setRtc_cycle (c : DieEng) (x : Rtc) (s : State) : (setRtc c x s).cycle = s.cycle := rfl
@[simp] theorem setRtc_free (c : DieEng) (x : Rtc) (s : State) : (setRtc c x s).free = s.free := rfl
@[simp] theorem setRtc_seq (c : DieEng) (x : Rtc) (s : State) : (setRtc c x s).seq = s.seq := rfl
@[simp] theorem setRtc_stamp (c : DieEng) (x : Rtc) (s : State) : (setRtc c x s).stamp = s.stamp := rfl
@[simp] theorem setRtc_agenda (c : DieEng) (x : Rtc) (s : State) : (setRtc c x s).agenda = s.agenda := rfl
@[simp] theorem setRtc_sel (c : DieEng) (x : Rtc) (s : State) : (setRtc c x s).sel = s.sel := rfl
@[simp] theorem setRtc_focus (c : DieEng) (x : Rtc) (s : State) : (setRtc c x s).focus = s.focus := rfl
@[simp] theorem setRtc_turn (c : DieEng) (x : Rtc) (s : State) : (setRtc c x s).turn = s.turn := rfl
@[simp] theorem setRtc_mem (c : DieEng) (x : Rtc) (s : State) : (setRtc c x s).mem = s.mem := rfl
@[simp] theorem setRtc_marks (c : DieEng) (x : Rtc) (s : State) : (setRtc c x s).marks = s.marks := rfl
@[simp] theorem setRtc_fresco (c : DieEng) (x : Rtc) (s : State) : (setRtc c x s).fresco = s.fresco := rfl
@[simp] theorem setRtc_frescoBad (c : DieEng) (x : Rtc) (s : State) : (setRtc c x s).frescoBad = s.frescoBad := rfl
@[simp] theorem setRtc_wear (c : DieEng) (x : Rtc) (s : State) : (setRtc c x s).wear = s.wear := rfl
@[simp] theorem setRtc_remap (c : DieEng) (x : Rtc) (s : State) : (setRtc c x s).remap = s.remap := rfl
@[simp] theorem setRtc_retired (c : DieEng) (x : Rtc) (s : State) : (setRtc c x s).retired = s.retired := rfl
@[simp] theorem setRtc_usedSpares (c : DieEng) (x : Rtc) (s : State) : (setRtc c x s).usedSpares = s.usedSpares := rfl
@[simp] theorem setRtc_ctxs (c : DieEng) (x : Rtc) (s : State) : (setRtc c x s).ctxs = s.ctxs := rfl
@[simp] theorem setRtc_cores (c : DieEng) (x : Rtc) (s : State) : (setRtc c x s).cores = s.cores := rfl
@[simp] theorem setRtc_clusters (c : DieEng) (x : Rtc) (s : State) : (setRtc c x s).clusters = s.clusters := rfl
@[simp] theorem setRtc_mex (c : DieEng) (x : Rtc) (s : State) : (setRtc c x s).mex = s.mex := rfl
@[simp] theorem setRtc_cpy (c : DieEng) (x : Rtc) (s : State) : (setRtc c x s).cpy = s.cpy := rfl
@[simp] theorem setRtc_glz (c : DieEng) (x : Rtc) (s : State) : (setRtc c x s).glz = s.glz := rfl
@[simp] theorem setRtc_colls (c : DieEng) (x : Rtc) (s : State) : (setRtc c x s).colls = s.colls := rfl
@[simp] theorem setRtc_pours (c : DieEng) (x : Rtc) (s : State) : (setRtc c x s).pours = s.pours := rfl
@[simp] theorem setRtc_cancels (c : DieEng) (x : Rtc) (s : State) : (setRtc c x s).cancels = s.cancels := rfl
@[simp] theorem setRtc_past (c : DieEng) (x : Rtc) (s : State) : (setRtc c x s).past = s.past := rfl
@[simp] theorem setRtc_tally (c : DieEng) (x : Rtc) (s : State) : (setRtc c x s).tally = s.tally := rfl
@[simp] theorem setRtc_flips (c : DieEng) (x : Rtc) (s : State) : (setRtc c x s).flips = s.flips := rfl
@[simp] theorem setRtc_overlay (c : DieEng) (x : Rtc) (s : State) : (setRtc c x s).overlay = s.overlay := rfl
@[simp] theorem setRtc_stagedBy (c : DieEng) (x : Rtc) (s : State) : (setRtc c x s).stagedBy = s.stagedBy := rfl
@[simp] theorem setRtc_dirty (c : DieEng) (x : Rtc) (s : State) : (setRtc c x s).dirty = s.dirty := rfl
@[simp] theorem setRtc_lines (c : DieEng) (x : Rtc) (s : State) : (setRtc c x s).lines = s.lines := rfl
@[simp] theorem setRtc_nodes (c : DieEng) (x : Rtc) (s : State) : (setRtc c x s).nodes = s.nodes := rfl
@[simp] theorem setRtc_parts (c : DieEng) (x : Rtc) (s : State) : (setRtc c x s).parts = s.parts := rfl
@[simp] theorem setRtc_sessions (c : DieEng) (x : Rtc) (s : State) : (setRtc c x s).sessions = s.sessions := rfl
@[simp] theorem setRtc_shoots (c : DieEng) (x : Rtc) (s : State) : (setRtc c x s).shoots = s.shoots := rfl
@[simp] theorem setRtc_retires (c : DieEng) (x : Rtc) (s : State) : (setRtc c x s).retires = s.retires := rfl
@[simp] theorem setRtc_retiredFrames (c : DieEng) (x : Rtc) (s : State) : (setRtc c x s).retiredFrames = s.retiredFrames := rfl
@[simp] theorem setRtc_splits (c : DieEng) (x : Rtc) (s : State) : (setRtc c x s).splits = s.splits := rfl
@[simp] theorem setRtc_ways (c : DieEng) (x : Rtc) (s : State) : (setRtc c x s).ways = s.ways := rfl
@[simp] theorem setRtc_dies (c : DieEng) (x : Rtc) (s : State) : (setRtc c x s).dies = s.dies := rfl
@[simp] theorem setRtc_edges (c : DieEng) (x : Rtc) (s : State) : (setRtc c x s).edges = s.edges := rfl
@[simp] theorem setRtc_islands (c : DieEng) (x : Rtc) (s : State) : (setRtc c x s).islands = s.islands := rfl
@[simp] theorem setRtc_ports (c : DieEng) (x : Rtc) (s : State) : (setRtc c x s).ports = s.ports := rfl
@[simp] theorem setRtc_hosts (c : DieEng) (x : Rtc) (s : State) : (setRtc c x s).hosts = s.hosts := rfl
@[simp] theorem setRtc_hostReads (c : DieEng) (x : Rtc) (s : State) : (setRtc c x s).hostReads = s.hostReads := rfl
@[simp] theorem setRtc_log (c : DieEng) (x : Rtc) (s : State) : (setRtc c x s).log = s.log := rfl
@[simp] theorem setRtc_checkpoints (c : DieEng) (x : Rtc) (s : State) : (setRtc c x s).checkpoints = s.checkpoints := rfl
@[simp] theorem setRtc_measures (c : DieEng) (x : Rtc) (s : State) : (setRtc c x s).measures = s.measures := rfl
@[simp] theorem setRtc_power (c : DieEng) (x : Rtc) (s : State) : (setRtc c x s).power = s.power := rfl
@[simp] theorem setRtc_viral (c : DieEng) (x : Rtc) (s : State) : (setRtc c x s).viral = s.viral := rfl
@[simp] theorem setRtc_retained (c : DieEng) (x : Rtc) (s : State) : (setRtc c x s).retained = s.retained := rfl

@[simp] theorem setPart_cycle (c : Nat) (x : Part) (s : State) : (setPart c x s).cycle = s.cycle := rfl
@[simp] theorem setPart_free (c : Nat) (x : Part) (s : State) : (setPart c x s).free = s.free := rfl
@[simp] theorem setPart_seq (c : Nat) (x : Part) (s : State) : (setPart c x s).seq = s.seq := rfl
@[simp] theorem setPart_stamp (c : Nat) (x : Part) (s : State) : (setPart c x s).stamp = s.stamp := rfl
@[simp] theorem setPart_agenda (c : Nat) (x : Part) (s : State) : (setPart c x s).agenda = s.agenda := rfl
@[simp] theorem setPart_sel (c : Nat) (x : Part) (s : State) : (setPart c x s).sel = s.sel := rfl
@[simp] theorem setPart_focus (c : Nat) (x : Part) (s : State) : (setPart c x s).focus = s.focus := rfl
@[simp] theorem setPart_turn (c : Nat) (x : Part) (s : State) : (setPart c x s).turn = s.turn := rfl
@[simp] theorem setPart_mem (c : Nat) (x : Part) (s : State) : (setPart c x s).mem = s.mem := rfl
@[simp] theorem setPart_marks (c : Nat) (x : Part) (s : State) : (setPart c x s).marks = s.marks := rfl
@[simp] theorem setPart_fresco (c : Nat) (x : Part) (s : State) : (setPart c x s).fresco = s.fresco := rfl
@[simp] theorem setPart_frescoBad (c : Nat) (x : Part) (s : State) : (setPart c x s).frescoBad = s.frescoBad := rfl
@[simp] theorem setPart_wear (c : Nat) (x : Part) (s : State) : (setPart c x s).wear = s.wear := rfl
@[simp] theorem setPart_remap (c : Nat) (x : Part) (s : State) : (setPart c x s).remap = s.remap := rfl
@[simp] theorem setPart_retired (c : Nat) (x : Part) (s : State) : (setPart c x s).retired = s.retired := rfl
@[simp] theorem setPart_usedSpares (c : Nat) (x : Part) (s : State) : (setPart c x s).usedSpares = s.usedSpares := rfl
@[simp] theorem setPart_ctxs (c : Nat) (x : Part) (s : State) : (setPart c x s).ctxs = s.ctxs := rfl
@[simp] theorem setPart_cores (c : Nat) (x : Part) (s : State) : (setPart c x s).cores = s.cores := rfl
@[simp] theorem setPart_clusters (c : Nat) (x : Part) (s : State) : (setPart c x s).clusters = s.clusters := rfl
@[simp] theorem setPart_mex (c : Nat) (x : Part) (s : State) : (setPart c x s).mex = s.mex := rfl
@[simp] theorem setPart_cpy (c : Nat) (x : Part) (s : State) : (setPart c x s).cpy = s.cpy := rfl
@[simp] theorem setPart_glz (c : Nat) (x : Part) (s : State) : (setPart c x s).glz = s.glz := rfl
@[simp] theorem setPart_rtc (c : Nat) (x : Part) (s : State) : (setPart c x s).rtc = s.rtc := rfl
@[simp] theorem setPart_colls (c : Nat) (x : Part) (s : State) : (setPart c x s).colls = s.colls := rfl
@[simp] theorem setPart_pours (c : Nat) (x : Part) (s : State) : (setPart c x s).pours = s.pours := rfl
@[simp] theorem setPart_cancels (c : Nat) (x : Part) (s : State) : (setPart c x s).cancels = s.cancels := rfl
@[simp] theorem setPart_past (c : Nat) (x : Part) (s : State) : (setPart c x s).past = s.past := rfl
@[simp] theorem setPart_tally (c : Nat) (x : Part) (s : State) : (setPart c x s).tally = s.tally := rfl
@[simp] theorem setPart_flips (c : Nat) (x : Part) (s : State) : (setPart c x s).flips = s.flips := rfl
@[simp] theorem setPart_overlay (c : Nat) (x : Part) (s : State) : (setPart c x s).overlay = s.overlay := rfl
@[simp] theorem setPart_stagedBy (c : Nat) (x : Part) (s : State) : (setPart c x s).stagedBy = s.stagedBy := rfl
@[simp] theorem setPart_dirty (c : Nat) (x : Part) (s : State) : (setPart c x s).dirty = s.dirty := rfl
@[simp] theorem setPart_lines (c : Nat) (x : Part) (s : State) : (setPart c x s).lines = s.lines := rfl
@[simp] theorem setPart_nodes (c : Nat) (x : Part) (s : State) : (setPart c x s).nodes = s.nodes := rfl
@[simp] theorem setPart_sessions (c : Nat) (x : Part) (s : State) : (setPart c x s).sessions = s.sessions := rfl
@[simp] theorem setPart_shoots (c : Nat) (x : Part) (s : State) : (setPart c x s).shoots = s.shoots := rfl
@[simp] theorem setPart_retires (c : Nat) (x : Part) (s : State) : (setPart c x s).retires = s.retires := rfl
@[simp] theorem setPart_retiredFrames (c : Nat) (x : Part) (s : State) : (setPart c x s).retiredFrames = s.retiredFrames := rfl
@[simp] theorem setPart_splits (c : Nat) (x : Part) (s : State) : (setPart c x s).splits = s.splits := rfl
@[simp] theorem setPart_ways (c : Nat) (x : Part) (s : State) : (setPart c x s).ways = s.ways := rfl
@[simp] theorem setPart_dies (c : Nat) (x : Part) (s : State) : (setPart c x s).dies = s.dies := rfl
@[simp] theorem setPart_edges (c : Nat) (x : Part) (s : State) : (setPart c x s).edges = s.edges := rfl
@[simp] theorem setPart_islands (c : Nat) (x : Part) (s : State) : (setPart c x s).islands = s.islands := rfl
@[simp] theorem setPart_ports (c : Nat) (x : Part) (s : State) : (setPart c x s).ports = s.ports := rfl
@[simp] theorem setPart_hosts (c : Nat) (x : Part) (s : State) : (setPart c x s).hosts = s.hosts := rfl
@[simp] theorem setPart_hostReads (c : Nat) (x : Part) (s : State) : (setPart c x s).hostReads = s.hostReads := rfl
@[simp] theorem setPart_log (c : Nat) (x : Part) (s : State) : (setPart c x s).log = s.log := rfl
@[simp] theorem setPart_checkpoints (c : Nat) (x : Part) (s : State) : (setPart c x s).checkpoints = s.checkpoints := rfl
@[simp] theorem setPart_measures (c : Nat) (x : Part) (s : State) : (setPart c x s).measures = s.measures := rfl
@[simp] theorem setPart_power (c : Nat) (x : Part) (s : State) : (setPart c x s).power = s.power := rfl
@[simp] theorem setPart_viral (c : Nat) (x : Part) (s : State) : (setPart c x s).viral = s.viral := rfl
@[simp] theorem setPart_retained (c : Nat) (x : Part) (s : State) : (setPart c x s).retained = s.retained := rfl

@[simp] theorem setNode_cycle (c : Nat) (x : Node) (s : State) : (setNode c x s).cycle = s.cycle := rfl
@[simp] theorem setNode_free (c : Nat) (x : Node) (s : State) : (setNode c x s).free = s.free := rfl
@[simp] theorem setNode_seq (c : Nat) (x : Node) (s : State) : (setNode c x s).seq = s.seq := rfl
@[simp] theorem setNode_stamp (c : Nat) (x : Node) (s : State) : (setNode c x s).stamp = s.stamp := rfl
@[simp] theorem setNode_agenda (c : Nat) (x : Node) (s : State) : (setNode c x s).agenda = s.agenda := rfl
@[simp] theorem setNode_sel (c : Nat) (x : Node) (s : State) : (setNode c x s).sel = s.sel := rfl
@[simp] theorem setNode_focus (c : Nat) (x : Node) (s : State) : (setNode c x s).focus = s.focus := rfl
@[simp] theorem setNode_turn (c : Nat) (x : Node) (s : State) : (setNode c x s).turn = s.turn := rfl
@[simp] theorem setNode_mem (c : Nat) (x : Node) (s : State) : (setNode c x s).mem = s.mem := rfl
@[simp] theorem setNode_marks (c : Nat) (x : Node) (s : State) : (setNode c x s).marks = s.marks := rfl
@[simp] theorem setNode_fresco (c : Nat) (x : Node) (s : State) : (setNode c x s).fresco = s.fresco := rfl
@[simp] theorem setNode_frescoBad (c : Nat) (x : Node) (s : State) : (setNode c x s).frescoBad = s.frescoBad := rfl
@[simp] theorem setNode_wear (c : Nat) (x : Node) (s : State) : (setNode c x s).wear = s.wear := rfl
@[simp] theorem setNode_remap (c : Nat) (x : Node) (s : State) : (setNode c x s).remap = s.remap := rfl
@[simp] theorem setNode_retired (c : Nat) (x : Node) (s : State) : (setNode c x s).retired = s.retired := rfl
@[simp] theorem setNode_usedSpares (c : Nat) (x : Node) (s : State) : (setNode c x s).usedSpares = s.usedSpares := rfl
@[simp] theorem setNode_ctxs (c : Nat) (x : Node) (s : State) : (setNode c x s).ctxs = s.ctxs := rfl
@[simp] theorem setNode_cores (c : Nat) (x : Node) (s : State) : (setNode c x s).cores = s.cores := rfl
@[simp] theorem setNode_clusters (c : Nat) (x : Node) (s : State) : (setNode c x s).clusters = s.clusters := rfl
@[simp] theorem setNode_mex (c : Nat) (x : Node) (s : State) : (setNode c x s).mex = s.mex := rfl
@[simp] theorem setNode_cpy (c : Nat) (x : Node) (s : State) : (setNode c x s).cpy = s.cpy := rfl
@[simp] theorem setNode_glz (c : Nat) (x : Node) (s : State) : (setNode c x s).glz = s.glz := rfl
@[simp] theorem setNode_rtc (c : Nat) (x : Node) (s : State) : (setNode c x s).rtc = s.rtc := rfl
@[simp] theorem setNode_colls (c : Nat) (x : Node) (s : State) : (setNode c x s).colls = s.colls := rfl
@[simp] theorem setNode_pours (c : Nat) (x : Node) (s : State) : (setNode c x s).pours = s.pours := rfl
@[simp] theorem setNode_cancels (c : Nat) (x : Node) (s : State) : (setNode c x s).cancels = s.cancels := rfl
@[simp] theorem setNode_past (c : Nat) (x : Node) (s : State) : (setNode c x s).past = s.past := rfl
@[simp] theorem setNode_tally (c : Nat) (x : Node) (s : State) : (setNode c x s).tally = s.tally := rfl
@[simp] theorem setNode_flips (c : Nat) (x : Node) (s : State) : (setNode c x s).flips = s.flips := rfl
@[simp] theorem setNode_overlay (c : Nat) (x : Node) (s : State) : (setNode c x s).overlay = s.overlay := rfl
@[simp] theorem setNode_stagedBy (c : Nat) (x : Node) (s : State) : (setNode c x s).stagedBy = s.stagedBy := rfl
@[simp] theorem setNode_dirty (c : Nat) (x : Node) (s : State) : (setNode c x s).dirty = s.dirty := rfl
@[simp] theorem setNode_lines (c : Nat) (x : Node) (s : State) : (setNode c x s).lines = s.lines := rfl
@[simp] theorem setNode_parts (c : Nat) (x : Node) (s : State) : (setNode c x s).parts = s.parts := rfl
@[simp] theorem setNode_sessions (c : Nat) (x : Node) (s : State) : (setNode c x s).sessions = s.sessions := rfl
@[simp] theorem setNode_shoots (c : Nat) (x : Node) (s : State) : (setNode c x s).shoots = s.shoots := rfl
@[simp] theorem setNode_retires (c : Nat) (x : Node) (s : State) : (setNode c x s).retires = s.retires := rfl
@[simp] theorem setNode_retiredFrames (c : Nat) (x : Node) (s : State) : (setNode c x s).retiredFrames = s.retiredFrames := rfl
@[simp] theorem setNode_splits (c : Nat) (x : Node) (s : State) : (setNode c x s).splits = s.splits := rfl
@[simp] theorem setNode_ways (c : Nat) (x : Node) (s : State) : (setNode c x s).ways = s.ways := rfl
@[simp] theorem setNode_dies (c : Nat) (x : Node) (s : State) : (setNode c x s).dies = s.dies := rfl
@[simp] theorem setNode_edges (c : Nat) (x : Node) (s : State) : (setNode c x s).edges = s.edges := rfl
@[simp] theorem setNode_islands (c : Nat) (x : Node) (s : State) : (setNode c x s).islands = s.islands := rfl
@[simp] theorem setNode_ports (c : Nat) (x : Node) (s : State) : (setNode c x s).ports = s.ports := rfl
@[simp] theorem setNode_hosts (c : Nat) (x : Node) (s : State) : (setNode c x s).hosts = s.hosts := rfl
@[simp] theorem setNode_hostReads (c : Nat) (x : Node) (s : State) : (setNode c x s).hostReads = s.hostReads := rfl
@[simp] theorem setNode_log (c : Nat) (x : Node) (s : State) : (setNode c x s).log = s.log := rfl
@[simp] theorem setNode_checkpoints (c : Nat) (x : Node) (s : State) : (setNode c x s).checkpoints = s.checkpoints := rfl
@[simp] theorem setNode_measures (c : Nat) (x : Node) (s : State) : (setNode c x s).measures = s.measures := rfl
@[simp] theorem setNode_power (c : Nat) (x : Node) (s : State) : (setNode c x s).power = s.power := rfl
@[simp] theorem setNode_viral (c : Nat) (x : Node) (s : State) : (setNode c x s).viral = s.viral := rfl
@[simp] theorem setNode_retained (c : Nat) (x : Node) (s : State) : (setNode c x s).retained = s.retained := rfl

@[simp] theorem setDie_cycle (c : Nat) (x : Die) (s : State) : (setDie c x s).cycle = s.cycle := rfl
@[simp] theorem setDie_free (c : Nat) (x : Die) (s : State) : (setDie c x s).free = s.free := rfl
@[simp] theorem setDie_seq (c : Nat) (x : Die) (s : State) : (setDie c x s).seq = s.seq := rfl
@[simp] theorem setDie_stamp (c : Nat) (x : Die) (s : State) : (setDie c x s).stamp = s.stamp := rfl
@[simp] theorem setDie_agenda (c : Nat) (x : Die) (s : State) : (setDie c x s).agenda = s.agenda := rfl
@[simp] theorem setDie_sel (c : Nat) (x : Die) (s : State) : (setDie c x s).sel = s.sel := rfl
@[simp] theorem setDie_focus (c : Nat) (x : Die) (s : State) : (setDie c x s).focus = s.focus := rfl
@[simp] theorem setDie_turn (c : Nat) (x : Die) (s : State) : (setDie c x s).turn = s.turn := rfl
@[simp] theorem setDie_mem (c : Nat) (x : Die) (s : State) : (setDie c x s).mem = s.mem := rfl
@[simp] theorem setDie_marks (c : Nat) (x : Die) (s : State) : (setDie c x s).marks = s.marks := rfl
@[simp] theorem setDie_fresco (c : Nat) (x : Die) (s : State) : (setDie c x s).fresco = s.fresco := rfl
@[simp] theorem setDie_frescoBad (c : Nat) (x : Die) (s : State) : (setDie c x s).frescoBad = s.frescoBad := rfl
@[simp] theorem setDie_wear (c : Nat) (x : Die) (s : State) : (setDie c x s).wear = s.wear := rfl
@[simp] theorem setDie_remap (c : Nat) (x : Die) (s : State) : (setDie c x s).remap = s.remap := rfl
@[simp] theorem setDie_retired (c : Nat) (x : Die) (s : State) : (setDie c x s).retired = s.retired := rfl
@[simp] theorem setDie_usedSpares (c : Nat) (x : Die) (s : State) : (setDie c x s).usedSpares = s.usedSpares := rfl
@[simp] theorem setDie_ctxs (c : Nat) (x : Die) (s : State) : (setDie c x s).ctxs = s.ctxs := rfl
@[simp] theorem setDie_cores (c : Nat) (x : Die) (s : State) : (setDie c x s).cores = s.cores := rfl
@[simp] theorem setDie_clusters (c : Nat) (x : Die) (s : State) : (setDie c x s).clusters = s.clusters := rfl
@[simp] theorem setDie_mex (c : Nat) (x : Die) (s : State) : (setDie c x s).mex = s.mex := rfl
@[simp] theorem setDie_cpy (c : Nat) (x : Die) (s : State) : (setDie c x s).cpy = s.cpy := rfl
@[simp] theorem setDie_glz (c : Nat) (x : Die) (s : State) : (setDie c x s).glz = s.glz := rfl
@[simp] theorem setDie_rtc (c : Nat) (x : Die) (s : State) : (setDie c x s).rtc = s.rtc := rfl
@[simp] theorem setDie_colls (c : Nat) (x : Die) (s : State) : (setDie c x s).colls = s.colls := rfl
@[simp] theorem setDie_pours (c : Nat) (x : Die) (s : State) : (setDie c x s).pours = s.pours := rfl
@[simp] theorem setDie_cancels (c : Nat) (x : Die) (s : State) : (setDie c x s).cancels = s.cancels := rfl
@[simp] theorem setDie_past (c : Nat) (x : Die) (s : State) : (setDie c x s).past = s.past := rfl
@[simp] theorem setDie_tally (c : Nat) (x : Die) (s : State) : (setDie c x s).tally = s.tally := rfl
@[simp] theorem setDie_flips (c : Nat) (x : Die) (s : State) : (setDie c x s).flips = s.flips := rfl
@[simp] theorem setDie_overlay (c : Nat) (x : Die) (s : State) : (setDie c x s).overlay = s.overlay := rfl
@[simp] theorem setDie_stagedBy (c : Nat) (x : Die) (s : State) : (setDie c x s).stagedBy = s.stagedBy := rfl
@[simp] theorem setDie_dirty (c : Nat) (x : Die) (s : State) : (setDie c x s).dirty = s.dirty := rfl
@[simp] theorem setDie_lines (c : Nat) (x : Die) (s : State) : (setDie c x s).lines = s.lines := rfl
@[simp] theorem setDie_nodes (c : Nat) (x : Die) (s : State) : (setDie c x s).nodes = s.nodes := rfl
@[simp] theorem setDie_parts (c : Nat) (x : Die) (s : State) : (setDie c x s).parts = s.parts := rfl
@[simp] theorem setDie_sessions (c : Nat) (x : Die) (s : State) : (setDie c x s).sessions = s.sessions := rfl
@[simp] theorem setDie_shoots (c : Nat) (x : Die) (s : State) : (setDie c x s).shoots = s.shoots := rfl
@[simp] theorem setDie_retires (c : Nat) (x : Die) (s : State) : (setDie c x s).retires = s.retires := rfl
@[simp] theorem setDie_retiredFrames (c : Nat) (x : Die) (s : State) : (setDie c x s).retiredFrames = s.retiredFrames := rfl
@[simp] theorem setDie_splits (c : Nat) (x : Die) (s : State) : (setDie c x s).splits = s.splits := rfl
@[simp] theorem setDie_ways (c : Nat) (x : Die) (s : State) : (setDie c x s).ways = s.ways := rfl
@[simp] theorem setDie_islands (c : Nat) (x : Die) (s : State) : (setDie c x s).islands = s.islands := rfl
@[simp] theorem setDie_ports (c : Nat) (x : Die) (s : State) : (setDie c x s).ports = s.ports := rfl
@[simp] theorem setDie_hosts (c : Nat) (x : Die) (s : State) : (setDie c x s).hosts = s.hosts := rfl
@[simp] theorem setDie_hostReads (c : Nat) (x : Die) (s : State) : (setDie c x s).hostReads = s.hostReads := rfl
@[simp] theorem setDie_log (c : Nat) (x : Die) (s : State) : (setDie c x s).log = s.log := rfl
@[simp] theorem setDie_checkpoints (c : Nat) (x : Die) (s : State) : (setDie c x s).checkpoints = s.checkpoints := rfl
@[simp] theorem setDie_measures (c : Nat) (x : Die) (s : State) : (setDie c x s).measures = s.measures := rfl
@[simp] theorem setDie_power (c : Nat) (x : Die) (s : State) : (setDie c x s).power = s.power := rfl
@[simp] theorem setDie_viral (c : Nat) (x : Die) (s : State) : (setDie c x s).viral = s.viral := rfl
@[simp] theorem setDie_retained (c : Nat) (x : Die) (s : State) : (setDie c x s).retained = s.retained := rfl

@[simp] theorem updCtx_cycle (c : CtxId) (x : Ctx → Ctx) (s : State) : (updCtx c x s).cycle = s.cycle := rfl
@[simp] theorem updCtx_free (c : CtxId) (x : Ctx → Ctx) (s : State) : (updCtx c x s).free = s.free := rfl
@[simp] theorem updCtx_seq (c : CtxId) (x : Ctx → Ctx) (s : State) : (updCtx c x s).seq = s.seq := rfl
@[simp] theorem updCtx_stamp (c : CtxId) (x : Ctx → Ctx) (s : State) : (updCtx c x s).stamp = s.stamp := rfl
@[simp] theorem updCtx_agenda (c : CtxId) (x : Ctx → Ctx) (s : State) : (updCtx c x s).agenda = s.agenda := rfl
@[simp] theorem updCtx_sel (c : CtxId) (x : Ctx → Ctx) (s : State) : (updCtx c x s).sel = s.sel := rfl
@[simp] theorem updCtx_focus (c : CtxId) (x : Ctx → Ctx) (s : State) : (updCtx c x s).focus = s.focus := rfl
@[simp] theorem updCtx_turn (c : CtxId) (x : Ctx → Ctx) (s : State) : (updCtx c x s).turn = s.turn := rfl
@[simp] theorem updCtx_mem (c : CtxId) (x : Ctx → Ctx) (s : State) : (updCtx c x s).mem = s.mem := rfl
@[simp] theorem updCtx_marks (c : CtxId) (x : Ctx → Ctx) (s : State) : (updCtx c x s).marks = s.marks := rfl
@[simp] theorem updCtx_fresco (c : CtxId) (x : Ctx → Ctx) (s : State) : (updCtx c x s).fresco = s.fresco := rfl
@[simp] theorem updCtx_frescoBad (c : CtxId) (x : Ctx → Ctx) (s : State) : (updCtx c x s).frescoBad = s.frescoBad := rfl
@[simp] theorem updCtx_wear (c : CtxId) (x : Ctx → Ctx) (s : State) : (updCtx c x s).wear = s.wear := rfl
@[simp] theorem updCtx_remap (c : CtxId) (x : Ctx → Ctx) (s : State) : (updCtx c x s).remap = s.remap := rfl
@[simp] theorem updCtx_retired (c : CtxId) (x : Ctx → Ctx) (s : State) : (updCtx c x s).retired = s.retired := rfl
@[simp] theorem updCtx_usedSpares (c : CtxId) (x : Ctx → Ctx) (s : State) : (updCtx c x s).usedSpares = s.usedSpares := rfl
@[simp] theorem updCtx_cores (c : CtxId) (x : Ctx → Ctx) (s : State) : (updCtx c x s).cores = s.cores := rfl
@[simp] theorem updCtx_clusters (c : CtxId) (x : Ctx → Ctx) (s : State) : (updCtx c x s).clusters = s.clusters := rfl
@[simp] theorem updCtx_mex (c : CtxId) (x : Ctx → Ctx) (s : State) : (updCtx c x s).mex = s.mex := rfl
@[simp] theorem updCtx_cpy (c : CtxId) (x : Ctx → Ctx) (s : State) : (updCtx c x s).cpy = s.cpy := rfl
@[simp] theorem updCtx_glz (c : CtxId) (x : Ctx → Ctx) (s : State) : (updCtx c x s).glz = s.glz := rfl
@[simp] theorem updCtx_rtc (c : CtxId) (x : Ctx → Ctx) (s : State) : (updCtx c x s).rtc = s.rtc := rfl
@[simp] theorem updCtx_colls (c : CtxId) (x : Ctx → Ctx) (s : State) : (updCtx c x s).colls = s.colls := rfl
@[simp] theorem updCtx_pours (c : CtxId) (x : Ctx → Ctx) (s : State) : (updCtx c x s).pours = s.pours := rfl
@[simp] theorem updCtx_cancels (c : CtxId) (x : Ctx → Ctx) (s : State) : (updCtx c x s).cancels = s.cancels := rfl
@[simp] theorem updCtx_past (c : CtxId) (x : Ctx → Ctx) (s : State) : (updCtx c x s).past = s.past := rfl
@[simp] theorem updCtx_tally (c : CtxId) (x : Ctx → Ctx) (s : State) : (updCtx c x s).tally = s.tally := rfl
@[simp] theorem updCtx_flips (c : CtxId) (x : Ctx → Ctx) (s : State) : (updCtx c x s).flips = s.flips := rfl
@[simp] theorem updCtx_overlay (c : CtxId) (x : Ctx → Ctx) (s : State) : (updCtx c x s).overlay = s.overlay := rfl
@[simp] theorem updCtx_stagedBy (c : CtxId) (x : Ctx → Ctx) (s : State) : (updCtx c x s).stagedBy = s.stagedBy := rfl
@[simp] theorem updCtx_dirty (c : CtxId) (x : Ctx → Ctx) (s : State) : (updCtx c x s).dirty = s.dirty := rfl
@[simp] theorem updCtx_lines (c : CtxId) (x : Ctx → Ctx) (s : State) : (updCtx c x s).lines = s.lines := rfl
@[simp] theorem updCtx_nodes (c : CtxId) (x : Ctx → Ctx) (s : State) : (updCtx c x s).nodes = s.nodes := rfl
@[simp] theorem updCtx_parts (c : CtxId) (x : Ctx → Ctx) (s : State) : (updCtx c x s).parts = s.parts := rfl
@[simp] theorem updCtx_sessions (c : CtxId) (x : Ctx → Ctx) (s : State) : (updCtx c x s).sessions = s.sessions := rfl
@[simp] theorem updCtx_shoots (c : CtxId) (x : Ctx → Ctx) (s : State) : (updCtx c x s).shoots = s.shoots := rfl
@[simp] theorem updCtx_retires (c : CtxId) (x : Ctx → Ctx) (s : State) : (updCtx c x s).retires = s.retires := rfl
@[simp] theorem updCtx_retiredFrames (c : CtxId) (x : Ctx → Ctx) (s : State) : (updCtx c x s).retiredFrames = s.retiredFrames := rfl
@[simp] theorem updCtx_splits (c : CtxId) (x : Ctx → Ctx) (s : State) : (updCtx c x s).splits = s.splits := rfl
@[simp] theorem updCtx_ways (c : CtxId) (x : Ctx → Ctx) (s : State) : (updCtx c x s).ways = s.ways := rfl
@[simp] theorem updCtx_dies (c : CtxId) (x : Ctx → Ctx) (s : State) : (updCtx c x s).dies = s.dies := rfl
@[simp] theorem updCtx_edges (c : CtxId) (x : Ctx → Ctx) (s : State) : (updCtx c x s).edges = s.edges := rfl
@[simp] theorem updCtx_islands (c : CtxId) (x : Ctx → Ctx) (s : State) : (updCtx c x s).islands = s.islands := rfl
@[simp] theorem updCtx_ports (c : CtxId) (x : Ctx → Ctx) (s : State) : (updCtx c x s).ports = s.ports := rfl
@[simp] theorem updCtx_hosts (c : CtxId) (x : Ctx → Ctx) (s : State) : (updCtx c x s).hosts = s.hosts := rfl
@[simp] theorem updCtx_hostReads (c : CtxId) (x : Ctx → Ctx) (s : State) : (updCtx c x s).hostReads = s.hostReads := rfl
@[simp] theorem updCtx_log (c : CtxId) (x : Ctx → Ctx) (s : State) : (updCtx c x s).log = s.log := rfl
@[simp] theorem updCtx_checkpoints (c : CtxId) (x : Ctx → Ctx) (s : State) : (updCtx c x s).checkpoints = s.checkpoints := rfl
@[simp] theorem updCtx_measures (c : CtxId) (x : Ctx → Ctx) (s : State) : (updCtx c x s).measures = s.measures := rfl
@[simp] theorem updCtx_power (c : CtxId) (x : Ctx → Ctx) (s : State) : (updCtx c x s).power = s.power := rfl
@[simp] theorem updCtx_viral (c : CtxId) (x : Ctx → Ctx) (s : State) : (updCtx c x s).viral = s.viral := rfl
@[simp] theorem updCtx_retained (c : CtxId) (x : Ctx → Ctx) (s : State) : (updCtx c x s).retained = s.retained := rfl

@[simp] theorem bumpSeq_cycle (s : State) : (bumpSeq s).cycle = s.cycle := rfl
@[simp] theorem bumpSeq_free (s : State) : (bumpSeq s).free = s.free := rfl
@[simp] theorem bumpSeq_stamp (s : State) : (bumpSeq s).stamp = s.stamp := rfl
@[simp] theorem bumpSeq_agenda (s : State) : (bumpSeq s).agenda = s.agenda := rfl
@[simp] theorem bumpSeq_sel (s : State) : (bumpSeq s).sel = s.sel := rfl
@[simp] theorem bumpSeq_focus (s : State) : (bumpSeq s).focus = s.focus := rfl
@[simp] theorem bumpSeq_turn (s : State) : (bumpSeq s).turn = s.turn := rfl
@[simp] theorem bumpSeq_mem (s : State) : (bumpSeq s).mem = s.mem := rfl
@[simp] theorem bumpSeq_marks (s : State) : (bumpSeq s).marks = s.marks := rfl
@[simp] theorem bumpSeq_fresco (s : State) : (bumpSeq s).fresco = s.fresco := rfl
@[simp] theorem bumpSeq_frescoBad (s : State) : (bumpSeq s).frescoBad = s.frescoBad := rfl
@[simp] theorem bumpSeq_wear (s : State) : (bumpSeq s).wear = s.wear := rfl
@[simp] theorem bumpSeq_remap (s : State) : (bumpSeq s).remap = s.remap := rfl
@[simp] theorem bumpSeq_retired (s : State) : (bumpSeq s).retired = s.retired := rfl
@[simp] theorem bumpSeq_usedSpares (s : State) : (bumpSeq s).usedSpares = s.usedSpares := rfl
@[simp] theorem bumpSeq_ctxs (s : State) : (bumpSeq s).ctxs = s.ctxs := rfl
@[simp] theorem bumpSeq_cores (s : State) : (bumpSeq s).cores = s.cores := rfl
@[simp] theorem bumpSeq_clusters (s : State) : (bumpSeq s).clusters = s.clusters := rfl
@[simp] theorem bumpSeq_mex (s : State) : (bumpSeq s).mex = s.mex := rfl
@[simp] theorem bumpSeq_cpy (s : State) : (bumpSeq s).cpy = s.cpy := rfl
@[simp] theorem bumpSeq_glz (s : State) : (bumpSeq s).glz = s.glz := rfl
@[simp] theorem bumpSeq_rtc (s : State) : (bumpSeq s).rtc = s.rtc := rfl
@[simp] theorem bumpSeq_colls (s : State) : (bumpSeq s).colls = s.colls := rfl
@[simp] theorem bumpSeq_pours (s : State) : (bumpSeq s).pours = s.pours := rfl
@[simp] theorem bumpSeq_cancels (s : State) : (bumpSeq s).cancels = s.cancels := rfl
@[simp] theorem bumpSeq_past (s : State) : (bumpSeq s).past = s.past := rfl
@[simp] theorem bumpSeq_tally (s : State) : (bumpSeq s).tally = s.tally := rfl
@[simp] theorem bumpSeq_flips (s : State) : (bumpSeq s).flips = s.flips := rfl
@[simp] theorem bumpSeq_overlay (s : State) : (bumpSeq s).overlay = s.overlay := rfl
@[simp] theorem bumpSeq_stagedBy (s : State) : (bumpSeq s).stagedBy = s.stagedBy := rfl
@[simp] theorem bumpSeq_dirty (s : State) : (bumpSeq s).dirty = s.dirty := rfl
@[simp] theorem bumpSeq_lines (s : State) : (bumpSeq s).lines = s.lines := rfl
@[simp] theorem bumpSeq_nodes (s : State) : (bumpSeq s).nodes = s.nodes := rfl
@[simp] theorem bumpSeq_parts (s : State) : (bumpSeq s).parts = s.parts := rfl
@[simp] theorem bumpSeq_sessions (s : State) : (bumpSeq s).sessions = s.sessions := rfl
@[simp] theorem bumpSeq_shoots (s : State) : (bumpSeq s).shoots = s.shoots := rfl
@[simp] theorem bumpSeq_retires (s : State) : (bumpSeq s).retires = s.retires := rfl
@[simp] theorem bumpSeq_retiredFrames (s : State) : (bumpSeq s).retiredFrames = s.retiredFrames := rfl
@[simp] theorem bumpSeq_splits (s : State) : (bumpSeq s).splits = s.splits := rfl
@[simp] theorem bumpSeq_ways (s : State) : (bumpSeq s).ways = s.ways := rfl
@[simp] theorem bumpSeq_dies (s : State) : (bumpSeq s).dies = s.dies := rfl
@[simp] theorem bumpSeq_edges (s : State) : (bumpSeq s).edges = s.edges := rfl
@[simp] theorem bumpSeq_islands (s : State) : (bumpSeq s).islands = s.islands := rfl
@[simp] theorem bumpSeq_ports (s : State) : (bumpSeq s).ports = s.ports := rfl
@[simp] theorem bumpSeq_hosts (s : State) : (bumpSeq s).hosts = s.hosts := rfl
@[simp] theorem bumpSeq_hostReads (s : State) : (bumpSeq s).hostReads = s.hostReads := rfl
@[simp] theorem bumpSeq_log (s : State) : (bumpSeq s).log = s.log := rfl
@[simp] theorem bumpSeq_checkpoints (s : State) : (bumpSeq s).checkpoints = s.checkpoints := rfl
@[simp] theorem bumpSeq_measures (s : State) : (bumpSeq s).measures = s.measures := rfl
@[simp] theorem bumpSeq_power (s : State) : (bumpSeq s).power = s.power := rfl
@[simp] theorem bumpSeq_viral (s : State) : (bumpSeq s).viral = s.viral := rfl
@[simp] theorem bumpSeq_retained (s : State) : (bumpSeq s).retained = s.retained := rfl
@[simp] theorem bumpSeq_seq (s : State) : (bumpSeq s).seq = s.seq + 1 := rfl

@[simp] theorem countEvent_cycle (who : CtxId) (s : State) : (countEvent who s).cycle = s.cycle := rfl
@[simp] theorem countEvent_free (who : CtxId) (s : State) : (countEvent who s).free = s.free := rfl
@[simp] theorem countEvent_stamp (who : CtxId) (s : State) : (countEvent who s).stamp = s.stamp := rfl
@[simp] theorem countEvent_agenda (who : CtxId) (s : State) : (countEvent who s).agenda = s.agenda := rfl
@[simp] theorem countEvent_sel (who : CtxId) (s : State) : (countEvent who s).sel = s.sel := rfl
@[simp] theorem countEvent_focus (who : CtxId) (s : State) : (countEvent who s).focus = s.focus := rfl
@[simp] theorem countEvent_turn (who : CtxId) (s : State) : (countEvent who s).turn = s.turn := rfl
@[simp] theorem countEvent_mem (who : CtxId) (s : State) : (countEvent who s).mem = s.mem := rfl
@[simp] theorem countEvent_marks (who : CtxId) (s : State) : (countEvent who s).marks = s.marks := rfl
@[simp] theorem countEvent_fresco (who : CtxId) (s : State) : (countEvent who s).fresco = s.fresco := rfl
@[simp] theorem countEvent_frescoBad (who : CtxId) (s : State) : (countEvent who s).frescoBad = s.frescoBad := rfl
@[simp] theorem countEvent_wear (who : CtxId) (s : State) : (countEvent who s).wear = s.wear := rfl
@[simp] theorem countEvent_remap (who : CtxId) (s : State) : (countEvent who s).remap = s.remap := rfl
@[simp] theorem countEvent_retired (who : CtxId) (s : State) : (countEvent who s).retired = s.retired := rfl
@[simp] theorem countEvent_usedSpares (who : CtxId) (s : State) : (countEvent who s).usedSpares = s.usedSpares := rfl
@[simp] theorem countEvent_ctxs (who : CtxId) (s : State) : (countEvent who s).ctxs = s.ctxs := rfl
@[simp] theorem countEvent_cores (who : CtxId) (s : State) : (countEvent who s).cores = s.cores := rfl
@[simp] theorem countEvent_clusters (who : CtxId) (s : State) : (countEvent who s).clusters = s.clusters := rfl
@[simp] theorem countEvent_mex (who : CtxId) (s : State) : (countEvent who s).mex = s.mex := rfl
@[simp] theorem countEvent_cpy (who : CtxId) (s : State) : (countEvent who s).cpy = s.cpy := rfl
@[simp] theorem countEvent_glz (who : CtxId) (s : State) : (countEvent who s).glz = s.glz := rfl
@[simp] theorem countEvent_rtc (who : CtxId) (s : State) : (countEvent who s).rtc = s.rtc := rfl
@[simp] theorem countEvent_colls (who : CtxId) (s : State) : (countEvent who s).colls = s.colls := rfl
@[simp] theorem countEvent_pours (who : CtxId) (s : State) : (countEvent who s).pours = s.pours := rfl
@[simp] theorem countEvent_cancels (who : CtxId) (s : State) : (countEvent who s).cancels = s.cancels := rfl
@[simp] theorem countEvent_past (who : CtxId) (s : State) : (countEvent who s).past = s.past := rfl
@[simp] theorem countEvent_flips (who : CtxId) (s : State) : (countEvent who s).flips = s.flips := rfl
@[simp] theorem countEvent_overlay (who : CtxId) (s : State) : (countEvent who s).overlay = s.overlay := rfl
@[simp] theorem countEvent_stagedBy (who : CtxId) (s : State) : (countEvent who s).stagedBy = s.stagedBy := rfl
@[simp] theorem countEvent_dirty (who : CtxId) (s : State) : (countEvent who s).dirty = s.dirty := rfl
@[simp] theorem countEvent_lines (who : CtxId) (s : State) : (countEvent who s).lines = s.lines := rfl
@[simp] theorem countEvent_nodes (who : CtxId) (s : State) : (countEvent who s).nodes = s.nodes := rfl
@[simp] theorem countEvent_parts (who : CtxId) (s : State) : (countEvent who s).parts = s.parts := rfl
@[simp] theorem countEvent_sessions (who : CtxId) (s : State) : (countEvent who s).sessions = s.sessions := rfl
@[simp] theorem countEvent_shoots (who : CtxId) (s : State) : (countEvent who s).shoots = s.shoots := rfl
@[simp] theorem countEvent_retires (who : CtxId) (s : State) : (countEvent who s).retires = s.retires := rfl
@[simp] theorem countEvent_retiredFrames (who : CtxId) (s : State) : (countEvent who s).retiredFrames = s.retiredFrames := rfl
@[simp] theorem countEvent_splits (who : CtxId) (s : State) : (countEvent who s).splits = s.splits := rfl
@[simp] theorem countEvent_ways (who : CtxId) (s : State) : (countEvent who s).ways = s.ways := rfl
@[simp] theorem countEvent_dies (who : CtxId) (s : State) : (countEvent who s).dies = s.dies := rfl
@[simp] theorem countEvent_edges (who : CtxId) (s : State) : (countEvent who s).edges = s.edges := rfl
@[simp] theorem countEvent_islands (who : CtxId) (s : State) : (countEvent who s).islands = s.islands := rfl
@[simp] theorem countEvent_ports (who : CtxId) (s : State) : (countEvent who s).ports = s.ports := rfl
@[simp] theorem countEvent_hosts (who : CtxId) (s : State) : (countEvent who s).hosts = s.hosts := rfl
@[simp] theorem countEvent_hostReads (who : CtxId) (s : State) : (countEvent who s).hostReads = s.hostReads := rfl
@[simp] theorem countEvent_log (who : CtxId) (s : State) : (countEvent who s).log = s.log := rfl
@[simp] theorem countEvent_checkpoints (who : CtxId) (s : State) : (countEvent who s).checkpoints = s.checkpoints := rfl
@[simp] theorem countEvent_measures (who : CtxId) (s : State) : (countEvent who s).measures = s.measures := rfl
@[simp] theorem countEvent_power (who : CtxId) (s : State) : (countEvent who s).power = s.power := rfl
@[simp] theorem countEvent_viral (who : CtxId) (s : State) : (countEvent who s).viral = s.viral := rfl
@[simp] theorem countEvent_retained (who : CtxId) (s : State) : (countEvent who s).retained = s.retained := rfl
@[simp] theorem countEvent_seq (who : CtxId) (s : State) : (countEvent who s).seq = s.seq := rfl

@[simp] theorem nodeEvent_cycle (who : CtxId) (s : State) : (nodeEvent who s).cycle = s.cycle := rfl
@[simp] theorem nodeEvent_free (who : CtxId) (s : State) : (nodeEvent who s).free = s.free := rfl
@[simp] theorem nodeEvent_stamp (who : CtxId) (s : State) : (nodeEvent who s).stamp = s.stamp := rfl
@[simp] theorem nodeEvent_agenda (who : CtxId) (s : State) : (nodeEvent who s).agenda = s.agenda := rfl
@[simp] theorem nodeEvent_sel (who : CtxId) (s : State) : (nodeEvent who s).sel = s.sel := rfl
@[simp] theorem nodeEvent_focus (who : CtxId) (s : State) : (nodeEvent who s).focus = s.focus := rfl
@[simp] theorem nodeEvent_turn (who : CtxId) (s : State) : (nodeEvent who s).turn = s.turn := rfl
@[simp] theorem nodeEvent_mem (who : CtxId) (s : State) : (nodeEvent who s).mem = s.mem := rfl
@[simp] theorem nodeEvent_marks (who : CtxId) (s : State) : (nodeEvent who s).marks = s.marks := rfl
@[simp] theorem nodeEvent_fresco (who : CtxId) (s : State) : (nodeEvent who s).fresco = s.fresco := rfl
@[simp] theorem nodeEvent_frescoBad (who : CtxId) (s : State) : (nodeEvent who s).frescoBad = s.frescoBad := rfl
@[simp] theorem nodeEvent_wear (who : CtxId) (s : State) : (nodeEvent who s).wear = s.wear := rfl
@[simp] theorem nodeEvent_remap (who : CtxId) (s : State) : (nodeEvent who s).remap = s.remap := rfl
@[simp] theorem nodeEvent_retired (who : CtxId) (s : State) : (nodeEvent who s).retired = s.retired := rfl
@[simp] theorem nodeEvent_usedSpares (who : CtxId) (s : State) : (nodeEvent who s).usedSpares = s.usedSpares := rfl
@[simp] theorem nodeEvent_ctxs (who : CtxId) (s : State) : (nodeEvent who s).ctxs = s.ctxs := rfl
@[simp] theorem nodeEvent_cores (who : CtxId) (s : State) : (nodeEvent who s).cores = s.cores := rfl
@[simp] theorem nodeEvent_clusters (who : CtxId) (s : State) : (nodeEvent who s).clusters = s.clusters := rfl
@[simp] theorem nodeEvent_mex (who : CtxId) (s : State) : (nodeEvent who s).mex = s.mex := rfl
@[simp] theorem nodeEvent_cpy (who : CtxId) (s : State) : (nodeEvent who s).cpy = s.cpy := rfl
@[simp] theorem nodeEvent_glz (who : CtxId) (s : State) : (nodeEvent who s).glz = s.glz := rfl
@[simp] theorem nodeEvent_rtc (who : CtxId) (s : State) : (nodeEvent who s).rtc = s.rtc := rfl
@[simp] theorem nodeEvent_colls (who : CtxId) (s : State) : (nodeEvent who s).colls = s.colls := rfl
@[simp] theorem nodeEvent_pours (who : CtxId) (s : State) : (nodeEvent who s).pours = s.pours := rfl
@[simp] theorem nodeEvent_cancels (who : CtxId) (s : State) : (nodeEvent who s).cancels = s.cancels := rfl
@[simp] theorem nodeEvent_past (who : CtxId) (s : State) : (nodeEvent who s).past = s.past := rfl
@[simp] theorem nodeEvent_flips (who : CtxId) (s : State) : (nodeEvent who s).flips = s.flips := rfl
@[simp] theorem nodeEvent_overlay (who : CtxId) (s : State) : (nodeEvent who s).overlay = s.overlay := rfl
@[simp] theorem nodeEvent_stagedBy (who : CtxId) (s : State) : (nodeEvent who s).stagedBy = s.stagedBy := rfl
@[simp] theorem nodeEvent_dirty (who : CtxId) (s : State) : (nodeEvent who s).dirty = s.dirty := rfl
@[simp] theorem nodeEvent_lines (who : CtxId) (s : State) : (nodeEvent who s).lines = s.lines := rfl
@[simp] theorem nodeEvent_nodes (who : CtxId) (s : State) : (nodeEvent who s).nodes = s.nodes := rfl
@[simp] theorem nodeEvent_parts (who : CtxId) (s : State) : (nodeEvent who s).parts = s.parts := rfl
@[simp] theorem nodeEvent_sessions (who : CtxId) (s : State) : (nodeEvent who s).sessions = s.sessions := rfl
@[simp] theorem nodeEvent_shoots (who : CtxId) (s : State) : (nodeEvent who s).shoots = s.shoots := rfl
@[simp] theorem nodeEvent_retires (who : CtxId) (s : State) : (nodeEvent who s).retires = s.retires := rfl
@[simp] theorem nodeEvent_retiredFrames (who : CtxId) (s : State) : (nodeEvent who s).retiredFrames = s.retiredFrames := rfl
@[simp] theorem nodeEvent_splits (who : CtxId) (s : State) : (nodeEvent who s).splits = s.splits := rfl
@[simp] theorem nodeEvent_ways (who : CtxId) (s : State) : (nodeEvent who s).ways = s.ways := rfl
@[simp] theorem nodeEvent_dies (who : CtxId) (s : State) : (nodeEvent who s).dies = s.dies := rfl
@[simp] theorem nodeEvent_edges (who : CtxId) (s : State) : (nodeEvent who s).edges = s.edges := rfl
@[simp] theorem nodeEvent_islands (who : CtxId) (s : State) : (nodeEvent who s).islands = s.islands := rfl
@[simp] theorem nodeEvent_ports (who : CtxId) (s : State) : (nodeEvent who s).ports = s.ports := rfl
@[simp] theorem nodeEvent_hosts (who : CtxId) (s : State) : (nodeEvent who s).hosts = s.hosts := rfl
@[simp] theorem nodeEvent_hostReads (who : CtxId) (s : State) : (nodeEvent who s).hostReads = s.hostReads := rfl
@[simp] theorem nodeEvent_log (who : CtxId) (s : State) : (nodeEvent who s).log = s.log := rfl
@[simp] theorem nodeEvent_checkpoints (who : CtxId) (s : State) : (nodeEvent who s).checkpoints = s.checkpoints := rfl
@[simp] theorem nodeEvent_measures (who : CtxId) (s : State) : (nodeEvent who s).measures = s.measures := rfl
@[simp] theorem nodeEvent_power (who : CtxId) (s : State) : (nodeEvent who s).power = s.power := rfl
@[simp] theorem nodeEvent_viral (who : CtxId) (s : State) : (nodeEvent who s).viral = s.viral := rfl
@[simp] theorem nodeEvent_seq (who : CtxId) (s : State) : (nodeEvent who s).seq = s.seq + 1 := rfl
@[simp] theorem nodeEvent_retained (who : CtxId) (s : State) : (nodeEvent who s).retained = s.retained := rfl

@[simp] theorem getCtx_setCtx_same (c : CtxId) (x : Ctx) (s : State) : getCtx (setCtx c x s) c = x := by
  simp [getCtx, setCtx, assoc_assocSet_same]
theorem getCtx_setCtx_ne {c d : CtxId} (x : Ctx) (s : State) (h : d ≠ c) : getCtx (setCtx c x s) d = getCtx s d := by
  simp [getCtx, setCtx, assoc_assocSet_ne _ _ h]
@[simp] theorem setCtx_setCtx (c : CtxId) (x y : Ctx) (s : State) : setCtx c x (setCtx c y s) = setCtx c x s := by
  simp [setCtx, assocSet_assocSet]
@[simp] theorem getCore_setCore_same (c : CoreId) (x : Core) (s : State) : getCore (setCore c x s) c = x := by
  simp [getCore, setCore, assoc_assocSet_same]
theorem getCore_setCore_ne {c d : CoreId} (x : Core) (s : State) (h : d ≠ c) : getCore (setCore c x s) d = getCore s d := by
  simp [getCore, setCore, assoc_assocSet_ne _ _ h]
@[simp] theorem setCore_setCore (c : CoreId) (x y : Core) (s : State) : setCore c x (setCore c y s) = setCore c x s := by
  simp [setCore, assocSet_assocSet]
@[simp] theorem getCl_setCl_same (c : ClId) (x : Cluster) (s : State) : getCl (setCl c x s) c = x := by
  simp [getCl, setCl, assoc_assocSet_same]
theorem getCl_setCl_ne {c d : ClId} (x : Cluster) (s : State) (h : d ≠ c) : getCl (setCl c x s) d = getCl s d := by
  simp [getCl, setCl, assoc_assocSet_ne _ _ h]
@[simp] theorem setCl_setCl (c : ClId) (x y : Cluster) (s : State) : setCl c x (setCl c y s) = setCl c x s := by
  simp [setCl, assocSet_assocSet]
@[simp] theorem getMex_setMex_same (c : EngId) (x : Mex) (s : State) : getMex (setMex c x s) c = x := by
  simp [getMex, setMex, assoc_assocSet_same]
theorem getMex_setMex_ne {c d : EngId} (x : Mex) (s : State) (h : d ≠ c) : getMex (setMex c x s) d = getMex s d := by
  simp [getMex, setMex, assoc_assocSet_ne _ _ h]
@[simp] theorem setMex_setMex (c : EngId) (x y : Mex) (s : State) : setMex c x (setMex c y s) = setMex c x s := by
  simp [setMex, assocSet_assocSet]
@[simp] theorem getCpy_setCpy_same (c : DieEng) (x : Cpy) (s : State) : getCpy (setCpy c x s) c = x := by
  simp [getCpy, setCpy, assoc_assocSet_same]
theorem getCpy_setCpy_ne {c d : DieEng} (x : Cpy) (s : State) (h : d ≠ c) : getCpy (setCpy c x s) d = getCpy s d := by
  simp [getCpy, setCpy, assoc_assocSet_ne _ _ h]
@[simp] theorem setCpy_setCpy (c : DieEng) (x y : Cpy) (s : State) : setCpy c x (setCpy c y s) = setCpy c x s := by
  simp [setCpy, assocSet_assocSet]
@[simp] theorem getGlz_setGlz_same (c : DieEng) (x : Glz) (s : State) : getGlz (setGlz c x s) c = x := by
  simp [getGlz, setGlz, assoc_assocSet_same]
theorem getGlz_setGlz_ne {c d : DieEng} (x : Glz) (s : State) (h : d ≠ c) : getGlz (setGlz c x s) d = getGlz s d := by
  simp [getGlz, setGlz, assoc_assocSet_ne _ _ h]
@[simp] theorem setGlz_setGlz (c : DieEng) (x y : Glz) (s : State) : setGlz c x (setGlz c y s) = setGlz c x s := by
  simp [setGlz, assocSet_assocSet]
@[simp] theorem getRtc_setRtc_same (c : DieEng) (x : Rtc) (s : State) : getRtc (setRtc c x s) c = x := by
  simp [getRtc, setRtc, assoc_assocSet_same]
theorem getRtc_setRtc_ne {c d : DieEng} (x : Rtc) (s : State) (h : d ≠ c) : getRtc (setRtc c x s) d = getRtc s d := by
  simp [getRtc, setRtc, assoc_assocSet_ne _ _ h]
@[simp] theorem setRtc_setRtc (c : DieEng) (x y : Rtc) (s : State) : setRtc c x (setRtc c y s) = setRtc c x s := by
  simp [setRtc, assocSet_assocSet]
@[simp] theorem getPart_setPart_same (c : Nat) (x : Part) (s : State) : getPart (setPart c x s) c = x := by
  simp [getPart, setPart, assoc_assocSet_same]
theorem getPart_setPart_ne {c d : Nat} (x : Part) (s : State) (h : d ≠ c) : getPart (setPart c x s) d = getPart s d := by
  simp [getPart, setPart, assoc_assocSet_ne _ _ h]
@[simp] theorem setPart_setPart (c : Nat) (x y : Part) (s : State) : setPart c x (setPart c y s) = setPart c x s := by
  simp [setPart, assocSet_assocSet]

@[simp] theorem getCtx_setCore (c : CoreId) (x : Core) (s : State) (d : CtxId) : getCtx (setCore c x s) d = getCtx s d := rfl
@[simp] theorem getCtx_setCl (c : ClId) (x : Cluster) (s : State) (d : CtxId) : getCtx (setCl c x s) d = getCtx s d := rfl
@[simp] theorem getCtx_setMex (c : EngId) (x : Mex) (s : State) (d : CtxId) : getCtx (setMex c x s) d = getCtx s d := rfl
@[simp] theorem getCtx_setCpy (c : DieEng) (x : Cpy) (s : State) (d : CtxId) : getCtx (setCpy c x s) d = getCtx s d := rfl
@[simp] theorem getCtx_setGlz (c : DieEng) (x : Glz) (s : State) (d : CtxId) : getCtx (setGlz c x s) d = getCtx s d := rfl
@[simp] theorem getCtx_setRtc (c : DieEng) (x : Rtc) (s : State) (d : CtxId) : getCtx (setRtc c x s) d = getCtx s d := rfl
@[simp] theorem getCtx_setPart (c : Nat) (x : Part) (s : State) (d : CtxId) : getCtx (setPart c x s) d = getCtx s d := rfl
@[simp] theorem getCtx_setNode (c : Nat) (x : Node) (s : State) (d : CtxId) : getCtx (setNode c x s) d = getCtx s d := rfl
@[simp] theorem getCtx_setDie (c : Nat) (x : Die) (s : State) (d : CtxId) : getCtx (setDie c x s) d = getCtx s d := rfl
@[simp] theorem getCtx_bumpSeq (s : State) (d : CtxId) : getCtx (bumpSeq s) d = getCtx s d := rfl
@[simp] theorem getCore_setCtx (c : CtxId) (x : Ctx) (s : State) (d : CoreId) : getCore (setCtx c x s) d = getCore s d := rfl
@[simp] theorem getCore_setCl (c : ClId) (x : Cluster) (s : State) (d : CoreId) : getCore (setCl c x s) d = getCore s d := rfl
@[simp] theorem getCore_setMex (c : EngId) (x : Mex) (s : State) (d : CoreId) : getCore (setMex c x s) d = getCore s d := rfl
@[simp] theorem getCore_setCpy (c : DieEng) (x : Cpy) (s : State) (d : CoreId) : getCore (setCpy c x s) d = getCore s d := rfl
@[simp] theorem getCore_setGlz (c : DieEng) (x : Glz) (s : State) (d : CoreId) : getCore (setGlz c x s) d = getCore s d := rfl
@[simp] theorem getCore_setRtc (c : DieEng) (x : Rtc) (s : State) (d : CoreId) : getCore (setRtc c x s) d = getCore s d := rfl
@[simp] theorem getCore_setPart (c : Nat) (x : Part) (s : State) (d : CoreId) : getCore (setPart c x s) d = getCore s d := rfl
@[simp] theorem getCore_setNode (c : Nat) (x : Node) (s : State) (d : CoreId) : getCore (setNode c x s) d = getCore s d := rfl
@[simp] theorem getCore_setDie (c : Nat) (x : Die) (s : State) (d : CoreId) : getCore (setDie c x s) d = getCore s d := rfl
@[simp] theorem getCore_updCtx (c : CtxId) (x : Ctx → Ctx) (s : State) (d : CoreId) : getCore (updCtx c x s) d = getCore s d := rfl
@[simp] theorem getCore_bumpSeq (s : State) (d : CoreId) : getCore (bumpSeq s) d = getCore s d := rfl
@[simp] theorem getCl_setCtx (c : CtxId) (x : Ctx) (s : State) (d : ClId) : getCl (setCtx c x s) d = getCl s d := rfl
@[simp] theorem getCl_setCore (c : CoreId) (x : Core) (s : State) (d : ClId) : getCl (setCore c x s) d = getCl s d := rfl
@[simp] theorem getCl_setMex (c : EngId) (x : Mex) (s : State) (d : ClId) : getCl (setMex c x s) d = getCl s d := rfl
@[simp] theorem getCl_setCpy (c : DieEng) (x : Cpy) (s : State) (d : ClId) : getCl (setCpy c x s) d = getCl s d := rfl
@[simp] theorem getCl_setGlz (c : DieEng) (x : Glz) (s : State) (d : ClId) : getCl (setGlz c x s) d = getCl s d := rfl
@[simp] theorem getCl_setRtc (c : DieEng) (x : Rtc) (s : State) (d : ClId) : getCl (setRtc c x s) d = getCl s d := rfl
@[simp] theorem getCl_setPart (c : Nat) (x : Part) (s : State) (d : ClId) : getCl (setPart c x s) d = getCl s d := rfl
@[simp] theorem getCl_setNode (c : Nat) (x : Node) (s : State) (d : ClId) : getCl (setNode c x s) d = getCl s d := rfl
@[simp] theorem getCl_setDie (c : Nat) (x : Die) (s : State) (d : ClId) : getCl (setDie c x s) d = getCl s d := rfl
@[simp] theorem getCl_updCtx (c : CtxId) (x : Ctx → Ctx) (s : State) (d : ClId) : getCl (updCtx c x s) d = getCl s d := rfl
@[simp] theorem getCl_bumpSeq (s : State) (d : ClId) : getCl (bumpSeq s) d = getCl s d := rfl
@[simp] theorem getMex_setCtx (c : CtxId) (x : Ctx) (s : State) (d : EngId) : getMex (setCtx c x s) d = getMex s d := rfl
@[simp] theorem getMex_setCore (c : CoreId) (x : Core) (s : State) (d : EngId) : getMex (setCore c x s) d = getMex s d := rfl
@[simp] theorem getMex_setCl (c : ClId) (x : Cluster) (s : State) (d : EngId) : getMex (setCl c x s) d = getMex s d := rfl
@[simp] theorem getMex_setCpy (c : DieEng) (x : Cpy) (s : State) (d : EngId) : getMex (setCpy c x s) d = getMex s d := rfl
@[simp] theorem getMex_setGlz (c : DieEng) (x : Glz) (s : State) (d : EngId) : getMex (setGlz c x s) d = getMex s d := rfl
@[simp] theorem getMex_setRtc (c : DieEng) (x : Rtc) (s : State) (d : EngId) : getMex (setRtc c x s) d = getMex s d := rfl
@[simp] theorem getMex_setPart (c : Nat) (x : Part) (s : State) (d : EngId) : getMex (setPart c x s) d = getMex s d := rfl
@[simp] theorem getMex_setNode (c : Nat) (x : Node) (s : State) (d : EngId) : getMex (setNode c x s) d = getMex s d := rfl
@[simp] theorem getMex_setDie (c : Nat) (x : Die) (s : State) (d : EngId) : getMex (setDie c x s) d = getMex s d := rfl
@[simp] theorem getMex_updCtx (c : CtxId) (x : Ctx → Ctx) (s : State) (d : EngId) : getMex (updCtx c x s) d = getMex s d := rfl
@[simp] theorem getMex_bumpSeq (s : State) (d : EngId) : getMex (bumpSeq s) d = getMex s d := rfl
@[simp] theorem getCpy_setCtx (c : CtxId) (x : Ctx) (s : State) (d : DieEng) : getCpy (setCtx c x s) d = getCpy s d := rfl
@[simp] theorem getCpy_setCore (c : CoreId) (x : Core) (s : State) (d : DieEng) : getCpy (setCore c x s) d = getCpy s d := rfl
@[simp] theorem getCpy_setCl (c : ClId) (x : Cluster) (s : State) (d : DieEng) : getCpy (setCl c x s) d = getCpy s d := rfl
@[simp] theorem getCpy_setMex (c : EngId) (x : Mex) (s : State) (d : DieEng) : getCpy (setMex c x s) d = getCpy s d := rfl
@[simp] theorem getCpy_setGlz (c : DieEng) (x : Glz) (s : State) (d : DieEng) : getCpy (setGlz c x s) d = getCpy s d := rfl
@[simp] theorem getCpy_setRtc (c : DieEng) (x : Rtc) (s : State) (d : DieEng) : getCpy (setRtc c x s) d = getCpy s d := rfl
@[simp] theorem getCpy_setPart (c : Nat) (x : Part) (s : State) (d : DieEng) : getCpy (setPart c x s) d = getCpy s d := rfl
@[simp] theorem getCpy_setNode (c : Nat) (x : Node) (s : State) (d : DieEng) : getCpy (setNode c x s) d = getCpy s d := rfl
@[simp] theorem getCpy_setDie (c : Nat) (x : Die) (s : State) (d : DieEng) : getCpy (setDie c x s) d = getCpy s d := rfl
@[simp] theorem getCpy_updCtx (c : CtxId) (x : Ctx → Ctx) (s : State) (d : DieEng) : getCpy (updCtx c x s) d = getCpy s d := rfl
@[simp] theorem getCpy_bumpSeq (s : State) (d : DieEng) : getCpy (bumpSeq s) d = getCpy s d := rfl
@[simp] theorem getGlz_setCtx (c : CtxId) (x : Ctx) (s : State) (d : DieEng) : getGlz (setCtx c x s) d = getGlz s d := rfl
@[simp] theorem getGlz_setCore (c : CoreId) (x : Core) (s : State) (d : DieEng) : getGlz (setCore c x s) d = getGlz s d := rfl
@[simp] theorem getGlz_setCl (c : ClId) (x : Cluster) (s : State) (d : DieEng) : getGlz (setCl c x s) d = getGlz s d := rfl
@[simp] theorem getGlz_setMex (c : EngId) (x : Mex) (s : State) (d : DieEng) : getGlz (setMex c x s) d = getGlz s d := rfl
@[simp] theorem getGlz_setCpy (c : DieEng) (x : Cpy) (s : State) (d : DieEng) : getGlz (setCpy c x s) d = getGlz s d := rfl
@[simp] theorem getGlz_setRtc (c : DieEng) (x : Rtc) (s : State) (d : DieEng) : getGlz (setRtc c x s) d = getGlz s d := rfl
@[simp] theorem getGlz_setPart (c : Nat) (x : Part) (s : State) (d : DieEng) : getGlz (setPart c x s) d = getGlz s d := rfl
@[simp] theorem getGlz_setNode (c : Nat) (x : Node) (s : State) (d : DieEng) : getGlz (setNode c x s) d = getGlz s d := rfl
@[simp] theorem getGlz_setDie (c : Nat) (x : Die) (s : State) (d : DieEng) : getGlz (setDie c x s) d = getGlz s d := rfl
@[simp] theorem getGlz_updCtx (c : CtxId) (x : Ctx → Ctx) (s : State) (d : DieEng) : getGlz (updCtx c x s) d = getGlz s d := rfl
@[simp] theorem getGlz_bumpSeq (s : State) (d : DieEng) : getGlz (bumpSeq s) d = getGlz s d := rfl
@[simp] theorem getRtc_setCtx (c : CtxId) (x : Ctx) (s : State) (d : DieEng) : getRtc (setCtx c x s) d = getRtc s d := rfl
@[simp] theorem getRtc_setCore (c : CoreId) (x : Core) (s : State) (d : DieEng) : getRtc (setCore c x s) d = getRtc s d := rfl
@[simp] theorem getRtc_setCl (c : ClId) (x : Cluster) (s : State) (d : DieEng) : getRtc (setCl c x s) d = getRtc s d := rfl
@[simp] theorem getRtc_setMex (c : EngId) (x : Mex) (s : State) (d : DieEng) : getRtc (setMex c x s) d = getRtc s d := rfl
@[simp] theorem getRtc_setCpy (c : DieEng) (x : Cpy) (s : State) (d : DieEng) : getRtc (setCpy c x s) d = getRtc s d := rfl
@[simp] theorem getRtc_setGlz (c : DieEng) (x : Glz) (s : State) (d : DieEng) : getRtc (setGlz c x s) d = getRtc s d := rfl
@[simp] theorem getRtc_setPart (c : Nat) (x : Part) (s : State) (d : DieEng) : getRtc (setPart c x s) d = getRtc s d := rfl
@[simp] theorem getRtc_setNode (c : Nat) (x : Node) (s : State) (d : DieEng) : getRtc (setNode c x s) d = getRtc s d := rfl
@[simp] theorem getRtc_setDie (c : Nat) (x : Die) (s : State) (d : DieEng) : getRtc (setDie c x s) d = getRtc s d := rfl
@[simp] theorem getRtc_updCtx (c : CtxId) (x : Ctx → Ctx) (s : State) (d : DieEng) : getRtc (updCtx c x s) d = getRtc s d := rfl
@[simp] theorem getRtc_bumpSeq (s : State) (d : DieEng) : getRtc (bumpSeq s) d = getRtc s d := rfl
@[simp] theorem getPart_setCtx (c : CtxId) (x : Ctx) (s : State) (d : Nat) : getPart (setCtx c x s) d = getPart s d := rfl
@[simp] theorem getPart_setCore (c : CoreId) (x : Core) (s : State) (d : Nat) : getPart (setCore c x s) d = getPart s d := rfl
@[simp] theorem getPart_setCl (c : ClId) (x : Cluster) (s : State) (d : Nat) : getPart (setCl c x s) d = getPart s d := rfl
@[simp] theorem getPart_setMex (c : EngId) (x : Mex) (s : State) (d : Nat) : getPart (setMex c x s) d = getPart s d := rfl
@[simp] theorem getPart_setCpy (c : DieEng) (x : Cpy) (s : State) (d : Nat) : getPart (setCpy c x s) d = getPart s d := rfl
@[simp] theorem getPart_setGlz (c : DieEng) (x : Glz) (s : State) (d : Nat) : getPart (setGlz c x s) d = getPart s d := rfl
@[simp] theorem getPart_setRtc (c : DieEng) (x : Rtc) (s : State) (d : Nat) : getPart (setRtc c x s) d = getPart s d := rfl
@[simp] theorem getPart_setNode (c : Nat) (x : Node) (s : State) (d : Nat) : getPart (setNode c x s) d = getPart s d := rfl
@[simp] theorem getPart_setDie (c : Nat) (x : Die) (s : State) (d : Nat) : getPart (setDie c x s) d = getPart s d := rfl
@[simp] theorem getPart_updCtx (c : CtxId) (x : Ctx → Ctx) (s : State) (d : Nat) : getPart (updCtx c x s) d = getPart s d := rfl
@[simp] theorem getPart_bumpSeq (s : State) (d : Nat) : getPart (bumpSeq s) d = getPart s d := rfl

@[simp] theorem getCtx_updCtx_same (c : CtxId) (f : Ctx → Ctx) (s : State) : getCtx (updCtx c f s) c = f (getCtx s c) := by simp [updCtx]
theorem getCtx_updCtx_ne {c d : CtxId} (f : Ctx → Ctx) (s : State) (h : d ≠ c) : getCtx (updCtx c f s) d = getCtx s d := by
  simp [updCtx, getCtx_setCtx_ne _ _ h]
theorem updCtx_setCtx (c : CtxId) (f : Ctx → Ctx) (x : Ctx) (s : State) : updCtx c f (setCtx c x s) = setCtx c (f x) s := by simp [updCtx]
theorem setCtx_updCtx (c : CtxId) (f : Ctx → Ctx) (x : Ctx) (s : State) : setCtx c x (updCtx c f s) = setCtx c x s := by simp [updCtx]

/-! ## A context -/

@[simp] theorem setV_run (n : Nat) (x : VName) (c : Ctx) : (setV n x c).run = c.run := rfl
@[simp] theorem setV_nap (n : Nat) (x : VName) (c : Ctx) : (setV n x c).nap = c.nap := rfl
@[simp] theorem setV_node (n : Nat) (x : VName) (c : Ctx) : (setV n x c).node = c.node := rfl
@[simp] theorem setV_logical (n : Nat) (x : VName) (c : Ctx) : (setV n x c).logical = c.logical := rfl
@[simp] theorem setV_stopped (n : Nat) (x : VName) (c : Ctx) : (setV n x c).stopped = c.stopped := rfl
@[simp] theorem setV_pc (n : Nat) (x : VName) (c : Ctx) : (setV n x c).pc = c.pc := rfl
@[simp] theorem setV_via (n : Nat) (x : VName) (c : Ctx) : (setV n x c).via = c.via := rfl
@[simp] theorem setV_bclk (n : Nat) (x : VName) (c : Ctx) : (setV n x c).bclk = c.bclk := rfl
@[simp] theorem setV_g (n : Nat) (x : VName) (c : Ctx) : (setV n x c).g = c.g := rfl
@[simp] theorem setV_o (n : Nat) (x : VName) (c : Ctx) : (setV n x c).o = c.o := rfl
@[simp] theorem setV_p (n : Nat) (x : VName) (c : Ctx) : (setV n x c).p = c.p := rfl
@[simp] theorem setV_m (n : Nat) (x : VName) (c : Ctx) : (setV n x c).m = c.m := rfl
@[simp] theorem setV_vo (n : Nat) (x : VName) (c : Ctx) : (setV n x c).vo = c.vo := rfl
@[simp] theorem setV_ports (n : Nat) (x : VName) (c : Ctx) : (setV n x c).ports = c.ports := rfl
@[simp] theorem setV_latches (n : Nat) (x : VName) (c : Ctx) : (setV n x c).latches = c.latches := rfl
@[simp] theorem setV_flight (n : Nat) (x : VName) (c : Ctx) : (setV n x c).flight = c.flight := rfl
@[simp] theorem setV_landing (n : Nat) (x : VName) (c : Ctx) : (setV n x c).landing = c.landing := rfl
@[simp] theorem setV_redirects (n : Nat) (x : VName) (c : Ctx) : (setV n x c).redirects = c.redirects := rfl
@[simp] theorem setV_loopStart (n : Nat) (x : VName) (c : Ctx) : (setV n x c).loopStart = c.loopStart := rfl
@[simp] theorem setV_loopCnt (n : Nat) (x : VName) (c : Ctx) : (setV n x c).loopCnt = c.loopCnt := rfl
@[simp] theorem setV_loopEnd (n : Nat) (x : VName) (c : Ctx) : (setV n x c).loopEnd = c.loopEnd := rfl
@[simp] theorem setV_sr (n : Nat) (x : VName) (c : Ctx) : (setV n x c).sr = c.sr := rfl
@[simp] theorem setV_tokens (n : Nat) (x : VName) (c : Ctx) : (setV n x c).tokens = c.tokens := rfl
@[simp] theorem setV_twait (n : Nat) (x : VName) (c : Ctx) : (setV n x c).twait = c.twait := rfl
@[simp] theorem setV_wake (n : Nat) (x : VName) (c : Ctx) : (setV n x c).wake = c.wake := rfl
@[simp] theorem setV_yieldAt (n : Nat) (x : VName) (c : Ctx) : (setV n x c).yieldAt = c.yieldAt := rfl
@[simp] theorem setV_parity (n : Nat) (x : VName) (c : Ctx) : (setV n x c).parity = c.parity := rfl
@[simp] theorem setV_pats (n : Nat) (x : VName) (c : Ctx) : (setV n x c).pats = c.pats := rfl
@[simp] theorem setV_sketches (n : Nat) (x : VName) (c : Ctx) : (setV n x c).sketches = c.sketches := rfl
@[simp] theorem setV_pins (n : Nat) (x : VName) (c : Ctx) : (setV n x c).pins = c.pins := rfl
@[simp] theorem setV_spill (n : Nat) (x : VName) (c : Ctx) : (setV n x c).spill = c.spill := rfl
@[simp] theorem setV_spillPoison (n : Nat) (x : VName) (c : Ctx) : (setV n x c).spillPoison = c.spillPoison := rfl
@[simp] theorem setV_snap (n : Nat) (x : VName) (c : Ctx) : (setV n x c).snap = c.snap := rfl
@[simp] theorem setV_rft (n : Nat) (x : VName) (c : Ctx) : (setV n x c).rft = c.rft := rfl
@[simp] theorem setV_calling (n : Nat) (x : VName) (c : Ctx) : (setV n x c).calling = c.calling := rfl
@[simp] theorem setV_touchLost (n : Nat) (x : VName) (c : Ctx) : (setV n x c).touchLost = c.touchLost := rfl
@[simp] theorem setV_replayTrap (n : Nat) (x : VName) (c : Ctx) : (setV n x c).replayTrap = c.replayTrap := rfl
@[simp] theorem setV_mexPar (n : Nat) (x : VName) (c : Ctx) : (setV n x c).mexPar = c.mexPar := rfl
@[simp] theorem setV_cpyPar (n : Nat) (x : VName) (c : Ctx) : (setV n x c).cpyPar = c.cpyPar := rfl
@[simp] theorem setV_glzPar (n : Nat) (x : VName) (c : Ctx) : (setV n x c).glzPar = c.glzPar := rfl
@[simp] theorem setV_rtcPar (n : Nat) (x : VName) (c : Ctx) : (setV n x c).rtcPar = c.rtcPar := rfl
@[simp] theorem setV_mexLast (n : Nat) (x : VName) (c : Ctx) : (setV n x c).mexLast = c.mexLast := rfl
@[simp] theorem setV_cpyRep (n : Nat) (x : VName) (c : Ctx) : (setV n x c).cpyRep = c.cpyRep := rfl
@[simp] theorem setV_glzRep (n : Nat) (x : VName) (c : Ctx) : (setV n x c).glzRep = c.glzRep := rfl
@[simp] theorem setV_rtcRep (n : Nat) (x : VName) (c : Ctx) : (setV n x c).rtcRep = c.rtcRep := rfl
@[simp] theorem setV_recvs (n : Nat) (x : VName) (c : Ctx) : (setV n x c).recvs = c.recvs := rfl
@[simp] theorem setV_exitStatus (n : Nat) (x : VName) (c : Ctx) : (setV n x c).exitStatus = c.exitStatus := rfl
@[simp] theorem setV_nextId (n : Nat) (x : VName) (c : Ctx) : (setV n x c).nextId = c.nextId := rfl

@[simp] theorem setPort_run (u k : Nat) (x : Val) (c : Ctx) : (setPort u k x c).run = c.run := rfl
@[simp] theorem setPort_nap (u k : Nat) (x : Val) (c : Ctx) : (setPort u k x c).nap = c.nap := rfl
@[simp] theorem setPort_node (u k : Nat) (x : Val) (c : Ctx) : (setPort u k x c).node = c.node := rfl
@[simp] theorem setPort_logical (u k : Nat) (x : Val) (c : Ctx) : (setPort u k x c).logical = c.logical := rfl
@[simp] theorem setPort_stopped (u k : Nat) (x : Val) (c : Ctx) : (setPort u k x c).stopped = c.stopped := rfl
@[simp] theorem setPort_pc (u k : Nat) (x : Val) (c : Ctx) : (setPort u k x c).pc = c.pc := rfl
@[simp] theorem setPort_via (u k : Nat) (x : Val) (c : Ctx) : (setPort u k x c).via = c.via := rfl
@[simp] theorem setPort_bclk (u k : Nat) (x : Val) (c : Ctx) : (setPort u k x c).bclk = c.bclk := rfl
@[simp] theorem setPort_g (u k : Nat) (x : Val) (c : Ctx) : (setPort u k x c).g = c.g := rfl
@[simp] theorem setPort_o (u k : Nat) (x : Val) (c : Ctx) : (setPort u k x c).o = c.o := rfl
@[simp] theorem setPort_p (u k : Nat) (x : Val) (c : Ctx) : (setPort u k x c).p = c.p := rfl
@[simp] theorem setPort_m (u k : Nat) (x : Val) (c : Ctx) : (setPort u k x c).m = c.m := rfl
@[simp] theorem setPort_vo (u k : Nat) (x : Val) (c : Ctx) : (setPort u k x c).vo = c.vo := rfl
@[simp] theorem setPort_v (u k : Nat) (x : Val) (c : Ctx) : (setPort u k x c).v = c.v := rfl
@[simp] theorem setPort_latches (u k : Nat) (x : Val) (c : Ctx) : (setPort u k x c).latches = c.latches := rfl
@[simp] theorem setPort_flight (u k : Nat) (x : Val) (c : Ctx) : (setPort u k x c).flight = c.flight := rfl
@[simp] theorem setPort_landing (u k : Nat) (x : Val) (c : Ctx) : (setPort u k x c).landing = c.landing := rfl
@[simp] theorem setPort_redirects (u k : Nat) (x : Val) (c : Ctx) : (setPort u k x c).redirects = c.redirects := rfl
@[simp] theorem setPort_loopStart (u k : Nat) (x : Val) (c : Ctx) : (setPort u k x c).loopStart = c.loopStart := rfl
@[simp] theorem setPort_loopCnt (u k : Nat) (x : Val) (c : Ctx) : (setPort u k x c).loopCnt = c.loopCnt := rfl
@[simp] theorem setPort_loopEnd (u k : Nat) (x : Val) (c : Ctx) : (setPort u k x c).loopEnd = c.loopEnd := rfl
@[simp] theorem setPort_sr (u k : Nat) (x : Val) (c : Ctx) : (setPort u k x c).sr = c.sr := rfl
@[simp] theorem setPort_tokens (u k : Nat) (x : Val) (c : Ctx) : (setPort u k x c).tokens = c.tokens := rfl
@[simp] theorem setPort_twait (u k : Nat) (x : Val) (c : Ctx) : (setPort u k x c).twait = c.twait := rfl
@[simp] theorem setPort_wake (u k : Nat) (x : Val) (c : Ctx) : (setPort u k x c).wake = c.wake := rfl
@[simp] theorem setPort_yieldAt (u k : Nat) (x : Val) (c : Ctx) : (setPort u k x c).yieldAt = c.yieldAt := rfl
@[simp] theorem setPort_parity (u k : Nat) (x : Val) (c : Ctx) : (setPort u k x c).parity = c.parity := rfl
@[simp] theorem setPort_pats (u k : Nat) (x : Val) (c : Ctx) : (setPort u k x c).pats = c.pats := rfl
@[simp] theorem setPort_sketches (u k : Nat) (x : Val) (c : Ctx) : (setPort u k x c).sketches = c.sketches := rfl
@[simp] theorem setPort_pins (u k : Nat) (x : Val) (c : Ctx) : (setPort u k x c).pins = c.pins := rfl
@[simp] theorem setPort_spill (u k : Nat) (x : Val) (c : Ctx) : (setPort u k x c).spill = c.spill := rfl
@[simp] theorem setPort_spillPoison (u k : Nat) (x : Val) (c : Ctx) : (setPort u k x c).spillPoison = c.spillPoison := rfl
@[simp] theorem setPort_snap (u k : Nat) (x : Val) (c : Ctx) : (setPort u k x c).snap = c.snap := rfl
@[simp] theorem setPort_rft (u k : Nat) (x : Val) (c : Ctx) : (setPort u k x c).rft = c.rft := rfl
@[simp] theorem setPort_calling (u k : Nat) (x : Val) (c : Ctx) : (setPort u k x c).calling = c.calling := rfl
@[simp] theorem setPort_touchLost (u k : Nat) (x : Val) (c : Ctx) : (setPort u k x c).touchLost = c.touchLost := rfl
@[simp] theorem setPort_replayTrap (u k : Nat) (x : Val) (c : Ctx) : (setPort u k x c).replayTrap = c.replayTrap := rfl
@[simp] theorem setPort_mexPar (u k : Nat) (x : Val) (c : Ctx) : (setPort u k x c).mexPar = c.mexPar := rfl
@[simp] theorem setPort_cpyPar (u k : Nat) (x : Val) (c : Ctx) : (setPort u k x c).cpyPar = c.cpyPar := rfl
@[simp] theorem setPort_glzPar (u k : Nat) (x : Val) (c : Ctx) : (setPort u k x c).glzPar = c.glzPar := rfl
@[simp] theorem setPort_rtcPar (u k : Nat) (x : Val) (c : Ctx) : (setPort u k x c).rtcPar = c.rtcPar := rfl
@[simp] theorem setPort_mexLast (u k : Nat) (x : Val) (c : Ctx) : (setPort u k x c).mexLast = c.mexLast := rfl
@[simp] theorem setPort_cpyRep (u k : Nat) (x : Val) (c : Ctx) : (setPort u k x c).cpyRep = c.cpyRep := rfl
@[simp] theorem setPort_glzRep (u k : Nat) (x : Val) (c : Ctx) : (setPort u k x c).glzRep = c.glzRep := rfl
@[simp] theorem setPort_rtcRep (u k : Nat) (x : Val) (c : Ctx) : (setPort u k x c).rtcRep = c.rtcRep := rfl
@[simp] theorem setPort_recvs (u k : Nat) (x : Val) (c : Ctx) : (setPort u k x c).recvs = c.recvs := rfl
@[simp] theorem setPort_exitStatus (u k : Nat) (x : Val) (c : Ctx) : (setPort u k x c).exitStatus = c.exitStatus := rfl
@[simp] theorem setPort_nextId (u k : Nat) (x : Val) (c : Ctx) : (setPort u k x c).nextId = c.nextId := rfl

@[simp] theorem setTok_run (t : Nat) (x : Token) (c : Ctx) : (setTok t x c).run = c.run := rfl
@[simp] theorem setTok_nap (t : Nat) (x : Token) (c : Ctx) : (setTok t x c).nap = c.nap := rfl
@[simp] theorem setTok_node (t : Nat) (x : Token) (c : Ctx) : (setTok t x c).node = c.node := rfl
@[simp] theorem setTok_logical (t : Nat) (x : Token) (c : Ctx) : (setTok t x c).logical = c.logical := rfl
@[simp] theorem setTok_stopped (t : Nat) (x : Token) (c : Ctx) : (setTok t x c).stopped = c.stopped := rfl
@[simp] theorem setTok_pc (t : Nat) (x : Token) (c : Ctx) : (setTok t x c).pc = c.pc := rfl
@[simp] theorem setTok_via (t : Nat) (x : Token) (c : Ctx) : (setTok t x c).via = c.via := rfl
@[simp] theorem setTok_bclk (t : Nat) (x : Token) (c : Ctx) : (setTok t x c).bclk = c.bclk := rfl
@[simp] theorem setTok_g (t : Nat) (x : Token) (c : Ctx) : (setTok t x c).g = c.g := rfl
@[simp] theorem setTok_o (t : Nat) (x : Token) (c : Ctx) : (setTok t x c).o = c.o := rfl
@[simp] theorem setTok_p (t : Nat) (x : Token) (c : Ctx) : (setTok t x c).p = c.p := rfl
@[simp] theorem setTok_m (t : Nat) (x : Token) (c : Ctx) : (setTok t x c).m = c.m := rfl
@[simp] theorem setTok_vo (t : Nat) (x : Token) (c : Ctx) : (setTok t x c).vo = c.vo := rfl
@[simp] theorem setTok_v (t : Nat) (x : Token) (c : Ctx) : (setTok t x c).v = c.v := rfl
@[simp] theorem setTok_ports (t : Nat) (x : Token) (c : Ctx) : (setTok t x c).ports = c.ports := rfl
@[simp] theorem setTok_latches (t : Nat) (x : Token) (c : Ctx) : (setTok t x c).latches = c.latches := rfl
@[simp] theorem setTok_flight (t : Nat) (x : Token) (c : Ctx) : (setTok t x c).flight = c.flight := rfl
@[simp] theorem setTok_landing (t : Nat) (x : Token) (c : Ctx) : (setTok t x c).landing = c.landing := rfl
@[simp] theorem setTok_redirects (t : Nat) (x : Token) (c : Ctx) : (setTok t x c).redirects = c.redirects := rfl
@[simp] theorem setTok_loopStart (t : Nat) (x : Token) (c : Ctx) : (setTok t x c).loopStart = c.loopStart := rfl
@[simp] theorem setTok_loopCnt (t : Nat) (x : Token) (c : Ctx) : (setTok t x c).loopCnt = c.loopCnt := rfl
@[simp] theorem setTok_loopEnd (t : Nat) (x : Token) (c : Ctx) : (setTok t x c).loopEnd = c.loopEnd := rfl
@[simp] theorem setTok_sr (t : Nat) (x : Token) (c : Ctx) : (setTok t x c).sr = c.sr := rfl
@[simp] theorem setTok_twait (t : Nat) (x : Token) (c : Ctx) : (setTok t x c).twait = c.twait := rfl
@[simp] theorem setTok_wake (t : Nat) (x : Token) (c : Ctx) : (setTok t x c).wake = c.wake := rfl
@[simp] theorem setTok_yieldAt (t : Nat) (x : Token) (c : Ctx) : (setTok t x c).yieldAt = c.yieldAt := rfl
@[simp] theorem setTok_parity (t : Nat) (x : Token) (c : Ctx) : (setTok t x c).parity = c.parity := rfl
@[simp] theorem setTok_pats (t : Nat) (x : Token) (c : Ctx) : (setTok t x c).pats = c.pats := rfl
@[simp] theorem setTok_sketches (t : Nat) (x : Token) (c : Ctx) : (setTok t x c).sketches = c.sketches := rfl
@[simp] theorem setTok_pins (t : Nat) (x : Token) (c : Ctx) : (setTok t x c).pins = c.pins := rfl
@[simp] theorem setTok_spill (t : Nat) (x : Token) (c : Ctx) : (setTok t x c).spill = c.spill := rfl
@[simp] theorem setTok_spillPoison (t : Nat) (x : Token) (c : Ctx) : (setTok t x c).spillPoison = c.spillPoison := rfl
@[simp] theorem setTok_snap (t : Nat) (x : Token) (c : Ctx) : (setTok t x c).snap = c.snap := rfl
@[simp] theorem setTok_rft (t : Nat) (x : Token) (c : Ctx) : (setTok t x c).rft = c.rft := rfl
@[simp] theorem setTok_calling (t : Nat) (x : Token) (c : Ctx) : (setTok t x c).calling = c.calling := rfl
@[simp] theorem setTok_touchLost (t : Nat) (x : Token) (c : Ctx) : (setTok t x c).touchLost = c.touchLost := rfl
@[simp] theorem setTok_replayTrap (t : Nat) (x : Token) (c : Ctx) : (setTok t x c).replayTrap = c.replayTrap := rfl
@[simp] theorem setTok_mexPar (t : Nat) (x : Token) (c : Ctx) : (setTok t x c).mexPar = c.mexPar := rfl
@[simp] theorem setTok_cpyPar (t : Nat) (x : Token) (c : Ctx) : (setTok t x c).cpyPar = c.cpyPar := rfl
@[simp] theorem setTok_glzPar (t : Nat) (x : Token) (c : Ctx) : (setTok t x c).glzPar = c.glzPar := rfl
@[simp] theorem setTok_rtcPar (t : Nat) (x : Token) (c : Ctx) : (setTok t x c).rtcPar = c.rtcPar := rfl
@[simp] theorem setTok_mexLast (t : Nat) (x : Token) (c : Ctx) : (setTok t x c).mexLast = c.mexLast := rfl
@[simp] theorem setTok_cpyRep (t : Nat) (x : Token) (c : Ctx) : (setTok t x c).cpyRep = c.cpyRep := rfl
@[simp] theorem setTok_glzRep (t : Nat) (x : Token) (c : Ctx) : (setTok t x c).glzRep = c.glzRep := rfl
@[simp] theorem setTok_rtcRep (t : Nat) (x : Token) (c : Ctx) : (setTok t x c).rtcRep = c.rtcRep := rfl
@[simp] theorem setTok_recvs (t : Nat) (x : Token) (c : Ctx) : (setTok t x c).recvs = c.recvs := rfl
@[simp] theorem setTok_exitStatus (t : Nat) (x : Token) (c : Ctx) : (setTok t x c).exitStatus = c.exitStatus := rfl
@[simp] theorem setTok_nextId (t : Nat) (x : Token) (c : Ctx) : (setTok t x c).nextId = c.nextId := rfl

@[simp] theorem tokenUp_run (t : Nat) (c : Ctx) : (tokenUp t c).run = c.run := rfl
@[simp] theorem tokenUp_nap (t : Nat) (c : Ctx) : (tokenUp t c).nap = c.nap := rfl
@[simp] theorem tokenUp_node (t : Nat) (c : Ctx) : (tokenUp t c).node = c.node := rfl
@[simp] theorem tokenUp_logical (t : Nat) (c : Ctx) : (tokenUp t c).logical = c.logical := rfl
@[simp] theorem tokenUp_stopped (t : Nat) (c : Ctx) : (tokenUp t c).stopped = c.stopped := rfl
@[simp] theorem tokenUp_pc (t : Nat) (c : Ctx) : (tokenUp t c).pc = c.pc := rfl
@[simp] theorem tokenUp_via (t : Nat) (c : Ctx) : (tokenUp t c).via = c.via := rfl
@[simp] theorem tokenUp_bclk (t : Nat) (c : Ctx) : (tokenUp t c).bclk = c.bclk := rfl
@[simp] theorem tokenUp_g (t : Nat) (c : Ctx) : (tokenUp t c).g = c.g := rfl
@[simp] theorem tokenUp_o (t : Nat) (c : Ctx) : (tokenUp t c).o = c.o := rfl
@[simp] theorem tokenUp_p (t : Nat) (c : Ctx) : (tokenUp t c).p = c.p := rfl
@[simp] theorem tokenUp_m (t : Nat) (c : Ctx) : (tokenUp t c).m = c.m := rfl
@[simp] theorem tokenUp_vo (t : Nat) (c : Ctx) : (tokenUp t c).vo = c.vo := rfl
@[simp] theorem tokenUp_v (t : Nat) (c : Ctx) : (tokenUp t c).v = c.v := rfl
@[simp] theorem tokenUp_ports (t : Nat) (c : Ctx) : (tokenUp t c).ports = c.ports := rfl
@[simp] theorem tokenUp_latches (t : Nat) (c : Ctx) : (tokenUp t c).latches = c.latches := rfl
@[simp] theorem tokenUp_flight (t : Nat) (c : Ctx) : (tokenUp t c).flight = c.flight := rfl
@[simp] theorem tokenUp_landing (t : Nat) (c : Ctx) : (tokenUp t c).landing = c.landing := rfl
@[simp] theorem tokenUp_redirects (t : Nat) (c : Ctx) : (tokenUp t c).redirects = c.redirects := rfl
@[simp] theorem tokenUp_loopStart (t : Nat) (c : Ctx) : (tokenUp t c).loopStart = c.loopStart := rfl
@[simp] theorem tokenUp_loopCnt (t : Nat) (c : Ctx) : (tokenUp t c).loopCnt = c.loopCnt := rfl
@[simp] theorem tokenUp_loopEnd (t : Nat) (c : Ctx) : (tokenUp t c).loopEnd = c.loopEnd := rfl
@[simp] theorem tokenUp_sr (t : Nat) (c : Ctx) : (tokenUp t c).sr = c.sr := rfl
@[simp] theorem tokenUp_twait (t : Nat) (c : Ctx) : (tokenUp t c).twait = c.twait := rfl
@[simp] theorem tokenUp_wake (t : Nat) (c : Ctx) : (tokenUp t c).wake = c.wake := rfl
@[simp] theorem tokenUp_yieldAt (t : Nat) (c : Ctx) : (tokenUp t c).yieldAt = c.yieldAt := rfl
@[simp] theorem tokenUp_parity (t : Nat) (c : Ctx) : (tokenUp t c).parity = c.parity := rfl
@[simp] theorem tokenUp_pats (t : Nat) (c : Ctx) : (tokenUp t c).pats = c.pats := rfl
@[simp] theorem tokenUp_sketches (t : Nat) (c : Ctx) : (tokenUp t c).sketches = c.sketches := rfl
@[simp] theorem tokenUp_pins (t : Nat) (c : Ctx) : (tokenUp t c).pins = c.pins := rfl
@[simp] theorem tokenUp_spill (t : Nat) (c : Ctx) : (tokenUp t c).spill = c.spill := rfl
@[simp] theorem tokenUp_spillPoison (t : Nat) (c : Ctx) : (tokenUp t c).spillPoison = c.spillPoison := rfl
@[simp] theorem tokenUp_snap (t : Nat) (c : Ctx) : (tokenUp t c).snap = c.snap := rfl
@[simp] theorem tokenUp_rft (t : Nat) (c : Ctx) : (tokenUp t c).rft = c.rft := rfl
@[simp] theorem tokenUp_calling (t : Nat) (c : Ctx) : (tokenUp t c).calling = c.calling := rfl
@[simp] theorem tokenUp_touchLost (t : Nat) (c : Ctx) : (tokenUp t c).touchLost = c.touchLost := rfl
@[simp] theorem tokenUp_replayTrap (t : Nat) (c : Ctx) : (tokenUp t c).replayTrap = c.replayTrap := rfl
@[simp] theorem tokenUp_mexPar (t : Nat) (c : Ctx) : (tokenUp t c).mexPar = c.mexPar := rfl
@[simp] theorem tokenUp_cpyPar (t : Nat) (c : Ctx) : (tokenUp t c).cpyPar = c.cpyPar := rfl
@[simp] theorem tokenUp_glzPar (t : Nat) (c : Ctx) : (tokenUp t c).glzPar = c.glzPar := rfl
@[simp] theorem tokenUp_rtcPar (t : Nat) (c : Ctx) : (tokenUp t c).rtcPar = c.rtcPar := rfl
@[simp] theorem tokenUp_mexLast (t : Nat) (c : Ctx) : (tokenUp t c).mexLast = c.mexLast := rfl
@[simp] theorem tokenUp_cpyRep (t : Nat) (c : Ctx) : (tokenUp t c).cpyRep = c.cpyRep := rfl
@[simp] theorem tokenUp_glzRep (t : Nat) (c : Ctx) : (tokenUp t c).glzRep = c.glzRep := rfl
@[simp] theorem tokenUp_rtcRep (t : Nat) (c : Ctx) : (tokenUp t c).rtcRep = c.rtcRep := rfl
@[simp] theorem tokenUp_recvs (t : Nat) (c : Ctx) : (tokenUp t c).recvs = c.recvs := rfl
@[simp] theorem tokenUp_exitStatus (t : Nat) (c : Ctx) : (tokenUp t c).exitStatus = c.exitStatus := rfl
@[simp] theorem tokenUp_nextId (t : Nat) (c : Ctx) : (tokenUp t c).nextId = c.nextId := rfl

@[simp] theorem tokenDown_run (n t : Nat) (b : Bool) (w : Dword) (c : Ctx) : (tokenDown n t b w c).run = c.run := rfl
@[simp] theorem tokenDown_nap (n t : Nat) (b : Bool) (w : Dword) (c : Ctx) : (tokenDown n t b w c).nap = c.nap := rfl
@[simp] theorem tokenDown_node (n t : Nat) (b : Bool) (w : Dword) (c : Ctx) : (tokenDown n t b w c).node = c.node := rfl
@[simp] theorem tokenDown_logical (n t : Nat) (b : Bool) (w : Dword) (c : Ctx) : (tokenDown n t b w c).logical = c.logical := rfl
@[simp] theorem tokenDown_stopped (n t : Nat) (b : Bool) (w : Dword) (c : Ctx) : (tokenDown n t b w c).stopped = c.stopped := rfl
@[simp] theorem tokenDown_pc (n t : Nat) (b : Bool) (w : Dword) (c : Ctx) : (tokenDown n t b w c).pc = c.pc := rfl
@[simp] theorem tokenDown_via (n t : Nat) (b : Bool) (w : Dword) (c : Ctx) : (tokenDown n t b w c).via = c.via := rfl
@[simp] theorem tokenDown_bclk (n t : Nat) (b : Bool) (w : Dword) (c : Ctx) : (tokenDown n t b w c).bclk = c.bclk := rfl
@[simp] theorem tokenDown_g (n t : Nat) (b : Bool) (w : Dword) (c : Ctx) : (tokenDown n t b w c).g = c.g := rfl
@[simp] theorem tokenDown_o (n t : Nat) (b : Bool) (w : Dword) (c : Ctx) : (tokenDown n t b w c).o = c.o := rfl
@[simp] theorem tokenDown_p (n t : Nat) (b : Bool) (w : Dword) (c : Ctx) : (tokenDown n t b w c).p = c.p := rfl
@[simp] theorem tokenDown_m (n t : Nat) (b : Bool) (w : Dword) (c : Ctx) : (tokenDown n t b w c).m = c.m := rfl
@[simp] theorem tokenDown_vo (n t : Nat) (b : Bool) (w : Dword) (c : Ctx) : (tokenDown n t b w c).vo = c.vo := rfl
@[simp] theorem tokenDown_v (n t : Nat) (b : Bool) (w : Dword) (c : Ctx) : (tokenDown n t b w c).v = c.v := rfl
@[simp] theorem tokenDown_ports (n t : Nat) (b : Bool) (w : Dword) (c : Ctx) : (tokenDown n t b w c).ports = c.ports := rfl
@[simp] theorem tokenDown_latches (n t : Nat) (b : Bool) (w : Dword) (c : Ctx) : (tokenDown n t b w c).latches = c.latches := rfl
@[simp] theorem tokenDown_flight (n t : Nat) (b : Bool) (w : Dword) (c : Ctx) : (tokenDown n t b w c).flight = c.flight := rfl
@[simp] theorem tokenDown_landing (n t : Nat) (b : Bool) (w : Dword) (c : Ctx) : (tokenDown n t b w c).landing = c.landing := rfl
@[simp] theorem tokenDown_redirects (n t : Nat) (b : Bool) (w : Dword) (c : Ctx) : (tokenDown n t b w c).redirects = c.redirects := rfl
@[simp] theorem tokenDown_loopStart (n t : Nat) (b : Bool) (w : Dword) (c : Ctx) : (tokenDown n t b w c).loopStart = c.loopStart := rfl
@[simp] theorem tokenDown_loopCnt (n t : Nat) (b : Bool) (w : Dword) (c : Ctx) : (tokenDown n t b w c).loopCnt = c.loopCnt := rfl
@[simp] theorem tokenDown_loopEnd (n t : Nat) (b : Bool) (w : Dword) (c : Ctx) : (tokenDown n t b w c).loopEnd = c.loopEnd := rfl
@[simp] theorem tokenDown_sr (n t : Nat) (b : Bool) (w : Dword) (c : Ctx) : (tokenDown n t b w c).sr = c.sr := rfl
@[simp] theorem tokenDown_twait (n t : Nat) (b : Bool) (w : Dword) (c : Ctx) : (tokenDown n t b w c).twait = c.twait := rfl
@[simp] theorem tokenDown_wake (n t : Nat) (b : Bool) (w : Dword) (c : Ctx) : (tokenDown n t b w c).wake = c.wake := rfl
@[simp] theorem tokenDown_yieldAt (n t : Nat) (b : Bool) (w : Dword) (c : Ctx) : (tokenDown n t b w c).yieldAt = c.yieldAt := rfl
@[simp] theorem tokenDown_parity (n t : Nat) (b : Bool) (w : Dword) (c : Ctx) : (tokenDown n t b w c).parity = c.parity := rfl
@[simp] theorem tokenDown_pats (n t : Nat) (b : Bool) (w : Dword) (c : Ctx) : (tokenDown n t b w c).pats = c.pats := rfl
@[simp] theorem tokenDown_sketches (n t : Nat) (b : Bool) (w : Dword) (c : Ctx) : (tokenDown n t b w c).sketches = c.sketches := rfl
@[simp] theorem tokenDown_pins (n t : Nat) (b : Bool) (w : Dword) (c : Ctx) : (tokenDown n t b w c).pins = c.pins := rfl
@[simp] theorem tokenDown_spill (n t : Nat) (b : Bool) (w : Dword) (c : Ctx) : (tokenDown n t b w c).spill = c.spill := rfl
@[simp] theorem tokenDown_spillPoison (n t : Nat) (b : Bool) (w : Dword) (c : Ctx) : (tokenDown n t b w c).spillPoison = c.spillPoison := rfl
@[simp] theorem tokenDown_snap (n t : Nat) (b : Bool) (w : Dword) (c : Ctx) : (tokenDown n t b w c).snap = c.snap := rfl
@[simp] theorem tokenDown_rft (n t : Nat) (b : Bool) (w : Dword) (c : Ctx) : (tokenDown n t b w c).rft = c.rft := rfl
@[simp] theorem tokenDown_calling (n t : Nat) (b : Bool) (w : Dword) (c : Ctx) : (tokenDown n t b w c).calling = c.calling := rfl
@[simp] theorem tokenDown_touchLost (n t : Nat) (b : Bool) (w : Dword) (c : Ctx) : (tokenDown n t b w c).touchLost = c.touchLost := rfl
@[simp] theorem tokenDown_replayTrap (n t : Nat) (b : Bool) (w : Dword) (c : Ctx) : (tokenDown n t b w c).replayTrap = c.replayTrap := rfl
@[simp] theorem tokenDown_mexPar (n t : Nat) (b : Bool) (w : Dword) (c : Ctx) : (tokenDown n t b w c).mexPar = c.mexPar := rfl
@[simp] theorem tokenDown_cpyPar (n t : Nat) (b : Bool) (w : Dword) (c : Ctx) : (tokenDown n t b w c).cpyPar = c.cpyPar := rfl
@[simp] theorem tokenDown_glzPar (n t : Nat) (b : Bool) (w : Dword) (c : Ctx) : (tokenDown n t b w c).glzPar = c.glzPar := rfl
@[simp] theorem tokenDown_rtcPar (n t : Nat) (b : Bool) (w : Dword) (c : Ctx) : (tokenDown n t b w c).rtcPar = c.rtcPar := rfl
@[simp] theorem tokenDown_mexLast (n t : Nat) (b : Bool) (w : Dword) (c : Ctx) : (tokenDown n t b w c).mexLast = c.mexLast := rfl
@[simp] theorem tokenDown_cpyRep (n t : Nat) (b : Bool) (w : Dword) (c : Ctx) : (tokenDown n t b w c).cpyRep = c.cpyRep := rfl
@[simp] theorem tokenDown_glzRep (n t : Nat) (b : Bool) (w : Dword) (c : Ctx) : (tokenDown n t b w c).glzRep = c.glzRep := rfl
@[simp] theorem tokenDown_rtcRep (n t : Nat) (b : Bool) (w : Dword) (c : Ctx) : (tokenDown n t b w c).rtcRep = c.rtcRep := rfl
@[simp] theorem tokenDown_recvs (n t : Nat) (b : Bool) (w : Dword) (c : Ctx) : (tokenDown n t b w c).recvs = c.recvs := rfl
@[simp] theorem tokenDown_exitStatus (n t : Nat) (b : Bool) (w : Dword) (c : Ctx) : (tokenDown n t b w c).exitStatus = c.exitStatus := rfl
@[simp] theorem tokenDown_nextId (n t : Nat) (b : Bool) (w : Dword) (c : Ctx) : (tokenDown n t b w c).nextId = c.nextId := rfl

@[simp] theorem dropName_run (n : Nat) (c : Ctx) : (dropName n c).run = c.run := rfl
@[simp] theorem dropName_nap (n : Nat) (c : Ctx) : (dropName n c).nap = c.nap := rfl
@[simp] theorem dropName_node (n : Nat) (c : Ctx) : (dropName n c).node = c.node := rfl
@[simp] theorem dropName_logical (n : Nat) (c : Ctx) : (dropName n c).logical = c.logical := rfl
@[simp] theorem dropName_stopped (n : Nat) (c : Ctx) : (dropName n c).stopped = c.stopped := rfl
@[simp] theorem dropName_pc (n : Nat) (c : Ctx) : (dropName n c).pc = c.pc := rfl
@[simp] theorem dropName_via (n : Nat) (c : Ctx) : (dropName n c).via = c.via := rfl
@[simp] theorem dropName_bclk (n : Nat) (c : Ctx) : (dropName n c).bclk = c.bclk := rfl
@[simp] theorem dropName_g (n : Nat) (c : Ctx) : (dropName n c).g = c.g := rfl
@[simp] theorem dropName_o (n : Nat) (c : Ctx) : (dropName n c).o = c.o := rfl
@[simp] theorem dropName_p (n : Nat) (c : Ctx) : (dropName n c).p = c.p := rfl
@[simp] theorem dropName_m (n : Nat) (c : Ctx) : (dropName n c).m = c.m := rfl
@[simp] theorem dropName_vo (n : Nat) (c : Ctx) : (dropName n c).vo = c.vo := rfl
@[simp] theorem dropName_ports (n : Nat) (c : Ctx) : (dropName n c).ports = c.ports := rfl
@[simp] theorem dropName_latches (n : Nat) (c : Ctx) : (dropName n c).latches = c.latches := rfl
@[simp] theorem dropName_flight (n : Nat) (c : Ctx) : (dropName n c).flight = c.flight := rfl
@[simp] theorem dropName_landing (n : Nat) (c : Ctx) : (dropName n c).landing = c.landing := rfl
@[simp] theorem dropName_redirects (n : Nat) (c : Ctx) : (dropName n c).redirects = c.redirects := rfl
@[simp] theorem dropName_loopStart (n : Nat) (c : Ctx) : (dropName n c).loopStart = c.loopStart := rfl
@[simp] theorem dropName_loopCnt (n : Nat) (c : Ctx) : (dropName n c).loopCnt = c.loopCnt := rfl
@[simp] theorem dropName_loopEnd (n : Nat) (c : Ctx) : (dropName n c).loopEnd = c.loopEnd := rfl
@[simp] theorem dropName_sr (n : Nat) (c : Ctx) : (dropName n c).sr = c.sr := rfl
@[simp] theorem dropName_tokens (n : Nat) (c : Ctx) : (dropName n c).tokens = c.tokens := rfl
@[simp] theorem dropName_twait (n : Nat) (c : Ctx) : (dropName n c).twait = c.twait := rfl
@[simp] theorem dropName_wake (n : Nat) (c : Ctx) : (dropName n c).wake = c.wake := rfl
@[simp] theorem dropName_yieldAt (n : Nat) (c : Ctx) : (dropName n c).yieldAt = c.yieldAt := rfl
@[simp] theorem dropName_parity (n : Nat) (c : Ctx) : (dropName n c).parity = c.parity := rfl
@[simp] theorem dropName_pats (n : Nat) (c : Ctx) : (dropName n c).pats = c.pats := rfl
@[simp] theorem dropName_sketches (n : Nat) (c : Ctx) : (dropName n c).sketches = c.sketches := rfl
@[simp] theorem dropName_pins (n : Nat) (c : Ctx) : (dropName n c).pins = c.pins := rfl
@[simp] theorem dropName_spill (n : Nat) (c : Ctx) : (dropName n c).spill = c.spill := rfl
@[simp] theorem dropName_spillPoison (n : Nat) (c : Ctx) : (dropName n c).spillPoison = c.spillPoison := rfl
@[simp] theorem dropName_snap (n : Nat) (c : Ctx) : (dropName n c).snap = c.snap := rfl
@[simp] theorem dropName_rft (n : Nat) (c : Ctx) : (dropName n c).rft = c.rft := rfl
@[simp] theorem dropName_calling (n : Nat) (c : Ctx) : (dropName n c).calling = c.calling := rfl
@[simp] theorem dropName_touchLost (n : Nat) (c : Ctx) : (dropName n c).touchLost = c.touchLost := rfl
@[simp] theorem dropName_replayTrap (n : Nat) (c : Ctx) : (dropName n c).replayTrap = c.replayTrap := rfl
@[simp] theorem dropName_mexPar (n : Nat) (c : Ctx) : (dropName n c).mexPar = c.mexPar := rfl
@[simp] theorem dropName_cpyPar (n : Nat) (c : Ctx) : (dropName n c).cpyPar = c.cpyPar := rfl
@[simp] theorem dropName_glzPar (n : Nat) (c : Ctx) : (dropName n c).glzPar = c.glzPar := rfl
@[simp] theorem dropName_rtcPar (n : Nat) (c : Ctx) : (dropName n c).rtcPar = c.rtcPar := rfl
@[simp] theorem dropName_mexLast (n : Nat) (c : Ctx) : (dropName n c).mexLast = c.mexLast := rfl
@[simp] theorem dropName_cpyRep (n : Nat) (c : Ctx) : (dropName n c).cpyRep = c.cpyRep := rfl
@[simp] theorem dropName_glzRep (n : Nat) (c : Ctx) : (dropName n c).glzRep = c.glzRep := rfl
@[simp] theorem dropName_rtcRep (n : Nat) (c : Ctx) : (dropName n c).rtcRep = c.rtcRep := rfl
@[simp] theorem dropName_recvs (n : Nat) (c : Ctx) : (dropName n c).recvs = c.recvs := rfl
@[simp] theorem dropName_exitStatus (n : Nat) (c : Ctx) : (dropName n c).exitStatus = c.exitStatus := rfl
@[simp] theorem dropName_nextId (n : Nat) (c : Ctx) : (dropName n c).nextId = c.nextId := rfl

end Sys2Proof.Machine
end

