-- ==== Sys2Proof/Laws/Memory.lean ====
section
/-! SUPPORT. The bytes of memory: read after write, and the canonical form that every operation keeps. -/

namespace Sys2Proof.Machine

/-- Addresses rise strictly, and no cell holds what an unlisted address reads as. -/
theorem Memory.wf_iff (m : List Host.Cell) :
    Memory.wf m = true ↔ m.Pairwise (fun x y => x.1 < y.1) ∧ ∀ x ∈ m, x.2 ≠ Memory.unlisted := by
  induction m with
  | nil => simp [Memory.wf]
  | cons x r ih =>
    obtain ⟨a, b⟩ := x
    cases r with
    | nil => simp [Memory.wf]
    | cons y r =>
      obtain ⟨c, d⟩ := y
      simp only [Memory.wf, Bool.and_eq_true, decide_eq_true_eq, ih, List.pairwise_cons, List.mem_cons, forall_eq_or_imp]
      constructor
      · rintro ⟨⟨h1, h2⟩, ⟨h3, h4⟩, h5, h6⟩
        exact ⟨⟨⟨h2, fun z hz => lt_trans h2 (h3 z hz)⟩, h3, h4⟩, h1, h5, h6⟩
      · rintro ⟨⟨⟨h2, _⟩, h3, h4⟩, h1, h5, h6⟩
        exact ⟨⟨h1, h2⟩, ⟨h3, h4⟩, h5, h6⟩

theorem Memory.mem_set {m : List Host.Cell} {a : Nat} {v : Byte} {x : Host.Cell} (h : x ∈ Memory.set m a v) :
    x ∈ m ∨ (x = (a, v) ∧ v ≠ Memory.unlisted) := by
  induction m with
  | nil => simp only [Memory.set] at h; split at h <;> simp_all
  | cons y r ih =>
    obtain ⟨c, d⟩ := y
    simp only [Memory.set] at h
    split_ifs at h with h1 h2 h3 h4
    · exact .inl h
    · rcases List.mem_cons.1 h with rfl | h
      · exact .inr ⟨rfl, h2⟩
      · exact .inl h
    · exact .inl (List.mem_cons_of_mem _ h)
    · rcases List.mem_cons.1 h with rfl | h
      · exact .inr ⟨rfl, h4⟩
      · exact .inl (List.mem_cons_of_mem _ h)
    · rcases List.mem_cons.1 h with rfl | h
      · exact .inl (by simp)
      · rcases ih h with h | h
        · exact .inl (List.mem_cons_of_mem _ h)
        · exact .inr h

/-- A write keeps the canonical form. -/
theorem Memory.set_wf {m : List Host.Cell} (a : Nat) (v : Byte) (h : Memory.wf m = true) : Memory.wf (Memory.set m a v) = true := by
  rw [Memory.wf_iff] at h ⊢
  obtain ⟨hp, hu⟩ := h
  refine ⟨?_, fun x hx => ?_⟩
  · clear hu
    induction m with
    | nil => simp only [Memory.set]; split <;> simp
    | cons y r ih =>
      obtain ⟨c, d⟩ := y
      obtain ⟨hc, hr⟩ := List.pairwise_cons.1 hp
      simp only [Memory.set]
      split_ifs with h1 h2 h3 h4
      · exact hp
      · refine List.pairwise_cons.2 ⟨fun z hz => ?_, hp⟩
        rcases List.mem_cons.1 hz with rfl | hz
        · exact h1
        · exact lt_trans h1 (hc z hz)
      · exact hr
      · subst h3; exact List.pairwise_cons.2 ⟨hc, hr⟩
      · refine List.pairwise_cons.2 ⟨fun z hz => ?_, ih hr⟩
        rcases Memory.mem_set hz with hz | ⟨rfl, _⟩
        · exact hc z hz
        · simp only; omega
  · rcases Memory.mem_set hx with hx | ⟨rfl, hv⟩
    · exact hu x hx
    · exact hv

theorem Memory.get_below {m : List Host.Cell} {a : Nat} (h : ∀ x ∈ m, a < x.1) : Memory.get m a = Memory.unlisted := by
  induction m with
  | nil => rfl
  | cons y r ih =>
    obtain ⟨c, d⟩ := y
    have hc : a < c := h (c, d) (by simp)
    simp only [Memory.get, if_neg (by omega : ¬ c = a)]
    exact ih fun x hx => h x (by simp [hx])

/-- A write is read back. -/
theorem Memory.get_set_same {m : List Host.Cell} (a : Nat) (v : Byte) (h : Memory.wf m = true) : Memory.get (Memory.set m a v) a = v := by
  rw [Memory.wf_iff] at h
  obtain ⟨hp, -⟩ := h
  induction m with
  | nil => simp only [Memory.set]; split_ifs with h <;> simp [Memory.get, h]
  | cons y r ih =>
    obtain ⟨c, d⟩ := y
    obtain ⟨hc, hr⟩ := List.pairwise_cons.1 hp
    simp only [Memory.set]
    split_ifs with h1 h2 h3 h4
    · rw [h2]; refine Memory.get_below fun x hx => ?_
      rcases List.mem_cons.1 hx with rfl | hx
      · exact h1
      · exact lt_trans h1 (hc x hx)
    · simp [Memory.get]
    · rw [h4, h3]; exact Memory.get_below hc
    · simp [Memory.get]
    · simp only [Memory.get, if_neg (Ne.symm h3)]; exact ih hr

/-- A write leaves every other byte alone. -/
theorem Memory.get_set_ne {m : List Host.Cell} {a b : Nat} (v : Byte) (h : b ≠ a) : Memory.get (Memory.set m a v) b = Memory.get m b := by
  induction m with
  | nil => simp only [Memory.set]; split_ifs <;> simp [Memory.get, Ne.symm h]
  | cons y r ih =>
    obtain ⟨c, d⟩ := y
    simp only [Memory.set]
    split_ifs with h1 h2 h3 h4 <;> simp [Memory.get, Ne.symm h, ih]
    · subst h3; simp [Ne.symm h]
    · subst h3; simp [Ne.symm h]

theorem writeCells_wf {m : List Host.Cell} (ws : List WByte) (h : Memory.wf m = true) : Memory.wf (writeCells ws m) = true := by
  unfold writeCells
  induction ws generalizing m with
  | nil => exact h
  | cons w r ih => exact ih (Memory.set_wf _ _ h)

/-- A write of several bytes leaves every byte it does not name alone. -/
theorem writeCells_outside {m : List Host.Cell} (ws : List WByte) {a : Nat} (h : ∀ w ∈ ws, w.1 ≠ a) :
    Memory.get (writeCells ws m) a = Memory.get m a := by
  unfold writeCells
  induction ws generalizing m with
  | nil => rfl
  | cons w r ih =>
    rw [List.foldl_cons, ih fun x hx => h x (by simp [hx]), Memory.get_set_ne _ (Ne.symm (h w (by simp)))]

theorem Memory.sets_wf {m : List Host.Cell} (a : Nat) (bs : List Byte) (h : Memory.wf m = true) : Memory.wf (Memory.sets m a bs) = true := by
  induction bs generalizing m a with
  | nil => exact h
  | cons b r ih => exact ih (a + 1) (Memory.set_wf a b h)

theorem Memory.get_sets_outside {m : List Host.Cell} (a : Nat) (bs : List Byte) {x : Nat} (h : x < a ∨ a + bs.length ≤ x) :
    Memory.get (Memory.sets m a bs) x = Memory.get m x := by
  induction bs generalizing m a with
  | nil => rfl
  | cons b r ih =>
    simp only [List.length_cons] at h
    rw [Memory.sets, ih (a + 1) (by omega), Memory.get_set_ne _ (by omega)]

theorem Memory.filter_wf {m : List Host.Cell} (p : Host.Cell → Bool) (h : Memory.wf m = true) : Memory.wf (m.filter p) = true := by
  rw [Memory.wf_iff] at h ⊢
  exact ⟨h.1.filter _, fun x hx => h.2 x (List.mem_filter.1 hx).1⟩

theorem Memory.clear_wf {m : List Host.Cell} (lo hi : Nat) (h : Memory.wf m = true) : Memory.wf (Memory.clear m lo hi) = true :=
  Memory.filter_wf _ h

theorem reset_mem_wf : Memory.wf State.reset.mem = true := rfl
theorem reset_fresco_wf : Memory.wf State.reset.fresco = true := rfl

end Sys2Proof.Machine
end

