-- ==== Sys2Proof/Laws/Ops.lean ====
section
/-! SUPPORT. What issuing one move does, said once: when its bundle goes, when its guard holds it back, when its operation traps. -/

namespace Sys2Proof.Machine

/-! ## Events -/

theorem eventStep_fires {r : Option State} {s t : State} (h : r = some t) : eventStep true r s = .next t := by simp [eventStep, h]
theorem eventStep_waits {r : Option State} {s : State} (h : r = none) : eventStep true r s = .next s := by simp [eventStep, h]

/-! ## Landing keeps the position and the flow -/

theorem shrinkTo_kept (n : Nat) (c : Ctx) : (shrinkTo n c).bclk = c.bclk ∧ (shrinkTo n c).pc = c.pc ∧ (shrinkTo n c).twait = c.twait
    ∧ (shrinkTo n c).run = c.run := by
  induction n generalizing c with
  | zero => simp [shrinkTo]
  | succ n ih =>
    simp only [shrinkTo]
    split
    · simp
    · split
      · exact ih _
      · simp

theorem writeSr_kept (i v : Nat) (c : Ctx) : (writeSr i v c).bclk = c.bclk ∧ (writeSr i v c).pc = c.pc ∧ (writeSr i v c).twait = c.twait
    ∧ (writeSr i v c).run = c.run := by
  unfold writeSr
  split <;> first | exact ⟨rfl, rfl, rfl, rfl⟩ | exact shrinkTo_kept _ _

theorem landFixed_kept (f : Flight) (c : Ctx) : (landFixed f c).bclk = c.bclk ∧ (landFixed f c).pc = c.pc ∧ (landFixed f c).twait = c.twait
    ∧ (landFixed f c).run = c.run := by
  have hn : ∀ a, (noteParity a c).bclk = c.bclk ∧ (noteParity a c).pc = c.pc ∧ (noteParity a c).twait = c.twait
      ∧ (noteParity a c).run = c.run := fun a => by
    unfold noteParity; split <;> exact ⟨rfl, rfl, rfl, rfl⟩
  unfold landFixed
  have h := hn f.parity
  dsimp only
  split
  · unfold landMain; split_ifs <;> exact h
  · split_ifs <;> exact h
  · exact h
  · obtain ⟨a, b, d, e⟩ := writeSr_kept ‹Nat› (valSc f.val).v.toNat (noteParity f.parity c)
    exact ⟨a.trans h.1, b.trans h.2.1, d.trans h.2.2.1, e.trans h.2.2.2⟩
  · exact h

theorem landTimed_kept (l : Landing) (c : Ctx) : (landTimed l c).bclk = c.bclk ∧ (landTimed l c).pc = c.pc ∧ (landTimed l c).twait = c.twait
    ∧ (landTimed l c).run = c.run := by
  unfold landTimed noteParity
  split <;> (try dsimp only) <;> try split_ifs
  all_goals exact ⟨rfl, rfl, rfl, rfl⟩

theorem foldl_kept {α β γ : Type} (g : β → γ) (f : β → α → β) (h : ∀ b a, g (f b a) = g b) (l : List α) (b : β) : g (l.foldl f b) = g b := by
  induction l generalizing b with
  | nil => rfl
  | cons x r ih => rw [List.foldl_cons, ih, h]

theorem landOne_kept (x : Due) (c : Ctx) : (landOne x c).bclk = c.bclk ∧ (landOne x c).pc = c.pc ∧ (landOne x c).twait = c.twait
    ∧ (landOne x c).run = c.run := by
  cases x with
  | timed l => exact landTimed_kept l c
  | fixed f => exact landFixed_kept f c

/-- Landing leaves the position, the address and the TWAIT mask. -/
theorem landAt_kept (q : Nat) (c : Ctx) : (landAt q c).bclk = c.bclk ∧ (landAt q c).pc = c.pc ∧ (landAt q c).twait = c.twait
    ∧ (landAt q c).run = c.run := by
  unfold landAt
  refine ⟨?_, ?_, ?_, ?_⟩ <;> dsimp only
  · rw [foldl_kept Ctx.bclk _ fun b a => (landOne_kept a b).1]
  · rw [foldl_kept Ctx.pc _ fun b a => (landOne_kept a b).2.1]
  · rw [foldl_kept Ctx.twait _ fun b a => (landOne_kept a b).2.2.1]
  · rw [foldl_kept Ctx.run _ fun b a => (landOne_kept a b).2.2.2]

theorem landDue_kept (p : Nat) (c : Ctx) : (landDue p c).bclk = c.bclk ∧ (landDue p c).pc = c.pc ∧ (landDue p c).twait = c.twait
    ∧ (landDue p c).run = c.run := by
  unfold landDue
  exact ⟨foldl_kept Ctx.bclk _ (fun b a => (landAt_kept a b).1) _ _, foldl_kept Ctx.pc _ (fun b a => (landAt_kept a b).2.1) _ _,
    foldl_kept Ctx.twait _ (fun b a => (landAt_kept a b).2.2.1) _ _, foldl_kept Ctx.run _ (fun b a => (landAt_kept a b).2.2.2) _ _⟩

@[simp] theorem view_bclk (s : State) : (view s).bclk = (own s).bclk := (landDue_kept _ _).1
@[simp] theorem view_run (s : State) : (view s).run = (own s).run := (landDue_kept _ _).2.2.2

/-! ## One move -/

theorem acquire_none (who : CtxId) (s : State) (f : Past → Bool) (h : ∀ p, f p = false) : acquire who f s = s := by
  have : (s.past.map fun p => if p.engine && f p && (assoc who p.acq).isNone then { p with acq := (who, s.seq) :: p.acq } else p) = s.past := by
    simp [h]
  simp only [acquire, this]

theorem bit_zero (n : Nat) : bit 0 n = false := by simp [bit]
theorem tokensClear_zero (n : Nat) (c : Ctx) : tokensClear n c 0 = true := by simp [tokensClear, bit_zero]
theorem tokenError_zero (c : Ctx) : tokenError c 0 = none := by simp [tokenError, bit_zero]

/-- The bundle of one trigger move. -/
def trigBundle (s : State) (op : OpDef) (field : Nat) (g : Guard) (src : Source) : Bundle :=
  lone s ⟨s.sel.slot, some g, .ok src, .ok (.trig (field / 32) (field % 32)), field, some op⟩

theorem issueOne_attempt (op : OpDef) (field : Nat) (g : Guard) (src : Source) (s : State) :
    issueOne op field g src s = attempt s.sel.who (.got (trigBundle s op field g src)) s := rfl

theorem trigBundle_length (s : State) (op : OpDef) (field : Nat) (g : Guard) (src : Source) (h : s.sel.slot < 8) :
    (trigBundle s op field g src).hdr.length = oneLen s := by
  have : (slotsOf (2 ^ s.sel.slot)).length = 1 := by
    generalize s.sel.slot = k at h; interval_cases k <;> decide
  simp [trigBundle, lone, Header.length, oneLen, this]

/-- The one move, legal throughout. -/
def trigLive (s : State) (op : OpDef) (field : Nat) (g : Guard) (src : Source) : Live :=
  ⟨s.sel.slot, g, src, .trig (field / 32) (field % 32), field, some op⟩

theorem passing_one (s : State) (op : OpDef) (field : Nat) (g : Guard) (src : Source) (c : Ctx) (h : guardPasses c g = true) :
    passing c (trigBundle s op field g src) = [trigLive s op field g src] := by
  simp [passing, trigBundle, lone, SlotMove.live, trigLive, h]
theorem passing_held (s : State) (op : OpDef) (field : Nat) (g : Guard) (src : Source) (c : Ctx) (h : guardPasses c g = false) :
    passing c (trigBundle s op field g src) = [] := by
  simp [passing, trigBundle, lone, SlotMove.live, h]

theorem busyNames_one (s : State) (op : OpDef) (field : Nat) (g : Guard) (src : Source) : busyNames [trigLive s op field g src] = readNames src := by
  have hw : vWrites [trigLive s op field g src] = [] := rfl
  have hr : vReads [trigLive s op field g src] = readNames src := by
    cases src <;> simp [vReads, readNames, trigLive]
  simp [busyNames, hw, hr]

theorem triggers_one (s : State) (op : OpDef) (field : Nat) (g : Guard) (src : Source) (h : s.sel.slot < 8) :
    triggers s.sel.who (trigBundle s op field g src) (view s) [trigLive s op field g src] = [(op, given s field op.ty src)] := by
  have hl := trigBundle_length s op field g src h
  have hb := busyNames_one s op field g src
  simp only [triggers, sortBy, insertBy, List.foldl, List.filterMap, opIn, hb]
  simp only [trigLive, given, hl, withPorts, Live.val, Live.ty, trigFields, brought, List.filterMap]
  rfl

theorem mainRead_bank (m : SlotMove) (h : m.writes = none) : bankFault [m] [] [] = none := by
  simp only [bankFault, h]
  cases m.reads with
  | none => simp
  | some i => simp [inBank]

theorem encFault_one (s : State) (op : OpDef) (field : Nat) (g : Guard) (src : Source)
    (h1 : longNeed src ≤ s.sel.longs.length) (h2 : s.sel.longs.length ≤ 2) (h3 : (own s).pc + 2 + s.sel.longs.length ≤ 2 ^ 18) :
    encFault (trigBundle s op field g src) = none := by
  simp only [own] at h3
  have hb : bankFault (trigBundle s op field g src).moves [] [] = none := mainRead_bank _ rfl
  simp only [encFault, hb]
  simp [trigBundle, lone, SlotMove.illegal, SlotMove.dup, badField, h2]
  rw [if_neg (by omega)]
  simpa using h3

theorem bitsTrap_one (s : State) (op : OpDef) (field : Nat) (g : Guard) (src : Source) (c : Ctx)
    (h1 : longNeed src ≤ s.sel.longs.length) (h2 : s.sel.longs.length ≤ 2) (h3 : (own s).pc + 2 + s.sel.longs.length ≤ 2 ^ 18)
    (hcap : capFault (passing c (trigBundle s op field g src)) (bufferUse c c.bclk, flightVecs c c.bclk, flightScs c c.bclk) = none)
    (hty : op.ty.takes (srcTy c src) = true) : bitsTrap c (trigBundle s op field g src) = none := by
  simp only [bitsTrap, encFault_one s op field g src h1 h2 h3, hcap]
  simp [trigBundle, lone, badUnit, SlotMove.live, Live.mismatch, Live.ty, hty]

theorem capFault_one (s : State) (op : OpDef) (field : Nat) (g : Guard) (src : Source) (h : Room s op.land op.vecs op.scs) :
    capFault [trigLive s op field g src] (bufferUse (view s) (view s).bclk, flightVecs (view s) (view s).bclk, flightScs (view s) (view s).bclk)
      = none := by
  obtain ⟨a, b, d⟩ := h
  have hc : (trigLive s op field g src).cost = (op.land, op.vecs, op.scs) := rfl
  simp only [capFault, hc]
  rw [if_neg, if_neg, if_neg]
  all_goals rintro ⟨x, y⟩
  · have := d y; omega
  · have := b y; omega
  · have := a y; omega

theorem awaited_one (s : State) (op : OpDef) (field : Nat) (g : Guard) (src : Source) (h : Quiet s) :
    awaited (getCtx s s.sel.who) (trigBundle s op field g src) = 0 := by
  obtain ⟨_, h2, h3, _⟩ := h
  have h2' : (getCtx s s.sel.who).twait = 0 := h2
  simp [awaited, trigBundle, lone, h2', h3]

/-- Nothing stops the bundle: its operation runs. -/
theorem judge_one (s : State) (op : OpDef) (field : Nat) (g : Guard) (src : Source) (hq : Quiet s) (hb : Brings s g src op.ty)
    (hr : Room s op.land op.vecs op.scs) (hf : op.full (given s field op.ty src) s = false)
    (ht : ∀ t, op.tok (given s field op.ty src) = some t → (getTok (view s) t).count < 15) :
    judge s s.sel.who (.got (trigBundle s op field g src)) = .go := by
  have hA := awaited_one s op field g src hq
  obtain ⟨h1, h2, h3, h4, h5, h6, h7, h8, h9⟩ := hq
  obtain ⟨b1, b2, b3, b4, b5⟩ := hb
  have hseen : seen (getCtx s s.sel.who) = view s := rfl
  have hown : getCtx s s.sel.who = own s := rfl
  have hp := passing_one s op field g src (view s) b1
  have hblk : blocked s (view s) [(op, given s field op.ty src)] = false := by
    simp only [blocked, List.any_cons, hf, List.any_nil, Bool.or_false, Bool.false_or]
    rw [List.any_eq_false]
    intro t _
    by_cases e : op.tok (given s field op.ty src) = some t
    · have := ht t e
      simp [e]; omega
    · simp [e]
  have hA' : awaited (own s) (trigBundle s op field g src) = 0 := hA
  have hrep : replayNames (view s) [trigLive s op field g src] = [] := by
    simp only [replayNames, List.filterMap, trigLive]
    cases src with
    | v n => simp [b5 n rfl, sortBy]
    | _ => simp [sortBy]
  have hbits := bitsTrap_one s op field g src (view s) b3 h5 h6 (by rw [hp]; exact capFault_one s op field g src hr) b4
  simp only [judge, hown, h1, hA', tokensClear_zero, show seen (own s) = view s from rfl, hp,
    triggers_one s op field g src h4, hblk, h7, hbits, h8, hrep, tokenError_zero]
  simp

theorem moveFlight_trig (longs : List Syllable) (c0 c : Ctx) (s : State) (op : OpDef) (field : Nat) (g : Guard) (src : Source) :
    moveFlight longs c0 (trigLive s op field g src) c = c := rfl

theorem begin_one (s : State) (op : OpDef) (field : Nat) (g : Guard) (src : Source) :
    begin (trigBundle s op field g src) (view s) [trigLive s op field g src] = .ok (entry s src) := by
  have hw : vWrites [trigLive s op field g src] = [] := rfl
  simp only [begin, hw, busyNames_one s op field g src, takeAll]
  simp only [List.filter, trigLive, List.foldl, moveFlight, withPorts]
  rfl

/-- Issuing the bundle of one move comes to what its operation does. -/
theorem performed_one (op : OpDef) (field : Nat) (g : Guard) (src : Source) (s : State) (hq : Quiet s) (hb : Brings s g src op.ty) :
    performed s.sel.who (trigBundle s op field g src) s = match op.run (given s field op.ty src) (started s src) with
      | .ok t => (none, t)
      | .error e => (some e, started s src) := by
  have hA := awaited_one s op field g src hq
  have hp := passing_one s op field g src (view s) hb.1
  have hg : guardTraps (view s) (trigBundle s op field g src) = [] := by
    simp [guardTraps, trigBundle, lone, SlotMove.live, hb.2.1]
  have hseen : seen (getCtx s s.sel.who) = view s := rfl
  simp only [performed, hseen, hp, triggers_one s op field g src hq.2.2.2.1, begin_one, hg, hA]
  rw [acquire_none _ _ _ (by intro p; simp [bit_zero])]
  have : setCtx s.sel.who (entry s src) s = started s src := rfl
  simp only [this, runOps]
  cases op.run (given s field op.ty src) (started s src) with
  | ok t => rfl
  | error e => simp [lowest, sortBy, insertBy]

/-- The move's operation runs and its bundle ends. -/
theorem issueOne_run (op : OpDef) (field : Nat) (g : Guard) (src : Source) (s t : State) (hq : Quiet s) (hb : Brings s g src op.ty)
    (hr : Room s op.land op.vecs op.scs) (hf : op.full (given s field op.ty src) s = false)
    (ht : ∀ k, op.tok (given s field op.ty src) = some k → (getTok (view s) k).count < 15)
    (hrun : op.run (given s field op.ty src) (started s src) = .ok t) :
    issueOne op field g src s = finish s.sel.who (trigBundle s op field g src) (view s) [field] t := by
  have hseen : seen (getCtx s s.sel.who) = view s := rfl
  rw [issueOne_attempt]
  simp only [attempt, judge_one s op field g src hq hb hr hf ht, perform, performed_one op field g src s hq hb, hrun, hseen,
    passing_one s op field g src (view s) hb.1]
  rfl

/-- The move's operation traps: the trap of R68, or the double fault of R71. -/
theorem issueOne_trap (op : OpDef) (field : Nat) (g : Guard) (src : Source) (s : State) (e : Trap) (hq : Quiet s) (hb : Brings s g src op.ty)
    (hr : Room s op.land op.vecs op.scs) (hf : op.full (given s field op.ty src) s = false)
    (ht : ∀ k, op.tok (given s field op.ty src) = some k → (getTok (view s) k).count < 15)
    (hrun : op.run (given s field op.ty src) (started s src) = .error e) :
    issueOne op field g src s = trapEnter s.sel.who e s := by
  rw [issueOne_attempt]
  simp only [attempt, judge_one s op field g src hq hb hr hf ht, perform, performed_one op field g src s hq hb, hrun]

theorem trapEnter_free (s : State) (e : Trap) (h : (own s).snap = none) : trapEnter s.sel.who e s = trapped s e := by
  have h' : (getCtx s s.sel.who).snap = none := h
  simp [trapEnter, h', trapped, updCtx, own]

/-- Only CALL, MTSR, LOOPS and LOOPX settle LINK at the end of a bundle of one move. -/
theorem linkReach_none {field : Nat} (c : Ctx) (q : Nat) (h : field ∉ [104, 106, 107, 165]) : linkReach c q [field] = none := by
  simp only [List.mem_cons, List.not_mem_nil, or_false, not_or] at h
  simp [linkReach, Ne.symm h.1, Ne.symm h.2.1, Ne.symm h.2.2.1, Ne.symm h.2.2.2]
/-- MTSR, LOOPS and LOOPX do so in the first delay bundle of a CALL only. -/
theorem linkReach_idle {field : Nat} (c : Ctx) (q : Nat) (h : field ≠ 104) (hc : c.calling ≠ some (q + 1)) : linkReach c q [field] = none := by
  simp [linkReach, Ne.symm h, hc]

/-- The end of a bundle in a context that goes on, with no LINK to settle and no handler ending. -/
theorem finish_on (op : OpDef) (field : Nat) (g : Guard) (src : Source) (s t : State) (h : s.sel.slot < 8)
    (h1 : (getCtx t s.sel.who).run ≠ .retired) (h2 : (getCtx t s.sel.who).run ≠ .halted) (h3 : (getCtx t s.sel.who).rft = none)
    (h4 : linkReach (getCtx t s.sel.who) ((view s).bclk + 1) [field] = none) :
    finish s.sel.who (trigBundle s op field g src) (view s) [field] t = goOn s t := by
  have hl := trigBundle_length s op field g src h
  have hh : (trigBundle s op field g src).h = (own s).pc := rfl
  simp only [finish, h1, h2, or_self, if_false, hl, hh, goOn, advance, h4, flowAfter]
  cases hr : redirectAt (getCtx t s.sel.who) ((view s).bclk + 1) with
  | some r => simp [h3]
  | none => by_cases hc : (loopStep (view s) (own s).pc).2 = true <;> simp [hc, h3]

/-- A bundle of one move whose operation changes its own context only. -/
theorem issueOne_after (op : OpDef) (field : Nat) (g : Guard) (src : Source) (s : State) (f : Ctx → Ctx) (hq : Quiet s)
    (hb : Brings s g src op.ty) (hr : Room s op.land op.vecs op.scs) (hf : op.full (given s field op.ty src) s = false)
    (ht : ∀ k, op.tok (given s field op.ty src) = some k → (getTok (view s) k).count < 15)
    (hrun : op.run (given s field op.ty src) (started s src) = .ok (updCtx s.sel.who f (started s src)))
    (hlink : linkReach (f (entry s src)) ((view s).bclk + 1) [field] = none) (hrun1 : (f (entry s src)).run ≠ .retired) (hrun2 : (f (entry s src)).run ≠ .halted)
    (hrft : (f (entry s src)).rft = none) :
    issueOne op field g src s = after s src f := by
  have hu : updCtx s.sel.who f (started s src) = setCtx s.sel.who (f (entry s src)) s := by simp [started, updCtx]
  rw [issueOne_run op field g src s _ hq hb hr hf ht hrun, finish_on op field g src s _ hq.2.2.2.1] <;> rw [hu]
  · simp [goOn, after]
  · simpa using hrun1
  · simpa using hrun2
  · simpa using hrft
  · simpa using hlink

theorem touchNames_kept {α : Type} (g : Ctx → α) (h : ∀ n x c, g (setV n x c) = g c) (ns : List Nat) (c : Ctx) : g (touchNames ns c) = g c := by
  unfold touchNames
  induction ns generalizing c with
  | nil => rfl
  | cons n r ih => rw [List.foldl_cons, ih, h]

/-- The context an operation starts from is the one its bundle sees, but for the flow fields and vector accesses. -/
theorem entry_kept {α : Type} (g : Ctx → α) (h : ∀ n x c, g (setV n x c) = g c) (s : State) (src : Source)
    (h2 : ∀ c : Ctx, g { c with twait := 0, touchLost := none, replayTrap := none, loopCnt := (loopStep (view s) (own s).pc).1 } = g c) :
    g (entry s src) = g (view s) := by
  unfold entry; rw [h2, touchNames_kept g h]

theorem entry_run {s : State} (src : Source) (h : Quiet s) : (entry s src).run = .runnable := by
  rw [entry_kept Ctx.run (fun _ _ _ => rfl) s src (fun _ => rfl), view_run]
  have := h.1
  simp only [awake, Bool.and_eq_true] at this
  exact eq_of_beq this.1.1.1.1.1
theorem entry_rft {s : State} (src : Source) (h : Quiet s) : (entry s src).rft = none := by
  rw [entry_kept Ctx.rft (fun _ _ _ => rfl) s src (fun _ => rfl)]; exact h.2.2.2.2.2.2.2.2
@[simp] theorem entry_flight (s : State) (src : Source) : (entry s src).flight = (view s).flight :=
  entry_kept Ctx.flight (fun _ _ _ => rfl) s src (fun _ => rfl)
@[simp] theorem entry_sr (s : State) (src : Source) : (entry s src).sr = (view s).sr :=
  entry_kept Ctx.sr (fun _ _ _ => rfl) s src (fun _ => rfl)

/-- An operation that only puts results in flight. -/
theorem issueOne_flights (op : OpDef) (field : Nat) (g : Guard) (src : Source) (s : State) (fs : List Flight) (hq : Quiet s)
    (hb : Brings s g src op.ty) (hr : Room s op.land op.vecs op.scs) (hf : op.full (given s field op.ty src) s = false)
    (ht : ∀ k, op.tok (given s field op.ty src) = some k → (getTok (view s) k).count < 15)
    (hrun : op.run (given s field op.ty src) (started s src) = .ok (updCtx s.sel.who (inFlight fs) (started s src)))
    (hfield : field ∉ [104, 106, 107, 165]) : issueOne op field g src s = after s src (inFlight fs) := by
  refine issueOne_after op field g src s _ hq hb hr hf ht hrun (linkReach_none _ _ hfield) ?_ ?_ ?_
  · show (entry s src).run ≠ _; rw [entry_run src hq]; simp
  · show (entry s src).run ≠ _; rw [entry_run src hq]; simp
  · exact entry_rft src hq

end Sys2Proof.Machine
end

