-- ==== Sys2Proof/Laws/PerInstr.lean ====
section
/-! SUPPORT. For every constructor of the syntax: where the instruction is one move syllable, a well-formed term gives parts
that fit their fields (a destination field below 2 to the 11, a well-formed source), and no step or event gives parts. -/

namespace Sys2Proof.Laws

/-- A register or operand-port destination of a move fits the 11 destination bits (R22). -/
theorem encodeDest_lt (d : Dest) (h : d.wf = true) : encodeDest d < 2 ^ 11 := by
  cases d <;> simp [Dest.wf, encodeDest] at h ⊢ <;> omega

/-- A term whose parts are known meets the shape. -/
theorem shape_of_parts {i : Instr} {g : Guard} {src : Source} {f : Nat} (hp : moveParts i = some (g, src, f))
    (hf : f < 2 ^ 11) (hw : i.wf = true → src.wf = true) :
    ∀ g' src' f', moveParts i = some (g', src', f') → i.wf = true → f' < 2 ^ 11 ∧ src'.wf = true := by
  intro g' src' f' h w
  rw [hp] at h
  cases h
  exact ⟨hf, hw w⟩

/-- A term without parts meets the shape. -/
theorem shape_of_none {i : Instr} (hp : moveParts i = none) :
    ∀ g' src' f', moveParts i = some (g', src', f') → i.wf = true → f' < 2 ^ 11 ∧ src'.wf = true := by
  intro g' src' f' h
  rw [hp] at h
  cases h

/-- What is stated of every instruction: the parts of its syllable, where it has one, fit the syllable (R19, R21, R22). -/
def F.Statement (i : Instr) : Prop :=
  ∀ g src f, moveParts i = some (g, src, f) → i.wf = true → f < 2 ^ 11 ∧ src.wf = true

theorem F.bundleIssue (c : CoreId) : F.Statement (.bundleIssue c) := shape_of_none rfl
theorem F.starvationLead (c : CoreId) : F.Statement (.starvationLead c) := shape_of_none rfl
theorem F.move (g : Guard) (src : Source) (d : Dest) : F.Statement (.move g src d) := by
  intro g' src' f' h w
  have w' : src.wf = true ∧ d.wf = true := by simpa [Instr.wf] using w
  cases h
  exact ⟨encodeDest_lt d w'.2, w'.1⟩
theorem F.lineFetch (c : CoreId) (line : Nat) : F.Statement (.lineFetch c line) := shape_of_none rfl
theorem F.latchLanding (c : CtxId) : F.Statement (.latchLanding c) := shape_of_none rfl
theorem F.timedDataArrival (c : CtxId) (k : Nat) : F.Statement (.timedDataArrival c k) := shape_of_none rfl
theorem F.timedLanding (c : CtxId) : F.Statement (.timedLanding c) := shape_of_none rfl
theorem F.sketchReplayComplete (c : CtxId) : F.Statement (.sketchReplayComplete c) := shape_of_none rfl
theorem F.sleepTimeout (c : CtxId) : F.Statement (.sleepTimeout c) := shape_of_none rfl
theorem F.pourLanding : F.Statement .pourLanding := shape_of_none rfl
theorem F.bwaitWake (c : CtxId) : F.Statement (.bwaitWake c) := shape_of_none rfl
theorem F.fenceComplete (c : CtxId) : F.Statement (.fenceComplete c) := shape_of_none rfl
theorem F.pinExpiry (c : CtxId) : F.Statement (.pinExpiry c) := shape_of_none rfl
theorem F.pageWalkComplete (c : CtxId) (k : Nat) : F.Statement (.pageWalkComplete c k) := shape_of_none rfl
theorem F.syscReply (die : Nat) : F.Statement (.syscReply die) := shape_of_none rfl
theorem F.addAlu0 (g : Guard) (src : Source) : F.Statement (.addAlu0 g src) := shape_of_parts rfl (by decide) id
theorem F.addAlu1 (g : Guard) (src : Source) : F.Statement (.addAlu1 g src) := shape_of_parts rfl (by decide) id
theorem F.subAlu0 (g : Guard) (src : Source) : F.Statement (.subAlu0 g src) := shape_of_parts rfl (by decide) id
theorem F.subAlu1 (g : Guard) (src : Source) : F.Statement (.subAlu1 g src) := shape_of_parts rfl (by decide) id
theorem F.andAlu0 (g : Guard) (src : Source) : F.Statement (.andAlu0 g src) := shape_of_parts rfl (by decide) id
theorem F.andAlu1 (g : Guard) (src : Source) : F.Statement (.andAlu1 g src) := shape_of_parts rfl (by decide) id
theorem F.orAlu0 (g : Guard) (src : Source) : F.Statement (.orAlu0 g src) := shape_of_parts rfl (by decide) id
theorem F.orAlu1 (g : Guard) (src : Source) : F.Statement (.orAlu1 g src) := shape_of_parts rfl (by decide) id
theorem F.xorAlu0 (g : Guard) (src : Source) : F.Statement (.xorAlu0 g src) := shape_of_parts rfl (by decide) id
theorem F.xorAlu1 (g : Guard) (src : Source) : F.Statement (.xorAlu1 g src) := shape_of_parts rfl (by decide) id
theorem F.andnAlu0 (g : Guard) (src : Source) : F.Statement (.andnAlu0 g src) := shape_of_parts rfl (by decide) id
theorem F.andnAlu1 (g : Guard) (src : Source) : F.Statement (.andnAlu1 g src) := shape_of_parts rfl (by decide) id
theorem F.shlAlu0 (g : Guard) (src : Source) : F.Statement (.shlAlu0 g src) := shape_of_parts rfl (by decide) id
theorem F.shlAlu1 (g : Guard) (src : Source) : F.Statement (.shlAlu1 g src) := shape_of_parts rfl (by decide) id
theorem F.shrAlu0 (g : Guard) (src : Source) : F.Statement (.shrAlu0 g src) := shape_of_parts rfl (by decide) id
theorem F.shrAlu1 (g : Guard) (src : Source) : F.Statement (.shrAlu1 g src) := shape_of_parts rfl (by decide) id
theorem F.sarAlu0 (g : Guard) (src : Source) : F.Statement (.sarAlu0 g src) := shape_of_parts rfl (by decide) id
theorem F.sarAlu1 (g : Guard) (src : Source) : F.Statement (.sarAlu1 g src) := shape_of_parts rfl (by decide) id
theorem F.rolAlu0 (g : Guard) (src : Source) : F.Statement (.rolAlu0 g src) := shape_of_parts rfl (by decide) id
theorem F.rolAlu1 (g : Guard) (src : Source) : F.Statement (.rolAlu1 g src) := shape_of_parts rfl (by decide) id
theorem F.minAlu0 (g : Guard) (src : Source) : F.Statement (.minAlu0 g src) := shape_of_parts rfl (by decide) id
theorem F.minAlu1 (g : Guard) (src : Source) : F.Statement (.minAlu1 g src) := shape_of_parts rfl (by decide) id
theorem F.maxAlu0 (g : Guard) (src : Source) : F.Statement (.maxAlu0 g src) := shape_of_parts rfl (by decide) id
theorem F.maxAlu1 (g : Guard) (src : Source) : F.Statement (.maxAlu1 g src) := shape_of_parts rfl (by decide) id
theorem F.minuAlu0 (g : Guard) (src : Source) : F.Statement (.minuAlu0 g src) := shape_of_parts rfl (by decide) id
theorem F.minuAlu1 (g : Guard) (src : Source) : F.Statement (.minuAlu1 g src) := shape_of_parts rfl (by decide) id
theorem F.maxuAlu0 (g : Guard) (src : Source) : F.Statement (.maxuAlu0 g src) := shape_of_parts rfl (by decide) id
theorem F.maxuAlu1 (g : Guard) (src : Source) : F.Statement (.maxuAlu1 g src) := shape_of_parts rfl (by decide) id
theorem F.eqAlu0 (g : Guard) (src : Source) : F.Statement (.eqAlu0 g src) := shape_of_parts rfl (by decide) id
theorem F.eqAlu1 (g : Guard) (src : Source) : F.Statement (.eqAlu1 g src) := shape_of_parts rfl (by decide) id
theorem F.neAlu0 (g : Guard) (src : Source) : F.Statement (.neAlu0 g src) := shape_of_parts rfl (by decide) id
theorem F.neAlu1 (g : Guard) (src : Source) : F.Statement (.neAlu1 g src) := shape_of_parts rfl (by decide) id
theorem F.ltAlu0 (g : Guard) (src : Source) : F.Statement (.ltAlu0 g src) := shape_of_parts rfl (by decide) id
theorem F.ltAlu1 (g : Guard) (src : Source) : F.Statement (.ltAlu1 g src) := shape_of_parts rfl (by decide) id
theorem F.ltuAlu0 (g : Guard) (src : Source) : F.Statement (.ltuAlu0 g src) := shape_of_parts rfl (by decide) id
theorem F.ltuAlu1 (g : Guard) (src : Source) : F.Statement (.ltuAlu1 g src) := shape_of_parts rfl (by decide) id
theorem F.leAlu0 (g : Guard) (src : Source) : F.Statement (.leAlu0 g src) := shape_of_parts rfl (by decide) id
theorem F.leAlu1 (g : Guard) (src : Source) : F.Statement (.leAlu1 g src) := shape_of_parts rfl (by decide) id
theorem F.leuAlu0 (g : Guard) (src : Source) : F.Statement (.leuAlu0 g src) := shape_of_parts rfl (by decide) id
theorem F.leuAlu1 (g : Guard) (src : Source) : F.Statement (.leuAlu1 g src) := shape_of_parts rfl (by decide) id
theorem F.selAlu0 (g : Guard) (src : Source) : F.Statement (.selAlu0 g src) := shape_of_parts rfl (by decide) id
theorem F.selAlu1 (g : Guard) (src : Source) : F.Statement (.selAlu1 g src) := shape_of_parts rfl (by decide) id
theorem F.clzAlu0 (g : Guard) (src : Source) : F.Statement (.clzAlu0 g src) := shape_of_parts rfl (by decide) id
theorem F.clzAlu1 (g : Guard) (src : Source) : F.Statement (.clzAlu1 g src) := shape_of_parts rfl (by decide) id
theorem F.ctzAlu0 (g : Guard) (src : Source) : F.Statement (.ctzAlu0 g src) := shape_of_parts rfl (by decide) id
theorem F.ctzAlu1 (g : Guard) (src : Source) : F.Statement (.ctzAlu1 g src) := shape_of_parts rfl (by decide) id
theorem F.popcAlu0 (g : Guard) (src : Source) : F.Statement (.popcAlu0 g src) := shape_of_parts rfl (by decide) id
theorem F.popcAlu1 (g : Guard) (src : Source) : F.Statement (.popcAlu1 g src) := shape_of_parts rfl (by decide) id
theorem F.sextAlu0 (g : Guard) (src : Source) : F.Statement (.sextAlu0 g src) := shape_of_parts rfl (by decide) id
theorem F.sextAlu1 (g : Guard) (src : Source) : F.Statement (.sextAlu1 g src) := shape_of_parts rfl (by decide) id
theorem F.zextAlu0 (g : Guard) (src : Source) : F.Statement (.zextAlu0 g src) := shape_of_parts rfl (by decide) id
theorem F.zextAlu1 (g : Guard) (src : Source) : F.Statement (.zextAlu1 g src) := shape_of_parts rfl (by decide) id
theorem F.bfxAlu0 (g : Guard) (src : Source) : F.Statement (.bfxAlu0 g src) := shape_of_parts rfl (by decide) id
theorem F.bfxAlu1 (g : Guard) (src : Source) : F.Statement (.bfxAlu1 g src) := shape_of_parts rfl (by decide) id
theorem F.bfiAlu0 (g : Guard) (src : Source) : F.Statement (.bfiAlu0 g src) := shape_of_parts rfl (by decide) id
theorem F.bfiAlu1 (g : Guard) (src : Source) : F.Statement (.bfiAlu1 g src) := shape_of_parts rfl (by decide) id
theorem F.mul (g : Guard) (src : Source) : F.Statement (.mul g src) := shape_of_parts rfl (by decide) id
theorem F.mulh (g : Guard) (src : Source) : F.Statement (.mulh g src) := shape_of_parts rfl (by decide) id
theorem F.mulhu (g : Guard) (src : Source) : F.Statement (.mulhu g src) := shape_of_parts rfl (by decide) id
theorem F.mulw (g : Guard) (src : Source) : F.Statement (.mulw g src) := shape_of_parts rfl (by decide) id
theorem F.madd (g : Guard) (src : Source) : F.Statement (.madd g src) := shape_of_parts rfl (by decide) id
theorem F.div (g : Guard) (src : Source) : F.Statement (.div g src) := shape_of_parts rfl (by decide) id
theorem F.divu (g : Guard) (src : Source) : F.Statement (.divu g src) := shape_of_parts rfl (by decide) id
theorem F.rem (g : Guard) (src : Source) : F.Statement (.rem g src) := shape_of_parts rfl (by decide) id
theorem F.remu (g : Guard) (src : Source) : F.Statement (.remu g src) := shape_of_parts rfl (by decide) id
theorem F.jmp (g : Guard) (src : Source) : F.Statement (.jmp g src) := shape_of_parts rfl (by decide) id
theorem F.bra (g : Guard) (src : Source) : F.Statement (.bra g src) := shape_of_parts rfl (by decide) id
theorem F.brz (g : Guard) (src : Source) : F.Statement (.brz g src) := shape_of_parts rfl (by decide) id
theorem F.brnz (g : Guard) (src : Source) : F.Statement (.brnz g src) := shape_of_parts rfl (by decide) id
theorem F.call (g : Guard) (src : Source) : F.Statement (.call g src) := shape_of_parts rfl (by decide) id
theorem F.ret (g : Guard) (src : Source) : F.Statement (.ret g src) := shape_of_parts rfl (by decide) id
theorem F.loops (g : Guard) (src : Source) : F.Statement (.loops g src) := shape_of_parts rfl (by decide) id
theorem F.loopx (g : Guard) (src : Source) : F.Statement (.loopx g src) := shape_of_parts rfl (by decide) id
theorem F.trap (g : Guard) (src : Source) : F.Statement (.trap g src) := shape_of_parts rfl (by decide) id
theorem F.exit (g : Guard) (src : Source) : F.Statement (.exit g src) := shape_of_parts rfl (by decide) id
theorem F.spld (g : Guard) (src : Source) : F.Statement (.spld g src) := shape_of_parts rfl (by decide) id
theorem F.spst (g : Guard) (src : Source) : F.Statement (.spst g src) := shape_of_parts rfl (by decide) id
theorem F.ldb (g : Guard) (src : Source) : F.Statement (.ldb g src) := shape_of_parts rfl (by decide) id
theorem F.ldbs (g : Guard) (src : Source) : F.Statement (.ldbs g src) := shape_of_parts rfl (by decide) id
theorem F.ldh (g : Guard) (src : Source) : F.Statement (.ldh g src) := shape_of_parts rfl (by decide) id
theorem F.ldhs (g : Guard) (src : Source) : F.Statement (.ldhs g src) := shape_of_parts rfl (by decide) id
theorem F.ldw (g : Guard) (src : Source) : F.Statement (.ldw g src) := shape_of_parts rfl (by decide) id
theorem F.ldws (g : Guard) (src : Source) : F.Statement (.ldws g src) := shape_of_parts rfl (by decide) id
theorem F.ldd (g : Guard) (src : Source) : F.Statement (.ldd g src) := shape_of_parts rfl (by decide) id
theorem F.stb (g : Guard) (src : Source) : F.Statement (.stb g src) := shape_of_parts rfl (by decide) id
theorem F.sth (g : Guard) (src : Source) : F.Statement (.sth g src) := shape_of_parts rfl (by decide) id
theorem F.stw (g : Guard) (src : Source) : F.Statement (.stw g src) := shape_of_parts rfl (by decide) id
theorem F.std (g : Guard) (src : Source) : F.Statement (.std g src) := shape_of_parts rfl (by decide) id
theorem F.tch (g : Guard) (src : Source) : F.Statement (.tch g src) := shape_of_parts rfl (by decide) id
theorem F.gld (g : Guard) (src : Source) : F.Statement (.gld g src) := shape_of_parts rfl (by decide) id
theorem F.gst (g : Guard) (src : Source) : F.Statement (.gst g src) := shape_of_parts rfl (by decide) id
theorem F.aadd (g : Guard) (src : Source) : F.Statement (.aadd g src) := shape_of_parts rfl (by decide) id
theorem F.amax (g : Guard) (src : Source) : F.Statement (.amax g src) := shape_of_parts rfl (by decide) id
theorem F.amin (g : Guard) (src : Source) : F.Statement (.amin g src) := shape_of_parts rfl (by decide) id
theorem F.axchg (g : Guard) (src : Source) : F.Statement (.axchg g src) := shape_of_parts rfl (by decide) id
theorem F.acas (g : Guard) (src : Source) : F.Statement (.acas g src) := shape_of_parts rfl (by decide) id
theorem F.mfsr (g : Guard) (src : Source) : F.Statement (.mfsr g src) := shape_of_parts rfl (by decide) id
theorem F.mtsr (g : Guard) (src : Source) : F.Statement (.mtsr g src) := shape_of_parts rfl (by decide) id
theorem F.yield (g : Guard) (src : Source) : F.Statement (.yield g src) := shape_of_parts rfl (by decide) id
theorem F.prio (g : Guard) (src : Source) : F.Statement (.prio g src) := shape_of_parts rfl (by decide) id
theorem F.sysc (g : Guard) (src : Source) : F.Statement (.sysc g src) := shape_of_parts rfl (by decide) id
theorem F.rft (g : Guard) (src : Source) : F.Statement (.rft g src) := shape_of_parts rfl (by decide) id
theorem F.tokq (g : Guard) (src : Source) : F.Statement (.tokq g src) := shape_of_parts rfl (by decide) id
theorem F.tokc (g : Guard) (src : Source) : F.Statement (.tokc g src) := shape_of_parts rfl (by decide) id
theorem F.fflgs (g : Guard) (src : Source) : F.Statement (.fflgs g src) := shape_of_parts rfl (by decide) id
theorem F.sleep (g : Guard) (src : Source) : F.Statement (.sleep g src) := shape_of_parts rfl (by decide) id
theorem F.wake (g : Guard) (src : Source) : F.Statement (.wake g src) := shape_of_parts rfl (by decide) id
theorem F.ctxq (g : Guard) (src : Source) : F.Statement (.ctxq g src) := shape_of_parts rfl (by decide) id
theorem F.rdef (g : Guard) (src : Source) : F.Statement (.rdef g src) := shape_of_parts rfl (by decide) id
theorem F.rtag (g : Guard) (src : Source) : F.Statement (.rtag g src) := shape_of_parts rfl (by decide) id
theorem F.rclr (g : Guard) (src : Source) : F.Statement (.rclr g src) := shape_of_parts rfl (by decide) id
theorem F.rdrop (g : Guard) (src : Source) : F.Statement (.rdrop g src) := shape_of_parts rfl (by decide) id
theorem F.vld (g : Guard) (src : Source) : F.Statement (.vld g src) := shape_of_parts rfl (by decide) id
theorem F.vlds (g : Guard) (src : Source) : F.Statement (.vlds g src) := shape_of_parts rfl (by decide) id
theorem F.vldg (g : Guard) (src : Source) : F.Statement (.vldg g src) := shape_of_parts rfl (by decide) id
theorem F.vst (g : Guard) (src : Source) : F.Statement (.vst g src) := shape_of_parts rfl (by decide) id
theorem F.vsts (g : Guard) (src : Source) : F.Statement (.vsts g src) := shape_of_parts rfl (by decide) id
theorem F.vstm (g : Guard) (src : Source) : F.Statement (.vstm g src) := shape_of_parts rfl (by decide) id
theorem F.vstg (g : Guard) (src : Source) : F.Statement (.vstg g src) := shape_of_parts rfl (by decide) id
theorem F.vldbf (g : Guard) (src : Source) : F.Statement (.vldbf g src) := shape_of_parts rfl (by decide) id
theorem F.vstbf (g : Guard) (src : Source) : F.Statement (.vstbf g src) := shape_of_parts rfl (by decide) id
theorem F.vldf8 (g : Guard) (src : Source) : F.Statement (.vldf8 g src) := shape_of_parts rfl (by decide) id
theorem F.vldi8 (g : Guard) (src : Source) : F.Statement (.vldi8 g src) := shape_of_parts rfl (by decide) id
theorem F.vldz8 (g : Guard) (src : Source) : F.Statement (.vldz8 g src) := shape_of_parts rfl (by decide) id
theorem F.vldx (g : Guard) (src : Source) : F.Statement (.vldx g src) := shape_of_parts rfl (by decide) id
theorem F.vlde (g : Guard) (src : Source) : F.Statement (.vlde g src) := shape_of_parts rfl (by decide) id
theorem F.vstp (g : Guard) (src : Source) : F.Statement (.vstp g src) := shape_of_parts rfl (by decide) id
theorem F.vgld (g : Guard) (src : Source) : F.Statement (.vgld g src) := shape_of_parts rfl (by decide) id
theorem F.vgst (g : Guard) (src : Source) : F.Statement (.vgst g src) := shape_of_parts rfl (by decide) id
theorem F.vstmc (g : Guard) (src : Source) : F.Statement (.vstmc g src) := shape_of_parts rfl (by decide) id
theorem F.viadd (g : Guard) (src : Source) : F.Statement (.viadd g src) := shape_of_parts rfl (by decide) id
theorem F.visub (g : Guard) (src : Source) : F.Statement (.visub g src) := shape_of_parts rfl (by decide) id
theorem F.vimul (g : Guard) (src : Source) : F.Statement (.vimul g src) := shape_of_parts rfl (by decide) id
theorem F.vimin (g : Guard) (src : Source) : F.Statement (.vimin g src) := shape_of_parts rfl (by decide) id
theorem F.vimax (g : Guard) (src : Source) : F.Statement (.vimax g src) := shape_of_parts rfl (by decide) id
theorem F.viminu (g : Guard) (src : Source) : F.Statement (.viminu g src) := shape_of_parts rfl (by decide) id
theorem F.vimaxu (g : Guard) (src : Source) : F.Statement (.vimaxu g src) := shape_of_parts rfl (by decide) id
theorem F.vand (g : Guard) (src : Source) : F.Statement (.vand g src) := shape_of_parts rfl (by decide) id
theorem F.vor (g : Guard) (src : Source) : F.Statement (.vor g src) := shape_of_parts rfl (by decide) id
theorem F.vxor (g : Guard) (src : Source) : F.Statement (.vxor g src) := shape_of_parts rfl (by decide) id
theorem F.vandn (g : Guard) (src : Source) : F.Statement (.vandn g src) := shape_of_parts rfl (by decide) id
theorem F.vshl (g : Guard) (src : Source) : F.Statement (.vshl g src) := shape_of_parts rfl (by decide) id
theorem F.vshr (g : Guard) (src : Source) : F.Statement (.vshr g src) := shape_of_parts rfl (by decide) id
theorem F.vsar (g : Guard) (src : Source) : F.Statement (.vsar g src) := shape_of_parts rfl (by decide) id
theorem F.vieq (g : Guard) (src : Source) : F.Statement (.vieq g src) := shape_of_parts rfl (by decide) id
theorem F.vilt (g : Guard) (src : Source) : F.Statement (.vilt g src) := shape_of_parts rfl (by decide) id
theorem F.viltu (g : Guard) (src : Source) : F.Statement (.viltu g src) := shape_of_parts rfl (by decide) id
theorem F.vsel (g : Guard) (src : Source) : F.Statement (.vsel g src) := shape_of_parts rfl (by decide) id
theorem F.viota (g : Guard) (src : Source) : F.Statement (.viota g src) := shape_of_parts rfl (by decide) id
theorem F.vpopm (g : Guard) (src : Source) : F.Statement (.vpopm g src) := shape_of_parts rfl (by decide) id
theorem F.vmand (g : Guard) (src : Source) : F.Statement (.vmand g src) := shape_of_parts rfl (by decide) id
theorem F.vmor (g : Guard) (src : Source) : F.Statement (.vmor g src) := shape_of_parts rfl (by decide) id
theorem F.vmxor (g : Guard) (src : Source) : F.Statement (.vmxor g src) := shape_of_parts rfl (by decide) id
theorem F.vmnot (g : Guard) (src : Source) : F.Statement (.vmnot g src) := shape_of_parts rfl (by decide) id
theorem F.vbeq8 (g : Guard) (src : Source) : F.Statement (.vbeq8 g src) := shape_of_parts rfl (by decide) id
theorem F.viadds (g : Guard) (src : Source) : F.Statement (.viadds g src) := shape_of_parts rfl (by decide) id
theorem F.fadd (g : Guard) (src : Source) : F.Statement (.fadd g src) := shape_of_parts rfl (by decide) id
theorem F.fsub (g : Guard) (src : Source) : F.Statement (.fsub g src) := shape_of_parts rfl (by decide) id
theorem F.fmul (g : Guard) (src : Source) : F.Statement (.fmul g src) := shape_of_parts rfl (by decide) id
theorem F.fma (g : Guard) (src : Source) : F.Statement (.fma g src) := shape_of_parts rfl (by decide) id
theorem F.fms (g : Guard) (src : Source) : F.Statement (.fms g src) := shape_of_parts rfl (by decide) id
theorem F.fnma (g : Guard) (src : Source) : F.Statement (.fnma g src) := shape_of_parts rfl (by decide) id
theorem F.fmax (g : Guard) (src : Source) : F.Statement (.fmax g src) := shape_of_parts rfl (by decide) id
theorem F.fmin (g : Guard) (src : Source) : F.Statement (.fmin g src) := shape_of_parts rfl (by decide) id
theorem F.fabs (g : Guard) (src : Source) : F.Statement (.fabs g src) := shape_of_parts rfl (by decide) id
theorem F.fneg (g : Guard) (src : Source) : F.Statement (.fneg g src) := shape_of_parts rfl (by decide) id
theorem F.feq (g : Guard) (src : Source) : F.Statement (.feq g src) := shape_of_parts rfl (by decide) id
theorem F.flt (g : Guard) (src : Source) : F.Statement (.flt g src) := shape_of_parts rfl (by decide) id
theorem F.fle (g : Guard) (src : Source) : F.Statement (.fle g src) := shape_of_parts rfl (by decide) id
theorem F.funord (g : Guard) (src : Source) : F.Statement (.funord g src) := shape_of_parts rfl (by decide) id
theorem F.fclmp (g : Guard) (src : Source) : F.Statement (.fclmp g src) := shape_of_parts rfl (by decide) id
theorem F.fsubx (g : Guard) (src : Source) : F.Statement (.fsubx g src) := shape_of_parts rfl (by decide) id
theorem F.hadd (g : Guard) (src : Source) : F.Statement (.hadd g src) := shape_of_parts rfl (by decide) id
theorem F.hmul (g : Guard) (src : Source) : F.Statement (.hmul g src) := shape_of_parts rfl (by decide) id
theorem F.hfma (g : Guard) (src : Source) : F.Statement (.hfma g src) := shape_of_parts rfl (by decide) id
theorem F.hmax (g : Guard) (src : Source) : F.Statement (.hmax g src) := shape_of_parts rfl (by decide) id
theorem F.cvtfi (g : Guard) (src : Source) : F.Statement (.cvtfi g src) := shape_of_parts rfl (by decide) id
theorem F.cvtif (g : Guard) (src : Source) : F.Statement (.cvtif g src) := shape_of_parts rfl (by decide) id
theorem F.cvtfh (g : Guard) (src : Source) : F.Statement (.cvtfh g src) := shape_of_parts rfl (by decide) id
theorem F.cvthf (g : Guard) (src : Source) : F.Statement (.cvthf g src) := shape_of_parts rfl (by decide) id
theorem F.cvtf8 (g : Guard) (src : Source) : F.Statement (.cvtf8 g src) := shape_of_parts rfl (by decide) id
theorem F.cvt8f (g : Guard) (src : Source) : F.Statement (.cvt8f g src) := shape_of_parts rfl (by decide) id
theorem F.cvtf5 (g : Guard) (src : Source) : F.Statement (.cvtf5 g src) := shape_of_parts rfl (by decide) id
theorem F.cvt5f (g : Guard) (src : Source) : F.Statement (.cvt5f g src) := shape_of_parts rfl (by decide) id
theorem F.cvtfp16 (g : Guard) (src : Source) : F.Statement (.cvtfp16 g src) := shape_of_parts rfl (by decide) id
theorem F.cvtp16f (g : Guard) (src : Source) : F.Statement (.cvtp16f g src) := shape_of_parts rfl (by decide) id
theorem F.qpal (g : Guard) (src : Source) : F.Statement (.qpal g src) := shape_of_parts rfl (by decide) id
theorem F.dqpal (g : Guard) (src : Source) : F.Statement (.dqpal g src) := shape_of_parts rfl (by decide) id
theorem F.frnd (g : Guard) (src : Source) : F.Statement (.frnd g src) := shape_of_parts rfl (by decide) id
theorem F.fscl (g : Guard) (src : Source) : F.Statement (.fscl g src) := shape_of_parts rfl (by decide) id
theorem F.fxpn (g : Guard) (src : Source) : F.Statement (.fxpn g src) := shape_of_parts rfl (by decide) id
theorem F.exp2 (g : Guard) (src : Source) : F.Statement (.exp2 g src) := shape_of_parts rfl (by decide) id
theorem F.log2 (g : Guard) (src : Source) : F.Statement (.log2 g src) := shape_of_parts rfl (by decide) id
theorem F.rcp (g : Guard) (src : Source) : F.Statement (.rcp g src) := shape_of_parts rfl (by decide) id
theorem F.rsqrt (g : Guard) (src : Source) : F.Statement (.rsqrt g src) := shape_of_parts rfl (by decide) id
theorem F.sqrt (g : Guard) (src : Source) : F.Statement (.sqrt g src) := shape_of_parts rfl (by decide) id
theorem F.tanh (g : Guard) (src : Source) : F.Statement (.tanh g src) := shape_of_parts rfl (by decide) id
theorem F.sigm (g : Guard) (src : Source) : F.Statement (.sigm g src) := shape_of_parts rfl (by decide) id
theorem F.rsum (g : Guard) (src : Source) : F.Statement (.rsum g src) := shape_of_parts rfl (by decide) id
theorem F.rmax (g : Guard) (src : Source) : F.Statement (.rmax g src) := shape_of_parts rfl (by decide) id
theorem F.rmin (g : Guard) (src : Source) : F.Statement (.rmin g src) := shape_of_parts rfl (by decide) id
theorem F.rsumi (g : Guard) (src : Source) : F.Statement (.rsumi g src) := shape_of_parts rfl (by decide) id
theorem F.ramax (g : Guard) (src : Source) : F.Statement (.ramax g src) := shape_of_parts rfl (by decide) id
theorem F.scan (g : Guard) (src : Source) : F.Statement (.scan g src) := shape_of_parts rfl (by decide) id
theorem F.perm (g : Guard) (src : Source) : F.Statement (.perm g src) := shape_of_parts rfl (by decide) id
theorem F.vrot (g : Guard) (src : Source) : F.Statement (.vrot g src) := shape_of_parts rfl (by decide) id
theorem F.vext (g : Guard) (src : Source) : F.Statement (.vext g src) := shape_of_parts rfl (by decide) id
theorem F.vins (g : Guard) (src : Source) : F.Statement (.vins g src) := shape_of_parts rfl (by decide) id
theorem F.vcmp (g : Guard) (src : Source) : F.Statement (.vcmp g src) := shape_of_parts rfl (by decide) id
theorem F.vxpd (g : Guard) (src : Source) : F.Statement (.vxpd g src) := shape_of_parts rfl (by decide) id
theorem F.zip (g : Guard) (src : Source) : F.Statement (.zip g src) := shape_of_parts rfl (by decide) id
theorem F.unzip (g : Guard) (src : Source) : F.Statement (.unzip g src) := shape_of_parts rfl (by decide) id
theorem F.vbit (g : Guard) (src : Source) : F.Statement (.vbit g src) := shape_of_parts rfl (by decide) id
theorem F.pset (g : Guard) (src : Source) : F.Statement (.pset g src) := shape_of_parts rfl (by decide) id
theorem F.pget (g : Guard) (src : Source) : F.Statement (.pget g src) := shape_of_parts rfl (by decide) id
theorem F.punpk (g : Guard) (src : Source) : F.Statement (.punpk g src) := shape_of_parts rfl (by decide) id
theorem F.ppack (g : Guard) (src : Source) : F.Statement (.ppack g src) := shape_of_parts rfl (by decide) id
theorem F.chk16 (g : Guard) (src : Source) : F.Statement (.chk16 g src) := shape_of_parts rfl (by decide) id
theorem F.sphdr (g : Guard) (src : Source) : F.Statement (.sphdr g src) := shape_of_parts rfl (by decide) id
theorem F.msel (g : Guard) (src : Source) : F.Statement (.msel g src) := shape_of_parts rfl (by decide) id
theorem F.mset (g : Guard) (src : Source) : F.Statement (.mset g src) := shape_of_parts rfl (by decide) id
theorem F.mldw (g : Guard) (src : Source) : F.Statement (.mldw g src) := shape_of_parts rfl (by decide) id
theorem F.mstr (g : Guard) (src : Source) : F.Statement (.mstr g src) := shape_of_parts rfl (by decide) id
theorem F.mdrn (g : Guard) (src : Source) : F.Statement (.mdrn g src) := shape_of_parts rfl (by decide) id
theorem F.mzero (g : Guard) (src : Source) : F.Statement (.mzero g src) := shape_of_parts rfl (by decide) id
theorem F.mstat (g : Guard) (src : Source) : F.Statement (.mstat g src) := shape_of_parts rfl (by decide) id
theorem F.mcan (g : Guard) (src : Source) : F.Statement (.mcan g src) := shape_of_parts rfl (by decide) id
theorem F.cset (g : Guard) (src : Source) : F.Statement (.cset g src) := shape_of_parts rfl (by decide) id
theorem F.cgo (g : Guard) (src : Source) : F.Statement (.cgo g src) := shape_of_parts rfl (by decide) id
theorem F.cstat (g : Guard) (src : Source) : F.Statement (.cstat g src) := shape_of_parts rfl (by decide) id
theorem F.ccan (g : Guard) (src : Source) : F.Statement (.ccan g src) := shape_of_parts rfl (by decide) id
theorem F.csel (g : Guard) (src : Source) : F.Statement (.csel g src) := shape_of_parts rfl (by decide) id
theorem F.gset (g : Guard) (src : Source) : F.Statement (.gset g src) := shape_of_parts rfl (by decide) id
theorem F.gsend (g : Guard) (src : Source) : F.Statement (.gsend g src) := shape_of_parts rfl (by decide) id
theorem F.grecv (g : Guard) (src : Source) : F.Statement (.grecv g src) := shape_of_parts rfl (by decide) id
theorem F.gred (g : Guard) (src : Source) : F.Statement (.gred g src) := shape_of_parts rfl (by decide) id
theorem F.gcan (g : Guard) (src : Source) : F.Statement (.gcan g src) := shape_of_parts rfl (by decide) id
theorem F.gprec (g : Guard) (src : Source) : F.Statement (.gprec g src) := shape_of_parts rfl (by decide) id
theorem F.tset (g : Guard) (src : Source) : F.Statement (.tset g src) := shape_of_parts rfl (by decide) id
theorem F.twrt (g : Guard) (src : Source) : F.Statement (.twrt g src) := shape_of_parts rfl (by decide) id
theorem F.tstat (g : Guard) (src : Source) : F.Statement (.tstat g src) := shape_of_parts rfl (by decide) id
theorem F.twear (g : Guard) (src : Source) : F.Statement (.twear g src) := shape_of_parts rfl (by decide) id
theorem F.tmap (g : Guard) (src : Source) : F.Statement (.tmap g src) := shape_of_parts rfl (by decide) id
theorem F.binit (g : Guard) (src : Source) : F.Statement (.binit g src) := shape_of_parts rfl (by decide) id
theorem F.barv (g : Guard) (src : Source) : F.Statement (.barv g src) := shape_of_parts rfl (by decide) id
theorem F.bexp (g : Guard) (src : Source) : F.Statement (.bexp g src) := shape_of_parts rfl (by decide) id
theorem F.btst (g : Guard) (src : Source) : F.Statement (.btst g src) := shape_of_parts rfl (by decide) id
theorem F.bwait (g : Guard) (src : Source) : F.Statement (.bwait g src) := shape_of_parts rfl (by decide) id
theorem F.fence (g : Guard) (src : Source) : F.Statement (.fence g src) := shape_of_parts rfl (by decide) id
theorem F.twait (g : Guard) (src : Source) : F.Statement (.twait g src) := shape_of_parts rfl (by decide) id
theorem F.mexCommandStart (e : EngId) : F.Statement (.mexCommandStart e) := shape_of_none rfl
theorem F.mldwComplete (e : EngId) : F.Statement (.mldwComplete e) := shape_of_none rfl
theorem F.streamPromotion (e : EngId) : F.Statement (.streamPromotion e) := shape_of_none rfl
theorem F.mstrComplete (e : EngId) : F.Statement (.mstrComplete e) := shape_of_none rfl
theorem F.mzeroComplete (e : EngId) : F.Statement (.mzeroComplete e) := shape_of_none rfl
theorem F.drainRow (e : EngId) : F.Statement (.drainRow e) := shape_of_none rfl
theorem F.mdrnComplete (e : EngId) : F.Statement (.mdrnComplete e) := shape_of_none rfl
theorem F.copyStart (e : DieEng) : F.Statement (.copyStart e) := shape_of_none rfl
theorem F.chunkFetch (e : DieEng) (id : Nat) (transient : Bool) : F.Statement (.chunkFetch e id transient) := shape_of_none rfl
theorem F.chunkWrite (e : DieEng) (id : Nat) : F.Statement (.chunkWrite e id) := shape_of_none rfl
theorem F.copyComplete (e : DieEng) (id : Nat) : F.Statement (.copyComplete e id) := shape_of_none rfl
theorem F.glazeStart (e : DieEng) : F.Statement (.glazeStart e) := shape_of_none rfl
theorem F.glazeMatch (k : Nat) : F.Statement (.glazeMatch k) := shape_of_none rfl
theorem F.glazeTimeout (e : DieEng) (id : Nat) : F.Statement (.glazeTimeout e id) := shape_of_none rfl
theorem F.glazeRoundSend (e : DieEng) (id : Nat) : F.Statement (.glazeRoundSend e id) := shape_of_none rfl
theorem F.glazePlaneReceive (e : DieEng) (id : Nat) (blk : Nat) (con : Nat) : F.Statement (.glazePlaneReceive e id blk con) := shape_of_none rfl
theorem F.glazeCancelAck (e : DieEng) (id : Nat) : F.Statement (.glazeCancelAck e id) := shape_of_none rfl
theorem F.glazeAbort (e : DieEng) (id : Nat) : F.Statement (.glazeAbort e id) := shape_of_none rfl
theorem F.glazeComplete (e : DieEng) (id : Nat) : F.Statement (.glazeComplete e id) := shape_of_none rfl
theorem F.retouchCommandStart (e : DieEng) : F.Statement (.retouchCommandStart e) := shape_of_none rfl
theorem F.retouchRowStart (e : DieEng) : F.Statement (.retouchRowStart e) := shape_of_none rfl
theorem F.writeAndCheckLoop (e : DieEng) (verified : Bool) : F.Statement (.writeAndCheckLoop e verified) := shape_of_none rfl
theorem F.twrtComplete (e : DieEng) : F.Statement (.twrtComplete e) := shape_of_none rfl
theorem F.graphRegistration (part : Nat) (addr : Nat) (count : Nat) : F.Statement (.graphRegistration part addr count) := shape_of_none rfl
theorem F.nodeReady (n : Nat) : F.Statement (.nodeReady n) := shape_of_none rfl
theorem F.placement (n : Nat) : F.Statement (.placement n) := shape_of_none rfl
theorem F.nodeStart (n : Nat) : F.Statement (.nodeStart n) := shape_of_none rfl
theorem F.nodeCommit (n : Nat) : F.Statement (.nodeCommit n) := shape_of_none rfl
theorem F.nodeFail (n : Nat) : F.Statement (.nodeFail n) := shape_of_none rfl
theorem F.killedNodeRelease (n : Nat) : F.Statement (.killedNodeRelease n) := shape_of_none rfl
theorem F.quiesceComplete (n : Nat) : F.Statement (.quiesceComplete n) := shape_of_none rfl
theorem F.swapSaveComplete (n : Nat) : F.Statement (.swapSaveComplete n) := shape_of_none rfl
theorem F.restoreComplete (n : Nat) : F.Statement (.restoreComplete n) := shape_of_none rfl
theorem F.savedNodeAccess (n : Nat) (acc : SavedAccess) : F.Statement (.savedNodeAccess n acc) := shape_of_none rfl
theorem F.islandWake (die isl : Nat) : F.Statement (.islandWake die isl) := shape_of_none rfl
theorem F.islandGate (die isl : Nat) : F.Statement (.islandGate die isl) := shape_of_none rfl
theorem F.shootdown (part : Nat) (world : Bool) (lo hi : Nat) (writes : List (Nat × Dword)) : F.Statement (.shootdown part world lo hi writes) := shape_of_none rfl
theorem F.shootdownComplete (k : Nat) : F.Statement (.shootdownComplete k) := shape_of_none rfl
theorem F.shootdownTimeout (k : Nat) : F.Statement (.shootdownTimeout k) := shape_of_none rfl
theorem F.frescoMapChange (part : Nat) (world : Bool) (vtile : Nat) (entry : Dword) : F.Statement (.frescoMapChange part world vtile entry) := shape_of_none rfl
theorem F.partitionChange (chg : PartChange) : F.Statement (.partitionChange chg) := shape_of_none rfl
theorem F.partitionSwap (part : Nat) : F.Statement (.partitionSwap part) := shape_of_none rfl
theorem F.imageLoadRequest (part : Nat) (bytes : List Byte) (key : List Byte) : F.Statement (.imageLoadRequest part bytes key) := shape_of_none rfl
theorem F.lpddrSectorRead (addr : Nat) (r : SectorRead) : F.Statement (.lpddrSectorRead addr r) := shape_of_none rfl
theorem F.uncorrectableDirtySector (addr : Nat) (stager : Option Nat) : F.Statement (.uncorrectableDirtySector addr stager) := shape_of_none rfl
theorem F.pageRetirementComplete (k : Nat) (frame : Nat) : F.Statement (.pageRetirementComplete k frame) := shape_of_none rfl
theorem F.sramUncorrectable (p : SramPlace) : F.Statement (.sramUncorrectable p) := shape_of_none rfl
theorem F.correctedErrorRecord (die : Nat) (src : ErrCount) : F.Statement (.correctedErrorRecord die src) := shape_of_none rfl
theorem F.lockstepMismatch (c : CtxId) (hdr : Nat) : F.Statement (.lockstepMismatch c hdr) := shape_of_none rfl
theorem F.viral (die : Nat) (src : ErrSite) : F.Statement (.viral die src) := shape_of_none rfl
theorem F.viralFlitReceived (port : Nat) : F.Statement (.viralFlitReceived port) := shape_of_none rfl
theorem F.linkSilenceTimeout (port : Nat) : F.Statement (.linkSilenceTimeout port) := shape_of_none rfl
theorem F.flitReceive (port : Nat) (f : Flit) : F.Statement (.flitReceive port f) := shape_of_none rfl
theorem F.flitResend (port : Nat) (upto : Nat) : F.Statement (.flitResend port upto) := shape_of_none rfl
theorem F.resyncTimeout (port : Nat) : F.Statement (.resyncTimeout port) := shape_of_none rfl
theorem F.keepalive (port : Nat) : F.Statement (.keepalive port) := shape_of_none rfl
theorem F.routineKeyUpdate (port : Nat) : F.Statement (.routineKeyUpdate port) := shape_of_none rfl
theorem F.packageReset (firmware : List (List Byte)) : F.Statement (.packageReset firmware) := shape_of_none rfl
theorem F.frescoScan (die : Nat) (bad : List Nat) (weak : List Nat) : F.Statement (.frescoScan die bad weak) := shape_of_none rfl
theorem F.peerSession (port : Nat) (peer : PeerHello) (challenge : List Byte) : F.Statement (.peerSession port peer challenge) := shape_of_none rfl
theorem F.getVersion (port : Nat) : F.Statement (.getVersion port) := shape_of_none rfl
theorem F.getCapabilities (port : Nat) (req : SpdmReq) : F.Statement (.getCapabilities port req) := shape_of_none rfl
theorem F.negotiateAlgorithms (port : Nat) (req : SpdmReq) : F.Statement (.negotiateAlgorithms port req) := shape_of_none rfl
theorem F.getDigests (port : Nat) (req : SpdmReq) : F.Statement (.getDigests port req) := shape_of_none rfl
theorem F.getCertificate (port : Nat) (req : SpdmReq) : F.Statement (.getCertificate port req) := shape_of_none rfl
theorem F.challenge (port : Nat) (req : SpdmReq) : F.Statement (.challenge port req) := shape_of_none rfl
theorem F.getMeasurements (port : Nat) (req : SpdmReq) : F.Statement (.getMeasurements port req) := shape_of_none rfl
theorem F.keyExchange (port : Nat) (req : SpdmReq) : F.Statement (.keyExchange port req) := shape_of_none rfl
theorem F.finish (port : Nat) (req : SpdmReq) : F.Statement (.finish port req) := shape_of_none rfl
theorem F.heartbeat (port : Nat) (req : SpdmReq) : F.Statement (.heartbeat port req) := shape_of_none rfl
theorem F.keyUpdate (port : Nat) (req : SpdmReq) : F.Statement (.keyUpdate port req) := shape_of_none rfl
theorem F.endSession (port : Nat) (req : SpdmReq) : F.Statement (.endSession port req) := shape_of_none rfl
theorem F.heartbeatTimeout (part : Nat) : F.Statement (.heartbeatTimeout part) := shape_of_none rfl
theorem F.graceExpiry (part : Nat) : F.Statement (.graceExpiry part) := shape_of_none rfl
theorem F.installRequest (part : Nat) (world : Bool) (image : Nat) (slots : List Nat) (aid : InstallAid) : F.Statement (.installRequest part world image slots aid) := shape_of_none rfl
theorem F.bucketConfig (part port rate burst : Nat) : F.Statement (.bucketConfig part port rate burst) := shape_of_none rfl
theorem F.egressBucketRefill (part port : Nat) (ticks : Nat) : F.Statement (.egressBucketRefill part port ticks) := shape_of_none rfl
theorem F.logCheckpoint : F.Statement .logCheckpoint := shape_of_none rfl
theorem F.logRead (part : Nat) (what : SessionRead) : F.Statement (.logRead part what) := shape_of_none rfl
theorem F.hostAccess (acc : Access) : F.Statement (.hostAccess acc) := shape_of_none rfl
theorem F.portReset (port : SessionNat) : F.Statement (.portReset port) := shape_of_none rfl
theorem F.islandControlWrite (die isl : Nat) (w : SessionWord) : F.Statement (.islandControlWrite die isl w) := shape_of_none rfl
theorem F.operatingPointChange (die : Nat) (isl : IslandPoint) : F.Statement (.operatingPointChange die isl) := shape_of_none rfl
theorem F.thermalStep (die isl : Nat) (temp : Int) : F.Statement (.thermalStep die isl temp) := shape_of_none rfl
theorem F.overtemperature (die isl : Nat) (temp : Int) : F.Statement (.overtemperature die isl temp) := shape_of_none rfl
theorem F.powerLimitExceeded (watts : Nat) : F.Statement (.powerLimitExceeded watts) := shape_of_none rfl
theorem F.coolantFault (flow inlet : Nat) : F.Statement (.coolantFault flow inlet) := shape_of_none rfl
theorem F.coolantRestore (flow inlet : Nat) : F.Statement (.coolantRestore flow inlet) := shape_of_none rfl
theorem F.wearLimitSet (die limit : Nat) : F.Statement (.wearLimitSet die limit) := shape_of_none rfl
theorem F.graphUnregistration (part : Nat) (addr : Nat) : F.Statement (.graphUnregistration part addr) := shape_of_none rfl
theorem F.imageRemoval (part : Nat) (id : Nat) : F.Statement (.imageRemoval part id) := shape_of_none rfl
theorem F.powerLimitSet (watts : SessionNat) : F.Statement (.powerLimitSet watts) := shape_of_none rfl

end Sys2Proof.Laws
end

