-- ==== Sys2Proof/Tests/Slice0.lean ====
section
/-! SUPPORT. Tests of the model: what WellFormed refuses, words written out from R16 to R26 and R95 with what they decode to, one step of
instructions at values the spec gives, and for each statement with hypotheses a state and operands that meet them. -/

namespace Sys2Proof.Tests

open Sys2Proof.Machine

set_option Elab.async false

/-! ## WellFormed refuses (R2 to R4, R20 to R22, R26) -/

theorem test_wf_source_registers :
    (Source.g 64).wf = false ∧ (Source.v 32).wf = false ∧ (Source.m 8).wf = false ∧ (Source.p 0).wf = false ∧ (Source.p 4).wf = false
      ∧ (Source.o 16).wf = false ∧ (Source.vo 8).wf = false := by decide
theorem test_wf_source_latch_and_short : (Source.latch 18 false).wf = false ∧ (Source.short 0xF0).wf = false := by decide
theorem test_wf_dest :
    (Dest.port 18 0).wf = false ∧ (Dest.port 0 4).wf = false ∧ (Dest.g 64).wf = false ∧ (Dest.v 32).wf = false ∧ (Dest.m 8).wf = false
      ∧ (Dest.p 0).wf = false ∧ (Dest.p 4).wf = false ∧ (Dest.o 16).wf = false ∧ (Dest.vo 8).wf = false := by decide
theorem test_wf_move : (Instr.move .always (.g 64) (.g 0)).wf = false ∧ (Instr.move .always (.g 0) (.g 64)).wf = false
    ∧ (Instr.fadd .always (.v 32)).wf = false := by decide
theorem test_wf_cores : (Instr.bundleIssue ⟨8, 0, 0⟩).wf = false ∧ (Instr.bundleIssue ⟨0, 32, 0⟩).wf = false
    ∧ (Instr.bundleIssue ⟨0, 0, 4⟩).wf = false := by decide
theorem test_wf_contexts : (Instr.latchLanding ⟨8, 0, 0, 0⟩).wf = false ∧ (Instr.latchLanding ⟨0, 32, 0, 0⟩).wf = false
    ∧ (Instr.latchLanding ⟨0, 0, 4, 0⟩).wf = false ∧ (Instr.latchLanding ⟨0, 0, 0, 4⟩).wf = false := by decide
theorem test_wf_engines : (Instr.mldwComplete ⟨0, 0, 4⟩).wf = false ∧ (Instr.copyStart ⟨0, 8⟩).wf = false
    ∧ (Instr.glazeStart ⟨0, 2⟩).wf = false ∧ (Instr.retouchCommandStart ⟨0, 4⟩).wf = false ∧ (Instr.copyStart ⟨8, 0⟩).wf = false := by decide
theorem test_wf_dies_islands_ports : (Instr.syscReply 8).wf = false ∧ (Instr.islandWake 8 0).wf = false ∧ (Instr.islandWake 0 8).wf = false
    ∧ (Instr.keepalive 18).wf = false ∧ (Instr.getVersion 2).wf = false := by decide

/-! ## Words (R19 to R26, R95): guard always, source G1 (0x001), destination the trigger field unit * 32 + port -/

/-- Each word decodes to its instruction with guard always and source G1. -/
def readsAs (l : List (Nat × (Guard → Source → Instr))) : Prop :=
  l.map (fun r => decodeMove (BitVec.ofNat 24 r.1)) = l.map fun r => .ok (r.2 .always (.g 1))

theorem test_words_alu0 : readsAs [(0x000804, Instr.addAlu0), (0x000805, Instr.subAlu0), (0x000806, Instr.andAlu0), (0x000807, Instr.orAlu0),
    (0x000808, Instr.xorAlu0), (0x000809, Instr.andnAlu0), (0x00080A, Instr.shlAlu0), (0x00080B, Instr.shrAlu0),
    (0x00080C, Instr.sarAlu0), (0x00080D, Instr.rolAlu0), (0x00080E, Instr.minAlu0), (0x00080F, Instr.maxAlu0),
    (0x000810, Instr.minuAlu0), (0x000811, Instr.maxuAlu0), (0x000812, Instr.eqAlu0), (0x000813, Instr.neAlu0),
    (0x000814, Instr.ltAlu0), (0x000815, Instr.ltuAlu0), (0x000816, Instr.leAlu0), (0x000817, Instr.leuAlu0), (0x000818, Instr.selAlu0),
    (0x000819, Instr.clzAlu0), (0x00081A, Instr.ctzAlu0), (0x00081B, Instr.popcAlu0), (0x00081C, Instr.sextAlu0),
    (0x00081D, Instr.zextAlu0), (0x00081E, Instr.bfxAlu0), (0x00081F, Instr.bfiAlu0)] := rfl
theorem test_words_alu1 : readsAs [(0x000824, Instr.addAlu1), (0x000825, Instr.subAlu1), (0x000826, Instr.andAlu1), (0x000827, Instr.orAlu1),
    (0x000828, Instr.xorAlu1), (0x000829, Instr.andnAlu1), (0x00082A, Instr.shlAlu1), (0x00082B, Instr.shrAlu1),
    (0x00082C, Instr.sarAlu1), (0x00082D, Instr.rolAlu1), (0x00082E, Instr.minAlu1), (0x00082F, Instr.maxAlu1),
    (0x000830, Instr.minuAlu1), (0x000831, Instr.maxuAlu1), (0x000832, Instr.eqAlu1), (0x000833, Instr.neAlu1),
    (0x000834, Instr.ltAlu1), (0x000835, Instr.ltuAlu1), (0x000836, Instr.leAlu1), (0x000837, Instr.leuAlu1), (0x000838, Instr.selAlu1),
    (0x000839, Instr.clzAlu1), (0x00083A, Instr.ctzAlu1), (0x00083B, Instr.popcAlu1), (0x00083C, Instr.sextAlu1),
    (0x00083D, Instr.zextAlu1), (0x00083E, Instr.bfxAlu1), (0x00083F, Instr.bfiAlu1)] := rfl
theorem test_words_mul : readsAs [(0x000844, Instr.mul), (0x000845, Instr.mulh), (0x000846, Instr.mulhu), (0x000847, Instr.mulw), (0x000848, Instr.madd),
    (0x000849, Instr.div), (0x00084A, Instr.divu), (0x00084B, Instr.rem), (0x00084C, Instr.remu)] := rfl
theorem test_words_br : readsAs [(0x000864, Instr.jmp), (0x000865, Instr.bra), (0x000866, Instr.brz), (0x000867, Instr.brnz), (0x000868, Instr.call),
    (0x000869, Instr.ret), (0x00086A, Instr.loops), (0x00086B, Instr.loopx), (0x00086C, Instr.trap), (0x00086D, Instr.exit)] := rfl
theorem test_words_lsu : readsAs [(0x000884, Instr.spld), (0x000885, Instr.spst), (0x000886, Instr.ldb), (0x000887, Instr.ldbs), (0x000888, Instr.ldh),
    (0x000889, Instr.ldhs), (0x00088A, Instr.ldw), (0x00088B, Instr.ldws), (0x00088C, Instr.ldd), (0x00088D, Instr.stb),
    (0x00088E, Instr.sth), (0x00088F, Instr.stw), (0x000890, Instr.std), (0x000891, Instr.tch), (0x000892, Instr.gld),
    (0x000893, Instr.gst), (0x000894, Instr.aadd), (0x000895, Instr.amax), (0x000896, Instr.amin), (0x000897, Instr.axchg),
    (0x000898, Instr.acas)] := rfl
theorem test_words_sys : readsAs [(0x0008A4, Instr.mfsr), (0x0008A5, Instr.mtsr), (0x0008A6, Instr.yield), (0x0008A7, Instr.prio), (0x0008A8, Instr.sysc),
    (0x0008A9, Instr.rft), (0x0008AA, Instr.tokq), (0x0008AB, Instr.tokc), (0x0008AC, Instr.fflgs), (0x0008AD, Instr.sleep),
    (0x0008AE, Instr.wake), (0x0008AF, Instr.ctxq), (0x0008B0, Instr.rdef), (0x0008B1, Instr.rtag), (0x0008B2, Instr.rclr),
    (0x0008B3, Instr.rdrop)] := rfl
theorem test_words_vls : readsAs [(0x0008C4, Instr.vld), (0x0008C5, Instr.vlds), (0x0008C6, Instr.vldg), (0x0008C7, Instr.vst), (0x0008C8, Instr.vsts),
    (0x0008C9, Instr.vstm), (0x0008CA, Instr.vstg), (0x0008CB, Instr.vldbf), (0x0008CC, Instr.vstbf), (0x0008CD, Instr.vldf8),
    (0x0008CE, Instr.vldi8), (0x0008CF, Instr.vldz8), (0x0008D0, Instr.vldx), (0x0008D1, Instr.vlde), (0x0008D2, Instr.vstp),
    (0x0008D3, Instr.vgld), (0x0008D4, Instr.vgst), (0x0008D5, Instr.vstmc)] := rfl
theorem test_words_val : readsAs [(0x0008E4, Instr.viadd), (0x0008E5, Instr.visub), (0x0008E6, Instr.vimul), (0x0008E7, Instr.vimin), (0x0008E8, Instr.vimax),
    (0x0008E9, Instr.viminu), (0x0008EA, Instr.vimaxu), (0x0008EB, Instr.vand), (0x0008EC, Instr.vor), (0x0008ED, Instr.vxor),
    (0x0008EE, Instr.vandn), (0x0008EF, Instr.vshl), (0x0008F0, Instr.vshr), (0x0008F1, Instr.vsar), (0x0008F2, Instr.vieq),
    (0x0008F3, Instr.vilt), (0x0008F4, Instr.viltu), (0x0008F5, Instr.vsel), (0x0008F6, Instr.viota), (0x0008F7, Instr.vpopm),
    (0x0008F8, Instr.vmand), (0x0008F9, Instr.vmor), (0x0008FA, Instr.vmxor), (0x0008FB, Instr.vmnot), (0x0008FC, Instr.vbeq8),
    (0x0008FD, Instr.viadds)] := rfl
theorem test_words_vfa : readsAs [(0x000904, Instr.fadd), (0x000905, Instr.fsub), (0x000906, Instr.fmul), (0x000907, Instr.fma), (0x000908, Instr.fms),
    (0x000909, Instr.fnma), (0x00090A, Instr.fmax), (0x00090B, Instr.fmin), (0x00090C, Instr.fabs), (0x00090D, Instr.fneg),
    (0x00090E, Instr.feq), (0x00090F, Instr.flt), (0x000910, Instr.fle), (0x000911, Instr.funord), (0x000912, Instr.fclmp),
    (0x000913, Instr.fsubx), (0x000914, Instr.hadd), (0x000915, Instr.hmul), (0x000916, Instr.hfma), (0x000917, Instr.hmax)] := rfl
theorem test_words_vfb : readsAs [(0x000924, Instr.cvtfi), (0x000925, Instr.cvtif), (0x000926, Instr.cvtfh), (0x000927, Instr.cvthf), (0x000928, Instr.cvtf8),
    (0x000929, Instr.cvt8f), (0x00092A, Instr.cvtf5), (0x00092B, Instr.cvt5f), (0x00092C, Instr.cvtfp16), (0x00092D, Instr.cvtp16f),
    (0x00092E, Instr.qpal), (0x00092F, Instr.dqpal), (0x000930, Instr.frnd), (0x000931, Instr.fscl), (0x000932, Instr.fxpn)] := rfl
theorem test_words_xfu : readsAs [(0x000944, Instr.exp2), (0x000945, Instr.log2), (0x000946, Instr.rcp), (0x000947, Instr.rsqrt), (0x000948, Instr.sqrt),
    (0x000949, Instr.tanh), (0x00094A, Instr.sigm)] := rfl
theorem test_words_vrd : readsAs [(0x000964, Instr.rsum), (0x000965, Instr.rmax), (0x000966, Instr.rmin), (0x000967, Instr.rsumi), (0x000968, Instr.ramax),
    (0x000969, Instr.scan), (0x00096A, Instr.perm), (0x00096B, Instr.vrot), (0x00096C, Instr.vext), (0x00096D, Instr.vins),
    (0x00096E, Instr.vcmp), (0x00096F, Instr.vxpd), (0x000970, Instr.zip), (0x000971, Instr.unzip), (0x000972, Instr.vbit)] := rfl
theorem test_words_trn : readsAs [(0x000984, Instr.pset), (0x000985, Instr.pget), (0x000986, Instr.punpk), (0x000987, Instr.ppack), (0x000988, Instr.chk16),
    (0x000989, Instr.sphdr)] := rfl
theorem test_words_mex : readsAs [(0x0009A4, Instr.msel), (0x0009A5, Instr.mset), (0x0009A6, Instr.mldw), (0x0009A7, Instr.mstr), (0x0009A8, Instr.mdrn),
    (0x0009A9, Instr.mzero), (0x0009AA, Instr.mstat), (0x0009AB, Instr.mcan)] := rfl
theorem test_words_cpy : readsAs [(0x0009C4, Instr.cset), (0x0009C5, Instr.cgo), (0x0009C6, Instr.cstat), (0x0009C7, Instr.ccan), (0x0009C8, Instr.csel)] := rfl
theorem test_words_glz : readsAs [(0x0009E4, Instr.gset), (0x0009E5, Instr.gsend), (0x0009E6, Instr.grecv), (0x0009E7, Instr.gred), (0x0009E8, Instr.gcan),
    (0x0009E9, Instr.gprec)] := rfl
theorem test_words_rtc : readsAs [(0x000A04, Instr.tset), (0x000A05, Instr.twrt), (0x000A06, Instr.tstat), (0x000A07, Instr.twear), (0x000A08, Instr.tmap)] := rfl
theorem test_words_syn : readsAs [(0x000A24, Instr.binit), (0x000A25, Instr.barv), (0x000A26, Instr.bexp), (0x000A27, Instr.btst), (0x000A28, Instr.bwait),
    (0x000A29, Instr.fence), (0x000A2A, Instr.twait)] := rfl

/-- Guard codes (R20) and source forms (R21, R26) of one instruction, field by field. -/
theorem test_words_guards_and_sources :
    decodeMove 0b001_0001000000_0_00111_00100#24 = .ok (.viadd .p1 (.v 0)) ∧ decodeMove 0b010_0001011111_0_00111_00100#24 = .ok (.viadd .p2 (.v 31))
      ∧ decodeMove 0b011_0001100000_0_00111_00100#24 = .ok (.viadd .p3 (.m 0)) ∧ decodeMove 0b100_0001100111_0_00111_00100#24 = .ok (.viadd .notP1 (.m 7))
      ∧ decodeMove 0b101_0001101010_0_00111_00100#24 = .ok (.viadd .notP2 (.p 3)) ∧ decodeMove 0b110_0100000000_0_00111_00100#24 = .ok (.viadd .notP3 (.o 0))
      ∧ decodeMove 0b000_1010001001_0_00111_00100#24 = .ok (.viadd .always (.latch 17 true)) := by
  exact ⟨rfl, rfl, rfl, rfl, rfl, rfl, rfl⟩
theorem test_words_move :
    decodeMove 0b000_0000000010_0_00000_00001#24 = .ok (.move .always (.g 2) (.port 0 1))
      ∧ decodeMove 0b000_0000000010_0_10001_00011#24 = .ok (.move .always (.g 2) (.port 17 3))
      ∧ decodeMove 0b000_0000000010_1_00_01011111#24 = .ok (.move .always (.g 2) (.v 31))
      ∧ decodeMove 0b000_0000000010_1_00_01100111#24 = .ok (.move .always (.g 2) (.m 7))
      ∧ decodeMove 0b000_0000000010_1_00_01101000#24 = .ok (.move .always (.g 2) (.p 1))
      ∧ decodeMove 0b000_0000000010_1_01_00001111#24 = .ok (.move .always (.g 2) (.o 15))
      ∧ decodeMove 0b000_0000000010_1_01_00010111#24 = .ok (.move .always (.g 2) (.vo 7)) := by
  exact ⟨rfl, rfl, rfl, rfl, rfl, rfl, rfl⟩
/-- Reserved encodings are refused by name and do not fall to a neighbour (R20 to R24, R26). -/
theorem test_words_refused :
    decodeMove 0b111_0000000001_0_00000_00100#24 = .error .guard ∧ decodeMove 0b000_0001101011_0_00000_00100#24 = .error .source
      ∧ decodeMove 0b000_0100011000_0_00000_00100#24 = .error .source ∧ decodeMove 0b000_1000000010_0_00000_00100#24 = .error .source
      ∧ decodeMove 0b000_1111110100_0_00000_00100#24 = .error .source ∧ decodeMove 0b000_1010010000_0_00000_00100#24 = .error (.unit 18)
      ∧ decodeMove 0b000_0000000001_1_00_01101011#24 = .error .dest ∧ decodeMove 0b000_0000000001_1_10_00000000#24 = .error .dest
      ∧ decodeMove 0b000_0000000001_0_00010_01101#24 = .error .port ∧ decodeMove 0b000_0000000001_0_10010_00100#24 = .error (.unit 18) :=
  ⟨rfl, rfl, rfl, rfl, rfl, rfl, rfl, rfl, rfl, rfl⟩
/-- A header word of R16: signature 0b1111, mask, await, solo, long count, reserved bit 0. -/
theorem test_words_header :
    decodeHeader 0b1111_00000101_00000011_1_10_0#24 = .ok ⟨5, 3, true, 2⟩ ∧ decodeHeader 0b1110_00000101_00000011_1_10_0#24 = .error .signature
      ∧ decodeHeader 0b1111_00000101_00000011_1_11_0#24 = .error .count ∧ decodeHeader 0b1111_00000101_00000011_1_10_1#24 = .error .reserved :=
  ⟨rfl, rfl, rfl, rfl⟩
theorem test_words_encode : encode (.subAlu1 .p1 (.short 5)) = some 0b001_1100000101_0_00001_00101#24 ∧ encode (.islandWake 0 0) = none := by decide

/-! ## One step of an instruction

Each test runs one move in context 0 of the package at pc 100 and bundle 50, with G5 and some operand ports set, and checks what it puts
in flight or changes. The expected values are worked out by hand from the rule each test names. -/

def who0 : CtxId := ⟨0, 0, 0, 0⟩
def ctx0 : Ctx := { Ctx.start with run := .runnable, pc := 100, bclk := 50, sr := { Special.start with trapvec := 4000 } }
def scOf (n : Nat) : Val := .sc ⟨BitVec.ofNat 64 n, false⟩
def vecA (f : Nat → Nat) : Val := .vec (vecOf fun l => ⟨BitVec.ofNat 32 (f l), false⟩)
def maskA (f : Nat → Bool) : Val := .mask (maskOf fun l => ⟨f l, false⟩)
/-- G5, operand ports by unit * 4 + port, VO0 and M0. -/
def given0 (g5 : Nat) (ps : List (Nat × Val)) : Ctx :=
  { ctx0 with g := ctx0.g.set 5 ⟨BitVec.ofNat 64 g5, false⟩, ports := ps.foldl (fun q x => q.set x.1 x.2) ctx0.ports }
/-- The package with this context, after 1000 cycles of its island and of the nominal clock. -/
def st0 (c : Ctx) : State := { State.reset with
  ctxs := [(who0, c)], cycle := 1500, islands := State.reset.islands.set 0 { Island.start with run := 1800 * 1000 } }
def ran (i : Instr) (s : State) : State := match exec i s with | .next t => t | _ => State.reset
def ranC (i : Instr) (c : Ctx) : Ctx := getCtx (ran i (st0 c)) who0
/-- Latency and value of each result. -/
def lands0 (i : Instr) (c : Ctx) : List (Nat × Nat) := (ranC i c).flight.map fun f => (f.land - 50, (valSc f.val).v.toNat)
/-- Latency and lane of each vector result, and the flags. -/
def lane0 (i : Instr) (c : Ctx) (l : Nat) : List (Nat × Nat × Nat) :=
  (ranC i c).flight.map fun f => (f.land - 50, (laneAt (valVec f.val) l).v.toNat, f.flags.toNat)
def bits0 (i : Instr) (c : Ctx) (l : Nat) : List (Nat × Bool) := (ranC i c).flight.map fun f => (f.land - 50, (maskAt (valMask f.val) l).v)
/-- TRAPCAUSE, TRAPINFO0, TRAPINFO1 and the pc after a step. -/
def trap0 (i : Instr) (c : Ctx) : Nat × Nat × Nat × Nat :=
  ((ranC i c).sr.trapcause, (ranC i c).sr.info0.toNat, (ranC i c).sr.info1.toNat, (ranC i c).pc)

/-- R111: addition wraps, subtraction wraps, comparison is signed or not. -/
theorem test_alu_arithmetic : lands0 (.addAlu0 .always (.g 5)) (given0 5 [(0, scOf (2 ^ 64 - 1))]) = [(1, 4)]
    ∧ lands0 (.subAlu1 .always (.g 5)) (given0 5 [(4, scOf 3)]) = [(1, 2 ^ 64 - 2)]
    ∧ lands0 (.ltAlu0 .always (.g 5)) (given0 0 [(0, scOf (2 ^ 63))]) = [(1, 1)]
    ∧ lands0 (.ltuAlu0 .always (.g 5)) (given0 0 [(0, scOf (2 ^ 63))]) = [(1, 0)] := by decide +kernel
/-- R111: shifts take the low six bits of t. -/
theorem test_alu_shifts : lands0 (.shlAlu0 .always (.g 5)) (given0 65 [(0, scOf 3)]) = [(1, 6)]
    ∧ lands0 (.sarAlu1 .always (.g 5)) (given0 63 [(4, scOf (2 ^ 63))]) = [(1, 2 ^ 64 - 1)]
    ∧ lands0 (.shrAlu0 .always (.g 5)) (given0 63 [(0, scOf (2 ^ 63))]) = [(1, 1)]
    ∧ lands0 (.rolAlu0 .always (.g 5)) (given0 4 [(0, scOf (2 ^ 63 + 1))]) = [(1, 24)] := by decide +kernel
theorem test_alu_logic : lands0 (.andnAlu0 .always (.g 5)) (given0 0xF0 [(0, scOf 0xFF)]) = [(1, 0x0F)]
    ∧ lands0 (.xorAlu1 .always (.g 5)) (given0 0xF0 [(4, scOf 0xFF)]) = [(1, 0x0F)]
    ∧ lands0 (.minAlu0 .always (.g 5)) (given0 1 [(0, scOf (2 ^ 64 - 1))]) = [(1, 2 ^ 64 - 1)]
    ∧ lands0 (.maxuAlu0 .always (.g 5)) (given0 1 [(0, scOf (2 ^ 64 - 1))]) = [(1, 2 ^ 64 - 1)] := by decide +kernel
/-- R112: counts of zero, field extraction and insertion. -/
theorem test_alu_fields : lands0 (.clzAlu0 .always (.g 5)) (given0 0 []) = [(1, 64)] ∧ lands0 (.ctzAlu1 .always (.g 5)) (given0 8 []) = [(1, 3)]
    ∧ lands0 (.sextAlu0 .always (.g 5)) (given0 8 [(0, scOf 0x80)]) = [(1, 2 ^ 64 - 128)]
    ∧ lands0 (.bfxAlu0 .always (.g 5)) (given0 8 [(0, scOf 0xABCDEF), (1, scOf 8)]) = [(1, 0xCD)]
    ∧ lands0 (.bfiAlu0 .always (.g 5)) (given0 8 [(0, scOf 0xABCDEF), (1, scOf 8), (2, scOf 0x112)]) = [(1, 0xAB12EF)] := by decide +kernel
/-- R113, R114: high products, and the corners of division. -/
theorem test_mul : lands0 (.mulh .always (.g 5)) (given0 (2 ^ 64 - 1) [(8, scOf (2 ^ 64 - 1))]) = [(3, 0)]
    ∧ lands0 (.mulhu .always (.g 5)) (given0 (2 ^ 64 - 1) [(8, scOf (2 ^ 64 - 1))]) = [(3, 2 ^ 64 - 2)]
    ∧ lands0 (.mulw .always (.g 5)) (given0 0x10000 [(8, scOf 0x8000)]) = [(3, 2 ^ 64 - 2 ^ 31)]
    ∧ lands0 (.madd .always (.g 5)) (given0 7 [(8, scOf 6), (9, scOf 5)]) = [(3, 47)] := by decide +kernel
theorem test_div : lands0 (.div .always (.g 5)) (given0 2 [(8, scOf (2 ^ 64 - 7))]) = [(20, 2 ^ 64 - 3)]
    ∧ lands0 (.rem .always (.g 5)) (given0 2 [(8, scOf (2 ^ 64 - 7))]) = [(20, 2 ^ 64 - 1)]
    ∧ lands0 (.divu .always (.g 5)) (given0 0 [(8, scOf 7)]) = [(20, 2 ^ 64 - 1)] ∧ lands0 (.remu .always (.g 5)) (given0 0 [(8, scOf 7)]) = [(20, 7)]
    ∧ lands0 (.div .always (.g 5)) (given0 (2 ^ 64 - 1) [(8, scOf (2 ^ 63))]) = [(20, 2 ^ 63)] := by decide +kernel
/-- R61, R116: a taken branch decides the third bundle; BRZ of a nonzero value does not. -/
theorem test_branches : (ranC (.bra .always (.g 5)) (given0 (2 ^ 64 - 101) [])).redirects = [⟨53, 2 ^ 18 - 1, 100⟩]
    ∧ (ranC (.brz .always (.g 5)) (given0 20 [(12, scOf 1)])).redirects = [] ∧ (ranC (.jmp .always (.g 5)) (given0 777 [])).redirects = [⟨53, 777, 100⟩]
    ∧ (ranC (.jmp .always (.g 5)) (given0 777 [])).pc = 102 := by decide +kernel
/-- R118: LOOPS sets the count from a and the end from t; the body starts behind the bundle. -/
theorem test_loops : let c := ranC (.loops .always (.g 5)) (given0 20 [(12, scOf (2 ^ 32 + 3))])
    (c.loopCnt, c.loopEnd, c.loopStart) = (3, 120, 102) := by decide +kernel
/-- R120, R68: TRAP. -/
theorem test_trap : trap0 (.trap .always (.g 5)) (given0 7 [(12, scOf 9)]) = (0x10, 7, 9, 4000)
    ∧ (ranC (.trap .always (.g 5)) (given0 7 [])).sr.trappc = 100 ∧ (ranC (.trap .always (.g 5)) (given0 7 [])).bclk = 50 := by decide +kernel
theorem test_exit : (ranC (.exit .always (.g 5)) (given0 0 [])).run = .retired := by decide +kernel
/-- R179, R129: a spill offset above 0x3FF8, or no multiple of 8, traps. -/
theorem test_spill : (ranC (.spst .always (.g 5)) (given0 0x3FF8 [(16, scOf 0x1234)])).spill = [(0x3FF8, 0x34), (0x3FF9, 0x12)]
    ∧ (trap0 (.spld .always (.g 5)) (given0 0x4000 [])).1 ≠ 0 := by decide +kernel
/-- R181, R161: little-endian bytes at scratchpad 0x10 of cluster 0 of die 0, physical kind 1; R162, R176: traps. -/
theorem test_local_store : (ran (.sth .always (.g 5)) (st0 (given0 0x10 [(16, scOf 0xABCD)]))).mem = [(2 ^ 45 + 0x10, 0xCD), (2 ^ 45 + 0x11, 0xAB)]
    ∧ trap0 (.stw .always (.g 5)) (given0 0x12 []) = (0x12, 0x12, 4, 4000)
    ∧ trap0 (.stw .always (.g 5)) (given0 0x300000 []) = (0x06, 0x300000, 1, 4000) := by decide +kernel
/-- R180: a signed byte load takes a landing entry for b + 5. -/
theorem test_local_load : (ranC (.ldbs .always (.g 5)) (given0 0x10 [])).landing.map (fun l => (l.land, l.dst)) = [(55, .latch 4)]
    ∧ (getCtx (ran (.ldbs .always (.g 5)) { st0 (given0 0x10 []) with mem := [(2 ^ 45 + 0x10, 0x80)] }) who0).landing.map (·.data)
      = [.value (scOf (2 ^ 64 - 128)) 0] := by decide +kernel
/-- R184: AADD into an FP32 element: 1.0 + 2.0 = 3.0, the old value lands eight bundles later. -/
theorem test_atomic : let s := { st0 (given0 0x400000 [(16, scOf 0x40000000)]) with mem := [(2 ^ 46 + 2, 0x80), (2 ^ 46 + 3, 0x3F)] }
    (ran (.aadd .always (.g 5)) s).mem = [(2 ^ 46 + 2, 0x40), (2 ^ 46 + 3, 0x40)]
    ∧ (getCtx (ran (.aadd .always (.g 5)) s) who0).landing.map (fun l => (l.land, l.data)) = [(58, .value (scOf 0x3F800000) 0)] := by decide +kernel
/-- R182: TCH of an address above 56 bits. -/
theorem test_touch : trap0 (.tch .always (.g 5)) (given0 (2 ^ 56) []) = (0x05, 2 ^ 56, 0, 4000) := by decide +kernel
/-- R169, R176: a global load that no pin covers traps 0x07. -/
theorem test_uncovered : (trap0 (.gld .always (.g 5)) (given0 0x10000 [(16, scOf 3)])).1 = 0x07 := by decide +kernel
/-- R123, R108: VQUOTA is 16; an index above 0x14 traps. -/
theorem test_mfsr : lands0 (.mfsr .always (.g 5)) (given0 0x03 []) = [(1, 50)] ∧ lands0 (.mfsr .always (.g 5)) (given0 0x14 []) = [(1, 1000)]
    ∧ trap0 (.mfsr .always (.g 5)) (given0 0x15 []) = (0x01, 0, 0, 4000) := by decide +kernel
theorem test_mtsr : (ranC (.mtsr .always (.g 5)) (given0 3 [(20, scOf 0x07)])).flight.map (fun f => (f.land, f.dst)) = [(51, .special 7)]
    ∧ trap0 (.mtsr .always (.g 5)) (given0 3 [(20, scOf 0x0F)]) = (0x01, 0, 0, 4000) := by decide +kernel
theorem test_prio_yield : lands0 (.prio .always (.g 5)) (given0 3 []) = [(1, 0), (1, 3)]
    ∧ (ranC (.yield .always (.g 5)) (given0 0 [])).yieldAt = some 1001 := by decide +kernel
theorem test_sleep_wake : (ranC (.sleep .always (.g 5)) (given0 10 [])).nap = .till 1010
    ∧ (ranC (.sleep .always (.g 5)) { given0 10 [] with wake := true }).nap = .awake
    ∧ (getCtx (ran (.wake .always (.g 5)) (st0 (given0 3 []))) ⟨0, 0, 0, 3⟩).wake = true := by decide +kernel
theorem test_tokens : lands0 (.tokq .always (.g 5)) { given0 2 [] with tokens := ctx0.tokens.set 2 ⟨3, true, 7, 0⟩ } = [(1, 19)]
    ∧ lands0 (.fflgs .always (.g 5)) { given0 1 [] with sr := { ctx0.sr with fflags := 5 } } = [(1, 5), (1, 4)] := by decide +kernel
/-- R248: RDEF of an entry above 15 and RTAG with an undefined entry trap. -/
theorem test_sketch : (trap0 (.rdef .always (.g 5)) (given0 0 [(20, scOf 16)])).1 = 0x01
    ∧ (trap0 (.rtag .always (.g 5)) (given0 3 [(20, scOf 2)])).1 ≠ 0
    ∧ ((ranC (.rclr .always (.g 5)) (given0 3 [])).sketches.getD 3 .cleared).defined = false := by decide +kernel
/-- R138: lane-wise arithmetic lands two bundles later. -/
theorem test_val : lane0 (.viadd .always (.vo 0)) { given0 0 [(28, vecA fun l => l)] with vo := [valVec (vecA fun _ => 2 ^ 32 - 1)] } 5 = [(2, 4, 0)]
    ∧ lane0 (.viadds .always (.vo 0)) { given0 0 [(28, vecA fun _ => 2 ^ 31 - 1)] with vo := [valVec (vecA fun _ => 1)] } 0 = [(2, 2 ^ 31 - 1, 0)]
    ∧ lane0 (.viota .always (.g 5)) (given0 10 []) 127 = [(2, 137, 0)] := by decide +kernel
theorem test_val_masks : bits0 (.vilt .always (.vo 0)) { given0 0 [(28, vecA fun l => l)] with vo := [valVec (vecA fun _ => 7)] } 6 = [(2, true)]
    ∧ bits0 (.vilt .always (.vo 0)) { given0 0 [(28, vecA fun l => l)] with vo := [valVec (vecA fun _ => 7)] } 7 = [(2, false)]
    ∧ lands0 (.vpopm .always (.m 0)) { given0 0 [] with m := [valMask (maskA fun l => l % 2 == 0)] } = [(2, 64)] := by decide +kernel
/-- R139, R79: 1.0 + 2^-24 rounds to 1.0 to nearest and sets NX (bit 0 of FFLAGS). -/
theorem test_vfa : lane0 (.fadd .always (.vo 0)) { given0 0 [(32, vecA fun _ => 0x3F800000)] with vo := [valVec (vecA fun _ => 0x33800000)] } 0 = [(4, 0x3F800000, 1)]
    ∧ lane0 (.fmul .always (.vo 0)) { given0 0 [(32, vecA fun _ => 0x40000000)] with vo := [valVec (vecA fun _ => 0x40400000)] } 9 = [(4, 0x40C00000, 0)]
    ∧ lane0 (.fneg .always (.vo 0)) { given0 0 [] with vo := [valVec (vecA fun _ => 0x3F800000)] } 1 = [(4, 0xBF800000, 0)] := by decide +kernel
/-- R139: FMA rounds once: (1 + 2^-22)^2 - 1 = 2^-21 (1 + 2^-23), which is exact. -/
theorem test_fma : lane0 (.fma .always (.vo 0)) { given0 0 [(32, vecA fun _ => 0x3F800002), (33, vecA fun _ => 0x3F800002)] with
      vo := [valVec (vecA fun _ => 0xBF800000)] } 0 = [(4, 0x35000001, 0)]
    ∧ bits0 (.funord .always (.vo 0)) { given0 0 [] with vo := [valVec (vecA fun _ => 0x7FC00000)] } 3 = [(4, true)] := by decide +kernel
/-- R142: -2.5 converts to -2 to nearest-even; BF16 packing of 1.0 and 2.0. -/
theorem test_vfb : lane0 (.cvtfi .always (.vo 0)) { given0 0 [] with vo := [valVec (vecA fun _ => 0xC0200000)] } 0 = [(3, 2 ^ 32 - 2, 1)]
    ∧ lane0 (.cvtfh .always (.vo 0)) { given0 0 [(36, vecA fun _ => 0x3F800000)] with vo := [valVec (vecA fun _ => 0x40000000)] } 0 = [(3, 0x40003F80, 0)]
    ∧ lane0 (.fscl .always (.vo 0)) { given0 0 [(36, vecA fun _ => 0x3F800000)] with vo := [valVec (vecA fun _ => 3)] } 0 = [(3, 0x41000000, 0)] := by decide +kernel
/-- R145's example, from the worked selection of spec/03: block 3.0, -0.5, 1.25, 0.1875 with palettes 0 to 3 takes NL4, sidecar 0x8150. -/
theorem test_qpal_worked : let c := { given0 0x0F [(36, vecA fun l => [0x40400000, 0xBF000000, 0x3FA00000, 0x3E400000].getD l 0)] with node := none }
    (lane0 (.qpal .always (.g 5)) c 0).map (fun r => (r.1, r.2.1)) = [(6, 0x03F6), (6, 0x8150)]
    ∧ (lane0 (.qpal .always (.g 5)) c 1).map (fun r => (r.1, r.2.1)) = [(6, 0), (6, 0)] := by decide +kernel
theorem test_dqpal_worked : let c := { given0 0 [(36, vecA fun l => if l = 0 then 0x03F6 else 0)] with vo := [valVec (vecA fun l => if l = 0 then 0x8150 else 0)] }
    (lane0 (.dqpal .always (.vo 0)) c 0 ++ lane0 (.dqpal .always (.vo 0)) c 1 ++ lane0 (.dqpal .always (.vo 0)) c 2 ++ lane0 (.dqpal .always (.vo 0)) c 3).map
      (fun r => (r.1, r.2.1)) = [(3, 0x40400000), (3, 0xBEC00000), (3, 0x3FA00000), (3, 0)] := by decide +kernel
/-- R92: SQRT is correctly rounded: sqrt 2 = 0x3FB504F3; RCP of 0 is infinity. -/
theorem test_xfu : lane0 (.sqrt .always (.vo 0)) { given0 0 [] with vo := [valVec (vecA fun _ => 0x40000000)] } 0 = [(12, 0x3FB504F3, 1)]
    ∧ (lane0 (.rcp .always (.vo 0)) { given0 0 [] with vo := [valVec (vecA fun _ => 0)] } 0).map (·.2.1) = [0x7F800000] := by decide +kernel
/-- R147, R150, R151: 128 ones sum to 128; rotation; compression counts the enabled lanes. -/
theorem test_vrd : lands0 (.rsum .always (.vo 0)) { given0 0 [(46, maskA fun _ => true)] with vo := [valVec (vecA fun _ => 0x3F800000)] } = [(6, 0x43000000)]
    ∧ lane0 (.vrot .always (.g 5)) (given0 130 [(44, vecA fun l => l)]) 127 = [(6, 1, 0)]
    ∧ lands0 (.vext .always (.g 5)) (given0 127 [(44, vecA fun l => l)]) = [(6, 127)] := by decide +kernel
theorem test_vcmp : lane0 (.vcmp .always (.m 0)) { given0 0 [(44, vecA fun l => 10 + l)] with m := [valMask (maskA fun l => l == 3 || l == 9)] } 1
      = [(6, 19, 0), (6, 0, 0)]
    ∧ (lands0 (.vcmp .always (.m 0)) { given0 0 [(44, vecA fun l => 10 + l)] with m := [valMask (maskA fun l => l == 3 || l == 9)] }).getD 1 (0, 0) = (6, 2) := by
  decide +kernel
/-- R155: an unset pattern register is invalid: bit 63 of word 0. R156: PUNPK with it traps. -/
theorem test_trn : lands0 (.pget .always (.g 5)) (given0 0 []) = [(4, 2 ^ 63)] ∧ (trap0 (.punpk .always (.vo 0)) (given0 0 [])).1 = 0x01 := by decide +kernel
/-- R223, R224: MSEL lands the old field; MSET lands the old value, at reset the default of R218 for parameter 2, 1.0. -/
theorem test_mex : lands0 (.msel .always (.g 5)) (given0 2 []) = [(1, 0), (1, 2)]
    ∧ lands0 (.mset .always (.g 5)) (given0 7 [(52, scOf 2)]) = [(1, 0x3F800000)]
    ∧ ((ranC (.mset .always (.g 5)) (given0 7 [(52, scOf 2)])).mexPar.getD 0 []).getD 2 0 = 7 := by decide +kernel
/-- R220, R225: an entered MZERO of two rows raises token 0 and lands id 0, queue length 1, engine 0. -/
theorem test_mzero_enters : lands0 (.mzero .always (.g 5)) (given0 2 [(52, scOf 510)]) = [(1, 0x100)]
    ∧ ((ranC (.mzero .always (.g 5)) (given0 2 [(52, scOf 510)])).tokens.getD 0 .clear).count = 1
    ∧ (trap0 (.mzero .always (.g 5)) (given0 3 [(52, scOf 510)])).1 ≠ 0 := by decide +kernel
theorem test_cpy_glz_rtc : lands0 (.cset .always (.g 5)) (given0 9 [(56, scOf 3)]) = [(1, 0)] ∧ lands0 (.cgo .always (.g 5)) (given0 0 []) = [(1, 0x100)]
    ∧ lands0 (.gset .always (.g 5)) (given0 9 [(60, scOf 3)]) = [(1, 2)] ∧ lands0 (.tset .always (.g 5)) (given0 9 [(64, scOf 2)]) = [(1, 1)]
    ∧ lands0 (.tmap .always (.g 5)) (given0 0 []) = [(2, 0)] := by decide +kernel
/-- R193 to R195: BINIT of one arrival, then BARV flips it: phase bit 56 set, counts loaded again. -/
theorem test_barrier : let s := ran (.binit .always (.g 5)) (st0 (given0 0x40 [(68, scOf 1)]))
    memDword s (2 ^ 45 + 0x48) = 1 ∧ memDword (ran (.barv .always (.g 5)) s) (2 ^ 45 + 0x48) = 2 ^ 56 + 1 := by decide +kernel
theorem test_waits : (ranC (.bwait .always (.g 5)) (given0 0x40 [(68, scOf 0)])).run = .bwait (2 ^ 45 + 0x40) false 0x40 0 .waiting
    ∧ (ranC (.bwait .always (.g 5)) (given0 0x40 [(68, scOf 1)])).run = .runnable ∧ (ranC (.fence .always (.g 5)) (given0 2 [])).run = .fence 2
    ∧ (ranC (.twait .always (.g 5)) (given0 5 [])).twait = 5 := by decide +kernel
/-- R31, R47: a scalar broadcast to a mask register; a vector to a scalar traps 0x03 with slot and field. -/
theorem test_move : bits0 (.move .always (.g 5) (.m 2)) (given0 1 []) 100 = [(2, true)]
    ∧ trap0 (.move .always (.vo 0) (.g 3)) (given0 1 []) = (0x03, 0, 0x403, 4000) := by decide +kernel
/-- R20: a failing guard writes nothing and the bundle issues. -/
theorem test_guard : lands0 (.addAlu0 .p1 (.g 5)) (given0 1 []) = [] ∧ (ranC (.addAlu0 .p1 (.g 5)) (given0 1 [])).bclk = 51
    ∧ lands0 (.addAlu0 .notP1 (.g 5)) (given0 1 []) = [(1, 1)] := by decide +kernel
/-- R64: a poisoned store value traps at point 0, a poisoned address at point 2. -/
theorem test_poison : (trap0 (.stw .always (.g 5)) (given0 0 [(16, .sc ⟨1, true⟩)])).1 = 0x08
    ∧ trap0 (.stw .always (.g 5)) { given0 0 [] with g := ctx0.g.set 5 ⟨0, true⟩ } = (0x08, 2, 0, 4000) := by decide +kernel
/-- A placed word runs as the first instruction after reset: G1 at reset is 0, so ADD lands 0. -/
theorem test_placed_word : (match step (State.reset.withFetchWord 24 0x000804) with
    | .next t => (getCtx t who0).flight | _ => []) = [⟨1, .latch 0 false, .sc ⟨0, false⟩, 0, 0, 0⟩] := by decide +kernel

/-! ## States that meet the hypotheses of the statements -/

/-- What the instruction statements ask of a bundle of one move, in a form that can be decided. -/
abbrev ReadyD (s : State) (g : Guard) (src : Source) (ty : Ty) : Prop :=
  (awake s s.sel.who (own s) = true ∧ (own s).twait = 0 ∧ s.sel.await = 0 ∧ s.sel.slot < 8 ∧ s.sel.longs.length ≤ 2
    ∧ (own s).pc + 2 + s.sel.longs.length ≤ 2 ^ 18 ∧ outerTrap (own s) = none ∧ (own s).replayTrap = none ∧ (view s).rft = none)
  ∧ (guardPasses (view s) g = true ∧ guardPoisoned (view s) g = false ∧ longNeed src ≤ s.sel.longs.length ∧ ty.takes (srcTy (view s) src) = true)
  ∧ (bufferUse (view s) (view s).bclk + 1 ≤ 16 ∧ flightVecs (view s) (view s).bclk + 2 ≤ 24 ∧ flightScs (view s) (view s).bclk + 2 ≤ 64)
  ∧ (s.past = [] ∧ s.overlay = [] ∧ s.sel.who.wf = true ∧ (own s).snap = none ∧ Memory.wf s.mem = true)
/-- What the instruction statements ask of a bundle of one move: `Room` for every shape. -/
def Ready (s : State) (g : Guard) (src : Source) (ty : Ty) : Prop :=
  Quiet s ∧ Brings s g src ty ∧ (∀ l v k, l ≤ 1 → v ≤ 2 → k ≤ 2 → Room s l v k)
  ∧ Settled s ∧ s.sel.who.wf = true ∧ (own s).snap = none ∧ Memory.wf s.mem = true
theorem ready_of {s : State} {g : Guard} {src : Source} {ty : Ty} (h : ReadyD s g src ty) (hs : ∀ n, src ≠ .v n) : Ready s g src ty :=
  ⟨h.1, ⟨h.2.1.1, h.2.1.2.1, h.2.1.2.2.1, h.2.1.2.2.2, fun n e => (hs n e).elim⟩,
    fun l v k hl hv hk => ⟨fun _ => by have := h.2.2.1.1; omega, fun _ => by have := h.2.2.1.2.1; omega, fun _ => by have := h.2.2.1.2.2; omega⟩,
    ⟨h.2.2.2.1, h.2.2.2.2.1⟩, h.2.2.2.2.2.1, h.2.2.2.2.2.2.1, h.2.2.2.2.2.2.2⟩
/-- A step that answers a next state. -/
def goes (o : Host.Outcome State Fault Refusal) : Bool := match o with | .next _ => true | _ => false

/-- Context 0 with a value in G5, a vector in VO0, a mask in M0, and operand ports. -/
def at5 (t : Nat) (ps : List (Nat × Val)) : State :=
  st0 { given0 t ps with vo := ctx0.vo.set 0 (valVec (vecA fun l => 4 * l)), m := ctx0.m.set 0 (valMask (maskA fun l => l % 2 == 0)) }
/-- The same with its context changed. -/
def with5 (f : Ctx → Ctx) (s : State) : State := setCtx who0 (f (getCtx s who0)) s

theorem ready_scalar (t : Nat) (h : ReadyD (at5 t []) .always (.g 5) .s) : Ready (at5 t []) .always (.g 5) .s := ready_of h nofun
theorem ready_s : Ready (at5 7 []) .always (.g 5) .s := ready_scalar 7 (by decide +kernel)
theorem ready_v : Ready (at5 7 []) .always (.vo 0) .v := ready_of (by decide +kernel) nofun
theorem ready_m : Ready (at5 7 []) .always (.m 0) .m := ready_of (by decide +kernel) nofun

theorem witness_WordsDecode : let h : Header := ⟨255, 255, true, 2⟩
    h.mask < 256 ∧ h.await < 256 ∧ h.longs < 3 := by decide
theorem witness_StepKeepsCanonical : Canonical State.reset ∧ goes (step State.reset) = true := by
  constructor
  · exact ⟨by decide, by decide⟩
  · decide +kernel
theorem witness_StepOrder : State.reset.agenda = [] ∧ State.reset.focus = none := by decide
/-- A defined sketch entry 3 and a resident name 7. -/
def sketch0 (s : State) : State := with5 (fun c => { c with
  sketches := c.sketches.set 3 ⟨(List.range 72).map fun i => BitVec.ofNat 8 (i * 7), true, 0, false⟩, v := c.v.set 7 { getV c 7 with st := .resident } }) s
/-- A quota of one that a bound name uses up. -/
def full0 (s : State) : State := with5 (fun c => { c with sr := { c.sr with quota := 1 }, v := c.v.set 7 { getV c 7 with st := .resident, bound := some 3 } }) (sketch0 s)
theorem witness_MoveLands : Ready (at5 7 []) .always (.g 5) (destTy (.v 31)) ∧ Ready (at5 7 []) .always (.vo 0) (destTy (.v 31))
    ∧ residentCount (view (at5 7 [])) < (view (at5 7 [])).sr.quota
    ∧ (let s := with5 (fun c => { c with sr := { c.sr with quota := 0 } }) (at5 7 [])
      vHolds (view s) 31 = false ∧ (view s).sr.quota ≤ residentCount (view s) ∧ evictee (view s) (readNames (.vo 0) ++ [31]) = none ∧ (own s).snap = none)
    ∧ (let s := full0 (at5 7 [])
      ReadyD s .always (.vo 0) (destTy (.v 31)) ∧ vHolds (view s) 31 = false ∧ (view s).sr.quota ≤ residentCount (view s)
        ∧ evictee (view s) (readNames (.vo 0) ++ [31]) = some 7) :=
  ⟨ready_of (by decide +kernel) nofun, ready_of (by decide +kernel) nofun, by decide +kernel, by decide +kernel, by decide +kernel⟩
theorem witness_MovesHeldBack : (let s := at5 7 []
      Ready s .always (.g 5) .s ∧ moveParts (.addAlu0 .p1 (.g 5)) = some (.p1, .g 5, 4) ∧ (Instr.addAlu0 .p1 (.g 5)).wf = true
      ∧ guardPasses (view s) .p1 = false ∧ guardPoisoned (view s) .p1 = false ∧ srcTy (view s) (.g 5) = .s)
    ∧ (let s := with5 (fun c => { c with p := [(false, true), (false, false), (false, false)] }) (at5 7 [])
      Ready s .always (.g 5) .s ∧ guardPasses (view s) .p1 = false ∧ guardPoisoned (view s) .p1 = true ∧ (own s).snap = none)
    ∧ (let s := at5 7 []
      Quiet s ∧ srcTy (view s) (.vo 0) ≠ .s ∧ srcTy (view s) (.vo 0) ≠ destTy (.g 3) ∧ (Instr.move .always (.vo 0) (.g 3)).wf = true) :=
  ⟨⟨ready_s, by decide +kernel⟩, ⟨ready_of (by decide +kernel) nofun, by decide +kernel⟩, ready_s.1, by decide +kernel⟩
/-- Results landing together at 50, behind an older one of latch 17 and beside a timed one of latch 8, of a pattern and of a sketch. -/
def due0 (ds : List FlightDst) : Ctx := { ctx0 with
  flight := ⟨50, .latch 17 true, .zero .s, 4, 0, 40⟩ :: ds.map (fun d => ⟨50, d, .zero .s, 3, 0, 45⟩)
  landing := [⟨50, 46, 0, .latch 4, true, .value (.sc ⟨7, false⟩) 0, 3, 0⟩, ⟨50, 46, 1, .pattern 7, true, .desc [] false, 4, 0⟩,
    ⟨50, 46, 2, .sketch 15 0, true, .desc [] false, 5, 0⟩] }
theorem witness_ResultsLand : ∀ ds ∈ [[FlightDst.latch 17 true, .latch 4 false, .main 0, .main 0x3F, .main 0x40, .main 0x5F, .main 0x60, .main 0x67, .main 0x68,
      .main 0x6A, .oper 0, .oper 15, .oper 0x10, .flags, .special 4, .special 8, .special 0x12, .special 0x113, .special 0x213], [.special 0x13, .special 9]],
    let c := due0 ds
    let due := c.flight.filter fun f => f.land == 50
    let timed := c.landing.filter fun l => l.land == 50
    (∀ d ∈ ds, ∃ f ∈ due, f.dst = d ∧ ∀ k ∈ due, k.dst = f.dst → k = f ∨ k.issued < f.issued) ∧ due.length = ds.length + 1
      ∧ (∀ l ∈ timed, (∀ k ∈ timed, k.dst = l.dst → k = l ∨ k.issued < l.issued) ∧ ∀ f ∈ due, f.dst = .latch 4 false → f.issued < l.issued)
      ∧ latchIx 17 true < c.latches.length ∧ c.g.length = 64 ∧ c.v.length = 32 ∧ c.m.length = 8 ∧ c.p.length = 3 ∧ c.o.length = 16 ∧ 0 < c.vo.length
      ∧ 7 < c.pats.length ∧ 15 < c.sketches.length ∧ (∀ n, (getV c n).st ≠ .dropped) := by
  have v : ∀ ds n, (getV (due0 ds) n).st ≠ .dropped := fun ds n => by
    have h : (due0 ds).v = List.replicate 32 .unwritten := by
      show ctx0.v = _
      decide +kernel
    simp only [getV, h, List.getD_eq_getElem?_getD, List.getElem?_replicate]
    split <;> decide
  intro ds h
  simp only [List.mem_cons, List.not_mem_nil, or_false] at h
  obtain rfl | rfl := h <;> and_intros <;> first | exact v _ | decide +kernel
theorem witness_PoisonPoints : let s := with5 (fun c => { c with g := c.g.set 5 ⟨5, true⟩ }) (at5 7 [])
    Ready s .always (.g 5) .s ∧ (trigSc s (.g 5)).p = true ∧ (view s).parity = 0 ∧ (∀ k, (getTok (view s) k).count < 15) ∧ s.mex = [] ∧ s.cpy = []
      ∧ s.glz = [] ∧ s.rtc = [] ∧ (∀ p, (getPart s p).shares = []) ∧ (getDie s s.sel.who.die).calls = [] :=
  ⟨ready_of (by decide +kernel) nofun, by decide +kernel, by decide +kernel,
    fun k => by
      have h : (view (with5 (fun c => { c with g := c.g.set 5 ⟨5, true⟩ }) (at5 7 []))).tokens = List.replicate 8 .clear := by decide +kernel
      simp only [getTok, h, List.getD_eq_getElem?_getD, List.getElem?_replicate]
      split <;> simp [Token.clear],
    by decide +kernel, by decide +kernel, by decide +kernel, by decide +kernel, fun p => rfl, by decide +kernel⟩
theorem witness_AluResults : Ready (at5 7 []) .always (.g 5) .s := ready_s
theorem witness_MultiplyDivideResults : Ready (at5 0 [(8, scOf (2 ^ 63))]) .always (.g 5) .s ∧ Ready (at5 (2 ^ 64 - 1) [(8, scOf (2 ^ 63))]) .always (.g 5) .s :=
  ⟨ready_of (by decide +kernel) nofun, ready_of (by decide +kernel) nofun⟩
/-- Lines of the fetch buffer of core 0 that hold syllables from an address on. -/
def code0 (l : List Syllable) (from' : Nat) (s : State) : State :=
  setCore ⟨0, 0, 0⟩ { getCore s ⟨0, 0, 0⟩ with
    fetch := (List.range 3).map fun i => ⟨from' / 16 + i, false, (List.range 16).map fun j => l.getD ((from' / 16 + i) * 16 + j - from') 0⟩ } s
/-- A header of one move in a slot with a count of long immediates. -/
def hdr0 (slot n : Nat) : Syllable := encodeHeader ⟨2 ^ slot, 0, false, n⟩
def addS : Syllable := 0b000_0000000101_0_00000_00100#24
def runs0 : State := code0 [hdr0 0 0, addS, hdr0 1 0, addS, hdr0 7 2, addS, 1, 2] 100 (at5 7 [])
theorem witness_StepRunsDecoded : let s := { runs0 with focus := some ⟨0, 0, 0⟩, sel := ⟨⟨1, 1, 1, 1⟩, 3, 5, true, []⟩ }
    let s0 := { afterTurn (.bundleIssue ⟨0, 0, 0⟩) s with focus := none }
    let s1 := prepare opOfField ⟨0, 0, 0⟩ s0
    s.agenda = [] ∧ issuers opOfField ⟨0, 0, 0⟩ s0 = [who0] ∧ (getCtx s1 who0).pc = 100
      ∧ fetchSyl s1 ⟨0, 0, 0⟩ 100 = some (some (encodeHeader ⟨2 ^ 0, 0, false, 0⟩)) ∧ fetchSyl s1 ⟨0, 0, 0⟩ 101 = some (some addS)
      ∧ decodeMove addS = .ok (.addAlu0 .always (.g 5)) :=
  ⟨by decide +kernel, by decide +kernel, by decide +kernel, by decide +kernel, by decide +kernel, rfl⟩
theorem witness_StepRunsDecoded_longs : let s := { code0 [hdr0 7 2, 0b000_1111110010_0_00000_00100#24, 1, 2] 100 (at5 7 []) with focus := some ⟨0, 0, 0⟩ }
    let s0 := { afterTurn (.bundleIssue ⟨0, 0, 0⟩) s with focus := none }
    let s1 := prepare opOfField ⟨0, 0, 0⟩ s0
    issuers opOfField ⟨0, 0, 0⟩ s0 = [who0] ∧ fetchSyl s1 ⟨0, 0, 0⟩ 100 = some (some (encodeHeader ⟨2 ^ 7, 0, false, 2⟩))
      ∧ (∀ j, j < 2 → fetchSyl s1 ⟨0, 0, 0⟩ (102 + j) = some (some (([1, 2] : List Syllable).getD j 0))) := by decide +kernel
theorem witness_Transfers : Ready (at5 (2 ^ 64 - 101) [(12, scOf 1)]) .always (.g 5) .s ∧ Ready (at5 7 [(12, scOf 0)]) .always (.g 5) .s
    ∧ (Ready runs0 .always (.g 5) .s ∧ (trigSc runs0 (.g 5)).p = false ∧ (view runs0).loopCnt = 0 ∧ (view runs0).flight = [] ∧ (view runs0).landing = []
      ∧ (view runs0).redirects = [] ∧ peekSyl runs0 ⟨0, 0, 0⟩ 102 = some (hdr0 1 0) ∧ isHeader (hdr0 1 0) = true
      ∧ peekSyl runs0 ⟨0, 0, 0⟩ 104 = some (hdr0 7 2) ∧ isHeader (hdr0 7 2) = true)
    ∧ ((portSc runs0 3 0).p = false ∧ (portSc runs0 3 1).p = false ∧ (portSc runs0 3 0).v.toNat % 2 ^ 32 = 0) :=
  ⟨ready_of (by decide +kernel) nofun, ready_of (by decide +kernel) nofun, ⟨ready_of (by decide +kernel) nofun, by decide +kernel⟩, by decide +kernel⟩
/-- A CALL in the last bundle of a counting loop but one, with another redirect pending for the bundle after the next. -/
def loopCall0 : State := with5 (fun c => { c with
    loopCnt := 3, loopEnd := 102, loopStart := 100, redirects := [⟨52, 104, 90⟩], flight := [⟨52, .main 3, .sc ⟨1234, false⟩, 0, 0, 49⟩] }) runs0
theorem witness_Transfers_call : let s := loopCall0
    let c1 := advance s (entry s (.g 5))
    Ready s .always (.g 5) .s ∧ (trigSc s (.g 5)).p = false ∧ c1.pc = 102 ∧ peekSyl s ⟨0, 0, 0⟩ c1.pc = some (hdr0 1 0) ∧ isHeader (hdr0 1 0) = true
      ∧ (redirectAt c1 (c1.bclk + 1)).map (·.target) = some 104 ∧ peekSyl s ⟨0, 0, 0⟩ 104 = some (hdr0 7 2) ∧ isHeader (hdr0 7 2) = true :=
  ⟨ready_of (by decide +kernel) nofun, by decide +kernel⟩
/-- A context with a snapshot, as a handler runs. -/
def snap0 (c : Ctx) : Ctx := { c with snap := some (snapshot c) }
theorem witness_TrapInstruction : Ready (at5 7 []) .always (.g 5) .s
    ∧ (let s := with5 snap0 (at5 7 []); Quiet s ∧ Brings s .always (.g 5) .s ∧ (own s).snap.isSome = true) :=
  ⟨ready_s, by unfold Quiet; decide +kernel, ⟨by decide +kernel, by decide +kernel, by decide +kernel, by decide +kernel, nofun⟩, by decide +kernel⟩
theorem witness_ExitRetires : let s := at5 (2 ^ 32) []
    Ready s .always (.g 5) .s ∧ (trigSc s (.g 5)).p = false ∧ (trigSc s (.g 5)).v.setWidth 32 = 0#32 :=
  ⟨ready_of (by decide +kernel) nofun, by decide +kernel⟩
theorem witness_SpillAccesses : (let s := at5 0x3FF8 []
      Ready s .always (.g 5) .s ∧ (trigSc s (.g 5)).v.toNat = 0x3FF8 ∧ Memory.wf (view s).spill = true)
    ∧ ∀ o ∈ [0x3FFC, 0x4000], ReadyD (at5 o []) .always (.g 5) .s ∧ (trigSc (at5 o []) (.g 5)).v.toNat = o ∧ (o % 8 ≠ 0 ∨ 0x3FF8 < o) :=
  ⟨⟨ready_of (by decide +kernel) nofun, by decide +kernel⟩, by decide +kernel⟩
/-- The last aligned dword of scratchpad, the first and the last of accumulator space. -/
theorem witness_LocalLoads : ∀ a ∈ [0x2FFFF8, 0x400000, 0x4FFFF8], ReadyD (at5 a []) .always (.g 5) .s ∧ (trigSc (at5 a []) (.g 5)).p = false
    ∧ (trigSc (at5 a []) (.g 5)).v.toNat = a ∧ a % 8 = 0 ∧ InLocal a 8 ∧ ∀ i, i < 8 → markOf (at5 a []) (localAt (at5 a []) a + i) ≠ some .integrity := by
  unfold InLocal; decide +kernel
theorem witness_LocalStores : ∀ a ∈ [0x2FFFF8, 0x400000, 0x4FFFF8], ReadyD (at5 a []) .always (.g 5) .s ∧ (trigSc (at5 a []) (.g 5)).p = false
    ∧ (portSc (at5 a []) 4 0).p = false ∧ a % 8 = 0 ∧ InLocal a 8 := by unfold InLocal; decide +kernel
/-- One byte off, the first byte past scratchpad, past accumulator space, and the two sides of 56 bits. -/
theorem witness_MemoryAccessTraps : (ReadyD (at5 0x12 []) .always (.g 5) .s ∧ (trigSc (at5 0x12 []) (.g 5)).v.toNat % 4 ≠ 0)
    ∧ (∀ a ∈ [0x300000, 0x500000, 0x7FFFFC, 0x900000], ReadyD (at5 a []) .always (.g 5) .s ∧ a % 4 = 0 ∧ ¬ InLocal a 4 ∧ ¬ (0x800000 ≤ a ∧ a + 4 ≤ 0x900000))
    ∧ ∀ a ∈ [2 ^ 56 - 1, 2 ^ 56], ReadyD (at5 a []) .always (.g 5) .s ∧ (trigSc (at5 a []) (.g 5)).v.toNat = a :=
  ⟨by decide +kernel, by unfold InLocal; decide +kernel, by decide +kernel⟩
/-- A pin on page 0 that maps LPDDR page 0x500000 for reading and writing. -/
def pin0 : Pin := ⟨0x100, 0, 0x508007, 10, 4000, 0⟩
def pinned0 (t : Nat) (ps : List (Nat × Val)) : State := with5 (fun c => { c with pins := [pin0] }) (at5 t ps)
theorem witness_PoisonPoints_ports : (∀ p ∈ [12, 13, 16, 17, 18, 20, 21, 25, 26, 48, 52, 56, 60, 64, 68, 70], let s := at5 0x10 [(p, .sc ⟨1, true⟩)]
      ReadyD s .always (.g 5) .s ∧ (portSc s (p / 4) (p % 4)).p = true ∧ (trigSc s (.g 5)).p = false ∧ (view s).parity = 0)
    ∧ (0x10 % 8 = 0 ∧ InLocal 0x10 8 ∧ InLocal 0x10 512)
    ∧ (let s := at5 0x10 [(24, .vec (vecOf fun l => ⟨0, l == 127⟩))]
      ReadyD s .always (.g 5) .s ∧ ∃ l < 128, (laneAt (portVec s 6 0) l).p = true)
    ∧ (let s := pinned0 0xFFF8 [(16, .sc ⟨1, true⟩), (17, scOf 3)]
      ReadyD s .always (.g 5) .s ∧ (trigSc s (.g 5)).v.toNat = 0xFFF8 ∧ Covered s 0xFFF8 8 pin0 ∧ pteWrite pin0.pte.toNat = true ∧ (portSc s 4 0).p = true
        ∧ portSc s 4 1 = ⟨3, false⟩)
    ∧ (let s := with5 (fun c => snap0 { c with g := c.g.set 5 ⟨5, true⟩ }) (at5 7 [])
      Quiet s ∧ Brings s .always (.g 5) .s ∧ (trigSc s (.g 5)).p = true ∧ (own s).snap.isSome = true) :=
  ⟨by decide +kernel, by unfold InLocal; decide, by decide +kernel, by unfold Covered; decide +kernel, by unfold Quiet; decide +kernel,
    ⟨by decide +kernel, by decide +kernel, by decide +kernel, by decide +kernel, nofun⟩, by decide +kernel, by decide +kernel⟩
theorem witness_GlobalScalars : let s := pinned0 0xFFF8 [(16, scOf 7), (17, scOf 3)]
    let a := (trigSc s (.g 5)).v.toNat
    Ready s .always (.g 5) .s ∧ (trigSc s (.g 5)).p = false ∧ a = 0xFFF8 ∧ Covered s a 8 pin0 ∧ pteRead pin0.pte.toNat = true ∧ pteWrite pin0.pte.toNat = true
      ∧ (portSc s 4 0).v.toNat = 3 + 4 ∧ (portSc s 4 0).p = false ∧ (portSc s 4 2).p = false ∧ portSc s 4 1 = ⟨3, false⟩
      ∧ (∀ i, i < 8 → markOf s (pinAt pin0 a + i) ≠ some .integrity)
      ∧ (∀ i, i < 8 → physHost (pinAt pin0 a + i) = false ∧ stageOf s (nodeOf s s.sel.who) (pinAt pin0 a + i) pin0.pte.toNat = none) :=
  ⟨ready_of (by decide +kernel) nofun, by unfold Covered; decide +kernel⟩
theorem witness_LocalAtomics : ∀ a ∈ [0x400000, 0x4FFFFC], let s := at5 a [(16, scOf 1), (17, scOf 2)]
    ReadyD s .always (.g 5) .s ∧ (trigSc s (.g 5)).p = false ∧ (portSc s 4 0).p = false ∧ (portSc s 4 1).p = false ∧ (portSc s 4 2).p = false
      ∧ (trigSc s (.g 5)).v.toNat = a := by decide +kernel
/-- A valid pattern register 0 and a poisoned one at 7. -/
def pats0 (s : State) : State := with5 (fun c => { c with pats := [⟨[20, 0, 3, 0, 0, 0, 0, 0, 4, 128, 6, 5, 10, 9], true, false⟩] }) s
theorem witness_LocalVectorLoads : (let s := at5 0x2FFE00 []
      ReadyD s .always (.g 5) .s ∧ (trigSc s (.g 5)).p = false ∧ (portSc s 6 1) = ⟨0, false⟩
        ∧ ∀ l, l < 128 → (0x2FFE00 + 4 * l) % 4 = 0 ∧ InLocal (0x2FFE00 + 4 * l) 4)
    ∧ (let s := at5 0x4FFFFC [(25, scOf (2 ^ 64 - 4))]
      ReadyD s .always (.g 5) .s ∧ (portSc s 6 1).p = false
        ∧ ∀ l : Nat, l < 128 → (((0x4FFFFC : Int) + l * (-4)) % (2 ^ 64 : Nat)).toNat % 4 = 0 ∧ InLocal (((0x4FFFFC : Int) + l * (-4)) % (2 ^ 64 : Nat)).toNat 4)
    ∧ (let s := at5 0 [(25, scOf 0x400000)]
      ReadyD s .always (.vo 0) .v ∧ (portSc s 6 1).p = false ∧ (trigVec s (.vo 0)).any (·.p) = false
        ∧ ∀ l, l < 128 → (laneAt (trigVec s (.vo 0)) l).v.toNat = 4 * l ∧ (0x400000 + 4 * l) % 4 = 0 ∧ InLocal (0x400000 + 4 * l) 4)
    ∧ (let s := pats0 (at5 0x2FFE00 [(25, scOf 0)])
      ReadyD s .always (.g 5) .s ∧ (portSc s 6 1) = ⟨0, false⟩ ∧ (getPat (view s) 0).valid = true ∧ InLocal 0x2FFE00 512)
    ∧ (let s := at5 0x2FFFF0 [(25, scOf 0xFFFF)]
      ReadyD s .always (.g 5) .s ∧ (portSc s 6 1) = ⟨0xFFFF, false⟩ ∧ 0x2FFFF0 % 16 = 0 ∧ 0x2FFFF0 + 16 ≤ 0x300000) := by
  unfold InLocal
  and_intros <;> decide +kernel
/-- A vector to store and a mask that enables its even lanes. -/
def vecs0 (t : Nat) (ps : List (Nat × Val)) : State := at5 t ([(24, vecA fun l => 3 * l), (27, maskA fun l => l % 2 == 0)] ++ ps)
theorem witness_LocalVectorStores : (∀ a ∈ [0x2FFE00, 0x400000, 0x4FFE00], let s := vecs0 a []
      ReadyD s .always (.g 5) .s ∧ (trigSc s (.g 5)).p = false ∧ a % 4 = 0 ∧ InLocal a 512)
    ∧ (let s := vecs0 0x2FFE04 []
      (portMask s 6 3).any (·.p) = false ∧ (portVec s 6 0).length = 128 ∧ (portVec s 6 0).any (·.p) = false
        ∧ ∀ l, l < 128 → (maskAt (portMask s 6 3) l).v = true → InLocal (0x2FFE04 + 4 * l) 4)
    ∧ (let s := vecs0 0x1000 [(25, scOf 2)]
      ReadyD s .always (.g 5) .s ∧ (portSc s 6 1).p = false ∧ ReadyD (vecs0 0 [(25, scOf 0x400000)]) .always (.vo 0) .v)
    ∧ (let s := vecs0 0x2FFFB0 [(25, scOf 64), (26, scOf (1 * 2 ^ 48 + 9))]
      ReadyD s .always (.g 5) .s ∧ (portSc s 6 1) = ⟨64, false⟩ ∧ (portSc s 6 2).p = false ∧ (portSc s 6 2).v.toNat = 1 * 2 ^ 48 + 0 * 2 ^ 32 + 0 * 2 ^ 16 + 9
        ∧ (let size := P4.codeSize 1
          let els := (List.range 9).map (segElem (portVec s 6 0) size)
          let z := (els.filter fun e => !P4.codeZero 1 e).length
          let total := 16 + ceilTo 16 ((9 + 7) / 8) + ceilTo 16 (z * size)
          0x2FFFB0 + total ≤ 0x300000 ∧ total ≤ 64 ∧ ∀ l, l < (9 * size + 3) / 4 → (laneAt (portVec s 6 0) l).p = false)) := by
  unfold InLocal
  and_intros <;> decide +kernel
/-- A node of cluster 0, with its context 0 running. -/
def node0 (st : NodeSt) : Node where
  part := 0
  graph := 0x1000
  idx := 0
  record := [1, 0x10000, 0x10000, 0, 0, 0, 0]
  st := st
  expected := false
  attempts := 1
  firings := 3
  reason := 0
  exitSt := 0
  clusters := [⟨0, 0⟩]
  handed := []
  readyAt := 0
  placedAt := 0
  noRetry := false
  freed := false
  faulted := false
  durable := false
  kill2 := false
  inherits := false
  stop := .no
  saved := none
  laid := none
  palettes := []
theorem witness_GlobalVectors : (let s := with5 (fun c => { c with pins := [pin0] }) (vecs0 0xFE00 [(26, scOf 4095)])
      let a := 0xFE00
      Ready s .always (.g 5) .s ∧ (trigSc s (.g 5)).v.toNat = a ∧ Covered s a 512 pin0 ∧ (portSc s 6 2) = ⟨4095, false⟩
        ∧ (∀ i, i < 512 → markOf s (pinAt pin0 a + i) ≠ some .integrity)
        ∧ (∀ i, i < 512 → physHost (pinAt pin0 a + i) = false ∧ stageOf s (nodeOf s s.sel.who) (pinAt pin0 a + i) pin0.pte.toNat = none))
    ∧ (∀ a ∈ [0x800000, 0x8FFE00], let s := { with5 (fun c => { c with node := some 0, sr := { c.sr with mcwin := 1 } }) (vecs0 a []) with nodes := [node0 .running] }
      ReadyD s .always (.g 5) .s ∧ (trigSc s (.g 5)).v.toNat = a ∧ (view s).node = some 0 ∧ getNode s 0 = some (node0 .running) ∧ (portSc s 4 0).p = false
        ∧ a % 8 = 0 ∧ 0x800000 ≤ a ∧ a + 512 ≤ 0x900000) :=
  ⟨⟨ready_of (by decide +kernel) nofun, by unfold Covered; decide +kernel⟩, by decide +kernel⟩
theorem witness_VectorIntegerResults : Ready (at5 7 []) .always (.vo 0) .v ∧ Ready (at5 7 []) .always (.m 0) .m ∧ (trigMask (at5 7 []) (.m 0)).length = 128
    ∧ Ready (at5 (2 ^ 64 - 1) []) .always (.g 5) .s := ⟨ready_v, ready_m, by decide +kernel, ready_of (by decide +kernel) nofun⟩
theorem witness_VectorFloatResults : Ready (at5 7 [(32, vecA fun l => 0x7F800000 + l)]) .always (.vo 0) .v := ready_of (by decide +kernel) nofun
theorem witness_ConversionResults : Ready (at5 7 []) .always (.g 5) .s ∧ Ready (at5 3 []) .always (.g 5) .s ∧ Ready (at5 3 []) .always (.vo 0) .v
    ∧ (trigSc (at5 7 []) (.g 5)).v.toNat % 256 = 7 ∧ (trigSc (at5 3 []) (.g 5)).v.toNat % 256 = 3 :=
  ⟨ready_s, ready_of (by decide +kernel) nofun, ready_of (by decide +kernel) nofun, by decide +kernel, by decide +kernel⟩
theorem witness_LaneResults : (let s := at5 127 [(46, maskA fun l => l == 127)]
      Ready s .always (.vo 0) .v ∧ (maskAt (portMask s 11 2) 127).v = true
        ∧ ∀ l, l < 128 → (maskAt (portMask s 11 2) l).v = true → Fp.isNan32 (laneAt (trigVec s (.vo 0)) l).v = false ∧ l = 127)
    ∧ Ready (at5 127 []) .always (.g 5) .s ∧ (trigSc (at5 127 []) (.g 5)).v.toNat = 127 ∧ Ready (at5 7 []) .always (.m 0) .m :=
  ⟨⟨ready_of (by decide +kernel) nofun, by decide +kernel⟩, ready_of (by decide +kernel) nofun, by decide +kernel, ready_m⟩
theorem witness_TransformResults : (∀ t ∈ [0, 0x2FFFB8], let s := pats0 (at5 t [(48, scOf 7)])
      ReadyD s .always (.g 5) .s ∧ (portSc s 12 0) = ⟨7, false⟩ ∧ t % 8 = 0 ∧ t + 72 ≤ 0x300000)
    ∧ ReadyD (at5 8 [(48, scOf 7)]) .always (.g 5) .s
    ∧ (let s := pats0 (at5 7 []); ReadyD s .always (.vo 0) .v ∧ (portSc s 12 0).v.toNat < 8 ∧ (getPat (view s) 0).valid = true)
    ∧ (let s := at5 7 [(48, scOf 4096), (49, scOf 9), (50, scOf (2 ^ 32 - 1))]
      ReadyD s .always (.vo 0) .v ∧ (portSc s 12 0).v.toNat = 4096 ∧ (portSc s 12 1).v.toNat = 9 ∧ (portSc s 12 2).v.toNat < 2 ^ 32) :=
  by and_intros <;> decide +kernel
theorem witness_SpecialRegisters : (∀ k, k < 0x17 → ReadyD (at5 k []) .always (.g 5) .s ∧ (trigSc (at5 k []) (.g 5)).v.toNat % 256 = k)
    ∧ (∀ k, k < 0x17 → let s := at5 7 [(20, scOf k)]
      ReadyD s .always (.g 5) .s ∧ (portSc s 5 0).v.toNat % 256 = k ∧ (portSc s 5 0).p = false ∧ (trigSc s (.g 5)).p = false)
    ∧ (let s := at5 7 [(20, .sc ⟨7, true⟩)]; ReadyD s .always (.g 5) .s ∧ (portSc s 5 0).p = true ∧ (view s).parity = 0) :=
  ⟨by decide +kernel, by decide +kernel, by decide +kernel⟩
theorem witness_ContextControl : (∀ t ∈ [0, 3, 7], let s := at5 t [(21, scOf 0x3FF0)]
      ReadyD s .always (.g 5) .s ∧ (trigSc s (.g 5)) = ⟨BitVec.ofNat 64 t, false⟩ ∧ (portSc s 5 0).p = false ∧ (portSc s 5 1) = ⟨0x3FF0, false⟩
        ∧ s.sel.who.die < s.dies.length ∧ (getDie s s.sel.who.die).calls.length < 64 ∧ (getTok (view s) (t / 2 ^ 16)).count < 15)
    ∧ (trigSc (at5 0 []) (.g 5)).v.toNat = (at5 0 []).sel.who.ctx
    ∧ (let s := at5 (2 ^ 19 - 1) []; ReadyD s .always (.g 5) .s ∧ (trigSc s (.g 5)).v.toNat = 2 ^ 19 - 1 ∧ (getTok (view s) 7).count < 15)
    ∧ (let s := setDie 0 { Die.start with calls := List.replicate 64 ⟨who0, 0, 0, 0, 0⟩ } (at5 0 [])
      ReadyD s .always (.g 5) .s ∧ 64 ≤ (getDie s s.sel.who.die).calls.length) :=
  by and_intros <;> decide +kernel
/-- The second delay bundle of an RFT of mode `m` at pc 90, with TRAPPC 100 as the RFT bundle saw it. -/
def ends0 (m : Nat) (f : Snap → Snap) : State :=
  with5 (fun c => { c with snap := some (f (snapshot c)), rft := some ⟨51, m, 90, 100⟩ }) runs0
theorem witness_ReturnFromTrap : (∀ t ∈ [0, 1, 2], let s := with5 snap0 (at5 t [])
      Quiet s ∧ Brings s .always (.g 5) .s ∧ (trigSc s (.g 5)) = ⟨BitVec.ofNat 64 t, false⟩ ∧ (view s).snap.isSome = true ∧ (own s).snap.isSome = true)
    ∧ Ready (at5 0 []) .always (.g 5) .s
    ∧ (∀ m ∈ [0, 1], let s := ends0 m id
      Ending s ⟨51, m, 90, 100⟩ ∧ Brings s .always (.g 5) .s)
    ∧ (∀ m ∈ [0, 1], let s := ends0 m fun sn => { sn with redirects := [⟨2, 7, 9⟩] }
      (getCtx s who0).rft = some ⟨51, m, 90, 100⟩ ∧ (getCtx s who0).snap.map (fun sn => sn.redirects) = some [⟨2, 7, 9⟩] ∧ m < 2
        ∧ peekSyl s ⟨0, 0, 0⟩ 100 = some (hdr0 0 0) ∧ isHeader (hdr0 0 0) = true) := by
  have q : ∀ s : State, (awake s s.sel.who (own s) = true ∧ (own s).twait = 0 ∧ s.sel.await = 0 ∧ s.sel.slot < 8 ∧ s.sel.longs.length ≤ 2
      ∧ (own s).pc + 2 + s.sel.longs.length ≤ 2 ^ 18 ∧ outerTrap (own s) = none ∧ (own s).replayTrap = none)
      ∧ guardPasses (view s) .always = true ∧ guardPoisoned (view s) .always = false ∧ longNeed (.g 5) ≤ s.sel.longs.length
      ∧ Ty.takes .s (srcTy (view s) (.g 5)) = true → Brings s .always (.g 5) .s := fun s h => ⟨h.2.1, h.2.2.1, h.2.2.2.1, h.2.2.2.2, nofun⟩
  refine ⟨?_, ready_of (by decide +kernel) nofun, ?_, by decide +kernel⟩
  · intro t ht
    simp only [List.mem_cons, List.not_mem_nil, or_false] at ht
    obtain rfl | rfl | rfl := ht <;> exact ⟨by unfold Quiet; decide +kernel, q _ (by decide +kernel), by decide +kernel⟩
  · intro m hm
    simp only [List.mem_cons, List.not_mem_nil, or_false] at hm
    obtain rfl | rfl := hm <;> exact ⟨by unfold Ending; decide +kernel, q _ (by decide +kernel)⟩
theorem witness_SketchInstructions : (∀ t ∈ [0, 0x2FFFB8], ReadyD (at5 t [(20, scOf 15)]) .always (.g 5) .s ∧ t % 8 = 0 ∧ t + 72 ≤ 0x300000
      ∧ (portSc (at5 t [(20, scOf 15)]) 5 0) = ⟨15, false⟩)
    ∧ (let s := sketch0 (at5 9 [(20, scOf 3)])
      ReadyD s .always (.g 5) .s ∧ (getSketch (view s) 3).defined = true ∧ (sketchSources (getSketch (view s) 3).bytes).contains 9 = false
        ∧ tooDeep 9 (view s) (bindName 9 3 (view s)) = false ∧ (view s).v.length = 32)
    ∧ ReadyD (at5 15 []) .always (.g 5) .s
    ∧ (let s := sketch0 (at5 7 [])
      ReadyD s .always (.g 5) .s ∧ (getV (view s) 7).st = .resident ∧ vInFlight (view s) 7 = false ∧ tooDeep 7 (view s) (dropName 7 (view s)) = false) :=
  by and_intros <;> decide +kernel
/-- The queue of matrix engine 0 with four commands. -/
def full4 (s : State) : State := setMex ⟨0, 0, 0⟩ { Mex.start with queue := List.replicate 4 ⟨7, .mzero, who0, 2, 510, mexParZero, 5, 9, 0⟩ } s
theorem witness_EngineReports : (∀ t ∈ [0, 2, 15], let s := at5 t [(60, scOf 0x3FFFFF)]
      ReadyD s .always (.g 5) .s ∧ (trigSc s (.g 5)) = ⟨BitVec.ofNat 64 t, false⟩ ∧ (portSc s 15 0) = ⟨0x3FFFFF, false⟩
        ∧ pendingRtc s (given s 0 .s (.g 5)) (t % 8) = none ∧ targetRecv (given s 488 .s (.g 5)) = none ∧ targetRecv (given s 489 .s (.g 5)) = none)
    ∧ (∀ t ∈ [1, 8, 0x400000, 2 ^ 32 - 1], ReadyD (at5 t []) .always (.g 5) .s ∧ (trigSc (at5 t []) (.g 5)).v.toNat = t)
    ∧ (let s := { with5 (fun c => { c with node := some 0 }) (at5 (2 ^ 30 - 64) []) with nodes := [node0 .running] }
      ReadyD s .always (.g 5) .s ∧ (trigSc s (.g 5)).v.toNat = 2 ^ 30 - 64 ∧ (nodeFresco s (given s 0 .s (.g 5)) (2 ^ 30 - 64)).isSome = true)
    ∧ (let s := setRtc ⟨0, 0⟩ { Rtc.start with run := some ⟨⟨7, who0, 0, rtcParZero, 5, 9, 0, 0, [], 0, 0, 0⟩, 100, 0, 0, none, 0, 0, 0, 0, 0, 0, 0, none, false, []⟩ } (at5 0 [])
      ReadyD s .always (.g 5) .s ∧ (pendingRtc s (given s 0 .s (.g 5)) 0).isSome = true)
    ∧ (let s := with5 (fun c => { c with recvs := [⟨0, 7, 9, glzParZero, [1, 2]⟩] }) (at5 2 [])
      ReadyD s .always (.g 5) .s ∧ (targetRecv (given s 489 .s (.g 5))).isSome = true ∧ s.past = []) :=
  by and_intros <;> decide +kernel
theorem witness_ParameterWrites : (let s := at5 7 [(52, scOf 0x19), (56, scOf 0x0F), (60, scOf 0x0F), (64, scOf 8)]
      ReadyD s .always (.g 5) .s ∧ (trigSc s (.g 5)).p = false ∧ portSc s 13 0 = ⟨0x19, false⟩ ∧ portSc s 14 0 = ⟨0x0F, false⟩ ∧ portSc s 15 0 = ⟨0x0F, false⟩
        ∧ portSc s 16 0 = ⟨8, false⟩ ∧ ((view s).flight.any fun f => f.dst == .special 0x13 && f.land == (view s).bclk + 1) = false)
    ∧ ReadyD (at5 3 []) .always (.g 5) .s := ⟨by decide +kernel, by decide +kernel⟩
theorem witness_EngineCommandsEnter : (∀ t ∈ [0, 1], let s := at5 t [(52, scOf 511)]
      ReadyD s .always (.g 5) .s ∧ (trigSc s (.g 5)) = ⟨BitVec.ofNat 64 t, false⟩ ∧ portSc s 13 0 = ⟨511, false⟩
        ∧ (getMex s ⟨0, 0, engMex (view s)⟩).queue.length < 4
        ∧ (getTok (view s) (((((view s).mexPar.getD (engMex (view s)) mexParZero)).getD 0x18 0).toNat % 8)).count < 15
        ∧ queueFull s (given s 0 .s (.g 5)) 0 (engCpy (view s)) 32 ((getCpy s ⟨0, engCpy (view s)⟩).queue.map (·.who)) = false
        ∧ queueFull s (given s 0 .s (.g 5)) 1 (engGlz (view s)) 16 ((getGlz s ⟨0, engGlz (view s)⟩).queue.map (·.who)) = false
        ∧ queueFull s (given s 0 .s (.g 5)) 2 (engRtc (view s)) 8 ((getRtc s ⟨0, engRtc (view s)⟩).queue.map (·.who)) = false)
    ∧ (let s := full4 (at5 1 []); ReadyD s .always (.g 5) .s ∧ 4 ≤ (getMex s ⟨0, 0, engMex (view s)⟩).queue.length) :=
  ⟨by decide +kernel, by decide +kernel⟩
theorem witness_BarrierInstructions : (∀ a ∈ [0, 0x2FFFF0], ∀ n ∈ [1, 2 ^ 40 - 1, 2 ^ 56 - 1], let s := at5 a [(68, scOf n)]
      ReadyD s .always (.g 5) .s ∧ (trigSc s (.g 5)).p = false ∧ a % 16 = 0 ∧ a + 16 ≤ 0x300000 ∧ portSc s 17 0 = ⟨BitVec.ofNat 64 n, false⟩
        ∧ (portSc s 17 2).p = false ∧ s.past = [])
    ∧ (∀ ph ∈ [0, 1], portSc (at5 0 [(68, scOf ph)]) 17 0 = ⟨if ph = 1 then 1 else 0, false⟩)
    ∧ ReadyD (at5 2 []) .always (.g 5) .s ∧ ReadyD (at5 255 []) .always (.g 5) .s :=
  by and_intros <;> decide +kernel
theorem witness_RegisterFrames : (own (at5 7 [])).snap = none ∧ (own (at5 7 [])).twait = 0 ∧ (at5 7 []).sel.await = 0
    ∧ goes (exec (.addAlu0 .always (.g 5)) (at5 7 [])) = true ∧ goes (exec (.viadd .always (.vo 0)) (at5 7 [])) = true
    ∧ goes (exec (.ldd .always (.g 5)) (at5 8 [])) = true ∧ goes (exec (.ldd .always (.g 5)) (at5 7 [])) = true
    ∧ goes (exec (.vgld .always (.g 5)) (pinned0 0x100 [])) = true :=
  by and_intros <;> decide +kernel
theorem witness_LocalStoreFrame : (own (at5 0x2FFFF8 [])).snap = none ∧ (at5 0x2FFFF8 []).sel.who.wf = true
    ∧ goes (exec (.std .always (.g 5)) (at5 0x2FFFF8 [])) = true ∧ goes (exec (.std .always (.g 5)) (at5 0x300000 [])) = true := by
  and_intros <;> decide +kernel
theorem witness_FlowFrame : (own (at5 1 [])).snap = none ∧ (own (at5 1 [])).twait = 0 ∧ (at5 1 []).sel.await = 0
    ∧ goes (exec (.jmp .always (.g 5)) (at5 1 [])) = true ∧ goes (exec (.mzero .always (.g 5)) (at5 1 [])) = true
    ∧ goes (exec (.mzero .always (.g 5)) (full4 (at5 1 []))) = true :=
  by and_intros <;> decide +kernel

/-! ### Steps of a core and its contexts -/

def core0 : CoreId := ⟨0, 0, 0⟩
def who1 : CtxId := ⟨0, 0, 0, 1⟩
/-- Two ready contexts whose bundles use different slots and units. -/
def pair0 (waits : List Nat) (lead : Option Nat) : State :=
  let s := code0 ([hdr0 0 0, addS] ++ List.replicate 10 0 ++ [hdr0 5 0, 0b000_0000000101_0_00010_00100#24]) 100 (at5 7 [])
  setCore core0 { getCore s core0 with waits := waits, lead := lead, done := 1000 } { s with ctxs := s.ctxs ++ [(who1, { ctx0 with pc := 112 })] }
/-- The ready contexts and the choice of a core cycle. -/
def chosen0 (s : State) : List Nat × Option Nat × Option Nat :=
  let s1 := beginStalls opOfField core0 (openCycle core0 { s with focus := none })
  (readyList opOfField core0 s1, choose opOfField core0 s1)
theorem witness_CoreCycles : core0.wf = true ∧ chosen0 State.reset = ([], none, none) ∧ chosen0 (pair0 [0, 0, 0, 0] none) = ([0, 1], some 0, some 1)
    ∧ chosen0 (pair0 [63, 64, 0, 0] none) = ([0, 1], some 1, some 0) ∧ chosen0 (pair0 [0, 0, 0, 0] (some 1)) = ([0, 1], some 1, some 0)
    ∧ someStarved core0 (pair0 [64, 0, 0, 0] none) = true :=
  by and_intros <;> decide +kernel
def flight0 : Flight := ⟨48, .main 3, .sc ⟨1234, false⟩, 0, 0, 46⟩
def land0 : Landing := ⟨50, 40, 0, .latch 4, true, .value (.sc ⟨7, false⟩) 0, 3, 0⟩
/-- Context 0 changed, at the bundle of one move. -/
def run0 (f : Ctx → Ctx) : State := code0 [hdr0 0 0, addS] 100 (with5 f (at5 7 []))
/-- Tables that map page 0 to LPDDR 0x500000 and page 1 to the scratchpad of cluster 0, and a record at 0x1000. -/
def tables0 : List Host.Cell :=
  [(0x100000, 1), (0x100002, 0x20), (0x200000, 1), (0x200002, 0x30), (0x300000, 1), (0x300002, 0x40),
   (0x400000, 7), (0x400001, 0x80), (0x400002, 0x50), (0x400008, 7), (0x400009, 0x80), (0x40000D, 0x20),
   (0x501000, 1), (0x50100A, 1), (0x501012, 1)]
def part0 : Part := { Part.empty with clusters := [(⟨0, 0⟩, false)], regions := [⟨0, 0x500000, 0x10000, false, 0⟩], roots := [(false, 0x100000)] }
/-- A package with these tables, partition 0, one node and its clusters and islands awake. -/
def pkg0 (d : Node) : State := { State.reset with
  cycle := 3000000000
  mem := tables0
  nodes := [d]
  parts := [(0, part0)]
  clusters := [(⟨0, 0⟩, { Cluster.start with part := some 0 })]
  dies := { Die.start with started := true, scanned := true } :: List.replicate 7 .start
  islands := { Island.start with gated := false, run := 1800 * 2000000000 } :: List.replicate 63 .start }
def ctxN : Ctx := { ctx0 with node := some 0 }
/-- The node holds its cluster and runs context 0. -/
def heldPkg (d : Node) (c : Ctx) : State := { pkg0 d with
  ctxs := [(who0, c)], clusters := [(⟨0, 0⟩, { Cluster.start with part := some 0, node := some 0 })] }
/-- Whether a context may go on, waits, is stalled, or traps. -/
def verdict0 (s : State) : Nat := match verdictOf who0 s with | .go => 0 | .wait => 1 | .stall _ => 2 | .trap _ _ => 3
theorem witness_LandingEvents : who0.wf = true
    ∧ bufLine (run0 id) core0 70 = none ∧ bufLine (run0 id) core0 (2 ^ 14 - 1) = none
    ∧ (let s := run0 fun c => { c with flight := [flight0, { flight0 with land := 51 }] }
      fixedDue (getCtx s who0) ≠ [] ∧ timedDue (getCtx s who0) = [] ∧ commits who0 s = true)
    ∧ (let s := run0 fun c => { c with landing := [{ land0 with land := 60, arrived := false }] }
      (findLanding (getCtx s who0) 3).any (fun l => !isWalk l.data) = true)
    ∧ (let s := run0 fun c => { c with landing := [land0, { land0 with land := 51 }] }
      timedDue (getCtx s who0) = [land0] ∧ commits who0 s = true)
    ∧ (let s := run0 fun c => { c with landing := [{ land0 with data := .walkFault 77 0x31 }] }
      timedDue (getCtx s who0) ≠ [] ∧ verdict0 s = 3 ∧ (match verdictOf who0 s with
        | .trap t _ => (outerTrap (getCtx s who0)).map (·.1) == some t | _ => false) = true)
    ∧ (∀ va ∈ [0, 0xFFFF, 0x10000, 0x20000], let s := heldPkg (node0 .running) { ctxN with landing := [{ land0 with land := 60, arrived := false, data := .walk va }] }
      (findLanding (getCtx s who0) 3).map (·.data) = some (.walk va) ∧ walkWaits s (partOf s who0) va = false
        ∧ walk s (partOf s who0) (worldOf s who0) (nodeOf s who0) va
          = if va < 0x10000 then .leaf 0x508007 0 else if va < 0x20000 then .leaf 0x200000008007 0 else .fault 0x41)
    ∧ ((getCtx (run0 fun c => { c with pins := [{ pin0 with last := 49 }, { pin0 with last := 50 }] }) who0).pins.any fun p => decide (p.last < 50)) = true :=
  by and_intros <;> decide +kernel
theorem witness_WakeEvents : (let s := run0 fun c => { c with nap := .till 999 }; (getCtx s who0).nap = .till 999 ∧ 999 < clk s who0.clId ∧ (getCtx s who0).stopped = false)
    ∧ (∀ wk ∈ [Wake.byStore, .byFlip 3], let s := run0 fun c => { c with run := .bwait 0x200000000000 false 0 2 wk }
      (getCtx s who0).run = .bwait 0x200000000000 false 0 2 wk ∧ (getCtx s who0).stopped = false)
    ∧ (∀ k ∈ [0, 1, 2], let s := run0 fun c => { c with run := .fence k }
      (getCtx s who0).run = .fence k ∧ s.pours = [] ∧ (∀ l ∈ allLandings (getCtx s who0), l.arrived = true) ∧ storesWait who0 s = false ∧ hasCommands (fun w => w == who0) s = false
        ∧ ∀ y ∈ (getCtx s who0).tokens, y.count = 0)
    ∧ (let s := run0 fun c => { c with run := .replay 31 900, v := c.v.set 31 { getV c 31 with st := .dropped, bound := some 3 } }
      (getCtx s who0).run = .replay 31 900 ∧ 900 + replayCycles (seen (getCtx s who0)) 31 ≤ clk s who0.clId ∧ (match fetchBundle opOfField s who0 with | .got _ => true | _ => false) = true)
    ∧ (let p : Pour := ⟨who0, [⟨0, 0⟩, ⟨7, 31⟩], 0x2FFFFC, [1, 2, 3, 4], 999⟩
      let s := { at5 7 [] with pours := [p] }
      s.pours = [p] ∧ p.due < clk (runClocks s) p.who.clId ∧ s.cancels = [] ∧ s.mex = [] ∧ Memory.wf s.mem = true ∧ p.off + p.data.length ≤ 0x300000 ∧ (⟨7, 31⟩ : ClId).wf = true)
    ∧ (let k : SysCall := ⟨who0, 0, 7, 0x3FF0, 3⟩
      let s := setDie 0 { Die.start with calls := [k] } (at5 7 [])
      Config.hasDie 0 = true ∧ (getDie s 0).calls = [k] ∧ Memory.wf (getCtx s k.who).spill = true) :=
  by and_intros <;> decide +kernel
theorem witness_TrapEntry : (getCtx (at5 7 []) who0).snap = none
    ∧ (let s := heldPkg (node0 .running) (snap0 ctxN)
      (getCtx s who0).snap.isSome = true ∧ (getCtx s who0).node = some 0 ∧ getNode s 0 = some (node0 .running) ∧ (node0 .running).st = .running
        ∧ (node0 .running).saved = none ∧ s.mex = [] ∧ s.cpy = [] ∧ s.glz = [] ∧ s.rtc = []) := ⟨by decide +kernel, by decide +kernel⟩

/-! ### Engines at work -/

def setP (i v : Nat) (p : List Dword) : List Dword := p.set i (BitVec.ofNat 64 v)
def mexE : EngId := ⟨0, 0, 0⟩
def die0 : DieEng := ⟨0, 0⟩
def mexC (kind : MexKind) (ctl row : Nat) (par : List Dword) : MexCmd := ⟨7, kind, who0, ctl, row, par, 5, 9, 0⟩
def mexR (c : MexCmd) (start done : Nat) (pl : Plane) : MexRun := ⟨c, start, done, 0, 0, false, pl, []⟩
/-- The node runs, and matrix engine 0 holds commands or runs. -/
def withMex (m : Mex) : State := { heldPkg (node0 .running) ctxN with mex := [(mexE, m)] }
def plane0 : Plane := ⟨true, false, 4, 6, [(0, 5), (3, 9)], 0, 0⟩
def strP : List Dword := setP 5 1 (setP 6 6 (setP 0x0A 0x10000 mexParZero))
def drnP : List Dword := setP 0x12 0x20003 (setP 0x0D 0xF08 (setP 0x0B 0x2FFC00 mexParZero))
theorem witness_MatrixEvents : (∀ c ∈ [mexC .mzero 2 510 mexParZero, mexC .mstr 1 0 strP, mexC .mdrn 0 0 drnP, mexC .mzero 2 510 (setP 0x19 1 mexParZero)],
      let m := { Mex.start with queue := [c, c], sh := plane0, intRows := [3, 4] }
      let s := withMex m
      c.entered + 2 ≤ clk s mexE.clId ∧ clk s mexE.clId = 2000000000 ∧ mayStart s c.who = true ∧ pipeBusy (clk s mexE.clId) m c.kind.pipe = false ∧ hazardFree m c = true
        ∧ (commonCheck c).isSome = (c.kind == .mzero && c.par.getD 0x19 0 == 1)
        ∧ (c.kind = .mdrn → mdrnCheck m c = none) ∧ (c.kind = .mstr → mstrCheck { m with act := m.sh, sh := m.act } c = none))
    ∧ (let c := mexC .mldw 4 0 (setP 1 6 mexParZero)
      let s := { withMex { Mex.start with queue := [c] } with parts := [(0, { part0 with fmap := [((false, 4), 0x50001)] })] }
      commonCheck c = none ∧ mldwCheck c = none ∧ (mldwSlots s mexE c).toOption.isSome = true)
    ∧ (∀ w ∈ [(6, ([] : List Host.Cell)), (9, [(8192, 16)])], let r := mexR (mexC .mldw 4 0 (setP 1 w.1 mexParZero)) 5 8 { plane0 with fmt := w.1, image := w.2 }
      runOf (withMex { Mex.start with runs := [r] }) mexE .mldw (fun r => decide (tileBytes (param r.cmd.par 1) ≤ 2048 * r.done)
        && decide (r.start + mexBusy r.cmd ≤ 2000000000)) = some r ∧ (badSidecar r.plane).isSome = (w.1 == 9) ∧ r.plane.poisoned = false)
    ∧ (let r := mexR (mexC .mstr 1 0 (setP 7 0 (setP 0x0A 0 strP))) 5 0 plane0
      runOf (withMex { Mex.start with runs := [r] }) mexE .mstr (fun r => decide (r.done < mexRows r.cmd)
        && decide (r.start + r.done * (if mexAfmt r.cmd.par = 2 then 2 else 1) + 12 ≤ 2000000000)) = some r
        ∧ mexAfmt r.cmd.par ≠ 9 ∧ bits (param r.cmd.par 7) 21 0 = 0 ∧ bit (param r.cmd.par 0x0A) 17 = false)
    ∧ (let r := mexR (mexC .mstr 1 0 strP) 5 1 plane0
      runOf (withMex { Mex.start with runs := [r] }) mexE .mstr (fun r => r.done == mexRows r.cmd && decide (r.start + mexBusy r.cmd + 12 ≤ 2000000000)) = some r)
    ∧ (let r := mexR (mexC .mzero 2 510 mexParZero) 5 0 .none
      runOf (withMex { Mex.start with runs := [r] }) mexE .mzero (fun r => decide (r.start + mexBusy r.cmd + 2 ≤ 2000000000)) = some r
        ∧ r.cmd.row + r.cmd.ctl ≤ 512)
    ∧ (let r := mexR (mexC .mdrn 1 0 drnP) 5 1 .none
      runOf (withMex { Mex.start with runs := [r] }) mexE .mdrn (fun r => decide (r.done < mexRows r.cmd) && decide (r.start + r.done ≤ 2000000000)) = some r
        ∧ mexPacks r.cmd.par = false ∧ mexDfmt r.cmd.par = 8 ∧ mexFirst r.cmd + r.done < 512
        ∧ bits (param r.cmd.par 0x0B) 21 0 + r.done * mexDstride r.cmd.par + 512 ≤ 0x300000)
    ∧ (let r := mexR (mexC .mdrn 1 0 drnP) 5 2 .none
      runOf (withMex { Mex.start with runs := [r] }) mexE .mdrn (fun r => r.done == mexRows r.cmd && decide (r.start + mexBusy r.cmd + 10 ≤ 2000000000)) = some r) :=
  by and_intros <;> decide +kernel

/-- 64 bytes from local 0x1000 to local 0x2000. -/
def cpyP : List Dword := setP 0 0x1000 (setP 1 0x2000 (setP 3 64 cpyParZero))
def cpyC (par : List Dword) : CpyCmd := ⟨7, who0, 0, par, 5, 9, 0, 0, 0⟩
def cpyR (par : List Dword) : CpyRun := ⟨cpyC par, none, none, 0, 0, none, 0, 0, false, 0, 0⟩
def withCpy (m : Cpy) : State := { heldPkg (node0 .running) ctxN with cpy := [(die0, m)] }
/-- The code and detail of an error, none of a success. -/
def errOf {α : Type} (r : Except (Nat × Nat) α) : Option (Nat × Nat) := match r with | .error k => some k | .ok _ => none
theorem witness_CopyEvents : (∀ n ∈ [64, 0], let c := cpyC (setP 3 n cpyP)
      let s := withCpy { Cpy.start with queue := [c] }
      (getCpy s die0).queue.find? (fun c => mayStart s c.who) = some c ∧ c.entered + 2 ≤ nominal s ∧ (getCpy s die0).runs.length < 4
        ∧ rangeWaits s c.who (param c.par 0x0E, 16) = false
        ∧ errOf (cpyCheck s c) = if n = 0 then some (3, 3) else none)
    ∧ (∀ src ∈ [0x1000, 2 ^ 63 + 0x20000], let r := cpyR (setP 0 src cpyP)
      let s := withCpy { Cpy.start with runs := [r] }
      findCpy s die0 7 = some r ∧ r.chunk < cpyChunks r.cmd.par ∧ savesNode s r.cmd.who = false
        ∧ ((chunkSources r.cmd (param r.cmd.par 0) r.chunk ++ chunkSources r.cmd (param r.cmd.par 2) r.chunk).any (rangeWaits s r.cmd.who)) = false
        ∧ (match fetchOnce r.cmd (param r.cmd.par 0) r.chunk s with
          | .ok (d, _, 0, _) => if (chunkOut r.cmd.par d).isSome then 0 else 99
          | .ok _ => 98
          | .error k => k) = if src = 0x1000 then 0 else 4)
    ∧ (let ch : Chunk := ⟨List.replicate 64 3, []⟩
      let r := { cpyR cpyP with fetched := some ch }
      let s := withCpy { Cpy.start with runs := [r] }
      findCpy s die0 7 = some r ∧ r.port = none ∧ cpyReduce r.cmd.par = false
        ∧ ((chunkDests r.cmd r.chunk ch.bytes.length).any fun x => rangeWaits s r.cmd.who x) = false
        ∧ (match resolveAll s r.cmd.who pteWrite (chunkDests r.cmd r.chunk ch.bytes.length) with | .ok bs => bs.all fun b => !physHost b.pa | _ => false) = true)
    ∧ (∀ r ∈ [{ cpyR cpyP with err := 4 }, { cpyR cpyP with chunk := 1 }, { cpyR cpyP with cancelling := true }],
      findCpy (withCpy { Cpy.start with runs := [r] }) die0 7 = some r ∧ r.fetched = none
        ∧ (r.err = 0 → (r.chunk = cpyChunks r.cmd.par ∧ r.cancelling = false) ∨ r.cancelling = true)) :=
  by and_intros <;> decide +kernel

/-- One block of a group of one member, engine 0 of die 0 of this package. -/
def glzP : List Dword :=
  setP 0 1 (setP 1 5 (setP 3 1 (setP 4 1 (setP 5 0x1000 (setP 6 1 (setP 7 1 (setP 8 0x4000 (setP 9 1 (setP 0x0A 0x8000 glzParZero)))))))))
def glzC (par : List Dword) : GlzCmd := ⟨7, .red, who0, par, 5, 9, [], 0⟩
def withGlz (m : Glz) (cs : List Coll) : State := { heldPkg (node0 .running) ctxN with
  glz := [(die0, m)], colls := cs, parts := [(0, { part0 with groups := [(1, [0xFFFF0000])] })] }
def glzR (par : List Dword) (matched : Bool) (blocks : List GlzBlock) : GlzRun := ⟨glzC par, 100, matched, [], blocks, 0, 0, false, false, [], false⟩
def coll0 (matched : Bool) (sent : List (Nat × Nat)) : Coll := ⟨0, 1, 5, [(0, 9)], matched, [0], if matched then 24 else 0, [], sent, []⟩
def blk0 (n f : Nat) : GlzBlock := ⟨[n], f, false, false⟩
def runGlz (r : GlzRun) (c : Coll) : State := withGlz { Glz.start with runs := [r] } [c]
/-- A run that has taken a plane of a block whose sums lie in the one sector of a secure region, under a mark. -/
def area0 (mk : Mark) : State :=
  { runGlz (glzR glzP true [blk0 1 0]) (coll0 true [(0, 2)]) with
    marks := [(0x500000, mk)], parts := [(0, { part0 with groups := [(1, [0xFFFF0000])], regions := [⟨0, 0x500000, 64, true, 0⟩] })] }
theorem area_failure (mk : Mark) : areaFailure (area0 mk) (glzR glzP true [blk0 1 0]) (coll0 true [(0, 2)]) 0 (blk0 1 0)
    = some (if mk = .integrity ∨ mk = .held then 0x0B else 7) := by
  have h : areaSector (area0 mk) 0 9 0 = some 0x500000 := by simp [areaSector, area0, getPart, assoc, Nat.mod_one]
  have u : markUnit 0x500000 = 0x500000 := by decide
  have m : markOf (area0 mk) 0x500000 = some mk := by simp [markOf, area0, assoc, u]
  have hs : areaSector (area0 mk) (coll0 true [(0, 2)]).part (glzR glzP true [blk0 1 0]).cmd.seq 0 = some 0x500000 := h
  have hp : ((blk0 1 0).planes.all (· = 0)) = false := by decide
  cases mk <;> simp [areaFailure, hp, hs, m]
theorem witness_GlazeEvents : (∀ n ∈ [1, 0], let c := glzC (setP 7 n glzP)
      let s := withGlz { Glz.start with queue := [c] } []
      (getGlz s die0).queue.find? (fun c => mayStart s c.who) = some c ∧ c.entered + 2 ≤ nominal s ∧ (getGlz s die0).runs = [] ∧ (errOf (glzCheck s die0 c)).isSome = (n == 0))
    ∧ (let s := runGlz (glzR glzP false []) (coll0 false [])
      collFull s (coll0 false []) = true ∧ (collRuns s (coll0 false [])).any (fun y => y.2.aborted) = false ∧ (collRuns s (coll0 false [])).length = 1
        ∧ (collMembers s (coll0 false [])).all memberHere = true ∧ collAgrees s (coll0 false []) = true)
    ∧ (let r2 : GlzRun := ⟨⟨8, .recv, who0, setP 2 1 (setP 7 2 glzP), 5, 10, [], 0⟩, 100, false, [], [], 0, 0, false, false, [], false⟩
      let c : Coll := ⟨0, 1, 5, [(0, 9), (1, 10)], false, [], 0, [], [], []⟩
      let s := { runGlz (glzR glzP false []) c with
        glz := [(die0, { Glz.start with runs := [glzR glzP false []] }), (⟨0, 1⟩, { Glz.start with runs := [r2] })]
        parts := [(0, { part0 with groups := [(1, [0xFFFF0000, 0xFFFF0001])] })] }
      collFull s c = true ∧ (collRuns s c).length = 2 ∧ collAgrees s c = false)
    ∧ (let r := glzR (setP 0x0E 50 glzP) false []
      findGlz (runGlz r (coll0 false [])) die0 7 = some r ∧ collOf (runGlz r (coll0 false [])) 9 = some (coll0 false []) ∧ bits (param r.cmd.par 0x0E) 31 0 = 50
        ∧ r.start + 50 ≤ nominal (runGlz r (coll0 false [])))
    ∧ (let r := glzR glzP true [blk0 0 0]
      let s := runGlz r (coll0 true [(0, 1)])
      findGlz s die0 7 = some r ∧ collOf s 9 = some (coll0 true [(0, 1)]) ∧ sentOf (coll0 true [(0, 1)]) (glzSelf glzP) < 24 ∧ savesNode s who0 = false ∧ r.ports = [] ∧ r.paused = false
        ∧ areaFailure s r (coll0 true [(0, 1)]) 0 (blk0 0 0) = none
        ∧ 0 ∈ blockCons r.cmd (coll0 true [(0, 1)]) 0 ∧ (blk0 0 0).planes.getD 0 0 < sentOf (coll0 true [(0, 1)]) ((coll0 true [(0, 1)]).cons.getD 0 0))
    ∧ (∀ mk ∈ [Mark.media, .integrity, .held, .poison], let r := glzR glzP true [blk0 1 0]
      let s := area0 mk
      findGlz s die0 7 = some r ∧ collOf s 9 = some (coll0 true [(0, 2)]) ∧ savesNode s who0 = false ∧ 0 ∈ blockCons r.cmd (coll0 true [(0, 2)]) 0
        ∧ (blk0 1 0).planes.getD 0 0 < sentOf (coll0 true [(0, 2)]) ((coll0 true [(0, 2)]).cons.getD 0 0))
    ∧ (∀ r ∈ [{ glzR glzP true [blk0 0 0] with cancelling := [0] }, { glzR glzP true [blk0 0 0] with aborted := true, err := 0x0F }, glzR glzP true [blk0 24 0x80]],
      let s := runGlz r (coll0 true [(0, 24)])
      findGlz s die0 7 = some r ∧ (collOf s 9).isSome = true
        ∧ (r.aborted = false → r.cancelling = [] → (r.blocks.all fun b => b.flag != 0) = true ∧ sentAll s (coll0 true [(0, 24)]) r.cmd = true)) :=
  by and_intros <;> decide +kernel

/-- Two rows of tile 4 from row 3, from local 0x1000. -/
def rtcP : List Dword := setP 0 4 (setP 1 3 (setP 2 2 (setP 3 0x1000 rtcParZero)))
def rtcC (par : List Dword) : RtcCmd := ⟨7, who0, 0, par, 5, 9, 0, 0, [], 0, 0, 0⟩
def rtcR : RtcRun := ⟨rtcC rtcP, 100, 0x14000, 3, none, 0, 0, 0, 0, 0, 0, 0, none, false, []⟩
def rowR (start : Nat) : RowRun := ⟨0x14000 / 64 + 3, start, List.replicate 64 7, .own (0x14000 / 64 + 3), false, 0, 0, []⟩
def withRtc (m : Rtc) : State := { heldPkg (node0 .running) ctxN with
  rtc := [(die0, m)], parts := [(0, { part0 with fmap := [((false, 4), 0x10005)] })] }
theorem witness_RetouchEvents : (∀ v ∈ [4, 5], let c := rtcC (setP 0 v rtcP)
      let s := withRtc { Rtc.start with queue := [c] }
      (getRtc s die0).run = none ∧ (getRtc s die0).queue.find? (fun c => mayStart s c.who) = some c ∧ (getRtc s die0).nextStart ≤ nominal s ∧ c.entered + 2 ≤ nominal s
        ∧ (errOf (rtcCheck s die0 c)).isSome = (v == 5))
    ∧ (let s := withRtc { Rtc.start with run := some rtcR }
      (getRtc s die0).run = some rtcR ∧ mayStart s who0 = true ∧ rowHeld s die0 (0x14000 / 64 + 3) = false ∧ rtcFmt rtcR.cmd = 0 ∧ s.past = []
        ∧ badBytes s (physSpad ⟨0, 0⟩ (rtcSrc rtcR.cmd)) 64 = false ∧ wearOf s (servingRow s (0x14000 / 64 + 3)) < (getDie s 0).wearLimit)
    ∧ (∀ st ∈ [1999999735, 1999999736], let r := { rtcR with cur := some (rowR st) }
      let s := withRtc { Rtc.start with run := some r }
      (getRtc s die0).run = some r ∧ (rowR st).src.length = 64 ∧ Memory.wf s.fresco = true ∧ (rowR st).start + 8 + 256 * iterations r (rowR st) ≤ nominal s
        ∧ (st = 1999999735 → (rowR st).start + 8 + 256 * iterations r (rowR st) < nominal s) ∧ (rowR st).iter + 1 < rtcLimit r.cmd)
    ∧ (let r := { rtcR with finish := some 2000000000, next := 2 }
      let s := withRtc { Rtc.start with run := some r }
      (getRtc s die0).run = some r ∧ r.finish = some (nominal s))
    ∧ (∀ spare ∈ [true, false], let u := { rowR 0 with tookSpare := spare, iter := 255 }
      let r := { rtcR with cur := some u }
      let s := withRtc { Rtc.start with run := some r }
      (getRtc s die0).run = some r ∧ u.start + 8 + 256 * iterations r u ≤ nominal s ∧ rtcLimit r.cmd ≤ u.iter + 1 ∧ (freeSpare s (bankOf u.row)).isSome = true)
    ∧ Config.hasDie 7 = true ∧ 7 < (withRtc .start).dies.length :=
  by and_intros <;> decide +kernel

/-! ### Nodes, partitions, faults, links, sessions -/

def idle0 (st : NodeSt) : Node := { node0 st with clusters := [] }
/-- A ready node of priority 5 beside a running one. -/
def urgent0 : Node := { idle0 .ready with record := [1, 0x10000 + 5 * 2 ^ 32, 0x10000, 0, 0, 0, 0], idx := 1 }
theorem witness_NodeEvents : (let s := pkg0 (idle0 .armed)
      getNode s 0 = some (idle0 .armed) ∧ (inputWord s (idle0 .armed)).map (phaseAt s) = some (idle0 .armed).expected)
    ∧ (let s := pkg0 (idle0 .ready)
      actable s 0 (idle0 .ready) = true ∧ isNext s 0 (idle0 .ready) = true ∧ decideNode s 0 (idle0 .ready) = some (.place [⟨0, 0⟩] false))
    ∧ (let s := { heldPkg (node0 .running) ctxN with nodes := [node0 .running, urgent0] }
      actable s 1 urgent0 = true ∧ isNext s 1 urgent0 = true ∧ decideNode s 1 urgent0 = some (.stopFor [0] []))
    ∧ (let s := heldPkg (node0 .placed) ctxN
      (node0 .placed).saved = none ∧ (node0 .placed).clusters.all (clusterAwake s) = true ∧ s.viral = false ∧ nodeImage s (node0 .placed) = none)
    ∧ (let s := heldPkg (node0 .running) { ctxN with run := .retired }
      (node0 .running).stop = .no ∧ allRetired s 0 = true ∧ hasCommands (nodeCtx s 0) s = false ∧ s.viral = false)
    ∧ (∀ d ∈ [{ node0 .running with stop := .exit }, node0 .killed], hasCommands (nodeCtx (heldPkg d ctxN) 0) (heldPkg d ctxN) = false)
    ∧ (let s := { pkg0 (idle0 .dormant) with nodes := [{ idle0 .dormant with graph := 0x4000 }] }
      (assoc 0 s.parts).isSome = true ∧ 0x1000 % 64 = 0 ∧ (allRecords s 0 0x1000 1).isSome = true ∧ ∀ q ∈ s.nodes, q.part ≠ 0 ∨ q.graph ≠ 0x1000)
    ∧ (∀ st ∈ [NodeSt.armed, .ready, .failed], let s := pkg0 (idle0 st)
      getNode s 0 = some (idle0 st) ∧ ∀ q ∈ s.nodes, q.saved = none ∧ (q.st = .armed ∨ q.st = .ready ∨ q.st = .failed)) :=
  by and_intros <;> decide +kernel
def save0 : Saved := ⟨[⟨0, 0⟩], [0], [], [(⟨9, 0, 0, 0⟩, { ctxN with pc := 77 })], [], [], [], [], [], false, 0⟩
/-- Ready with that image, or with one in LPDDR that is too short to open. -/
def kept0 (st : NodeSt) : Node := { idle0 st with saved := some save0 }
def spoilt0 (d : Node) : Node := { d with saved := some { save0 with sealed := [(0, [1])] } }
def placed0 : Node := { node0 .placed with saved := some save0 }
/-- The image named by the node's record, and the header of the saved image at a revision. -/
def backPkg (d : Node) (rev : Byte) (ims : List Image) : State :=
  { heldPkg d ctxN with mem := [(imageAt save0 0 + 0x427000, rev)], parts := [(0, { part0 with images := ims })] }
/-- 0 for images that open, 1 for another revision, 2 for a tag that fails. -/
def opening (r : Except Bool State) : Nat := match r with | .ok _ => 0 | .error false => 1 | .error true => 2
theorem witness_SaveEvents : (let d := { node0 .running with stop := .preempt }
      let s := heldPkg d ctxN
      getNode s 0 = some d ∧ d.saved = none ∧ quiesced s 0 = true)
    ∧ (let d := { node0 .running with stop := .preempt, saved := some save0 }
      getNode (heldPkg d ctxN) 0 = some d ∧ d.st = .running ∧ (getCl (heldPkg d ctxN) ⟨0, 0⟩).node = some 0 ∧ d.clusters = [⟨0, 0⟩])
    ∧ (∀ ims ∈ [[], [(⟨1, [], [], []⟩ : Image)]], ∀ rev ∈ [1, 2], let s := backPkg placed0 rev ims
      getNode s 0 = some placed0 ∧ placed0.clusters.all (clusterAwake s) = true ∧ s.viral = false ∧ save0.handoffOnly = false
        ∧ ((getPart s 0).images.find? fun i => i.id == recField placed0 0 31 0).isSome = !ims.isEmpty
        ∧ opening (openSaved 0 placed0 (reclaim 0 save0 s)) = if rev = 1 then 0 else 1)
    ∧ (let d := spoilt0 placed0; opening (openSaved 0 d (reclaim 0 { save0 with sealed := [(0, [1])] } (backPkg d 1 []))) = 2)
    ∧ (∀ k ∈ [none, some 0], ∀ a ∈ [0, 0x2FFFFE, 0x3FFFFE], let d := kept0 .ready
      let s := setCl ⟨0, 0⟩ { Cluster.start with part := some 0, keeps := k } (pkg0 d)
      getNode s 0 = some d ∧ savedFits s save0 (.plain .other (.write a [1, 2])) = true ∧ savedFits s save0 (.plain (.host 1) (.read a 2)) = true ∧ 1 < s.hosts.length ∧ assoc (a / 0x400000) save0.sealed = none ∧ (getCl s ⟨0, 0⟩).keeps = k
        ∧ Memory.wf s.mem = true)
    ∧ (openImage 0 0 (pkg0 (spoilt0 (idle0 .ready)))).isNone = true
    ∧ (let s := heldPkg (node0 .running) ctxN; getNode s 0 = some (node0 .running) ∧ (node0 .running).part = 0 ∧ (node0 .running).stop = .no)
    ∧ (let x := { Island.start with gated := true, waking := true }
      let s := { State.reset with islands := List.replicate 63 { Island.start with gated := false } ++ [x], cycle := 1800000 }
      Config.hasIsland 7 7 = true ∧ getIsland s 7 7 = x ∧ (getIsland s 0 0).gated = false
        ∧ ∀ c ∈ islandClusters 0 0, (getCl s c).node = none ∧ (getCl s c).heldFor = none ∧ (getCl s c).freeSince + 1800000 ≤ s.cycle) :=
  by and_intros <;> decide +kernel
def sess0 : Session := ⟨0, [7], 1, 100, 0, 0, 0, 0, none⟩
/-- Partition 0 with a session and no node. -/
def pkgS : State := { pkg0 (idle0 .armed) with sessions := [(0, sess0)], nodes := [], hosts := List.replicate 2 { HostPort.start with up := true } }
def shoot0 : Shoot := ⟨0, false, 0, 0x10000, [], 1000, 9, []⟩
/-- What a shootdown of one entry leads to. -/
def shot0 (s : State) (a : Nat) (v : Dword) : State := beginShoot 0 false 0 0x30000 [(a, v)] s (writeEntries 0 false 0 0x30000 [(a, v)] s)
theorem witness_TranslationEvents : (partExists pkgS 0 = true ∧ isLpddr 0x600008 = true ∧ physOk 0x600008 = true ∧ meetsRegion pkgS 0x600008 8 = false
      ∧ [(0 : Dword), 0x508007, 0x700001].all (fun v => remapOk pkgS (shot0 pkgS 0x600008 v)) = true ∧ Memory.wf pkgS.mem = true ∧ sessionOk pkgS 0 = true)
    ∧ (let s := { pkgS with shoots := [{ shoot0 with old := [⟨0, false, 0x50000, 0x500000, 0x10000⟩] }] }
      meetsRegion s 0x400010 8 = false ∧ remapOk s (shot0 s 0x400010 0x508007) = false)
    ∧ (let s := { pkgS with shoots := [shoot0] }
      shootHolders s shoot0 = [] ∧ s.shoots[0]? = some shoot0)
    ∧ (let s := { heldPkg (node0 .running) { ctxN with pins := [pin0] } with shoots := [shoot0] }
      shootHolders s shoot0 = [who0] ∧ shoot0.began + 180000 ≤ s.cycle ∧ nodeOf s who0 = some 0)
    ∧ (let s := { pkgS with parts := [(0, { part0 with fresco := [(1, 2, false)] })] }
      partExists s 0 = true ∧ frescoOwned (getPart s 0) false (bits (0x20005 : Dword).toNat 39 16) = true)
    ∧ (let s := { pkgS with sessions := [(1, sess0)] }
      sessionOk s 1 = true ∧ partExists s 1 = false)
    ∧ (∀ root ∈ [0x600000, 0x500000], isLpddr root = true ∧ root % 0x100000 = 0 ∧ physOk root = true ∧ remapOk pkgS (newRoot 0 false root pkgS) = (root == 0x600000))
    ∧ ((getPart pkgS 0).clusters.any (fun x => x.1 == (⟨0, 0⟩ : ClId)) = true ∧ clusterIdle pkgS ⟨0, 0⟩ = true ∧ (getCl pkgS ⟨0, 0⟩).resident = 0)
    ∧ (assoc 0 pkgS.sessions = some sess0 ∧ sess0.port < pkgS.hosts.length)
    ∧ (let s := { pkgS with parts := [(0, { part0 with images := [⟨1, [], [], []⟩] })] }
      (getPart s 0).images.any (fun i => i.id == 1) = true)
    ∧ (let r : Retire := ⟨0x500000, [], 1000⟩
      let s := { pkgS with retires := [r], parts := [(0, { part0 with regions := [⟨0, 0x500000, 0x20000, false, 0⟩] })] }
      s.retires[0]? = some r ∧ isLpddr 0x510000 = true ∧ sameRegion s r.frame 0x510000 = true ∧ 0x510000 ∉ s.retiredFrames ∧ mappingsOf s 0x510000 = []
        ∧ rangeHeld s 0x510000 0x10000 = false ∧ retireHolders s r = []) :=
  by and_intros <;> decide +kernel
def keyF : List Byte := List.replicate 32 0
def port0 : Port := { Port.start with
  st := .up, rx := 5, rxKey := keyF, replay := [(0, []), (1, [])], resend := [(0, []), (1, [])], sinceKey := 2 ^ 32 }
def linked (p : Port) : State := { pkgS with ports := List.replicate 17 .start ++ [p] }
theorem witness_FaultEvents : (let s := { heldPkg (node0 .running) ctxN with
        dirty := [(0x500040, .host, [], none), (0x500080, .node 0 0 0 0 0, [], none)], marks := [(0x500100, .integrity)], overlay := [((0, 0x500200), 3)] }
      (∀ a ∈ [0x500000, 0x50003F], isLpddr a = true ∧ physOk a = true ∧ assoc (a / 64 * 64) s.dirty = none ∧ markOf s (a / 64 * 64) = none)
        ∧ markOf s (0x500101 / 64 * 64) = some .integrity ∧ assoc (0x500101 / 64 * 64) s.dirty = none
        ∧ assoc (0x500047 / 64 * 64) s.dirty = some (.host, [], none) ∧ assoc (0x500090 / 64 * 64) s.dirty = some (.node 0 0 0 0 0, [], none)
        ∧ killable s 0 = true ∧ killable s 1 = false ∧ ((0, 0x500200), 3) ∈ s.overlay ∧ 0x500200 / 64 * 64 = 0x50023F / 64 * 64 ∧ nodeOf s who0 = some 0)
    ∧ (∀ a ∈ [physSpad ⟨0, 0⟩ 0, physSpad ⟨7, 31⟩ 0x2FFFFF], isSpad a = true ∧ physOk a = true)
    ∧ (let d := { node0 .running with record := [1, 0x10000 + 2 ^ 41, 0x10000, 0, 0, 0, 0] }
      lockstepNode (heldPkg d ctxN) who0.coreId = some 0 ∧ killable (heldPkg d ctxN) 0 = true)
    ∧ (let s := setDie 7 { Die.start with corrected := [(3, 7)] } (pkg0 (node0 .running))
      Config.hasDie 7 = true ∧ 7 < s.dies.length ∧ (assoc 3 (getDie s 7).corrected).getD 0 = 7 ∧ (getDie s 7).ring = [] ∧ s.viral = false ∧ 5 ∉ s.frescoBad)
    ∧ (linked port0).viral = false ∧ 17 < (linked port0).ports.length ∧ (getPort18 (linked port0) 17).st = .up :=
  by and_intros <;> decide +kernel
/-- An install image of one record in the partition's LPDDR: version 1, one tile, die 0, a record of tile format `f`. -/
def pkgF (f : Byte) (marks : List (Nat × Mark)) : State := { pkgS with
  mem := [(0x500000, 1), (0x500006, 1), (0x500634, f)], marks := marks, parts := [(0, { part0 with fresco := [(1, 2, false)] })] }
theorem witness_StartUpEvents : (let s := setDie 3 { Die.start with started := true } State.reset
      Config.hasDie 3 = true ∧ (getDie s 3).started = true ∧ (getDie s 3).scanned = false ∧ 3 < s.dies.length ∧ ∀ r ∈ [3 * 2 ^ 29, 4 * 2 ^ 29 - 1], r / 2 ^ 29 = 3)
    ∧ partExists (pkgF 1 []) 0 = true ∧ sessionOk (pkgF 1 []) 0 = true ∧ installPlace (pkgF 1 []) 0 0x500000 (installBytes 1) = true
    ∧ installOk (pkgF 1 []) 0 false (memBytes (pkgF 1 []) 0x500000 (installBytes 1)) [1] = true
    ∧ sectorsFail (pkgF 1 []) 0x500000 0x630 = false ∧ sectorsFail (pkgF 1 [(0x500040, .media)]) 0x500000 0x630 = true
    ∧ (installTiles 0x500000 (memBytes (pkgF 1 []) 0x500000 (installBytes 1)) ⟨[], [], []⟩ [(1, 0)] (unmapSlots 0 [1] (pkgF 1 []))).1 = false :=
  by and_intros <;> decide +kernel
/-- Bytes as the cells of memory from an address on. -/
def cellsFrom : Nat → List Byte → List Host.Cell
  | _, [] => []
  | a, b :: r => (a, b) :: cellsFrom (a + 1) r
theorem gets_cellsFrom (l : List Byte) (a : Nat) : Memory.gets (cellsFrom a l) a l.length = l := by
  have g : ∀ (l : List Byte) (a k : Nat), k < l.length → Memory.get (cellsFrom a l) (a + k) = l.getD k 0 := by
    intro l
    induction l with
    | nil => exact fun _ _ h => absurd h (Nat.not_lt_zero _)
    | cons b r ih =>
      intro a k h
      cases k with
      | zero => simp [cellsFrom, Memory.get]
      | succ k =>
        have e : a + (k + 1) = a + 1 + k := by omega
        simp only [cellsFrom, Memory.get, List.getD_cons_succ]
        rw [if_neg (by omega), e]
        exact ih _ _ (by simpa using h)
  refine List.ext_getElem (by simp [Memory.gets]) fun i h1 h2 => ?_
  simp [Memory.gets, g l a i h2, List.getD_eq_getElem?_getD, h2]
/-- Rows that are not worn and not remapped, whose loops all verify, are programmed. -/
theorem rows_verify (aid : InstallAid) (h : aid.unverified = []) : ∀ (l : List (Nat × List Byte)) (s : State), s.remap = [] →
    (∀ d, 0 < (getDie s d).wearLimit) → (l.map (·.1)).Nodup → (∀ x ∈ l, wearOf s (.own x.1) = 0) → (programRows aid l s).1 = true
  | [], _, _, _, _, _ => rfl
  | x :: r, s, hr, hd, hn, hw => by
    have sv : servingRow s x.1 = .own x.1 := by simp [servingRow, hr, assoc]
    have p : ∀ b, programRow true b x.1 x.2 s = (true, placeRow x.1 (.own x.1) false x.2 s) := fun b => by
      have w := hw x (List.mem_cons_self ..)
      have d := hd (x.1 / 2 ^ 29)
      have d' : ¬ (getDie s (x.1 / 2 ^ 29)).wearLimit ≤ 0 := Nat.not_le.mpr d
      simp only [programRow, sv, w, if_neg d', if_true]
    have e : (!aid.unverified.contains x.1) = true := by simp [h]
    rw [programRows, e, p]
    refine rows_verify aid h r _ hr hd (List.nodup_cons.mp hn).2 fun y m => ?_
    have ne : RowRef.own y.1 ≠ .own x.1 := fun k =>
      (List.nodup_cons.mp hn).1 (List.mem_map.mpr ⟨y, m, RowRef.own.inj k⟩)
    have w := hw y (List.mem_cons_of_mem _ m)
    simpa [wearOf, placeRow, addWear, assoc_assocSet_ne _ _ ne] using w
/-- An install image of one record for tile 6 on die 0, sealed under the key its front names. -/
def frontT : List Byte := toBytes 8 (2 ^ 48 + 1) ++ toBytes 8 0 ++ List.replicate 1568 0
def hdrT : List Byte := toBytes 8 6
theorem hdrT_length : hdrT.length = 8 := Crypto.toBytes_length _ _
def tileT : List Byte := List.replicate 16384 0
def bodyT : List Byte := Crypto.gcmSeal (installKey frontT) (toBytes 4 6 ++ List.replicate 8 0) (frontT.take 16 ++ hdrT) tileT
def imT : List Byte := frontT ++ (hdrT ++ bodyT)
theorem frontT_length : frontT.length = 1584 := by
  rw [frontT, List.length_append, List.length_append, Crypto.toBytes_length, Crypto.toBytes_length, List.length_replicate]
theorem installKey_length (im : List Byte) : (installKey im).length = 32 := Crypto.shake256_length _ _
theorem bodyT_length : bodyT.length = 16400 := by rw [bodyT, Crypto.gcmSeal_length (installKey_length _), tileT, List.length_replicate]
theorem imT_length : imT.length = installBytes 1 := by
  rw [imT, List.length_append, List.length_append, frontT_length, bodyT_length, hdrT, Crypto.toBytes_length]
  rfl
theorem imT_front (k n : Nat) (h : k + n ≤ 1584) : (imT.drop k).take n = (frontT.drop k).take n := by
  rw [imT, List.drop_append_of_le_length (by rw [frontT_length]; omega),
    List.take_append_of_le_length (by rw [List.length_drop, frontT_length]; omega)]
theorem imT_take (n : Nat) (h : n ≤ 1584) : imT.take n = frontT.take n := imT_front 0 n (by omega)
theorem imT_header : installHeader imT 0 = hdrT := by
  rw [installHeader, imT, List.drop_left' (by rw [frontT_length]), List.take_left' hdrT_length]
theorem imT_opens : openTile imT 0 = some (0, tileT) := by
  have b : (imT.drop (0x630 + 16408 * 0 + 8)).take 16400 = bodyT := by
    have d : imT = (frontT ++ hdrT) ++ bodyT := (List.append_assoc ..).symm
    rw [d, List.drop_left' (by rw [List.length_append, frontT_length, hdrT, Crypto.toBytes_length]), List.take_of_length_le (by rw [bodyT_length])]
  have k : installKey imT = installKey frontT := by
    simp only [installKey, installDie]
    rw [imT_front 8 8 (by decide), imT_front 0x10 1568 (by decide), imT_take 16 (by decide)]
  have t : installTile imT 0 = 6 := by rw [installTile, imT_header]; decide
  have f : bits (ofBytes hdrT) 35 32 = 0 ∧ bits (ofBytes hdrT) 31 0 = 6 := by decide
  have o : Crypto.gcmOpen (installKey frontT) (toBytes 4 6 ++ List.replicate 8 0) (frontT.take 16 ++ hdrT) bodyT = some tileT :=
    Crypto.gcmOpen_gcmSeal (installKey_length _) _ _ _
  have z : tileT.length = 16384 := List.length_replicate
  simp only [openTile, imT_header, b, k, t, imT_take 16 (by decide), f, o]
  simp [z]
/-- That image in the partition's LPDDR. -/
def pkgM : State := { pkgS with mem := cellsFrom 0x500000 imT, parts := [(0, { part0 with fresco := [(1, 2, false)] })] }
theorem pkgM_image : memBytes pkgM 0x500000 (installBytes 1) = imT := by
  show Memory.gets (cellsFrom 0x500000 imT) 0x500000 (installBytes 1) = imT
  rw [← imT_length]
  exact gets_cellsFrom imT 0x500000
theorem installOk_front {im im' : List Byte} (a : im.take 8 = im'.take 8) (b : (im.drop 8).take 8 = (im'.drop 8).take 8) (s : State) (p : Nat)
    (w : Bool) (slots : List Nat) : installOk s p w im slots = installOk s p w im' slots := by
  have c : installCount im = installCount im' := by rw [installCount, a, installCount]
  have d : installDie im = installDie im' := by rw [installDie, b, installDie]
  simp only [installOk, a, c, d]
/-- An install that maps its slot. -/
theorem witness_StartUpEvents_maps : partExists pkgM 0 = true ∧ sessionOk pkgM 0 = true ∧ installPlace pkgM 0 0x500000 (installBytes 1) = true
    ∧ installOk pkgM 0 false (memBytes pkgM 0x500000 (installBytes 1)) [1] = true ∧ sectorsFail pkgM 0x500000 0x630 = false
    ∧ (installTiles 0x500000 (memBytes pkgM 0x500000 (installBytes 1)) ⟨[], [], []⟩ [(1, 0)] (unmapSlots 0 [1] pkgM)).1 = true := by
  have o := installOk_front (imT_take 8 (by decide)) (imT_front 8 8 (by decide)) pkgM 0 false [1]
  have n : ((tileRows 1 0 tileT []).map (·.1)) = (List.range 256).map fun r => 1 * 256 + r := by simp [tileRows, Function.comp_def]
  rw [pkgM_image]
  refine ⟨by decide +kernel, by decide +kernel, by decide +kernel, o.trans (by decide +kernel), by decide +kernel, ?_⟩
  have m : sectorsFail (unmapSlots 0 [1] pkgM) (0x500000 + installBytes 0) 16408 = false := by decide +kernel
  have g : (programRows ⟨[], [], []⟩ (tileRows 1 0 tileT []) (unmapSlots 0 [1] pkgM)).1 = true :=
    rows_verify _ rfl _ _ rfl (fun d => by
      have e : ∀ l : List Die, (∀ x ∈ l, 0 < x.wearLimit) → 0 < (l.getD d .start).wearLimit := fun l h => by
        rw [List.getD_eq_getElem?_getD]
        cases q : l[d]? with
        | none => decide
        | some x => exact h x (List.mem_of_getElem? q)
      exact e _ (by decide)) (by rw [n]; decide +kernel) fun _ _ => rfl
  simp [installTiles, m, imT_opens, g]
def hdrF (kind : Nat) : List Byte := toBytes 8 (5 + kind * 2 ^ 16)
/-- The flit of a type that a peer sends under counter 5. -/
def flit0 (kind : Nat) : List Byte := hdrF kind ++ Crypto.gcmSeal keyF (flitNonce Port.start 5) (hdrF kind) (List.replicate 232 7)
theorem flit0_opens (kind : Nat) (p : Port) (h : p.link = 0) : openFlit p keyF 5 (flit0 kind) = some (List.replicate 232 7) := by
  have k : keyF.length = 32 := by decide
  have hh : (hdrF kind).length = 8 := Crypto.toBytes_length _ _
  have l : (flit0 kind).length = 256 := by
    rw [flit0, List.length_append, hh, Crypto.gcmSeal_length k, List.length_replicate]
  have n : flitNonce p 5 = flitNonce Port.start 5 := by simp [flitNonce, h, Port.start]
  rw [openFlit, if_pos l, n, flit0, List.take_left' hh, List.drop_left' hh]
  exact Crypto.gcmOpen_gcmSeal k _ _ _
theorem flit0_header : ∀ kind ∈ [0, 3, 4], flitKind (flit0 kind) = kind ∧ flitCounter (flit0 kind) = 5 := by
  have e : ∀ kind, (flit0 kind).take 8 = hdrF kind := fun kind => List.take_left' (Crypto.toBytes_length _ _)
  simp only [flitKind, flitCounter, e]
  decide
theorem witness_LinkEvents : (let s := linked port0
      Config.hasPort 17 = true ∧ 17 < s.ports.length ∧ getPort18 s 17 = port0 ∧ port0.heard + 1800000 ≤ s.cycle ∧ port0.sent + 1800 ≤ s.cycle ∧ s.viral = false
        ∧ (∃ x ∈ port0.resend, x.1 ≤ 0) ∧ port0.replay.length < 1024 ∧ port0.resyncing = none)
    ∧ (∀ kind ∈ [0, 3, 4], flitKind (flit0 kind) = kind ∧ flitCounter (flit0 kind) = port0.rx % 2 ^ 16
      ∧ openFlit port0 port0.rxKey port0.rx (flit0 kind) = some (List.replicate 232 7)
      ∧ openFlit { port0 with resyncing := some 5 } port0.rxKey port0.rx (flit0 kind) = some (List.replicate 232 7))
    ∧ (flitCounter (toBytes 8 5) = port0.rx % 2 ^ 16 ∧ openFlit port0 port0.rxKey port0.rx (toBytes 8 5) = none)
    ∧ (let p := { port0 with resyncing := some 5, fails := 2 }; getPort18 (linked p) 17 = p ∧ 5 + 180000 ≤ (linked p).cycle)
    ∧ (booted (linked { port0 with st := .down }) = true)
    ∧ (sessionOk (linked { port0 with st := .fenced }) 0 = true) :=
  ⟨by decide +kernel, fun kind m => ⟨(flit0_header kind m).1, (flit0_header kind m).2, flit0_opens kind _ rfl, flit0_opens kind _ rfl⟩, by decide +kernel,
    by decide +kernel, by decide +kernel, by decide +kernel⟩
def req0 : SpdmReq := ⟨false, 0, 0, 60, some 10000, [], []⟩
/-- The request as the session's keys seal it. -/
def reqS : SpdmReq := { req0 with sealed := Crypto.gcmSeal (Config.sessionKey sess0.key 0).toList (sessionNonce sess0.received) [] req0.data }
theorem reqS_opens : opens sess0 reqS = true := by
  have k : (Config.sessionKey sess0.key 0).toList.length = 32 := by simp
  have o := Crypto.gcmOpen_gcmSeal k (sessionNonce sess0.received) [] req0.data
  rw [opens, reqS, o]
  decide
theorem witness_ResponderEvents : (let s := { pkgS with sessions := [] }
      Config.hasHostPort 0 = true ∧ 0 < s.hosts.length ∧ answers s 0 = true ∧ req0.unsupported = false ∧ assoc req0.part s.sessions = none ∧ req0.period ≤ 60
        ∧ req0.grace.getD 100 ≤ 10000 ∧ req0.slot = 0)
    ∧ (let s := { pkgS with sessions := [], hosts := List.replicate 2 { HostPort.start with up := true, exchange := some (0, 1000000, 100000, [1]) } }
      answers s 0 = true ∧ (getHost s 0).exchange = some (0, 1000000, 100000, [1]) ∧ assoc 0 s.sessions = none)
    ∧ (answers pkgS 0 = true ∧ pkgS.sessions = [(reqS.part, sess0)] ∧ sess0.port = 0 ∧ sess0.losing = none ∧ opens sess0 reqS = true ∧ opens sess0 req0 = false) :=
  ⟨by decide +kernel, by decide +kernel, by decide +kernel, rfl, rfl, rfl, reqS_opens, by simp [opens, req0, Crypto.gcmOpen]⟩
theorem witness_SessionEvents : (let s := { heldPkg (node0 .running) ctxN with sessions := [(0, sess0)], log := [⟨4095, 0, 0, 0, [], []⟩], hosts := pkgS.hosts }
      assoc 0 s.sessions = some sess0 ∧ sess0.heard + 3600 * sess0.period ≤ s.cycle ∧ partExists s 0 = true ∧ sessionOk s 0 = true
        ∧ s.log[0]? = some ⟨4095, 0, 0, 0, [], []⟩ ∧ s.checkpoints = [] ∧ sess0.port < s.hosts.length ∧ (bucketOf s 0 19).upto + 1 ≤ micros s
        ∧ (bucketOf s 0 19).waiting = []
        ∧ ∀ w ∈ [SessionRead.faults, .dieFaults 7, .port 17, .island 7 7, .coolant], (sessionReply s 0 w).isSome = true)
    ∧ (let x := { sess0 with losing := some 1000 }
      let s := { heldPkg (node0 .running) ctxN with sessions := [(0, x)] }
      1000 + 1800 * x.grace ≤ s.cycle ∧ liveNodes s 0 = [0] ∧ liveNodes { pkgS with sessions := [(0, x)] } 0 = []
        ∧ dyingNodes { pkgS with sessions := [(0, x)] } 0 = false)
    ∧ (let s := { pkgS with parts := [(0, { part0 with windows := [((0, 31), 0x500000)] })] }
      windowPhys s (31 * 2 ^ 31 + 0x40) 4 = some (0, 0, 0x500040) ∧ (getHost s 0).up = true ∧ (getHost s 0).blocked = false ∧ Memory.wf s.mem = true)
    ∧ (let s := { pkgS with log := List.replicate (Config.logCapacity + 1) ⟨0, 0, 0, 0, [], []⟩ }; 0 + Config.logCapacity < s.log.length) :=
  ⟨by decide +kernel, by decide +kernel, by decide +kernel, by simp⟩
def isl0 : Island := { Island.start with steps := 2, inForce := 30, setpoint := 45 }
def pkgI : State := { pkgS with islands := List.replicate 63 .start ++ [isl0] }
theorem witness_PowerEvents : (Config.hasIsland 7 7 = true ∧ pkgI.islands.length = 64 ∧ getIsland pkgI 7 7 = isl0)
    ∧ sessionOk pkgI 0 = true
    ∧ (∀ n ∈ [40, 0x8064, 2 ^ 64 - 0x9C], bits n 7 0 ≤ 100)
    ∧ (isl0.expert = false ∧ (∀ point ∈ [0, 45, 100], isl0.setpoint ≠ point ∨ isl0.inForce ≠ point - 10 * isl0.steps) ∧ isl0.stepped + 1800000 ≤ pkgI.cycle
      ∧ isl0.steps < 8 ∧ 0 < isl0.steps ∧ 10 * isl0.steps < isl0.setpoint)
    ∧ (powerLimit pkgI < 2700 ∧ pkgI.power.capped = false ∧ pkgI.viral = false) :=
  by and_intros <;> decide +kernel
theorem witness_UnknownUnits : (⟨8, 0, 0⟩ : CoreId).wf = false ∧ (⟨0, 32, 0⟩ : CoreId).wf = false ∧ (⟨0, 0, 0, 4⟩ : CtxId).wf = false
    ∧ (⟨0, 0, 4⟩ : EngId).wf = false := by decide
/-- A program image of one entry table with one entry, sealed under an empty image key. -/
def plainI : List Byte := toBytes 4 (2 ^ 31 + 96) ++ List.replicate 2044 0
def hdrI : List Byte := toBytes 16 4
def bodyI : List Byte := Crypto.gcmSeal (dataKey []) (toBytes 4 0 ++ List.replicate 8 0) hdrI plainI
def frontI : List Byte := toBytes 8 (0x00010001 * 2 ^ 32) ++ toBytes 8 1 ++ List.replicate 48 0
def image0 : List Byte := frontI ++ (hdrI ++ bodyI)
def table0 : Segment := ⟨0, hdrI, bodyI⟩
theorem dataKey_length (k : List Byte) : (dataKey k).length = 32 := Crypto.shake256_length _ _
theorem bodyI_length : bodyI.length = 2064 := (Crypto.gcmSeal_length (dataKey_length []) _ _ _).trans (by rw [plainI, List.length_append, Crypto.toBytes_length, List.length_replicate])
theorem table0_opens : openSegment [] table0 = some plainI := Crypto.gcmOpen_gcmSeal (dataKey_length []) _ _ _
theorem image0_front : image0.take 8 = frontI.take 8 ∧ (image0.drop 8).take 4 = (frontI.drop 8).take 4 ∧ image0.drop 64 = hdrI ++ bodyI := by
  have h : frontI.length = 64 := by decide
  refine ⟨?_, ?_, ?_⟩
  · exact List.take_append_of_le_length (by omega)
  · rw [image0, List.drop_append_of_le_length (by omega), List.take_append_of_le_length (by simp; omega)]
  · exact List.drop_left' h
theorem image0_segments : segmentsOf image0 = some [table0] := by
  have h : frontI.length = 64 := by decide
  have hh : hdrI.length = 16 := by decide
  have hl : ¬ image0.length < 64 := by simp [image0, h]
  have n : ofBytes ((frontI.drop 8).take 4) = 1 := by decide
  have t : (hdrI ++ bodyI).take 16 = hdrI := List.take_left' hh
  have d : (hdrI ++ bodyI).drop 16 = bodyI := List.drop_left' hh
  have k : Segment.kind ⟨0, hdrI, []⟩ = 4 := by decide
  have e : (hdrI ++ bodyI).drop (16 + ceilTo 16 2064) = [] := List.drop_of_length_le (by rw [List.length_append, hh, bodyI_length]; decide)
  have l : ¬ (hdrI ++ bodyI).length < 16 + ceilTo 16 2064 := by rw [List.length_append, hh, bodyI_length]; decide
  rw [segmentsOf, if_neg hl, image0_front.2.1, image0_front.2.2, n]
  have b : ∀ n, bodyBytes 4 n = some 2064 := fun _ => rfl
  simp only [parseSegments, t, k, b, if_neg l, e, d, List.isEmpty_nil, if_true, table0]
  rw [List.take_of_length_le (by rw [bodyI_length])]
theorem witness_TranslationEvents_image : imageOk image0 [] = true ∧ imageOk [] [] = false := by
  have g : segmentFits table0 = true ∧ table0.kind = 4 ∧ segmentsClash table0 table0 = false := ⟨rfl, rfl, rfl⟩
  have t : ((List.range (imageTables image0)).all fun t => ([table0].filter fun g => g.kind == 4 && g.table == t).length == 1) = true := by
    rw [imageTables, image0_front.1]; rfl
  have f : (bits (ofBytes (image0.take 8)) 63 32 == 0x00010001) = true := by rw [image0_front.1]; decide
  have o : (openSegment [] table0).isSome = true := by rw [table0_opens]; rfl
  refine ⟨?_, by decide⟩
  simp only [imageOk, image0_segments]
  rw [f, t]
  simp [g, o]
theorem nodeImage_of (d : Node) (hp : d.part = 0) (hr : d.record = (node0 .placed).record) (bs tbl : List Byte) (g : Segment)
    (h : segmentsOf bs = some [g]) (t : 0 < imageTables bs) (k : g.kind = 4) (k0 : g.table = 0) (o : openSegment [] g = some tbl) :
    let s := { heldPkg d ctxN with parts := [(0, { part0 with images := [⟨1, bs, [], []⟩] })] }
    nodeImage s d = some (⟨1, bs, [], []⟩, [g], tbl) ∧ hitsResident s d [g] = false ∧ (nodePalettes s d).isSome = true := by
  have r : ∀ w a b, recField d w a b = recField (node0 .placed) w a b := fun _ _ _ => by rw [recField, hr, recField]
  have k : d.part = 0 ∧ recField d 0 31 0 = 1 ∧ recField d 0 47 32 = 0 ∧ recField d 1 44 44 = 0
      ∧ g.kind = 4 ∧ g.table = 0 := ⟨hp, r .., r .., r .., k, k0⟩
  obtain ⟨k1, k2, k3, k4, k5, k6⟩ := k
  refine ⟨?_, ?_, ?_⟩
  · simp [nodeImage, getPart, assoc, k1, k2, k3, k5, k6, h, o, t]
  · simp [hitsResident, clusterData, k5]
  · simp [nodePalettes, k4]
theorem placement_of {s : State} {d : Node} {im : Image} {gs : List Segment} {tbl : List Byte}
    (h : nodeImage s d = some (im, gs, tbl) ∧ hitsResident s d gs = false ∧ (nodePalettes s d).isSome = true) :
    ∃ pal, placement s d = .ok (im, gs, tbl, pal) := by
  obtain ⟨a, b, c⟩ := h
  obtain ⟨pal, e⟩ := Option.isSome_iff_exists.mp c
  exact ⟨pal, by simp [placement, a, b, e]⟩
/-- A node that starts from that image, with one context at 96. -/
theorem witness_NodeEvents_start :
    let im : Image := ⟨1, image0, [], []⟩
    let s := { heldPkg (node0 .placed) ctxN with parts := [(0, { part0 with images := [im] })] }
    (nodeImage s (node0 .placed) = some (im, [table0], plainI) ∧ hitsResident s (node0 .placed) [table0] = false
      ∧ (nodePalettes s (node0 .placed)).isSome = true) ∧ (node0 .placed).clusters.Nodup ∧ nodeLockstep (node0 .placed) = false
      ∧ entryOf plainI 0 0 0 = some 96 :=
  ⟨nodeImage_of _ rfl rfl image0 plainI table0 image0_segments (Nat.succ_pos _) rfl rfl table0_opens, by decide, by decide +kernel, by decide +kernel⟩
/-- A node with a saved image that may be placed again, and one whose program image is gone. -/
theorem witness_SaveEvents_placement :
    (let s := { heldPkg placed0 ctxN with parts := [(0, { part0 with images := [⟨1, image0, [], []⟩] })] }
     ∃ pal, placement s placed0 = .ok (⟨1, image0, [], []⟩, [table0], plainI, pal))
    ∧ (match placement (backPkg placed0 1 []) placed0 with | .error r => r | .ok _ => 0) = 5 :=
  ⟨placement_of (nodeImage_of placed0 rfl rfl image0 plainI table0 image0_segments (Nat.succ_pos _) rfl rfl table0_opens), by decide +kernel⟩

/-! ### More states that meet the hypotheses -/

/-- EXIT with a status, and with a poisoned one, in a node. -/
theorem witness_ExitRetires_fails : ∀ p ∈ [false, true], let s := { with5 (fun c => { c with node := some 0, g := c.g.set 5 ⟨5, p⟩ }) (at5 7 []) with nodes := [node0 .running] }
    ReadyD s .always (.g 5) .s ∧ (if (trigSc s (.g 5)).p then 0xFFFFFFFF#32 else (trigSc s (.g 5)).v.setWidth 32) ≠ 0#32
      ∧ nodeOf s s.sel.who = some 0 ∧ getNode s 0 = some (node0 .running) ∧ s.mex = [] ∧ s.cpy = [] ∧ s.glz = [] ∧ s.rtc = [] := by decide +kernel
/-- A gather whose lane 3 is misaligned, and one whose lane 0 is the first outside the map. -/
theorem witness_MemoryAccessTraps_lanes : (let s := at5 7 [(25, scOf 0x2FFFFC)]
      ReadyD { s with ctxs := [(who0, { getCtx s who0 with vo := ctx0.vo.set 0 (valVec (vecA fun l => if l = 3 then 1 else 0)) })] } .always (.vo 0) .v
        ∧ (portSc s 6 1).p = false ∧ 0x2FFFFC % 4 = 0 ∧ InLocal 0x2FFFFC 4)
    ∧ (let s := vecs0 0x2FFE04 [(25, scOf 4)]
      ReadyD s .always (.g 5) .s ∧ (portSc s 6 1) = ⟨4, false⟩ ∧ (portMask s 6 3).any (·.p) = false ∧ ¬ InLocal (0x2FFE04 + 4 * 127) 4 ∧ InLocal (0x2FFE04 + 4 * 126) 4
        ∧ (maskAt (portMask s 6 3) 0).v = true)
    ∧ (∀ a ∈ [0x2FFFF1, 0x2FFFF0, 0x300000], ReadyD (at5 a [(25, scOf 0)]) .always (.g 5) .s ∧ (trigSc (at5 a []) (.g 5)).v.toNat = a)
    ∧ (∀ n ∈ [15, 64], let s := vecs0 (if n = 15 then 0x2FFF00 else 0x2FFFF0) [(25, scOf n), (26, scOf (1 * 2 ^ 48 + 9))]
      ReadyD s .always (.g 5) .s ∧ (portSc s 6 1) = ⟨BitVec.ofNat 64 n, false⟩ ∧ (portSc s 6 2) = ⟨BitVec.ofNat 64 (1 * 2 ^ 48 + 9), false⟩) := by
  unfold InLocal
  and_intros <;> decide +kernel
/-- Global accesses: no pin, one byte past a page, misaligned, a leaf that does not permit, and an atomic and a barrier outside their memories. -/
theorem witness_MemoryAccessTraps_global : (∀ a ∈ [0xFFF9, 0x10000, 2 ^ 63 + 0x20000, 2 ^ 56], let s := pinned0 a [(16, scOf 3), (17, scOf 3), (68, scOf 1)]
      ReadyD s .always (.g 5) .s ∧ (trigSc s (.g 5)).v.toNat = a ∧ portSc s 4 0 = ⟨3, false⟩ ∧ portSc s 4 1 = ⟨3, false⟩ ∧ portSc s 17 0 = ⟨1, false⟩)
    ∧ (∀ a ∈ [0xFFFC, 0xFFF8], Reached (pinned0 a []) 0xFFF8 8 pin0 ∧ Reached (pinned0 (2 ^ 63 + 0x100) []) 0x100 16 pin0
      ∧ Covered (pinned0 (2 ^ 63 + 0x100) []) 0x100 16 pin0)
    ∧ (Untouched (pinned0 0x10000 []) 0x10000 4 ∧ Untouched (pinned0 (2 ^ 56) []) (2 ^ 56) 8 ∧ ¬ Untouched (pinned0 0xFFF8 []) 0xFFF8 8)
    ∧ (Denied 0 0x508000 ∧ Denied 1 0x508001 ∧ ¬ Denied 2 pin0.pte.toNat ∧ isAcc (pinAt pin0 0x100) = false ∧ isSpad (pinAt pin0 0x100) = false) := by
  refine ⟨by decide +kernel, by unfold Reached Covered; decide +kernel, ⟨⟨0, by decide, by decide +kernel⟩, ⟨0, by decide, by decide +kernel⟩, ?_⟩,
    by unfold Denied; decide +kernel⟩
  unfold Untouched
  decide +kernel
/-- A staging node that stores through a write-back page of LPDDR, with room in its share. -/
def pinS : Pin := { pin0 with pte := 0x508087 }
def stages0 (t : Nat) (ps : List (Nat × Val)) : State :=
  { with5 (fun c => { c with node := some 0, pins := [pinS] }) (at5 t ps) with
    nodes := [{ node0 .running with record := [1, 0x10000 + 2 ^ 40, 0x10000, 0, 0, 0, 0] }]
    clusters := [(⟨0, 0⟩, { Cluster.start with part := some 0, node := some 0 })]
    parts := [(0, { Part.empty with staging := [(0, 0x1000)] })] }
theorem witness_GlobalScalars_staged : let s := stages0 0xFFF8 [(17, scOf 3)]
    Ready s .always (.g 5) .s ∧ (trigSc s (.g 5)).v.toNat = 0xFFF8 ∧ Covered s 0xFFF8 8 pinS ∧ pteWrite pinS.pte.toNat = true ∧ portSc s 4 1 = ⟨3, false⟩
      ∧ (∀ i, i < 8 → stageOf s (nodeOf s s.sel.who) (pinAt pinS 0xFFF8 + i) pinS.pte.toNat = some 0)
      ∧ stagingOver s (partOf s s.sel.who) ((List.range 8).map fun i => pinAt pinS 0xFFF8 + i) = none
      ∧ goes (exec (.gst .always (.g 5)) s) = true :=
  ⟨ready_of (by decide +kernel) nofun, by unfold Covered; decide +kernel⟩
/-- Stores, pours, atomics and barriers that complete. -/
theorem witness_LocalStoreFrame_all : (∀ i ∈ [Instr.vst, .vstbf, .vstm, .vsts], goes (exec (i .always (.g 5)) (vecs0 0x1000 [(25, scOf 4)])) = true)
    ∧ goes (exec (.vstg .always (.vo 0)) (vecs0 0 [(25, scOf 0x400000)])) = true
    ∧ goes (exec (.vstp .always (.g 5)) (vecs0 0x2FFFB0 [(25, scOf 64), (26, scOf (1 * 2 ^ 48 + 9))])) = true
    ∧ goes (exec (.vstmc .always (.g 5)) (vecs0 0x800000 [])) = true ∧ goes (exec (.aadd .always (.g 5)) (at5 0x400000 [])) = true
    ∧ goes (exec (.vgst .always (.g 5)) (with5 (fun c => { c with pins := [pin0] }) (vecs0 0x100 []))) = true
    ∧ (∀ i ∈ [Instr.binit, .barv, .bexp, .btst, .bwait], goes (exec (i .always (.g 5)) (at5 0x10 [(68, scOf 1)])) = true) := by
  and_intros <;> decide +kernel
theorem witness_FlowFrame_all : (∀ i ∈ [Instr.call, .exit, .loops, .loopx, .mtsr, .sysc, .wake, .sleep, .rdef, .tokc, .mcan, .ccan, .csel, .cset, .yield],
      goes (exec (i .always (.g 5)) (at5 0 [(20, scOf 3)])) = true)
    ∧ goes (exec (.rdrop .always (.g 5)) (sketch0 (at5 7 []))) = true ∧ goes (exec (.move .always (.vo 0) (.v 31)) (full0 (at5 7 []))) = true := by
  and_intros <;> decide +kernel
/-- RAMAX with an enabled NaN in lane 5, and with no lane enabled. -/
theorem witness_LaneResults_more :
    (let s := with5 (fun c => { c with vo := ctx0.vo.set 0 (valVec (vecA fun l => if l = 5 then 0x7FC00000 else l)) }) (at5 7 [(46, maskA fun l => l % 5 == 0)])
     ReadyD s .always (.vo 0) .v ∧ (maskAt (portMask s 11 2) 5).v = true ∧ Fp.isNan32 (laneAt (trigVec s (.vo 0)) 5).v = true
       ∧ ∀ l, l < 5 → (maskAt (portMask s 11 2) l).v = true → Fp.isNan32 (laneAt (trigVec s (.vo 0)) l).v = false)
    ∧ (let s := at5 7 [(46, maskA fun _ => false)]; ReadyD s .always (.vo 0) .v ∧ ∀ l, l < 128 → (maskAt (portMask s 11 2) l).v = false) := by
  and_intros <;> decide +kernel
/-- CTXQ of a sibling in each state, and numbers that are too large. -/
theorem witness_ContextControl_sibling : (∀ r ∈ [Run.notStarted, .retired, .halted, .runnable, .fence 1, .replay 3 9], let s :=
        { at5 1 [] with ctxs := (at5 1 []).ctxs ++ [(⟨0, 0, 0, 1⟩, { ctx0 with run := r })] }
      ReadyD s .always (.g 5) .s ∧ (trigSc s (.g 5)).v.toNat = 1 ∧ (1 : Nat) ≠ s.sel.who.ctx ∧ (getCtx s (s.sel.who.coreId.ctxId 1)).run = r)
    ∧ ReadyD (at5 4 []) .always (.g 5) .s ∧ ReadyD (at5 8 []) .always (.g 5) .s := by
  and_intros <;> decide +kernel
/-- Cancels noted in a cycle, beside the commands they name. -/
theorem witness_EngineReports_cancels : (∀ k ∈ [(⟨who0, 5, 0, 1, 0, none, some 51, false⟩ : Cancel), ⟨who0, 13, 0, 1, 0, none, some 51, false⟩, ⟨who0, 13, 0, 2, 0, none, none, false⟩],
      let c : MexCmd := ⟨7, .mzero, who0, 2, 510, mexParZero, 5, 9, 0⟩
      let s := { setMex ⟨0, 0, 0⟩ { Mex.start with queue := [{ c with seq := 3 }, c] } (at5 7 []) with cancels := [k] }
      s.cancels = [k] ∧ c ∈ (getMex s ⟨0, 0, 0⟩).queue ∧ (s.mex.map (·.1)).Nodup ∧ alive s who0 = true ∧ 0 < (getCtx s who0).tokens.length
        ∧ 0 < (getCtx s who0).mexLast.length ∧ (∀ d ∈ (getMex s ⟨0, 0, 0⟩).queue, d.who = who0 → d ≠ c → d.seq < c.seq)
        ∧ ∀ d ∈ (getMex s ⟨0, 0, 0⟩).queue, d.seq = c.seq → d = c)
    ∧ (∀ t ∈ [0, 1, 2], let k : Cancel := ⟨who0, 14, 0, t, 0, none, some 51, false⟩
      let s := { withCpy { Cpy.start with queue := [cpyC cpyP], runs := [{ cpyR cpyP with cmd := { cpyC cpyP with seq := 3 } }] } with cancels := [k] }
      s.cancels = [k] ∧ cpyC cpyP ∈ (getCpy s ⟨0, 0⟩).queue ∧ alive s who0 = true
        ∧ ∀ d ∈ (getCpy s ⟨0, 0⟩).queue ++ (getCpy s ⟨0, 0⟩).runs.map (·.cmd), d ≠ cpyC cpyP → d.seq < (cpyC cpyP).seq)
    ∧ (let k : Cancel := ⟨who0, 15, 0, 1, 0, some 9, some 51, false⟩
      (let s := { withGlz { Glz.start with queue := [glzC glzP] } [] with cancels := [k] };
        ((getGlz s die0).queue.find? fun c => c.seq == 9) = some (glzC glzP) ∧ 0 < glzBlocks s (glzC glzP))
      ∧ ∀ m ∈ [false, true], let s := { runGlz (glzR glzP m [blk0 0 0]) (coll0 m []) with cancels := [k] };
        (getGlz s die0).queue = [] ∧ ((getGlz s die0).runs.find? fun r => r.cmd.seq == 9) = some (glzR glzP m [blk0 0 0]) ∧ (blk0 0 0).flag = 0) := by
  and_intros <;> decide +kernel
/-- Only a timed result is due, and a BWAIT keeps a pin one position longer. -/
theorem witness_LandingEvents_more : (let s := run0 fun c => { c with landing := [land0, { land0 with land := 51 }], flight := [{ flight0 with land := 51 }] }
      let x := getCtx s who0
      timedDue x = [land0] ∧ fixedDue x = [] ∧ commits who0 s = true ∧ (∀ l ∈ x.landing, x.bclk ≤ l.land) ∧ ∀ f ∈ x.flight, x.bclk ≤ f.land)
    ∧ (let x := getCtx (run0 fun c => { c with run := .bwait 0x200000000000 false 0 2 .waiting, pins := [{ pin0 with last := 48 }, { pin0 with last := 49 }] }) who0
      x.pins.any (fun p => decide (p.last < x.bclk - 1)) = true) := by
  and_intros <;> decide +kernel
theorem witness_RetouchEvents_capture : let u := { rowR 1999999995 with seen := List.replicate 64 (3, false) }
    let s := withRtc { Rtc.start with run := some { rtcR with cur := some u } }
    rtcFmt rtcR.cmd = 0 ∧ s.past = [] ∧ u.seen.length = 64 ∧ 1999999999 ≤ u.start + 7 ∧ nominal s < u.start + 7 := by decide +kernel
/-- A range that a change stays within, one that it leaves, and a cluster whose scratchpad a shootdown still holds. -/
theorem witness_TranslationEvents_range : (let u := shot0 pkgS 0x400008 0; (∀ hi ∈ [0x10000, 0x30000], changesWithin 0 false 0 hi pkgS u = (hi == 0x30000)) ∧ isLpddr 0x400008 = true)
    ∧ (let s := { pkgS with shoots := [{ shoot0 with old := [⟨0, false, 0x10000, physSpad ⟨0, 0⟩ 0, 0x10000⟩] }] }
      rangeHeld s (physSpad ⟨0, 0⟩ 0) 0x300000 = true ∧ rangeHeld pkgS (physSpad ⟨0, 0⟩ 0) 0x300000 = false ∧ rangeHeld pkgS (physAcc ⟨0, 0⟩ 0) 0x100000 = false
        ∧ clusterIdle s ⟨0, 0⟩ = true) := by
  and_intros <;> decide +kernel
/-- Requests waiting at a bucket, and reads through a window of BAR 2. -/
def reqE : EgressReq := ⟨9, who0, 4096, false, [], true, false⟩
theorem witness_SessionEvents_egress : (∀ held ∈ [false, true],
      let b : Bucket := { Bucket.start with rate := 100, burst := 8192, level := 4096, frac := 7, upto := 1000, waiting := [reqE] }
      let s := { pkgS with parts := [(0, { part0 with noEgress := held, buckets := [(19, b)] })] }
      bucketOf s 0 19 = b ∧ b.upto + 3 ≤ s.cycle ∧ reqE.bytes ≤ b.level ∧ b.level < b.burst ∧ b.frac < 1800 ∧ (getPart s 0).noEgress = held ∧ partExists s 0 = true)
    ∧ (let s := { pkgS with parts := [(0, { part0 with windows := [((0, 31), 0x500000)] })] }
      windowPhys s (31 * 2 ^ 31 + 0x40) 4 = some (0, 0, 0x500040) ∧ portOpen s 0 = true ∧ 0 < s.hosts.length ∧ Settled s ∧ (getPart s 0).noEgress = false
        ∧ Memory.wf s.mem = true) := by
  unfold Settled
  and_intros <;> decide +kernel
theorem witness_PowerEvents_coolant : (∀ low ∈ [none, some 1], let s := { pkgI with power := { pkgI.power with low := low, fine := none, capped := true } }
      s.power.bare = false ∧ (low = none ∨ 1 + 1800000000 < s.cycle)) ∧ (2000 ≤ 2000 ∧ 45 ≤ 45) := by
  and_intros <;> decide +kernel
/-- Names of units that the package lacks, at the bounds. -/
theorem witness_UnknownUnits_bounds : (⟨0, 0, 4⟩ : CoreId).wf = false ∧ (⟨8, 0, 0, 0⟩ : CtxId).wf = false ∧ (⟨0, 32, 0⟩ : EngId).wf = false
    ∧ (isLpddr (Config.lpddrBytes) && physOk (Config.lpddrBytes)) = false ∧ 64 ≤ chgPart (.create 64) := by decide +kernel
end Sys2Proof.Tests
end

section
/-! SUPPORT. Events of units the package lacks (R2 to R4, R255, R308): the event stops where its subject's test fails, and each kind of subject
fails its test outside its range. -/

namespace Sys2Proof.Machine

/-- An event whose subject the package lacks stops with the model's own fault, whatever it would have done. -/
theorem eventStep_lacks {named : Bool} {r : Option State} {s : State} (h : named = false) : eventStep named r s = .fault .noSuchUnit := by
  simp [eventStep, h]

/-! ## Subjects out of range -/

theorem hasDie_out {d : Nat} (h : 8 ≤ d) : Config.hasDie d = false := by simp [Config.hasDie, h]
theorem hasIsland_out {d k : Nat} (h : 8 ≤ d ∨ 8 ≤ k) : Config.hasIsland d k = false := by
  simpa [Config.hasIsland, imp_iff_not_or] using h
theorem hasPort_out {k : Nat} (h : 18 ≤ k) : Config.hasPort k = false := by simp [Config.hasPort, h]
theorem hasHostPort_out {k : Nat} (h : 2 ≤ k) : Config.hasHostPort k = false := by simp [Config.hasHostPort, Nat.lt_of_succ_le h]
theorem wfN_out {e : DieEng} {n : Nat} (h : 8 ≤ e.die ∨ n ≤ e.eng) : e.wfN n = false := by
  simpa [DieEng.wfN, imp_iff_not_or] using h
theorem line_out {c : CoreId} {line : Nat} (h : c.wf = false ∨ 2 ^ 14 ≤ line) : (c.wf && decide (line < 2 ^ 14)) = false := by
  rcases h with h | h
  · simp [h]
  · rw [decide_eq_false (Nat.not_lt.2 h), Bool.and_false]
theorem part_out {p : Nat} (h : 64 ≤ p) : decide (p < 64) = false := decide_eq_false (Nat.not_lt.2 h)
theorem bucket_out {p port : Nat} (h : 64 ≤ p ∨ 20 ≤ port) : (decide (p < 64) && decide (port < 20)) = false := by
  simpa [imp_iff_not_or] using h

/-! ## The events of each kind of subject -/

variable {s : State}

theorem bundleIssue_lacks {c : CoreId} (h : c.wf = false) : exec (.bundleIssue c) s = .fault .noSuchUnit := if_neg (by simp [h])
theorem starvationLead_lacks {c : CoreId} (h : c.wf = false) : exec (.starvationLead c) s = .fault .noSuchUnit := if_neg (by simp [h])

theorem ctxEvents_lack {c : CtxId} (k : Nat) (h : c.wf = false) :
    ∀ i ∈ [Instr.latchLanding c, .timedDataArrival c k, .timedLanding c, .sketchReplayComplete c, .sleepTimeout c, .bwaitWake c,
      .fenceComplete c, .pinExpiry c, .pageWalkComplete c k, .lockstepMismatch c k], exec i s = .fault .noSuchUnit := by
  intro i hi
  fin_cases hi <;> exact eventStep_lacks h

theorem mexEvents_lack {e : EngId} (h : e.wf = false) :
    ∀ i ∈ [Instr.mexCommandStart e, .mldwComplete e, .streamPromotion e, .mstrComplete e, .mzeroComplete e, .drainRow e, .mdrnComplete e],
      exec i s = .fault .noSuchUnit := by
  intro i hi
  fin_cases hi <;> exact eventStep_lacks h

theorem cpyEvents_lack {e : DieEng} (id : Nat) (again : Bool) (h : 8 ≤ e.die ∨ 8 ≤ e.eng) :
    ∀ i ∈ [Instr.copyStart e, .chunkFetch e id again, .chunkWrite e id, .copyComplete e id], exec i s = .fault .noSuchUnit := by
  intro i hi
  fin_cases hi <;> exact eventStep_lacks (wfN_out h)

theorem glzEvents_lack {e : DieEng} (id blk con : Nat) (h : 8 ≤ e.die ∨ 2 ≤ e.eng) :
    ∀ i ∈ [Instr.glazeStart e, .glazeTimeout e id, .glazeRoundSend e id, .glazePlaneReceive e id blk con, .glazeCancelAck e id,
      .glazeAbort e id, .glazeComplete e id], exec i s = .fault .noSuchUnit := by
  intro i hi
  fin_cases hi <;> exact eventStep_lacks (wfN_out h)

theorem rtcEvents_lack {e : DieEng} (again : Bool) (h : 8 ≤ e.die ∨ 4 ≤ e.eng) :
    ∀ i ∈ [Instr.retouchCommandStart e, .retouchRowStart e, .writeAndCheckLoop e again, .twrtComplete e], exec i s = .fault .noSuchUnit := by
  intro i hi
  fin_cases hi <;> exact eventStep_lacks (wfN_out h)

theorem dieEvents_lack {d : Nat} (n : Nat) (bad weak : List Nat) (src : ErrCount) (site : ErrSite) (h : 8 ≤ d) :
    ∀ i ∈ [Instr.syscReply d, .frescoScan d bad weak, .correctedErrorRecord d src, .viral d site, .wearLimitSet d n],
      exec i s = .fault .noSuchUnit := by
  intro i hi
  fin_cases hi <;> exact eventStep_lacks (hasDie_out h)

theorem islandEvents_lack {d k : Nat} (point : Nat) (temp : Int) (w : SessionWord) (h : 8 ≤ d ∨ 8 ≤ k) :
    ∀ i ∈ [Instr.islandWake d k, .islandGate d k, .islandControlWrite d k w, .operatingPointChange d ⟨k, point⟩, .thermalStep d k temp,
      .overtemperature d k temp], exec i s = .fault .noSuchUnit := by
  intro i hi
  fin_cases hi <;> exact eventStep_lacks (hasIsland_out h)

theorem portEvents_lack {k : Nat} (n : Nat) (f : Flit) (peer : PeerHello) (challenge : List Byte) (h : 18 ≤ k) :
    ∀ i ∈ [Instr.viralFlitReceived k, .linkSilenceTimeout k, .flitReceive k f, .flitResend k n, .resyncTimeout k, .keepalive k,
      .routineKeyUpdate k, .peerSession k peer challenge, .portReset ⟨n, k⟩], exec i s = .fault .noSuchUnit := by
  intro i hi
  fin_cases hi <;> exact eventStep_lacks (hasPort_out h)

theorem hostPortEvents_lack {k : Nat} (r : SpdmReq) (h : 2 ≤ k) :
    ∀ i ∈ [Instr.getVersion k, .getCapabilities k r, .negotiateAlgorithms k r, .getDigests k r, .getCertificate k r, .challenge k r,
      .getMeasurements k r, .keyExchange k r, .finish k r, .heartbeat k r, .keyUpdate k r, .endSession k r], exec i s = .fault .noSuchUnit := by
  intro i hi
  fin_cases hi <;> exact eventStep_lacks (hasHostPort_out h)

theorem bucketConfig_lacks {p port : Nat} (rate burst : Nat) (h : 64 ≤ p ∨ 20 ≤ port) :
    exec (.bucketConfig p port rate burst) s = .fault .noSuchUnit := eventStep_lacks (bucket_out h)
theorem egressBucketRefill_lacks {p port : Nat} (ticks : Nat) (h : 64 ≤ p ∨ 20 ≤ port) :
    exec (.egressBucketRefill p port ticks) s = .fault .noSuchUnit := eventStep_lacks (bucket_out h)

/-- A partition out of range; the last two events are of a bucket, whose test asks for the port too. -/
theorem partEvents_lack {p : Nat} (a b c : Nat) (world : Bool) (entry : Dword) (h : 64 ≤ p) :
    ∀ i ∈ [Instr.graphRegistration p a b, .graphUnregistration p a, .frescoMapChange p world a entry, .partitionSwap p, .imageRemoval p a,
      .heartbeatTimeout p, .graceExpiry p, .bucketConfig p a b c, .egressBucketRefill p a b], exec i s = .fault .noSuchUnit := by
  intro i hi
  fin_cases hi
  iterate 7 exact eventStep_lacks (part_out h)
  · exact bucketConfig_lacks b c (.inl h)
  · exact egressBucketRefill_lacks b (.inl h)

theorem partRequests_lack {p : Nat} (a b : Nat) (world : Bool) (slots : List Nat) (aid : InstallAid) (ws : List (Nat × Dword))
    (bytes key : List Byte) (what : SessionRead) (h : 64 ≤ p) :
    exec (.installRequest p world a slots aid) s = .fault .noSuchUnit ∧ exec (.shootdown p world a b ws) s = .fault .noSuchUnit
      ∧ exec (.imageLoadRequest p bytes key) s = .fault .noSuchUnit ∧ exec (.logRead p what) s = .fault .noSuchUnit :=
  have stop := part_out h
  ⟨eventStep_lacks stop, eventStep_lacks stop, eventStep_lacks stop, eventStep_lacks stop⟩

/-- Settles O60: every event is guarded by the test of its subject, which fails outside the package. -/
theorem unknownUnits : Obligations.UnknownUnits := by
  intro s stops
  refine ⟨fun c h => ⟨bundleIssue_lacks h, starvationLead_lacks h⟩,
    fun c line h => eventStep_lacks (line_out h),
    fun c k h => ctxEvents_lack k h,
    fun e h => mexEvents_lack h,
    fun e id again h => cpyEvents_lack id again h,
    fun e id blk con h => glzEvents_lack id blk con h,
    fun e again h => rtcEvents_lack again h,
    fun d n bad weak src site h => dieEvents_lack n bad weak src site h,
    fun d k point temp w h => islandEvents_lack point temp w h,
    fun k n f peer challenge h => portEvents_lack n f peer challenge h,
    fun k r h => hostPortEvents_lack r h,
    fun p a b c world entry h => partEvents_lack a b c world entry h,
    fun p a b world slots aid ws bytes key what h => partRequests_lack a b world slots aid ws bytes key what h,
    fun chg h => eventStep_lacks (part_out h),
    fun p port a b h => ⟨bucketConfig_lacks a b (.inr h), egressBucketRefill_lacks a (.inr h)⟩,
    fun a r n h => ⟨eventStep_lacks h, eventStep_lacks h⟩⟩

end Sys2Proof.Machine
end

section
/-! SUPPORT. Operating points, thermal steps, power and cooling (R387 to R390): what each event does when its condition holds, through the
rules of islands, of requests in a session, of the power limit and of the fatal stop. -/

namespace Sys2Proof.Machine

variable {s : State} {die isl : Nat}

theorem eventStep_named {named : Bool} {r : Option State} {t : State} (hn : named = true) (h : r = some t) :
    eventStep named r s = .next t := hn ▸ eventStep_fires h

/-! ## Islands -/

theorem islandIndex_lt (hi : Config.hasIsland die isl = true) : die * 8 + isl < 64 := by
  simp only [Config.hasIsland, Bool.and_eq_true, decide_eq_true_eq] at hi
  omega

theorem getIsland_eq_getElem (h : die * 8 + isl < s.islands.length) : getIsland s die isl = s.islands[die * 8 + isl] := by
  simp [getIsland, h]

theorem getIsland_setIsland_same (y : Island) (h : die * 8 + isl < s.islands.length) : getIsland (setIsland die isl y s) die isl = y := by
  simp [getIsland, setIsland, h]

theorem getIsland_map (f : Island → Island) (h : die * 8 + isl < s.islands.length) :
    getIsland { s with islands := s.islands.map f } die isl = f (getIsland s die isl) := by
  simp [getIsland, h]

theorem getIsland_mem (h : die * 8 + isl < s.islands.length) : getIsland s die isl ∈ s.islands :=
  getIsland_eq_getElem h ▸ List.getElem_mem h

/-- An event sets one island and changes nothing but the list of islands. -/
def Sets (s : State) (die isl : Nat) (i : Instr) (y : Island) : Prop :=
  ∃ t, exec i s = .next t ∧ { t with islands := s.islands } = s ∧ getIsland t die isl = y

theorem sets_of_setIsland {i : Instr} {y : Island} (hlt : die * 8 + isl < s.islands.length) (h : exec i s = .next (setIsland die isl y s)) :
    Sets s die isl i y := ⟨_, h, rfl, getIsland_setIsland_same y hlt⟩

/-! ## Requests in a session (R378) -/

theorem request_accepted {p : Nat} {r : Option State} (h : sessionOk s p = true) : request p r s = some (hear p (r.getD s)) := if_pos h

theorem losing_of_sessionOk {p : Nat} {x : Session} (h : sessionOk s p = true) (hx : assoc p s.sessions = some x) : x.losing = none := by
  simp only [sessionOk, hx, Bool.and_eq_true, Option.isNone_iff_eq_none] at h
  obtain ⟨⟨hl, -⟩, -⟩ := h
  exact hl

/-- A change of entries that keeps their keys is seen at each key. -/
theorem assoc_map {α β : Type} [DecidableEq α] {f : α × β → α × β} (hf : ∀ x, (f x).1 = x.1) (k : α) (l : List (α × β)) :
    assoc k (l.map f) = (assoc k l).map fun v => (f (k, v)).2 := by
  induction l with
  | nil => rfl
  | cons x r ih =>
    obtain ⟨a, b⟩ := x
    have hk : f (a, b) = (a, (f (a, b)).2) := Prod.ext (hf _) rfl
    rw [List.map_cons, hk]
    by_cases h : a = k
    · simp [assoc, h]
    · simp [assoc, h, ih]

/-- The session of the request hears it. -/
theorem assoc_hear {p : Nat} {x : Session} (hx : assoc p s.sessions = some x) (hl : x.losing = none) :
    assoc p (hear p s).sessions = some { x with heard := s.cycle, received := x.received + 1 } := by
  have keys : ∀ y : Nat × Session, (if y.1 = p ∧ y.2.losing.isNone = true then
      (p, { y.2 with heard := s.cycle, received := y.2.received + 1 }) else y).1 = y.1 := by
    intro y
    split
    · next h => exact h.1.symm
    · rfl
  exact (assoc_map keys p s.sessions).trans (by simp [hx, hl])

/-! ## The power limit (R389, R390) -/

theorem powerLimit_bare (h : s.power.bare = true) : powerLimit s = s.power.limit := by simp [powerLimit, h]

/-! ## The fatal stop leaves memory alone (R370) -/

@[simp] theorem setPort18_mem (k : Nat) (p : Port) (s : State) : (setPort18 k p s).mem = s.mem := rfl
@[simp] theorem sendKind_mem (kind : Nat) (nack : Bool) (k : Nat) (ps : List (List Byte)) (s : State) :
    (sendKind kind nack k ps s).mem = s.mem := rfl
@[simp] theorem freshSyndrome_mem (s : State) : (freshSyndrome s).2.mem = s.mem := rfl

theorem goViral_viral (die src addr ecc loc : Nat) (s : State) : (goViral die src addr ecc loc s).viral = true := by
  unfold goViral
  split
  · assumption
  · rfl

theorem goViral_mem (die src addr ecc loc : Nat) (s : State) : (goViral die src addr ecc loc s).mem = s.mem := by
  unfold goViral
  split
  · rfl
  · exact List.foldlRecOn (motive := fun t : State => t.mem = s.mem) _ _ rfl fun t ht k _ => by simpa using ht

/-! ## Islands: what each event sets -/

section
variable (hi : Config.hasIsland die isl = true)
include hi

theorem exec_islandControlWrite {w : SessionWord} (hs : sessionOk s w.part = true) (hv : bits w.word.toNat 7 0 ≤ 100) :
    exec (.islandControlWrite die isl w) s = .next (hear w.part (setIsland die isl
      (if bit w.word.toNat 15 then { getIsland s die isl with expert := true, setpoint := bits w.word.toNat 7 0 }
        else { getIsland s die isl with expert := false }) s)) := by
  refine eventStep_named hi ((request_accepted hs).trans ?_)
  rw [if_pos hv, Option.getD_some]

theorem exec_operatingPointChange {point : Nat} (hp : point ≤ 100)
    (he : (getIsland s die isl).expert = true → point = (getIsland s die isl).setpoint)
    (hne : (getIsland s die isl).setpoint ≠ point ∨ (getIsland s die isl).inForce ≠ point - 10 * (getIsland s die isl).steps) :
    exec (.operatingPointChange die ⟨isl, point⟩) s
      = .next (setIsland die isl { getIsland s die isl with setpoint := point, inForce := point - 10 * (getIsland s die isl).steps } s) := by
  refine eventStep_named hi (if_neg ?_)
  rintro (h | ⟨hx, h⟩ | h)
  · exact absurd h (Nat.not_lt.2 hp)
  · exact h (he hx)
  · rcases hne with hne | hne
    · exact hne (congrArg Island.setpoint h).symm
    · exact hne (congrArg Island.inForce h).symm

theorem exec_thermalStep_up {temp : Int} (hd : (getIsland s die isl).stepped + 1800000 ≤ s.cycle) (ht : 95 < temp)
    (h8 : (getIsland s die isl).steps < 8) :
    exec (.thermalStep die isl temp) s
      = .next (setIsland die isl { getIsland s die isl with steps := (getIsland s die isl).steps + 1, stepped := s.cycle } s) := by
  refine eventStep_named hi ?_
  simp [fireThermalStep, stepDown, Nat.not_lt.2 hd, ht, h8]

theorem exec_thermalStep_down {temp : Int} (hd : (getIsland s die isl).stepped + 1800000 ≤ s.cycle) (ht : temp < 90)
    (h0 : 0 < (getIsland s die isl).steps) :
    exec (.thermalStep die isl temp) s
      = .next (setIsland die isl { getIsland s die isl with steps := (getIsland s die isl).steps - 1, stepped := s.cycle } s) := by
  have hup : ¬ 95 < temp := by omega
  refine eventStep_named hi ?_
  simp [fireThermalStep, Nat.not_lt.2 hd, hup, ht, h0]

theorem exec_overtemperature {temp : Int} (ht : 110 ≤ temp) (hv : s.viral = false) :
    exec (.overtemperature die isl temp) s = .next (goViral die 9 0 0 0 s) := by
  exact eventStep_named hi (if_pos ⟨ht, by simp [hv]⟩)

end

/-! ## Package power: what each event sets -/

/-- Where an island below the expert level can be lowered, every island of that level is. -/
theorem exec_powerLimitExceeded {watts : Nat} {x : Island} (hw : powerLimit s < watts) (hx : x ∈ s.islands) (he : x.expert = false)
    (h8 : x.steps < 8) (hp : 10 * x.steps < x.setpoint) :
    exec (.powerLimitExceeded watts) s = .next { s with islands := s.islands.map fun x => if x.expert then x else stepDown x } := by
  have hlow : s.islands.any (fun x => !x.expert && canLower x) = true :=
    List.any_eq_true.2 ⟨x, hx, by simp [canLower, effective, he, h8, hp]⟩
  exact eventStep_fires ((if_neg (Nat.not_le.2 hw)).trans (if_pos hlow))

theorem sets_powerLimitExceeded {watts : Nat} (hlt : die * 8 + isl < s.islands.length) (hw : powerLimit s < watts)
    (he : (getIsland s die isl).expert = false) (h8 : (getIsland s die isl).steps < 8)
    (hp : 10 * (getIsland s die isl).steps < (getIsland s die isl).setpoint) :
    Sets s die isl (.powerLimitExceeded watts) { getIsland s die isl with steps := (getIsland s die isl).steps + 1 } := by
  refine ⟨_, exec_powerLimitExceeded hw (getIsland_mem hlt) he h8 hp, rfl, ?_⟩
  rw [getIsland_map _ hlt]
  simp [he, stepDown, Nat.succ_le_of_lt h8]

theorem exec_powerLimitSet {part watts : Nat} (hs : sessionOk s part = true) (hw : watts ≤ if s.power.bare then 2300 else 2600) :
    exec (.powerLimitSet ⟨part, watts⟩) s = .next (hear part { s with power := { s.power with limit := watts } }) := by
  refine eventStep_fires ((request_accepted hs).trans ?_)
  rw [if_pos hw, Option.getD_some]

/-! ## Readings of the coolant (R390) -/

/-- A reading of the sensors is kept, and nothing but the state of power and cooling changes; the configured limit stays. -/
def Reads (s : State) (flow inlet : Nat) (i : Instr) (more : State → Prop) : Prop :=
  ∃ t, exec i s = .next t ∧ { t with power := s.power } = s ∧ t.power.flow = flow ∧ t.power.inlet = inlet
    ∧ t.power.limit = s.power.limit ∧ more t

section
variable {flow inlet : Nat} (hb : s.power.bare = false)
include hb

/-- A reading out of range: the inlet caps the power at once, the flow after a second. -/
theorem exec_coolantFault (h : flow < 2000 ∨ 45 < inlet) :
    exec (.coolantFault flow inlet) s = .next { s with power := { s.power with
      flow := flow, inlet := inlet, low := if flow < 2000 then some (s.power.low.getD s.cycle) else none, fine := none,
      capped := s.power.capped || decide (45 < inlet)
        || (if flow < 2000 then some (s.power.low.getD s.cycle) else none).any fun t => decide (t + 1800000000 < s.cycle) } } :=
  eventStep_fires (if_pos ⟨by rw [hb]; rfl, h⟩)

theorem exec_coolantFault_low (h : flow < 2000) :
    exec (.coolantFault flow inlet) s = .next { s with power := { s.power with
      flow := flow, inlet := inlet, low := some (s.power.low.getD s.cycle), fine := none,
      capped := s.power.capped || decide (45 < inlet) || decide (s.power.low.getD s.cycle + 1800000000 < s.cycle) } } := by
  rw [exec_coolantFault hb (.inl h), if_pos h, Option.any_some]

theorem exec_coolantRestore (hf : 2000 ≤ flow) (hin : inlet ≤ 45) :
    exec (.coolantRestore flow inlet) s = .next { s with power := { s.power with
      flow := flow, inlet := inlet, low := none, fine := some (s.power.fine.getD s.cycle),
      capped := s.power.capped && decide (s.cycle < s.power.fine.getD s.cycle + 1800000000) } } :=
  eventStep_fires (if_pos ⟨by rw [hb]; rfl, hf, hin⟩)

theorem reads_warmInlet (h : 45 < inlet) :
    Reads s flow inlet (.coolantFault flow inlet) fun t => powerLimit t = min 1300 s.power.limit ∧ t.power.fine = none := by
  refine ⟨_, exec_coolantFault hb (.inr h), rfl, rfl, rfl, rfl, ?_, rfl⟩
  simp [powerLimit, hb, h]

theorem reads_lowFlow (h : flow < 2000) :
    Reads s flow inlet (.coolantFault flow inlet) fun t => t.power.low = some (s.power.low.getD s.cycle) ∧ t.power.fine = none
      ∧ (s.power.low.getD s.cycle + 1800000000 < s.cycle → powerLimit t = min 1300 s.power.limit)
      ∧ (s.cycle ≤ s.power.low.getD s.cycle + 1800000000 → inlet ≤ 45 → t.power.capped = s.power.capped) := by
  refine ⟨_, exec_coolantFault_low hb h, rfl, rfl, rfl, rfl, rfl, rfl, fun late => ?_, fun early cool => ?_⟩
  · simp [powerLimit, hb, late]
  · simp [Nat.not_lt.2 cool, Nat.not_lt.2 early]

theorem reads_inRange (hf : 2000 ≤ flow) (hin : inlet ≤ 45) :
    Reads s flow inlet (.coolantRestore flow inlet) fun t => t.power.low = none ∧ t.power.fine = some (s.power.fine.getD s.cycle)
      ∧ (s.power.fine.getD s.cycle + 1800000000 ≤ s.cycle → powerLimit t = s.power.limit)
      ∧ (s.cycle < s.power.fine.getD s.cycle + 1800000000 → t.power.capped = s.power.capped) := by
  refine ⟨_, exec_coolantRestore hb hf hin, rfl, rfl, rfl, rfl, rfl, rfl, fun late => ?_, fun early => ?_⟩
  · simp [powerLimit, Nat.not_lt.2 late]
  · simp [early]

end

/-- A bare package has no sensors of coolant (R1). -/
theorem coolant_waits_of_bare (hb : s.power.bare = true) (flow inlet : Nat) :
    exec (.coolantFault flow inlet) s = .next s ∧ exec (.coolantRestore flow inlet) s = .next s :=
  ⟨eventStep_waits (if_neg (by simp [hb])), eventStep_waits (if_neg (by simp [hb]))⟩

/-- Settles O59: each event through what it sets, the written island and the session that hears the request read back. -/
theorem powerEvents : Obligations.PowerEvents := by
  intro s die isl hi hl x sets
  have hlt : die * 8 + isl < s.islands.length := hl ▸ islandIndex_lt hi
  refine ⟨fun w hs hv => ⟨_, exec_islandControlWrite hi hs hv, rfl, getIsland_setIsland_same _ hlt, fun y hy => ?_⟩,
    fun point hp he hne => sets_of_setIsland hlt (exec_operatingPointChange hi hp he hne),
    fun hd temp => ⟨fun ht h8 => sets_of_setIsland hlt (exec_thermalStep_up hi hd ht h8),
      fun ht h0 => sets_of_setIsland hlt (exec_thermalStep_down hi hd ht h0)⟩,
    fun temp ht hv => ⟨_, exec_overtemperature hi ht hv, goViral_viral .., goViral_mem ..⟩,
    fun watts hw he h8 hp => sets_powerLimitExceeded hlt hw he h8 hp,
    fun hb flow inlet => ⟨reads_warmInlet hb, reads_lowFlow hb, reads_inRange hb⟩,
    fun hb => ⟨powerLimit_bare hb, coolant_waits_of_bare hb⟩,
    fun part watts hs hw => exec_powerLimitSet hs hw⟩
  exact assoc_hear hy (losing_of_sessionOk hs hy)

end Sys2Proof.Machine
end

section
/-! SUPPORT. The move syllable read and written (R19 to R26, R95): each field decodes to exactly the part that encodes to it, and so does the
syllable; a header reads back its fields (R16). -/

namespace Sys2Proof

/-! ## Guards (R20) -/

theorem encodeGuard_lt (g : Guard) : encodeGuard g < 7 := by cases g <;> decide

theorem decodeGuard_eq_some_iff {n : Nat} {g : Guard} : decodeGuard n = some g ↔ n = encodeGuard g := by
  constructor
  · unfold decodeGuard
    split <;> rintro ⟨⟩ <;> rfl
  · rintro rfl
    cases g <;> rfl

theorem exists_decodeGuard_iff {n : Nat} : (∃ g, decodeGuard n = some g) ↔ n < 7 := by
  simp only [decodeGuard_eq_some_iff]
  refine ⟨fun ⟨g, h⟩ => h ▸ encodeGuard_lt g, fun h => ?_⟩
  interval_cases n
  exacts [⟨.always, rfl⟩, ⟨.p1, rfl⟩, ⟨.p2, rfl⟩, ⟨.p3, rfl⟩, ⟨.notP1, rfl⟩, ⟨.notP2, rfl⟩, ⟨.notP3, rfl⟩]

/-! ## Sources (R21, R26) -/

theorem encodeSource_lt {src : Source} (h : src.wf = true) : encodeSource src < 1024 := by
  cases src with
  | latch u y =>
    have hu : u < 18 := by simpa [Source.wf] using h
    simp only [encodeSource]
    split <;> omega
  | _ => simp [Source.wf, encodeSource] at h ⊢ <;> omega

theorem decodeSource_encodeSource {src : Source} (h : src.wf = true) : decodeSource (encodeSource src) = .ok src := by
  cases src with
  | latch u y =>
    have hu : u < 18 := by simpa [Source.wf] using h
    cases y <;> simp only [decodeSource, decodeLatchSrc, encodeSource, Bool.false_eq_true, if_true, if_false] <;>
    · rw [if_neg (by omega), if_neg (by omega), if_pos (by omega), if_neg (by omega), if_neg (by omega)]
      simp
      omega
  | _ =>
    simp only [Source.wf, Bool.and_eq_true, decide_eq_true_eq] at h
    simp only [decodeSource, decodeMainSrc, decodeOperSrc, decodeImm, encodeSource]
    grind

/-- No two fields stand for one source. -/
theorem encodeSource_of_decodeSource {n : Nat} {src : Source} (hn : n < 1024) (h : decodeSource n = .ok src) :
    src.wf = true ∧ encodeSource src = n := by
  simp only [decodeSource, decodeMainSrc, decodeOperSrc, decodeLatchSrc, decodeImm] at h
  split_ifs at h <;> cases h <;> simp [Source.wf, encodeSource] <;> (try split) <;> omega

theorem exists_decodeSource_iff {n : Nat} (hn : n < 1024) : (∃ src, decodeSource n = .ok src) ↔
    n < 0x6B ∨ (0x100 ≤ n ∧ n < 0x118) ∨ (0x200 ≤ n ∧ n < 0x290 ∧ n % 8 < 2) ∨ (0x300 ≤ n ∧ n < 0x3F4) := by
  simp only [decodeSource, decodeMainSrc, decodeOperSrc, decodeLatchSrc, decodeImm]
  split_ifs <;> simp only [Except.ok.injEq, exists_eq', exists_false, true_iff, false_iff] <;> omega

/-! ## Destinations (R22 to R24) -/

/-- A port of a unit that triggers an operation (R24, R95). -/
abbrev TriggerPort (u k : Nat) : Prop := u < 18 ∧ 4 ≤ k ∧ k ≤ 3 + unitSize u

theorem unitSize_le (u : Nat) : unitSize u ≤ 28 := by
  rcases Nat.lt_or_ge u 18 with h | h
  · interval_cases u <;> decide
  · simp [unitSize, h]

theorem TriggerPort.lt {u k : Nat} (h : TriggerPort u k) : k < 32 := by
  obtain ⟨-, -, hk⟩ := h
  have := unitSize_le u
  omega

theorem decodeRegDest_encodeDest {n : Nat} {d : Dest} (h : d.wf = true) (hn : encodeDest d = 1024 + n) : decodeRegDest n = .ok d := by
  unfold decodeRegDest
  cases d <;> simp only [Dest.wf, Bool.and_eq_true, decide_eq_true_eq, encodeDest] at h hn <;> grind

theorem decodeDest_encodeDest {d : Dest} (h : d.wf = true) : decodeDest (encodeDest d) = .ok (.reg d) := by
  rcases Nat.lt_or_ge (encodeDest d) 1024 with hd | hd
  · cases d with
    | port u k =>
      simp only [Dest.wf, Bool.and_eq_true, decide_eq_true_eq] at h
      have hu : (32 * u + k) / 32 = u := by omega
      have hk : (32 * u + k) % 32 = k := by omega
      simp only [decodeDest, encodeDest, hu, hk]
      rw [if_neg (by omega), if_neg (by omega), if_pos h.2]
    | _ => simp only [encodeDest] at hd; omega
  · rw [decodeDest, if_pos hd, decodeRegDest_encodeDest h (by omega)]

theorem decodeDest_trig {u k : Nat} (h : TriggerPort u k) : decodeDest (32 * u + k) = .ok (.trig u k) := by
  have hlt := h.lt
  obtain ⟨hu, hk, hs⟩ := h
  have hd : (32 * u + k) / 32 = u := by omega
  have hm : (32 * u + k) % 32 = k := by omega
  simp only [decodeDest, hd, hm]
  rw [if_neg (by omega), if_neg (by omega), if_neg (by omega), if_pos hs]

theorem encodeDest_of_decodeRegDest {n : Nat} {d : Dest} (hn : n < 1024) (h : decodeRegDest n = .ok d) :
    d.wf = true ∧ encodeDest d = 1024 + n := by
  simp only [decodeRegDest] at h
  split_ifs at h <;> cases h <;> simp [Dest.wf, encodeDest] <;> omega

/-- No two fields stand for one register or operand port. -/
theorem encodeDest_of_decodeDest {n : Nat} {d : Dest} (hn : n < 2048) (h : decodeDest n = .ok (.reg d)) :
    d.wf = true ∧ encodeDest d = n := by
  simp only [decodeDest] at h
  split_ifs at h with h1 h2 h3 h4
  · split at h
    · next hx =>
      cases h
      obtain ⟨w, e⟩ := encodeDest_of_decodeRegDest (by omega) hx
      exact ⟨w, by omega⟩
    · cases h
  · cases h
    simp [Dest.wf, encodeDest]
    omega
  · cases h

theorem triggerPort_of_decodeDest {n u k : Nat} (h : decodeDest n = .ok (.trig u k)) : TriggerPort u k ∧ n = 32 * u + k := by
  simp only [decodeDest] at h
  split_ifs at h with h1 h2 h3 h4
  · split at h <;> cases h
  · cases h
  · cases h
    exact ⟨⟨by omega, by omega, h4⟩, by omega⟩

theorem exists_decodeRegDest_iff {n : Nat} (hn : n < 1024) : (∃ d, decodeRegDest n = .ok d) ↔ n < 0x6B ∨ (0x100 ≤ n ∧ n < 0x118) := by
  simp only [decodeRegDest]
  split_ifs <;> simp only [Except.ok.injEq, exists_eq', exists_false, true_iff, false_iff] <;> omega

theorem exists_decodeDest_iff {n : Nat} (hn : n < 2048) : (∃ d, decodeDest n = .ok d) ↔
    (n < 0x240 ∧ n % 32 < 4 + unitSize (n / 32)) ∨ (0x400 ≤ n ∧ n < 0x46B) ∨ (0x500 ≤ n ∧ n < 0x518) := by
  unfold decodeDest
  split_ifs with h1 h2 h3 h4
  · have := exists_decodeRegDest_iff (n := n - 1024) (by omega)
    cases h : decodeRegDest (n - 1024) <;> simp [h] at this ⊢ <;> omega
  all_goals
    simp only [Except.ok.injEq, exists_eq', exists_false, true_iff, false_iff]
    omega

/-! ## Triggers (R95) -/

/-- Every trigger port of the table has its instruction, which encodes to that port and is well formed where its source is. -/
theorem decodeTrig_total {u k : Nat} (h : TriggerPort u k) (g : Guard) (src : Source) :
    ∃ i, decodeTrig u k g src = some i ∧ moveParts i = some (g, src, 32 * u + k) ∧ i.wf = src.wf := by
  obtain ⟨hu, hk, hs⟩ := h
  interval_cases u <;> simp only [unitSize, List.getD_cons_zero, List.getD_cons_succ, Nat.reduceAdd] at hs <;>
    interval_cases k <;> exact ⟨_, rfl, rfl, rfl⟩

/-- A row with a syllable is a move to a register or operand port, or the instruction of a trigger port. -/
theorem moveParts_cases {i : Instr} {g : Guard} {src : Source} {f : Nat} (h : moveParts i = some (g, src, f)) :
    (∃ d, i = .move g src d ∧ f = encodeDest d) ∨ ∃ u k, TriggerPort u k ∧ f = 32 * u + k ∧ decodeTrig u k g src = some i := by
  cases i <;> cases h
  case move d => exact .inl ⟨d, rfl, rfl⟩
  all_goals exact .inr ⟨_ / 32, _ % 32, by decide, (Nat.div_add_mod _ 32).symm, rfl⟩

/-! ## Syllables (R19) -/

/-- The three fields side by side. -/
theorem packMove_fields {g : Guard} {src : Source} {f : Nat} (hs : src.wf = true) (hf : f < 2048) :
    let n := (BitVec.ofNat 24 (packMove g src f)).toNat
    n / 2 ^ 21 = encodeGuard g ∧ n / 2 ^ 11 % 1024 = encodeSource src ∧ n % 2048 = f := by
  have hg := encodeGuard_lt g
  have hs := encodeSource_lt hs
  simp only [BitVec.toNat_ofNat, packMove]
  omega

theorem packMove_eq_of_fields {w : Syllable} {g : Guard} {src : Source} {f : Nat} (h1 : encodeGuard g = w.toNat / 2 ^ 21)
    (h2 : encodeSource src = w.toNat / 2 ^ 11 % 1024) (h3 : f = w.toNat % 2048) : BitVec.ofNat 24 (packMove g src f) = w := by
  have hw := w.isLt
  apply BitVec.eq_of_toNat_eq
  simp only [BitVec.toNat_ofNat, packMove, h1, h2, h3]
  omega

/-- A syllable is a move exactly where each of its fields is legal. -/
theorem decodeMove_eq_ok_iff {w : Syllable} {i : Instr} : decodeMove w = .ok i ↔
    ∃ g src dst, decodeGuard (w.toNat / 2 ^ 21) = some g ∧ decodeSource (w.toNat / 2 ^ 11 % 1024) = .ok src
      ∧ decodeDest (w.toNat % 2048) = .ok dst ∧ Move.instr ⟨g, src, dst⟩ = some i := by
  unfold decodeMove parseMove
  cases decodeGuard (w.toNat / 2 ^ 21) <;> cases decodeSource (w.toNat / 2 ^ 11 % 1024) <;> cases decodeDest (w.toNat % 2048) <;> simp
  cases Move.instr _ <;> simp

/-- A legal destination makes an instruction of any guard and source. -/
theorem instr_isSome_of_decodeDest {n : Nat} {dst : Target} (h : decodeDest n = .ok dst) (g : Guard) (src : Source) :
    ∃ i, Move.instr ⟨g, src, dst⟩ = some i := by
  cases dst with
  | reg d => exact ⟨_, rfl⟩
  | trig u k =>
    obtain ⟨i, hi, -⟩ := decodeTrig_total (triggerPort_of_decodeDest h).1 g src
    exact ⟨i, hi⟩

theorem exists_decodeMove_iff {w : Syllable} : (∃ i, decodeMove w = .ok i) ↔
    (∃ g, decodeGuard (w.toNat / 2 ^ 21) = some g) ∧ (∃ src, decodeSource (w.toNat / 2 ^ 11 % 1024) = .ok src)
      ∧ ∃ dst, decodeDest (w.toNat % 2048) = .ok dst := by
  simp only [decodeMove_eq_ok_iff]
  constructor
  · rintro ⟨_, g, src, dst, hg, hs, hd, -⟩
    exact ⟨⟨g, hg⟩, ⟨src, hs⟩, ⟨dst, hd⟩⟩
  · rintro ⟨⟨g, hg⟩, ⟨src, hs⟩, ⟨dst, hd⟩⟩
    obtain ⟨i, hi⟩ := instr_isSome_of_decodeDest hd g src
    exact ⟨i, g, src, dst, hg, hs, hd, hi⟩

theorem encode_eq_some_iff {i : Instr} {w : Syllable} :
    encode i = some w ↔ ∃ g src f, moveParts i = some (g, src, f) ∧ BitVec.ofNat 24 (packMove g src f) = w := by
  unfold encode
  rcases moveParts i with _ | ⟨g, src, f⟩
  · simp
  · simp

/-- The parts of a well-formed instruction's syllable decode to it. -/
theorem decodeDest_of_moveParts {i : Instr} {g : Guard} {src : Source} {f : Nat} (hw : i.wf = true) (h : moveParts i = some (g, src, f)) :
    f < 2048 ∧ src.wf = true ∧ ∃ dst, decodeDest f = .ok dst ∧ Move.instr ⟨g, src, dst⟩ = some i := by
  rcases moveParts_cases h with ⟨d, rfl, rfl⟩ | ⟨u, k, hp, rfl, hi⟩
  · simp only [Instr.wf, Bool.and_eq_true] at hw
    exact ⟨Laws.encodeDest_lt d hw.2, hw.1, .reg d, decodeDest_encodeDest hw.2, rfl⟩
  · obtain ⟨j, hj, -, hwf⟩ := decodeTrig_total hp g src
    obtain rfl : i = j := Option.some.inj (hi.symm.trans hj)
    have := hp.lt
    have := hp.1
    exact ⟨by omega, hwf ▸ hw, .trig u k, decodeDest_trig hp, hi⟩

theorem decodeMove_of_encode {i : Instr} {w : Syllable} (hw : i.wf = true) (h : encode i = some w) : decodeMove w = .ok i := by
  obtain ⟨g, src, f, hp, rfl⟩ := encode_eq_some_iff.1 h
  obtain ⟨hf, hs, dst, hd, hi⟩ := decodeDest_of_moveParts hw hp
  obtain ⟨h1, h2, h3⟩ := packMove_fields (g := g) hs hf
  exact decodeMove_eq_ok_iff.2 ⟨g, src, dst, decodeGuard_eq_some_iff.2 h1, h2 ▸ decodeSource_encodeSource hs, by rwa [h3], hi⟩

/-- The instruction that a legal destination makes is well formed where its source is, and has that destination. -/
theorem moveParts_of_instr {n : Nat} {g : Guard} {src : Source} {dst : Target} {i : Instr} (hn : n < 2048) (hd : decodeDest n = .ok dst)
    (hi : Move.instr ⟨g, src, dst⟩ = some i) (hs : src.wf = true) : i.wf = true ∧ moveParts i = some (g, src, n) := by
  cases dst with
  | reg d =>
    obtain ⟨hwf, rfl⟩ := encodeDest_of_decodeDest hn hd
    cases hi
    exact ⟨by simp [Instr.wf, hs, hwf], rfl⟩
  | trig u k =>
    obtain ⟨hp, rfl⟩ := triggerPort_of_decodeDest hd
    obtain ⟨j, hj, hparts, hwf⟩ := decodeTrig_total hp g src
    obtain rfl : i = j := Option.some.inj (hi.symm.trans hj)
    exact ⟨hwf.trans hs, hparts⟩

theorem encode_of_decodeMove {i : Instr} {w : Syllable} (h : decodeMove w = .ok i) : i.wf = true ∧ encode i = some w := by
  obtain ⟨g, src, dst, hg, hs, hd, hi⟩ := decodeMove_eq_ok_iff.1 h
  obtain ⟨hwf, hsrc⟩ := encodeSource_of_decodeSource (Nat.mod_lt _ (by decide)) hs
  obtain ⟨hw, hp⟩ := moveParts_of_instr (Nat.mod_lt _ (by decide)) hd hi hwf
  exact ⟨hw, encode_eq_some_iff.2 ⟨g, src, _, hp, packMove_eq_of_fields (decodeGuard_eq_some_iff.1 hg).symm hsrc rfl⟩⟩

/-- Settles O3: encoding then decoding, and decoding then encoding, each field by its own round trip. -/
theorem encodingRoundTrip : Obligations.EncodingRoundTrip := by
  intro i w
  exact ⟨fun ⟨hw, he⟩ => decodeMove_of_encode hw he, encode_of_decodeMove⟩

/-- Settles O2: a syllable is a move exactly where its guard, its source and its destination decode, each over its own range. -/
theorem legalMoves : Obligations.LegalMoves := by
  intro w src d
  have hs : src < 1024 := Nat.mod_lt _ (by decide)
  have hd : d < 2048 := Nat.mod_lt _ (by decide)
  exact exists_decodeMove_iff.trans (and_congr exists_decodeGuard_iff (and_congr (exists_decodeSource_iff hs) (exists_decodeDest_iff hd)))

/-! ## Headers (R16) -/

theorem encodeHeader_toNat {h : Header} (hm : h.mask < 256) (ha : h.await < 256) (hl : h.longs < 4) :
    (encodeHeader h).toNat = 15 * 2 ^ 20 + h.mask * 2 ^ 12 + h.await * 16 + (if h.solo then 8 else 0) + h.longs * 2 := by
  simp only [encodeHeader, BitVec.toNat_ofNat]
  split <;> omega

theorem isHeader_encodeHeader {h : Header} (hm : h.mask < 256) (ha : h.await < 256) (hl : h.longs < 4) : isHeader (encodeHeader h) = true := by
  simp only [isHeader, encodeHeader_toNat hm ha hl, beq_iff_eq]
  split <;> omega

theorem headerFields_encodeHeader {h : Header} (hm : h.mask < 256) (ha : h.await < 256) (hl : h.longs < 4) :
    headerFields (encodeHeader h) = h := by
  obtain ⟨mask, await, solo, longs⟩ := h
  simp only [headerFields, encodeHeader_toNat hm ha hl, bit, Header.mk.injEq] at hm ha hl ⊢
  cases solo <;> simp only [Bool.false_eq_true, if_true, if_false, beq_iff_eq, beq_eq_false_iff_ne] <;> omega

theorem bit_zero_encodeHeader {h : Header} (hm : h.mask < 256) (ha : h.await < 256) (hl : h.longs < 4) :
    bit (encodeHeader h).toNat 0 = false := by
  simp only [bit, encodeHeader_toNat hm ha hl, beq_eq_false_iff_ne]
  split <;> omega

theorem decodeHeader_encodeHeader {h : Header} (hm : h.mask < 256) (ha : h.await < 256) (hl : h.longs < 3) :
    decodeHeader (encodeHeader h) = .ok h := by
  have hl4 : h.longs < 4 := by omega
  simp only [decodeHeader, isHeader_encodeHeader hm ha hl4, headerFields_encodeHeader hm ha hl4, bit_zero_encodeHeader hm ha hl4]
  simp
  omega

theorem slotsOf_eq (mask : Nat) : slotsOf mask = (List.range 8).filter fun k => mask.testBit k := by
  simp only [slotsOf, Nat.testBit_eq_decide_div_mod_eq]
  rfl

/-- Settles O1: each word by running the decoder; a header by reading its fields back. -/
theorem wordsDecode : Obligations.WordsDecode := by
  refine ⟨⟨rfl, rfl, rfl, rfl, rfl, rfl, rfl, rfl, rfl, rfl, rfl, rfl, rfl, rfl, rfl, rfl, rfl, rfl, rfl, rfl, rfl⟩, fun h hm ha hl => ?_⟩
  exact ⟨decodeHeader_encodeHeader hm ha hl, by rw [Header.length, slotsOf_eq]⟩

end Sys2Proof
end

section
/-! SUPPORT. The bundle of one legal move, to a register, an operand port or a trigger, and whether its guard passes or not (R19, R20, R31, R34):
which moves take effect, that no fault stops it, which trap does, and the state that follows. The laws of one trigger whose guard passes stand in
Laws/Ops. -/

namespace Sys2Proof.Machine

/-- The bundle of one legal move with the header fields and long immediates under selection. -/
def oneMove (s : State) (g : Guard) (src : Source) (dst : Target) (field : Nat) (op : Option OpDef) : Bundle :=
  lone s ⟨s.sel.slot, some g, .ok src, .ok dst, field, op⟩
/-- Its move, legal throughout. -/
def liveMove (s : State) (g : Guard) (src : Source) (dst : Target) (field : Nat) (op : Option OpDef) : Live := ⟨s.sel.slot, g, src, dst, field, op⟩

section
variable {s : State} {g : Guard} {src : Source} {dst : Target} {d : Dest} {field : Nat} {op : Option OpDef} {c : Ctx} {b : Bundle}

theorem issueMove_attempt : issueMove g src d s = attempt s.sel.who (.got (oneMove s g src (.reg d) (encodeDest d) none)) s := rfl
theorem issueOne_attempt_oneMove (o : OpDef) :
    issueOne o field g src s = attempt s.sel.who (.got (oneMove s g src (.trig (field / 32) (field % 32)) field (some o))) s := rfl

/-! ## The moves of the bundle -/

theorem live_oneMove : (oneMove s g src dst field op).moves.filterMap SlotMove.live = [liveMove s g src dst field op] := rfl

theorem passing_oneMove (h : guardPasses c g = true) : passing c (oneMove s g src dst field op) = [liveMove s g src dst field op] := by
  simp [passing, live_oneMove, liveMove, h]
theorem passing_oneMove_held (h : guardPasses c g = false) : passing c (oneMove s g src dst field op) = [] := by
  simp [passing, live_oneMove, liveMove, h]

theorem guardTraps_oneMove (h : guardPoisoned c g = false) : guardTraps c (oneMove s g src dst field op) = [] := by
  simp [guardTraps, live_oneMove, liveMove, h]
theorem guardTraps_oneMove_poisoned (h : guardPoisoned c g = true) :
    guardTraps c (oneMove s g src dst field op) = [(s.sel.slot, poisonTrap c 1 s.sel.slot)] := by
  simp [guardTraps, live_oneMove, liveMove, h]

theorem length_oneMove (h : s.sel.slot < 8) : (oneMove s g src dst field op).hdr.length = oneLen s := by
  have : (slotsOf (2 ^ s.sel.slot)).length = 1 := by
    generalize s.sel.slot = k at h
    interval_cases k <;> decide
  simp [oneMove, lone, Header.length, oneLen, this]

/-! ## Faults of the bits (R29, R32 to R34) -/

/-- One move exceeds no bank limit. -/
theorem bankFault_singleton (m : SlotMove) : bankFault [m] [] [] = none := by
  simp only [bankFault]
  cases m.reads <;> cases m.writes <;> simp [inBank]

theorem encFault_oneMove (hq : Quiet s) (hl : longNeed src ≤ s.sel.longs.length) : encFault (oneMove s g src dst field op) = none := by
  obtain ⟨-, -, -, -, hlen, hpc, -⟩ := hq
  simp only [own] at hpc
  simp [encFault, oneMove, lone, bankFault_singleton, SlotMove.illegal, SlotMove.dup, badField, hlen, hl]
  simpa using hpc

/-- There is room for what a move costs (R52, R53). -/
def Affords (s : State) (m : Live) : Prop := Room s m.cost.1 m.cost.2.1 m.cost.2.2

theorem capFault_singleton {m : Live} (h : Affords s m) :
    capFault [m] (bufferUse (view s) (view s).bclk, flightVecs (view s) (view s).bclk, flightScs (view s) (view s).bclk) = none := by
  obtain ⟨hland, hvec, hsc⟩ := h
  simp only [capFault]
  rw [if_neg, if_neg, if_neg] <;> rintro ⟨hover, hpos⟩
  · have := hsc hpos; omega
  · have := hvec hpos; omega
  · have := hland hpos; omega

theorem bitsTrap_oneMove (hq : Quiet s) (hl : longNeed src ≤ s.sel.longs.length)
    (hcap : capFault (passing (view s) (oneMove s g src dst field op))
      (bufferUse (view s) (view s).bclk, flightVecs (view s) (view s).bclk, flightScs (view s) (view s).bclk) = none) :
    bitsTrap (view s) (oneMove s g src dst field op) =
      if (liveMove s g src dst field op).ty.takes (srcTy (view s) src) then none else some ⟨0x03, s.sel.slot, field⟩ := by
  have hsig : (oneMove s g src dst field op).sig = true := rfl
  have hunit : (oneMove s g src dst field op).moves.find? (fun m => (badUnit m.src).isSome || (badUnit m.dst).isSome) = none := rfl
  simp only [bitsTrap, hsig, encFault_oneMove hq hl, hcap, hunit, live_oneMove, List.find?_singleton, Live.mismatch,
    show (liveMove s g src dst field op).src = src from rfl]
  cases (liveMove s g src dst field op).ty.takes (srcTy (view s) src) <;> rfl

/-! ## The verdict (R34, R55 to R57) -/

theorem quiet_slot (hq : Quiet s) : s.sel.slot < 8 := by
  obtain ⟨-, -, -, hslot, -⟩ := hq
  exact hslot

theorem awaited_oneMove (hq : Quiet s) : awaited (own s) (oneMove s g src dst field op) = 0 := by
  obtain ⟨-, htwait, hawait, -⟩ := hq
  simp [awaited, oneMove, lone, htwait, hawait]

/-- Nothing but the bundle itself decides: it awaits no token, and no cause before its bits is pending. -/
theorem judge_quiet (hq : Quiet s) (hblk : blocked s (view s)
      (triggers s.sel.who (oneMove s g src dst field op) (view s) (passing (view s) (oneMove s g src dst field op))) = false) :
    (∀ t, bitsTrap (view s) (oneMove s g src dst field op) = some t → judge s s.sel.who (.got (oneMove s g src dst field op)) = .trap t (own s))
    ∧ (bitsTrap (view s) (oneMove s g src dst field op) = none → replayNames (view s) (passing (view s) (oneMove s g src dst field op)) = [] →
      judge s s.sel.who (.got (oneMove s g src dst field op)) = .go) := by
  have hnone := awaited_oneMove (g := g) (src := src) (dst := dst) (field := field) (op := op) hq
  obtain ⟨hawake, -, -, -, -, -, houter, hreplay, -⟩ := hq
  have hown : getCtx s s.sel.who = own s := rfl
  have hview : seen (own s) = view s := rfl
  constructor
  · intro t ht
    simp [judge, hown, hview, hawake, hnone, tokensClear_zero, hblk, houter, ht]
  · intro ht hr
    simp [judge, hown, hview, hawake, hnone, tokensClear_zero, hblk, houter, ht, hreplay, hr, tokenError_zero]

theorem blocked_nil : blocked s c [] = false := by simp [blocked]

/-! ## The end of the bundle -/

/-- The end of a bundle in a context that goes on, with no LINK to settle and no handler ending. -/
theorem finish_oneMove {t : State} {fields : List Nat} (h : s.sel.slot < 8) (hrun : (getCtx t s.sel.who).run = .runnable)
    (hrft : (getCtx t s.sel.who).rft = none) (hlink : linkReach (getCtx t s.sel.who) ((view s).bclk + 1) fields = none) :
    finish s.sel.who (oneMove s g src dst field op) (view s) fields t = goOn s t := by
  have hh : (oneMove s g src dst field op).h = (own s).pc := rfl
  simp only [finish, hrun, length_oneMove h, hh, goOn, advance, hlink, flowAfter]
  cases hr : redirectAt (getCtx t s.sel.who) ((view s).bclk + 1) with
  | some r => simp [hrft]
  | none => by_cases hc : (loopStep (view s) (own s).pc).2 = true <;> simp [hc, hrft]

theorem linkReach_nil (q : Nat) : linkReach c q [] = none := by simp [linkReach]

section
variable (hq : Quiet s) (hgo : judge s s.sel.who (.got (oneMove s g src dst field op)) = .go)
  (htr : triggers s.sel.who (oneMove s g src dst field op) (view s) (passing (view s) (oneMove s g src dst field op)) = [])
include hgo htr

include hq in
/-- Nothing traps: the context goes on from what the bundle begins with. -/
theorem attempt_goes_on (hb : begin (oneMove s g src dst field op) (view s) (passing (view s) (oneMove s g src dst field op)) = .ok c)
    (hf : trigFields (passing (view s) (oneMove s g src dst field op)) = []) (hp : guardPoisoned (view s) g = false)
    (hrun : c.run = .runnable) (hrft : c.rft = none) :
    attempt s.sel.who (.got (oneMove s g src dst field op)) s = setCtx s.sel.who (advance s c) s := by
  have hview : seen (getCtx s s.sel.who) = view s := rfl
  have hnone : awaited (getCtx s s.sel.who) (oneMove s g src dst field op) = 0 := awaited_oneMove hq
  simp only [attempt, hgo, perform, performed, hview, hb, htr, runOps, guardTraps_oneMove hp, lowest, sortBy, List.foldl_nil,
    List.head?_nil, Option.map_none, hnone, hf]
  rw [acquire_none _ _ _ (by intro p; simp [bit_zero]),
    finish_oneMove (quiet_slot hq) (by simpa using hrun) (by simpa using hrft) (linkReach_nil _)]
  simp [goOn]

/-- A guard on a poisoned predicate traps (R20, R64), whatever else the bundle does. -/
theorem attempt_poisoned_guard (hb : begin (oneMove s g src dst field op) (view s) (passing (view s) (oneMove s g src dst field op)) = .ok c)
    (hp : guardPoisoned (view s) g = true) (hs : (own s).snap = none) :
    attempt s.sel.who (.got (oneMove s g src dst field op)) s = trapped s (poisonTrap (view s) 1 s.sel.slot) := by
  have hview : seen (getCtx s s.sel.who) = view s := rfl
  simp only [attempt, hgo, perform, performed, hview, hb, htr, runOps, guardTraps_oneMove_poisoned hp, lowest, sortBy, List.foldl_cons,
    List.foldl_nil, insertBy, List.head?_cons, Option.map_some]
  exact trapEnter_free s _ hs

/-- No storage is left for a vector name the move writes (R240). -/
theorem attempt_no_storage {n : Nat} (hb : begin (oneMove s g src dst field op) (view s) (passing (view s) (oneMove s g src dst field op)) = .error n)
    (hp : guardPoisoned (view s) g = false) (hs : (own s).snap = none) :
    attempt s.sel.who (.got (oneMove s g src dst field op)) s
      = trapped s (quotaTrap (view s) (passing (view s) (oneMove s g src dst field op)) n).2 := by
  have hview : seen (getCtx s s.sel.who) = view s := rfl
  simp only [attempt, hgo, perform, performed, hview, hb, htr, runOps, guardTraps_oneMove hp, lowest, sortBy, List.nil_append,
    List.foldl_cons, List.foldl_nil, insertBy, List.head?_cons, Option.map_some]
  exact trapEnter_free s _ hs

end

end

end Sys2Proof.Machine
end

section
/-! SUPPORT. Moves that take no effect (R20, R31, R64, R65): every row with a syllable issues the bundle of its one move, and so the guard and the
type decide for all rows alike. -/

namespace Sys2Proof.Machine

/-! ## What a row with a syllable runs -/

/-- The operation of a trigger port is that of the row whose syllable names the port (R24, R95). -/
theorem exec_of_moveParts {i : Instr} {g : Guard} {src : Source} {f : Nat} (h : moveParts i = some (g, src, f)) :
    (∃ d, i = .move g src d ∧ f = encodeDest d)
      ∨ ∃ u k op, TriggerPort u k ∧ f = 32 * u + k ∧ opOfField f = some op ∧ ∀ s, exec i s = .next (issueOne op f g src s) := by
  cases i <;> cases h
  case move d => exact .inl ⟨d, rfl, rfl⟩
  all_goals exact .inr ⟨_ / 32, _ % 32, _, by decide, (Nat.div_add_mod _ 32).symm, rfl, fun _ => rfl⟩

/-- A well-formed row with a syllable makes one attempt at the bundle of its one move. -/
theorem exec_eq_attempt {i : Instr} {g : Guard} {src : Source} {f : Nat} (hw : i.wf = true) (h : moveParts i = some (g, src, f)) :
    ∃ dst, decodeDest f = .ok dst
      ∧ ∀ s, exec i s = .next (attempt s.sel.who (.got (oneMove s g src dst f (opOf opOfField (.ok dst) f))) s) := by
  rcases exec_of_moveParts h with ⟨d, rfl, rfl⟩ | ⟨u, k, op, hp, rfl, hop, he⟩
  · simp only [Instr.wf, Bool.and_eq_true] at hw
    exact ⟨.reg d, decodeDest_encodeDest hw.2, fun _ => rfl⟩
  · refine ⟨.trig u k, decodeDest_trig hp, fun s => ?_⟩
    have hlt := hp.lt
    have hu : (32 * u + k) / 32 = u := by omega
    have hk : (32 * u + k) % 32 = k := by omega
    rw [he, issueOne_attempt_oneMove]
    simp only [hu, hk, opOf, hop]

/-! ## The context after a bundle that does nothing -/

/-- Going on from a bundle changes the position, the address and the redirects that are past. -/
theorem advance_eq (s : State) (c : Ctx) :
    ∃ p v r, advance s c = { c with bclk := (own s).bclk + 1, pc := p, via := v, redirects := r } := by
  rw [← view_bclk]
  simp only [advance]
  split
  · exact ⟨_, _, _, rfl⟩
  · split <;> exact ⟨_, _, _, rfl⟩

theorem advance_kept {α : Type} (f : Ctx → α) (h : ∀ c q p v r, f { c with bclk := q, pc := p, via := v, redirects := r } = f c)
    (s : State) (c : Ctx) : f (advance s c) = f c := by
  obtain ⟨p, v, r, he⟩ := advance_eq s c
  rw [he, h]

theorem advance_bclk (s : State) (c : Ctx) : (advance s c).bclk = (own s).bclk + 1 := by
  obtain ⟨p, v, r, he⟩ := advance_eq s c
  rw [he]

theorem regsKept_advance {s : State} {c d : Ctx} (h : RegsKept c d) : RegsKept c (advance s d) := by
  obtain ⟨p, v, r, he⟩ := advance_eq s d
  rw [he]
  exact h

theorem specialsKept_advance {s : State} {c d : Ctx} (h : SpecialsKept c d) : SpecialsKept c (advance s d) := by
  obtain ⟨p, v, r, he⟩ := advance_eq s d
  rw [he]
  exact h

theorem othersKept_setCtx (s : State) (x : Ctx) : OthersKept s (setCtx s.sel.who x s) := ⟨rfl, fun _ hk => getCtx_setCtx_ne x s hk⟩

/-- A bundle's own effects on the flow, apart from its moves: TWAIT's tokens are awaited, and a LOOPEND bundle counts down (R56, R62). -/
def flowed (s : State) (c : Ctx) : Ctx :=
  { c with twait := 0, touchLost := none, replayTrap := none, loopCnt := (loopStep (view s) (own s).pc).1 }

section
variable {s : State} {g : Guard} {src : Source} {dst : Target} {field : Nat} {op : Option OpDef}

theorem quiet_run (hq : Quiet s) : (view s).run = .runnable := by
  have := entry_run (.short 0) hq
  rwa [entry_kept Ctx.run (fun _ _ _ => rfl) s _ (fun _ => rfl)] at this

theorem quiet_rft (hq : Quiet s) : (view s).rft = none := by
  obtain ⟨-, -, -, -, -, -, -, -, hrft⟩ := hq
  exact hrft

theorem begin_held (h : guardPasses (view s) g = false) :
    begin (oneMove s g src dst field op) (view s) (passing (view s) (oneMove s g src dst field op)) = .ok (flowed s (view s)) := by
  rw [passing_oneMove_held h]
  rfl

/-- A move of a type its destination takes whose guard fails stops nothing before the operations. -/
theorem judge_held (hq : Quiet s) (hg : guardPasses (view s) g = false) (hl : longNeed src ≤ s.sel.longs.length) (ht : srcTy (view s) src = .s) :
    judge s s.sel.who (.got (oneMove s g src dst field op)) = .go := by
  have hp := passing_oneMove_held (s := s) (src := src) (dst := dst) (field := field) (op := op) hg
  refine (judge_quiet hq ?_).2 ?_ ?_
  · rw [hp]
    exact blocked_nil
  · rw [bitsTrap_oneMove hq hl (by rw [hp]; rfl), ht]
    simp [Ty.takes]
  · rw [hp]
    rfl

theorem attempt_held (hq : Quiet s) (hg : guardPasses (view s) g = false) (hp : guardPoisoned (view s) g = false)
    (hl : longNeed src ≤ s.sel.longs.length) (ht : srcTy (view s) src = .s) :
    attempt s.sel.who (.got (oneMove s g src dst field op)) s = setCtx s.sel.who (advance s (flowed s (view s))) s := by
  have hms := passing_oneMove_held (s := s) (src := src) (dst := dst) (field := field) (op := op) hg
  exact attempt_goes_on hq (judge_held hq hg hl ht) (by rw [hms]; rfl) (begin_held hg) (by rw [hms]; rfl) hp (quiet_run hq) (quiet_rft hq)

theorem attempt_held_poisoned (hq : Quiet s) (hg : guardPasses (view s) g = false) (hp : guardPoisoned (view s) g = true)
    (hl : longNeed src ≤ s.sel.longs.length) (ht : srcTy (view s) src = .s) (hs : (own s).snap = none) :
    attempt s.sel.who (.got (oneMove s g src dst field op)) s = trapped s (poisonTrap (view s) 1 s.sel.slot) := by
  have hms := passing_oneMove_held (s := s) (src := src) (dst := dst) (field := field) (op := op) hg
  exact attempt_poisoned_guard (judge_held hq hg hl ht) (by rw [hms]; rfl) (begin_held hg) hp hs

/-- A register move costs one result at most. -/
theorem affords_reg {d : Dest} (h : Room s 0 1 1) : Affords s (liveMove s g src (.reg d) field op) := by
  obtain ⟨-, hv, hs⟩ := h
  cases d <;> simp_all [Affords, Room, Live.cost, liveMove, destTy]

/-- A source of another type than the destination traps, whether the guard passes or not (R31). -/
theorem issueMove_mismatch {d : Dest} (hq : Quiet s) (hl : longNeed src ≤ s.sel.longs.length) (hne : srcTy (view s) src ≠ .s)
    (hd : srcTy (view s) src ≠ destTy d) (hr : Room s 0 1 1) (hs : (own s).snap = none) :
    issueMove g src d s = trapped s ⟨0x03, s.sel.slot, encodeDest d⟩ := by
  have htr : triggers s.sel.who (oneMove s g src (.reg d) (encodeDest d) none) (view s)
      (passing (view s) (oneMove s g src (.reg d) (encodeDest d) none)) = [] := by
    cases hg : guardPasses (view s) g with
    | true => rw [passing_oneMove hg]; rfl
    | false => rw [passing_oneMove_held hg]; rfl
  have hcap : capFault (passing (view s) (oneMove s g src (.reg d) (encodeDest d) none))
      (bufferUse (view s) (view s).bclk, flightVecs (view s) (view s).bclk, flightScs (view s) (view s).bclk) = none := by
    cases hg : guardPasses (view s) g with
    | true => rw [passing_oneMove hg]; exact capFault_singleton (affords_reg hr)
    | false => rw [passing_oneMove_held hg]; rfl
  have hty : (liveMove s g src (.reg d) (encodeDest d) none).ty.takes (srcTy (view s) src) = false := by
    show (destTy d).takes _ = false
    simp [Ty.takes, hne, hd]
  have hjudge := (judge_quiet hq (by rw [htr]; exact blocked_nil)).1 _ ((bitsTrap_oneMove hq hl hcap).trans (by rw [hty]; rfl))
  have hown : getCtx (setCtx s.sel.who (own s) s) s.sel.who = own s := getCtx_setCtx_same _ _ _
  rw [issueMove_attempt]
  simp only [attempt, hjudge, trapEnter, hown, hs, trapped, updCtx, setCtx_setCtx]
  simp

end

/-- Settles O9: a held move leaves what its bundle begins with, but for the flow that follows; a poisoned guard and a mismatch trap. -/
theorem movesHeldBack : Obligations.MovesHeldBack := by
  refine ⟨fun s i g src f hi hw hq hg hp hl ht => ?_, fun s i g src f hi hw hq hg hp hl ht hs => ?_,
    fun s g src d hq hl hne hd hr hs _ => ?_⟩
  · obtain ⟨dst, -, he⟩ := exec_eq_attempt hw hi
    refine ⟨_, (he s).trans (by rw [attempt_held hq hg hp hl ht]), othersKept_setCtx s _, ?_⟩
    rw [getCtx_setCtx_same]
    exact ⟨regsKept_advance ⟨rfl, rfl, rfl, rfl, rfl, fun _ => rfl, rfl, rfl⟩,
      specialsKept_advance ⟨rfl, rfl, rfl, rfl, rfl, rfl, rfl, rfl, rfl, rfl, rfl, rfl, rfl⟩,
      advance_kept Ctx.flight (fun _ _ _ _ _ => rfl) s _, advance_kept Ctx.landing (fun _ _ _ _ _ => rfl) s _, advance_bclk s _⟩
  · obtain ⟨dst, -, he⟩ := exec_eq_attempt hw hi
    rw [he s, attempt_held_poisoned hq hg hp hl ht hs]
    rfl
  · exact congrArg _ (issueMove_mismatch hq hl hne hd hr hs)

end Sys2Proof.Machine
end

section
/-! SUPPORT. A register or port move that its guard lets through (R25, R31, R47): where its value goes, and the storage that a vector name takes
when its bundle issues (R239 to R241). -/

namespace Sys2Proof.Machine

/-! ## Insertion sort -/

section
variable {α : Type} {key : α → Nat}

theorem mem_insertBy {x y : α} {l : List α} : y ∈ insertBy key x l ↔ y = x ∨ y ∈ l := by
  induction l with
  | nil => simp [insertBy]
  | cons z r ih =>
    simp only [insertBy]
    split
    · simp
    · simp only [List.mem_cons, ih]
      tauto

theorem sortBy_append_singleton (l : List α) (x : α) : sortBy key (l ++ [x]) = insertBy key x (sortBy key l) := by simp [sortBy]

theorem mem_sortBy {y : α} {l : List α} : y ∈ sortBy key l ↔ y ∈ l := by
  induction l using List.reverseRecOn with
  | nil => simp [sortBy]
  | append_singleton l x ih => rw [sortBy_append_singleton, mem_insertBy, ih, List.mem_append, List.mem_singleton, or_comm]

/-- What stands before what after sorting: the smaller key, and of equals the one that came first. -/
def Before (key : α → Nat) (r : α → α → Prop) (a b : α) : Prop := key a < key b ∨ (key a = key b ∧ r a b)

theorem pairwise_insertBy {r : α → α → Prop} {x : α} {l : List α} (hl : l.Pairwise (Before key r)) (hx : ∀ y ∈ l, r y x) :
    (insertBy key x l).Pairwise (Before key r) := by
  induction l with
  | nil => simp [insertBy]
  | cons z l ih =>
    obtain ⟨hz, hl⟩ := List.pairwise_cons.1 hl
    simp only [insertBy]
    split
    · next hlt =>
      refine List.pairwise_cons.2 ⟨fun y hy => ?_, List.pairwise_cons.2 ⟨hz, hl⟩⟩
      rcases List.mem_cons.1 hy with rfl | hy
      · exact .inl hlt
      · rcases hz y hy with h | ⟨h, -⟩
        · exact .inl (hlt.trans h)
        · exact .inl (h ▸ hlt)
    · next hge =>
      refine List.pairwise_cons.2 ⟨fun y hy => ?_, ih hl fun y hy => hx y (List.mem_cons_of_mem _ hy)⟩
      rcases mem_insertBy.1 hy with rfl | hy
      · rcases Nat.lt_or_eq_of_le (Nat.not_lt.1 hge) with h | h
        · exact .inl h
        · exact .inr ⟨h, hx z List.mem_cons_self⟩
      · exact hz y hy

/-- The sort is stable. -/
theorem pairwise_sortBy {r : α → α → Prop} {l : List α} (h : l.Pairwise r) : (sortBy key l).Pairwise (Before key r) := by
  induction l using List.reverseRecOn with
  | nil => simp [sortBy]
  | append_singleton l x ih =>
    obtain ⟨hl, -, hx⟩ := List.pairwise_append.1 h
    rw [sortBy_append_singleton]
    exact pairwise_insertBy (ih hl) fun y hy => hx y (mem_sortBy.1 hy) x (List.mem_singleton.2 rfl)

theorem sortBy_head_min {r : α → α → Prop} {l : List α} {k : α} (h : l.Pairwise r) (hk : (sortBy key l).head? = some k) :
    ∀ m ∈ l, m = k ∨ Before key r k m := by
  intro m hm
  obtain ⟨t, ht⟩ := List.head?_eq_some_iff.1 hk
  have hs := pairwise_sortBy (key := key) h
  rw [ht] at hs
  rcases List.mem_cons.1 (ht ▸ mem_sortBy.2 hm) with rfl | hm
  · exact .inl rfl
  · exact .inr ((List.pairwise_cons.1 hs).1 m hm)

end

/-! ## Vector names -/

section
variable {c : Ctx} {n m k : Nat} {x : VName}

theorem getV_setV_ne (h : m ≠ n) : getV (setV n x c) m = getV c m := by
  simp [getV, setV, List.getElem?_set_ne h.symm]

theorem getV_setV_same (h : n < c.v.length) : getV (setV n x c) n = x := by simp [getV, setV, h]

/-- A name that holds anything lies in the file. -/
theorem lt_of_getV_st (h : (getV c n).st ≠ .unwritten) : n < c.v.length := by
  by_contra hn
  exact h (by simp [getV, Nat.not_lt.1 hn, VName.unwritten])

/-- Changing the last access of a name changes nothing else of any name. -/
theorem getV_setV_access (n m a : Nat) (c : Ctx) : ∃ b, getV (setV n { getV c n with access := a } c) m = { getV c m with access := b } := by
  by_cases hm : m = n
  · subst hm
    rcases Nat.lt_or_ge m c.v.length with h | h
    · exact ⟨a, getV_setV_same h⟩
    · exact ⟨(getV c m).access, by simp [getV, setV, List.set_eq_of_length_le h]⟩
  · exact ⟨(getV c m).access, getV_setV_ne hm⟩

theorem getV_touchNames (ns : List Nat) (m : Nat) (c : Ctx) : ∃ b, getV (touchNames ns c) m = { getV c m with access := b } := by
  unfold touchNames
  induction ns generalizing c with
  | nil => exact ⟨_, rfl⟩
  | cons n r ih =>
    obtain ⟨b, hb⟩ := ih (setV n { getV c n with access := c.bclk } c)
    obtain ⟨a, ha⟩ := getV_setV_access n m c.bclk c
    exact ⟨b, by rw [List.foldl_cons, hb, ha]⟩

theorem touchNames_eq (ns : List Nat) (c : Ctx) : touchNames ns c = { c with v := (touchNames ns c).v } := by
  unfold touchNames
  induction ns generalizing c with
  | nil => rfl
  | cons n r ih => rw [List.foldl_cons, ih]; rfl

theorem readV_of_getV {c d : Ctx} {b : Nat} (h : getV d m = { getV c m with access := b }) : readV d m = readV c m := by
  simp only [readV, h]

theorem evictee_droppable {busy : List Nat} (h : evictee c busy = some k) : droppable c busy k = true := by
  obtain ⟨t, ht⟩ := List.head?_eq_some_iff.1 h
  have hk : k ∈ (List.range 32).filter (droppable c busy) := mem_sortBy.1 (ht ▸ List.mem_cons_self)
  exact (List.mem_filter.1 hk).2

/-- The evicted name is the one accessed longest ago, the lowest number among equals (R241). -/
theorem evictee_min {busy : List Nat} (h : evictee c busy = some k) (hm : droppable c busy m = true) (hm32 : m < 32) :
    (getV c k).access < (getV c m).access ∨ ((getV c k).access = (getV c m).access ∧ k ≤ m) := by
  have hlt : ((List.range 32).filter (droppable c busy)).Pairwise (· < ·) := List.pairwise_lt_range.filter _
  rcases sortBy_head_min hlt h m (List.mem_filter.2 ⟨List.mem_range.2 hm32, hm⟩) with rfl | h | ⟨h, hle⟩
  · exact .inr ⟨rfl, le_rfl⟩
  · exact .inl h
  · exact .inr ⟨h, hle.le⟩

theorem droppable_resident {busy : List Nat} (h : droppable c busy n = true) : (getV c n).st = .resident := by
  simp only [droppable, Bool.and_eq_true, beq_iff_eq] at h
  obtain ⟨⟨⟨⟨⟨hst, -⟩, -⟩, -⟩, -⟩, -⟩ := h
  exact hst

end

/-! ## What the bundle begins with -/

section
variable {s : State} {g : Guard} {src : Source} {d : Dest} {field : Nat} {op : Option OpDef} {n : Nat}

/-- A register result of a move: where, after how many bundles, of the destination's type (R31, R47). -/
def moveResult (s : State) (dst : FlightDst) (lat : Nat) (ty : Ty) (src : Source) : Flight :=
  ⟨(view s).bclk + lat, dst, brought s ty src, 0, 0, (view s).bclk⟩

theorem busyNames_reg (hd : ∀ n, d ≠ .v n) : busyNames [liveMove s g src (.reg d) field none] = readNames src := by
  have hr : vReads [liveMove s g src (.reg d) field none] = readNames src := by cases src <;> rfl
  have hw : vWrites [liveMove s g src (.reg d) field none] = [] := by
    cases d with
    | v n => exact absurd rfl (hd n)
    | _ => rfl
  rw [busyNames, hr, hw, List.append_nil]

/-- Without a vector name to write, the move and the ports take effect, and then the names it reads have been accessed. -/
theorem begin_reg (hd : ∀ n, d ≠ .v n) : begin (oneMove s g src (.reg d) field none) (view s) [liveMove s g src (.reg d) field none]
    = .ok (flowed s (touchNames (readNames src) (withPorts s.sel.longs
        (moveFlight s.sel.longs (view s) (liveMove s g src (.reg d) field none) (view s)) [liveMove s g src (.reg d) field none]))) := by
  have hbusy := busyNames_reg (s := s) (g := g) (src := src) (field := field) hd
  cases d with
  | v n => exact absurd rfl (hd n)
  | _ => simp only [begin, hbusy]; rfl

/-- Accesses are noted beside what a bundle writes. -/
theorem touchNames_setPort (ns : List Nat) (u k : Nat) (v : Val) (c : Ctx) : touchNames ns (setPort u k v c) = setPort u k v (touchNames ns c) := by
  unfold touchNames
  induction ns generalizing c with
  | nil => rfl
  | cons n r ih => exact ih (setV n { getV c n with access := c.bclk } c)
theorem touchNames_inFlight (ns : List Nat) (fs : List Flight) (c : Ctx) : touchNames ns (inFlight fs c) = inFlight fs (touchNames ns c) := by
  unfold touchNames
  induction ns generalizing c with
  | nil => rfl
  | cons n r ih => exact ih (setV n { getV c n with access := c.bclk } c)

theorem begin_port (u k : Nat) : begin (oneMove s g src (.reg (.port u k)) field none) (view s) [liveMove s g src (.reg (.port u k)) field none]
    = .ok (setPort u k (brought s (portTy u k) src) (entry s src)) := by
  have hp : withPorts s.sel.longs (moveFlight s.sel.longs (view s) (liveMove s g src (.reg (.port u k)) field none) (view s))
    [liveMove s g src (.reg (.port u k)) field none] = setPort u k (brought s (portTy u k) src) (view s) := rfl
  rw [begin_reg (by simp), hp, touchNames_setPort]
  rfl

theorem begin_flight {dst : FlightDst} {lat : Nat} (hd : destFlight d = some (dst, lat)) (hv : ∀ n, d ≠ .v n) :
    begin (oneMove s g src (.reg d) field none) (view s) [liveMove s g src (.reg d) field none]
      = .ok (inFlight [moveResult s dst lat (destTy d) src] (entry s src)) := by
  have hf : withPorts s.sel.longs (moveFlight s.sel.longs (view s) (liveMove s g src (.reg d) field none) (view s))
      [liveMove s g src (.reg d) field none] = inFlight [moveResult s dst lat (destTy d) src] (view s) := by
    cases d with
    | port => cases hd
    | _ => cases hd; rfl
  rw [begin_reg hv, hf, touchNames_inFlight]
  rfl

/-- What the bundle of a move to a vector name begins with, from the context in which the name has its storage. -/
def beginV (s : State) (src : Source) (n : Nat) (c : Ctx) : Ctx :=
  flowed s (inFlight [moveResult s (.main (0x40 + n)) 2 .v src] (touchNames (readNames src ++ [n]) c))

theorem busyNames_v : busyNames [liveMove s g src (.reg (.v n)) field none] = readNames src ++ [n] := by cases src <;> rfl

theorem begin_v {c : Ctx} (h : takeStorage (readNames src ++ [n]) n (view s) = some c) :
    begin (oneMove s g src (.reg (.v n)) field none) (view s) [liveMove s g src (.reg (.v n)) field none] = .ok (beginV s src n c) := by
  have hw : vWrites [liveMove s g src (.reg (.v n)) field none] = [n] := rfl
  have hf : [liveMove s g src (.reg (.v n)) field none].filter (fun m => m.dst == .reg (.v n)) = [liveMove s g src (.reg (.v n)) field none] := by
    simp [liveMove]
  simp only [begin, busyNames_v, hw, takeAll, h, hf, beginV, ← touchNames_inFlight]
  rfl

theorem begin_v_none (h : takeStorage (readNames src ++ [n]) n (view s) = none) :
    begin (oneMove s g src (.reg (.v n)) field none) (view s) [liveMove s g src (.reg (.v n)) field none] = .error n := by
  have hw : vWrites [liveMove s g src (.reg (.v n)) field none] = [n] := rfl
  simp only [begin, busyNames_v, hw, takeAll, h]

/-! ## The move issues -/

theorem judge_move (hq : Quiet s) (hb : Brings s g src (destTy d))
    (hr : Affords s (liveMove s g src (.reg d) field none)) :
    judge s s.sel.who (.got (oneMove s g src (.reg d) field none)) = .go := by
  obtain ⟨hg, -, hl, hty, hrep⟩ := hb
  have hms := passing_oneMove (s := s) (src := src) (dst := .reg d) (field := field) (op := none) hg
  refine (judge_quiet hq (by rw [hms]; exact blocked_nil)).2 ?_ ?_
  · rw [bitsTrap_oneMove hq hl (by rw [hms]; exact capFault_singleton hr)]
    exact if_pos hty
  · rw [hms]
    cases src with
    | v n => simp [replayNames, liveMove, hrep n rfl, sortBy]
    | _ => rfl

/-- The context goes on from what the bundle begins with. -/
theorem issueMove_goes_on {c : Ctx} (hq : Quiet s) (hb : Brings s g src (destTy d))
    (hr : Affords s (liveMove s g src (.reg d) (encodeDest d) none))
    (hbegin : begin (oneMove s g src (.reg d) (encodeDest d) none) (view s) [liveMove s g src (.reg d) (encodeDest d) none] = .ok c)
    (hrun : c.run = .runnable) (hrft : c.rft = none) : issueMove g src d s = setCtx s.sel.who (advance s c) s := by
  have hms := passing_oneMove (s := s) (src := src) (dst := .reg d) (field := encodeDest d) (op := none) hb.1
  rw [issueMove_attempt]
  exact attempt_goes_on hq (judge_move hq hb hr) (by rw [hms]; rfl) (by rw [hms]; exact hbegin) (by rw [hms]; rfl) hb.2.1 hrun hrft

/-! ## Storage for a vector name (R240) -/

theorem takeStorage_kept {busy : List Nat} {c : Ctx} (h : vHolds c n = true ∨ residentCount c < c.sr.quota) : takeStorage busy n c = some c := by
  unfold takeStorage
  split
  · rfl
  · next hv => rw [if_pos (h.resolve_left hv)]

theorem takeStorage_full {busy : List Nat} {c : Ctx} (hv : vHolds c n = false) (hq : c.sr.quota ≤ residentCount c) :
    takeStorage busy n c = (evictee c busy).map fun k => dropName k c := by
  unfold takeStorage
  rw [if_neg (by simp [hv]), if_neg (Nat.not_lt.2 hq)]
  cases evictee c busy <;> rfl

/-- The context of a move to a vector name goes on from where the name has its storage. -/
theorem issueMove_v {w : List VName} (hq : Quiet s) (hb : Brings s g src .v) (hr : Room s 0 1 0)
    (hc : takeStorage (readNames src ++ [n]) n (view s) = some { view s with v := w }) :
    issueMove g src (.v n) s = setCtx s.sel.who (advance s (beginV s src n { view s with v := w })) s := by
  refine issueMove_goes_on hq hb hr (begin_v hc) ?_ ?_
  · exact (touchNames_kept Ctx.run (fun _ _ _ => rfl) _ _).trans (quiet_run hq)
  · exact (touchNames_kept Ctx.rft (fun _ _ _ => rfl) _ _).trans (quiet_rft hq)

/-- What such a bundle leaves of a context: all but the vector names, the flow, and the results in flight, which the write joins. -/
structure WroteV (c : Ctx) (f : Flight) (w : List VName) (x : Ctx) : Prop where
  specials : SpecialsKept c x
  flight : x.flight = c.flight ++ [f]
  scalars : x.g = c.g ∧ x.o = c.o ∧ x.p = c.p
  vectors : x.m = c.m ∧ x.vo = c.vo
  units : x.ports = c.ports ∧ x.latches = c.latches
  names : ∀ m, ∃ b, getV x m = { w.getD m .unwritten with access := b }

theorem wroteV_flowed (s : State) (c : Ctx) (f : Flight) {v w : List VName} (q p : Nat) (via : Option Nat) (rs : List Redirect)
    (hv : ∀ m, ∃ b, v.getD m .unwritten = { w.getD m .unwritten with access := b }) :
    WroteV c f w { flowed s (inFlight [f] { c with v := v }) with bclk := q, pc := p, via := via, redirects := rs } where
  specials := ⟨rfl, rfl, rfl, rfl, rfl, rfl, rfl, rfl, rfl, rfl, rfl, rfl, rfl⟩
  flight := rfl
  scalars := ⟨rfl, rfl, rfl⟩
  vectors := ⟨rfl, rfl⟩
  units := ⟨rfl, rfl⟩
  names := hv

theorem wroteV_advance (s : State) (src : Source) (n : Nat) (w : List VName) :
    WroteV (view s) (moveResult s (.main (0x40 + n)) 2 .v src) w (advance s (beginV s src n { view s with v := w })) := by
  obtain ⟨p, via, rs, h⟩ := advance_eq s (beginV s src n { view s with v := w })
  rw [h, beginV, touchNames_eq]
  exact wroteV_flowed s (view s) _ _ _ _ _ fun m => getV_touchNames _ m _

theorem issueMove_v_quota (hq : Quiet s) (hb : Brings s g src .v) (hr : Room s 0 1 0) (hs : (own s).snap = none)
    (hc : takeStorage (readNames src ++ [n]) n (view s) = none) :
    issueMove g src (.v n) s = trapped s ⟨0x09, n, vquotaWord (readNames src ++ [n]) (view s)⟩ := by
  have hms := passing_oneMove (s := s) (src := src) (dst := .reg (.v n)) (field := encodeDest (.v n)) (op := none) hb.1
  rw [issueMove_attempt, attempt_no_storage (judge_move (d := .v n) hq hb hr) (by rw [hms]; rfl) (by rw [hms]; exact begin_v_none hc) hb.2.1 hs, hms]
  simp only [quotaTrap, busyNames_v]

end

/-! ## What a move leaves -/

section
variable {s : State} {g : Guard} {src : Source} {d : Dest} {n : Nat}

/-- A scalar or operand result, or a mask: the write is in flight, and nothing else has changed but the flow. -/
theorem issueMove_flight {dst : FlightDst} {lat : Nat} (hq : Quiet s) (hb : Brings s g src (destTy d)) (hd : destFlight d = some (dst, lat))
    (hv : ∀ n, d ≠ .v n) (hr : Affords s (liveMove s g src (.reg d) (encodeDest d) none)) :
    issueMove g src d s = after s src (inFlight [moveResult s dst lat (destTy d) src]) :=
  issueMove_goes_on hq hb hr (begin_flight hd hv) (entry_run src hq) (entry_rft src hq)

theorem issueMove_port {u k : Nat} (hq : Quiet s) (hb : Brings s g src (portTy u k)) :
    issueMove g src (.port u k) s = after s src (setPort u k (brought s (portTy u k) src)) := by
  have hfree : Affords s (liveMove s g src (.reg (.port u k)) (encodeDest (.port u k)) none) := by
    simp [Affords, Room, Live.cost, liveMove]
  exact issueMove_goes_on (d := .port u k) hq hb hfree (begin_port u k) (entry_run src hq) (entry_rft src hq)

/-- A name with storage of its own, or within the quota: every register reads as before. -/
theorem issueMove_v_kept (hq : Quiet s) (hb : Brings s g src .v) (hr : Room s 0 1 0)
    (hroom : vHolds (view s) n = true ∨ residentCount (view s) < (view s).sr.quota) :
    ∃ t, exec (.move g src (.v n)) s = .next t ∧ OthersKept s t ∧ SpecialsKept (view s) (getCtx t s.sel.who)
      ∧ (getCtx t s.sel.who).flight = (view s).flight ++ [moveResult s (.main (0x40 + n)) 2 .v src] ∧ RegsKept (view s) (getCtx t s.sel.who) := by
  obtain ⟨hsp, hfl, ⟨hg, ho, hp⟩, ⟨hm, hvo⟩, ⟨hports, hlatch⟩, hnames⟩ := wroteV_advance s src n (view s).v
  refine ⟨_, congrArg Host.Outcome.next (issueMove_v hq hb hr (takeStorage_kept hroom)), othersKept_setCtx s _, ?_⟩
  rw [getCtx_setCtx_same]
  refine ⟨hsp, hfl, hg, ho, hp, hm, hvo, fun m => ?_, hports, hlatch⟩
  obtain ⟨b, h⟩ := hnames m
  exact readV_of_getV h

/-- A name that takes the storage of another: that one is dropped and keeps its binding, and every other register reads as before. -/
theorem issueMove_v_evicts {k : Nat} (hq : Quiet s) (hb : Brings s g src .v) (hr : Room s 0 1 0) (hh : vHolds (view s) n = false)
    (hf : (view s).sr.quota ≤ residentCount (view s)) (he : evictee (view s) (readNames src ++ [n]) = some k) :
    ∃ t, exec (.move g src (.v n)) s = .next t ∧ OthersKept s t ∧ SpecialsKept (view s) (getCtx t s.sel.who)
      ∧ (let x := getCtx t s.sel.who
         x.flight = (view s).flight ++ [moveResult s (.main (0x40 + n)) 2 .v src]
         ∧ (getV x k).st = .dropped ∧ (getV x k).bound = (getV (view s) k).bound ∧ (∀ m, m ≠ k → readV x m = readV (view s) m)
         ∧ x.g = (view s).g ∧ x.o = (view s).o ∧ x.p = (view s).p ∧ x.m = (view s).m ∧ x.vo = (view s).vo ∧ x.ports = (view s).ports
         ∧ x.latches = (view s).latches) := by
  have htake : takeStorage (readNames src ++ [n]) n (view s) = some (dropName k (view s)) := by rw [takeStorage_full hh hf, he]; rfl
  have hlt : k < (view s).v.length := lt_of_getV_st (by rw [droppable_resident (evictee_droppable he)]; simp)
  have hdrop : getV (dropName k (view s)) k = { getV (view s) k with st := .dropped, val := [] } := getV_setV_same hlt
  have hst : (getV (dropName k (view s)) k).st = .dropped := by rw [hdrop]
  have hbound : (getV (dropName k (view s)) k).bound = (getV (view s) k).bound := by rw [hdrop]
  obtain ⟨hsp, hfl, ⟨hg, ho, hp⟩, ⟨hm, hvo⟩, ⟨hports, hlatch⟩, hnames⟩ := wroteV_advance s src n (dropName k (view s)).v
  refine ⟨_, congrArg Host.Outcome.next (issueMove_v hq hb hr htake), othersKept_setCtx s _, ?_⟩
  rw [getCtx_setCtx_same]
  obtain ⟨b, hk⟩ := hnames k
  refine ⟨hsp, hfl, ?_, ?_, fun m hne => ?_, hg, ho, hp, hm, hvo, hports, hlatch⟩
  · exact (congrArg VName.st hk).trans hst
  · exact (congrArg VName.bound hk).trans hbound
  · obtain ⟨b, h⟩ := hnames m
    have hv : getV (dropName k (view s)) m = getV (view s) m := getV_setV_ne hne
    exact readV_of_getV (h.trans (congrArg (fun x : VName => { x with access := b }) hv))

/-- Settles O8: a move's value goes to its port or in flight to its register; a vector name keeps its storage, takes a free register, or
takes that of the name evicted for it. -/
theorem moveLands : Obligations.MoveLands := by
  intro s g src d hq hb
  refine ⟨?_, ?_, ?_, ?_, ?_, ?_, ?_, ?_, ?_⟩
  · rintro u k rfl
    exact congrArg _ (issueMove_port hq hb)
  · rintro hr i rfl
    exact congrArg _ (issueMove_flight hq hb rfl (by simp) hr)
  · rintro hr i rfl
    exact congrArg _ (issueMove_flight hq hb rfl (by simp) hr)
  · rintro hr i rfl
    exact congrArg _ (issueMove_flight hq hb rfl (by simp) hr)
  · rintro hr i rfl
    exact congrArg _ (issueMove_flight hq hb rfl (by simp) hr)
  · rintro hr i rfl
    exact congrArg _ (issueMove_flight hq hb rfl (by simp) hr)
  · rintro hr n rfl hroom
    exact issueMove_v_kept hq hb hr hroom
  · rintro hr n k rfl hh hf he
    exact ⟨fun m hd hm => evictee_min he hd hm, issueMove_v_evicts hq hb hr hh hf he⟩
  · rintro hr n rfl hh hf he hs
    exact congrArg _ (issueMove_v_quota hq hb hr hs (by rw [takeStorage_full hh hf, he]; rfl))

end

end Sys2Proof.Machine
end

section
/-! SUPPORT. The state after reset (R27, R108), and a step at a bundle of one move (R16, R57 to R60): what fetch finds there is the bundle that the
decoded instruction runs. -/

namespace Sys2Proof.Machine

/-! ## Reset -/

theorem getCtx_reset (k : CtxId) : getCtx State.reset k = Ctx.start := rfl

theorem getD_replicate_self {α : Type} (x : α) (k n : Nat) : (List.replicate k x).getD n x = x := by
  rw [List.getD_eq_getElem?_getD, List.getElem?_getD_replicate_default_eq]

theorem getV_start (n : Nat) : getV Ctx.start n = .unwritten := getD_replicate_self _ 32 n

theorem readV_start (n : Nat) : readV Ctx.start n = vecZero := by rw [readV, getV_start]; rfl

/-- Settles O7: every context reads as `Ctx.start`, whose fields are the values of R27 and R108. -/
theorem resetState : Obligations.ResetState := by
  refine ⟨⟨reset_mem_wf, reset_fresco_wf⟩, rfl, rfl, rfl, rfl, rfl, fun k => ?_⟩
  rw [getCtx_reset]
  exact ⟨rfl, rfl, getD_replicate_self _ 64, getD_replicate_self _ 16, rfl, readV_start, fun n => by rw [getV_start]; rfl,
    rfl, rfl, rfl, rfl, rfl, rfl, rfl, rfl, rfl, rfl, rfl, rfl, rfl, rfl, rfl⟩

/-! ## Fetch (R14, R16) -/

section
variable {ops : Nat → Option OpDef} {s : State} {c : CoreId} {who : CtxId} {h slot await n : Nat} {solo : Bool} {longs : List Syllable} {w : Syllable}

/-- Syllables that all stand in opened lines are fetched in order. -/
theorem fetchAll_ok : ∀ {as : List Nat} {ws : List Syllable}, as.map (fetchSyl s c) = ws.map (fun w => some (some w)) → fetchAll s c as = .ok ws
  | [], [], _ => rfl
  | a :: as, w :: ws, h => by
    simp only [List.map_cons, List.cons.injEq] at h
    simp only [fetchAll, h.1, fetchAll_ok h.2]
  | [], _ :: _, h => by simp at h
  | _ :: _, [], h => by simp at h

theorem slotsOf_two_pow (h : slot < 8) : slotsOf (2 ^ slot) = [slot] := by interval_cases slot <;> decide

/-- The syllables after a header: a move and the long immediates. -/
theorem fetchAll_one (hn : h + 2 + n ≤ 2 ^ 18) (hlen : longs.length = n) (hw : fetchSyl s c (h + 1) = some (some w))
    (hl : ∀ j, j < n → fetchSyl s c (h + 2 + j) = some (some (longs.getD j 0))) :
    fetchAll s c (((List.range (n + 1)).map (h + 1 + ·)).filter (· < 2 ^ 18)) = .ok (w :: longs) := by
  have hkeep : ((List.range (n + 1)).map (h + 1 + ·)).filter (· < 2 ^ 18) = (List.range (n + 1)).map (h + 1 + ·) := by
    refine List.filter_eq_self.2 fun a ha => ?_
    obtain ⟨j, hj, rfl⟩ := List.mem_map.1 ha
    have := List.mem_range.1 hj
    simp only [decide_eq_true_eq]
    omega
  rw [hkeep]
  refine fetchAll_ok (List.ext_getElem (by simp [hlen]) fun j hj _ => ?_)
  rw [List.length_map, List.length_map, List.length_range] at hj
  cases j with
  | zero => simpa using hw
  | succ j =>
    have := hl j (by omega)
    simpa [hlen, show j < n by omega, Nat.add_right_comm _ 1, Nat.add_assoc, Nat.add_comm 1] using this

/-- The bundle of one move, as fetch finds it. -/
theorem fetchBundle_one (hslot : slot < 8) (hawait : await < 256) (hn : n ≤ 2) (hlen : longs.length = n) (hfit : (getCtx s who).pc + 2 + n ≤ 2 ^ 18)
    (hh : fetchSyl s who.coreId (getCtx s who).pc = some (some (encodeHeader ⟨2 ^ slot, await, solo, n⟩)))
    (hw : fetchSyl s who.coreId ((getCtx s who).pc + 1) = some (some w))
    (hl : ∀ j, j < n → fetchSyl s who.coreId ((getCtx s who).pc + 2 + j) = some (some (longs.getD j 0))) :
    fetchBundle ops s who = .got ⟨(getCtx s who).pc, ⟨2 ^ slot, await, solo, n⟩, true, true, true, [slotMove ops slot w], longs⟩ := by
  have hmask : 2 ^ slot < 256 := Nat.pow_lt_pow_right (m := slot) (n := 8) (by decide) hslot
  have hlong4 : n < 4 := by omega
  have hlength : (Header.mk (2 ^ slot) await solo n).length = n + 1 + 1 := by simp [Header.length, slotsOf_two_pow hslot]; omega
  have hsyl := fetchAll_one hfit hlen hw hl
  simp only [fetchBundle, hh, isHeader_encodeHeader (h := ⟨2 ^ slot, await, solo, n⟩) hmask hawait hlong4,
    headerFields_encodeHeader (h := ⟨2 ^ slot, await, solo, n⟩) hmask hawait hlong4,
    bit_zero_encodeHeader (h := ⟨2 ^ slot, await, solo, n⟩) hmask hawait hlong4, hlength, Nat.add_sub_cancel, hsyl, slotsOf_two_pow hslot]
  simp
  omega
end

/-! ## The step (R57 to R60) -/

section
variable {s : State} {c : CoreId} {slot await : Nat} {solo : Bool} {longs : List Syllable} {w : Syllable} {i : Instr}

/-- A decoded syllable in its slot is a move legal throughout, with the parts of its instruction. -/
theorem slotMove_of_decodeMove (slot : Nat) (h : decodeMove w = .ok i) : ∃ g src dst, moveParts i = some (g, src, w.toNat % 2048)
    ∧ decodeDest (w.toNat % 2048) = .ok dst
    ∧ slotMove opOfField slot w = ⟨slot, some g, .ok src, .ok dst, w.toNat % 2048, opOf opOfField (.ok dst) (w.toNat % 2048)⟩ := by
  obtain ⟨g, src, dst, hg, hs, hd, hi⟩ := decodeMove_eq_ok_iff.1 h
  have hsrc := (encodeSource_of_decodeSource (Nat.mod_lt _ (by decide)) hs).1
  exact ⟨g, src, dst, (moveParts_of_instr (Nat.mod_lt _ (by decide)) hd hi hsrc).2, hd, by simp only [slotMove, hg, hs, hd]⟩

/-- The bundle of a decoded move, selected, runs its instruction. -/
theorem exec_of_decodeMove {t : State} (h : decodeMove w = .ok i)
    (hsel : t.sel.slot = slot ∧ t.sel.await = await ∧ t.sel.solo = solo ∧ t.sel.longs = longs)
    (hn : longs.length ≤ 2) (hfit : (own t).pc + 2 + longs.length ≤ 2 ^ 18) :
    exec i t = .next (attempt t.sel.who
      (.got ⟨(own t).pc, ⟨2 ^ slot, await, solo, longs.length⟩, true, true, true, [slotMove opOfField slot w], longs⟩) t) := by
  obtain ⟨rfl, rfl, rfl, rfl⟩ := hsel
  obtain ⟨g, src, dst, hp, hd, hm⟩ := slotMove_of_decodeMove t.sel.slot h
  obtain ⟨dst', hd', he⟩ := exec_eq_attempt (encode_of_decodeMove h).1 hp
  obtain rfl : dst = dst' := Except.ok.inj (hd.symm.trans hd')
  have hfit' : decide ((getCtx t t.sel.who).pc + 2 + t.sel.longs.length ≤ 2 ^ 18) = true := decide_eq_true hfit
  rw [he, hm, oneMove, lone, decide_eq_true hn, hfit']
  rfl

theorem step_focus (ha : s.agenda = []) (hf : s.focus = some c) (hc : c.wf = true) :
    step s = .next (coreCycle opOfField c { afterTurn (.bundleIssue c) s with focus := none }) := by
  have hn : nextInstr s = some (.bundleIssue c) := by simp only [nextInstr, hf]
  simp only [step, ha, hn]
  exact if_pos hc

/-- A cycle in which one context issues. -/
theorem coreCycle_one {k : CtxId} (h : issuers opOfField c s = [k]) : coreCycle opOfField c s
    = attempt k (fetchBundle opOfField (prepare opOfField c s) k)
        (selected k (fetchBundle opOfField (prepare opOfField c s) k) (prepare opOfField c s)) := by
  simp only [coreCycle, h, List.foldl_cons, List.foldl_nil]

/-- An attempt at the bundle of a decoded move that fetch finds is its instruction, run in the state with that bundle selected. -/
theorem attempt_selected {t : State} {who : CtxId} (hslot : slot < 8) (hawait : await < 256) (hn : longs.length ≤ 2)
    (hfit : (getCtx t who).pc + 2 + longs.length ≤ 2 ^ 18)
    (hh : fetchSyl t who.coreId (getCtx t who).pc = some (some (encodeHeader ⟨2 ^ slot, await, solo, longs.length⟩)))
    (hw : fetchSyl t who.coreId ((getCtx t who).pc + 1) = some (some w))
    (hl : ∀ j, j < longs.length → fetchSyl t who.coreId ((getCtx t who).pc + 2 + j) = some (some (longs.getD j 0)))
    (hd : decodeMove w = .ok i) :
    .next (attempt who (fetchBundle opOfField t who) (selected who (fetchBundle opOfField t who) t))
      = exec i { t with sel := ⟨who, slot, await, solo, longs⟩ } := by
  rw [exec_of_decodeMove (t := { t with sel := ⟨who, slot, await, solo, longs⟩ }) hd ⟨rfl, rfl, rfl, rfl⟩ hn hfit,
    fetchBundle_one hslot hawait hn rfl hfit hh hw hl]
  rfl

end

/-- Settles O4: fetch finds the bundle of the one move, which is what its instruction runs in the state with that bundle selected. -/
theorem stepRunsDecoded : Obligations.StepRunsDecoded := by
  intro s c k slot await n solo longs w i ha hf hc hslot hawait hn hlen s0 s1 h hissue hfit hh hw hl hd
  subst hlen
  rw [step_focus ha hf hc, coreCycle_one hissue]
  exact attempt_selected hslot hawait hn hfit hh hw hl hd

end Sys2Proof.Machine
end

section
/-! SUPPORT. Events of a context between its issues (R14, R47, R51, R54, R169, R182, R305): what landing takes out of flight, and what each event
leaves. -/

namespace Sys2Proof.Machine

/-! ## What lands is no longer pending (R47, R51) -/

section
variable {c : Ctx} {q p : Nat}

theorem shrinkTo_pending (k : Nat) (c : Ctx) : (shrinkTo k c).flight = c.flight ∧ (shrinkTo k c).landing = c.landing := by
  induction k generalizing c with
  | zero => exact ⟨rfl, rfl⟩
  | succ k ih =>
    simp only [shrinkTo]
    split
    · exact ⟨rfl, rfl⟩
    · split
      · exact ih _
      · exact ⟨rfl, rfl⟩

theorem writeSr_pending (i v : Nat) (c : Ctx) : (writeSr i v c).flight = c.flight ∧ (writeSr i v c).landing = c.landing := by
  unfold writeSr
  split
  case h_6 => exact shrinkTo_pending _ _
  all_goals exact ⟨rfl, rfl⟩

theorem noteParity_eq (a : Dword) (c : Ctx) : ∃ b, noteParity a c = { c with parity := b } := by
  unfold noteParity
  split
  · exact ⟨a, rfl⟩
  · exact ⟨c.parity, rfl⟩

theorem landMain_pending (i : Nat) (v : Val) (c : Ctx) : (landMain i v c).flight = c.flight ∧ (landMain i v c).landing = c.landing := by
  unfold landMain
  split_ifs <;> exact ⟨rfl, rfl⟩

theorem landFixed_pending (f : Flight) (c : Ctx) : (landFixed f c).flight = c.flight ∧ (landFixed f c).landing = c.landing := by
  obtain ⟨b, hb⟩ := noteParity_eq f.parity c
  simp only [landFixed, hb]
  split
  · exact landMain_pending _ _ _
  · split <;> exact ⟨rfl, rfl⟩
  · exact ⟨rfl, rfl⟩
  · exact writeSr_pending _ _ _
  · exact ⟨rfl, rfl⟩

theorem landTimed_pending (l : Landing) (c : Ctx) : (landTimed l c).flight = c.flight ∧ (landTimed l c).landing = c.landing := by
  unfold landTimed
  split
  · next v a _ _ =>
    obtain ⟨b, hb⟩ := noteParity_eq a { c with latches := c.latches.set (latchIx _ false) v }
    rw [hb]
    exact ⟨rfl, rfl⟩
  · exact ⟨rfl, rfl⟩
  · dsimp only
    split <;> exact ⟨rfl, rfl⟩
  · exact ⟨rfl, rfl⟩

theorem landOne_pending (x : Due) (c : Ctx) : (landOne x c).flight = c.flight ∧ (landOne x c).landing = c.landing := by
  cases x with
  | timed l => exact landTimed_pending l c
  | fixed f => exact landFixed_pending f c

theorem landAt_flight (q : Nat) (c : Ctx) : (landAt q c).flight = c.flight.filter fun f => f.land != q := by
  simp only [landAt]
  rw [foldl_kept Ctx.flight _ fun b a => (landOne_pending a b).1]

theorem landAt_landing (q : Nat) (c : Ctx) : (landAt q c).landing = c.landing.filter fun l => l.land != q := by
  simp only [landAt]
  rw [foldl_kept Ctx.landing _ fun b a => (landOne_pending a b).2]

/-- Landing position by position takes out what is due at the positions. -/
theorem foldl_landAt_pending (qs : List Nat) (c : Ctx) :
    (qs.foldl (fun c q => landAt q c) c).flight = c.flight.filter (fun f => decide (f.land ∉ qs))
      ∧ (qs.foldl (fun c q => landAt q c) c).landing = c.landing.filter (fun l => decide (l.land ∉ qs)) := by
  induction qs generalizing c with
  | nil => simp
  | cons q r ih =>
    obtain ⟨hf, hl⟩ := ih (landAt q c)
    rw [List.foldl_cons, hf, hl, landAt_flight, landAt_landing, List.filter_filter, List.filter_filter]
    constructor <;> exact List.filter_congr fun x _ => by rw [Bool.eq_iff_iff]; simp [and_comm]

/-- The positions at or before p at which something is due. -/
def duePositions (p : Nat) (c : Ctx) : List Nat :=
  ((c.landing.map (·.land) ++ c.flight.map (·.land)).filter fun q => decide (q ≤ p)).eraseDups

theorem landDue_eq (p : Nat) (c : Ctx) : landDue p c = (sortBy id (duePositions p c)).foldl (fun c q => landAt q c) c := rfl

theorem mem_duePositions : q ∈ duePositions p c ↔ ((∃ l ∈ c.landing, l.land = q) ∨ ∃ f ∈ c.flight, f.land = q) ∧ q ≤ p := by
  simp [duePositions, or_and_right]

theorem landDue_flight (p : Nat) (c : Ctx) : (landDue p c).flight = c.flight.filter fun f => decide (p < f.land) := by
  rw [landDue_eq, (foldl_landAt_pending _ _).1]
  refine List.filter_congr fun f hf => decide_eq_decide.2 ?_
  rw [mem_sortBy, mem_duePositions, not_and, Nat.not_le]
  exact ⟨fun h => h (.inr ⟨f, hf, rfl⟩), fun h _ => h⟩

theorem landDue_landing (p : Nat) (c : Ctx) : (landDue p c).landing = c.landing.filter fun l => decide (p < l.land) := by
  rw [landDue_eq, (foldl_landAt_pending _ _).2]
  refine List.filter_congr fun l hl => decide_eq_decide.2 ?_
  rw [mem_sortBy, mem_duePositions, not_and, Nat.not_le]
  exact ⟨fun h => h (.inl ⟨l, hl, rfl⟩), fun h _ => h⟩

theorem seen_flight (c : Ctx) : (seen c).flight = c.flight.filter fun f => decide (c.bclk < f.land) := landDue_flight c.bclk c
theorem seen_landing (c : Ctx) : (seen c).landing = c.landing.filter fun l => decide (c.bclk < l.land) := landDue_landing c.bclk c

/-! ## One timed request alone -/

theorem landTimed_latches {l : Landing} {u : Nat} {v : Val} {a : Dword} (hd : l.dst = .latch u) (hv : l.data = .value v a) (c : Ctx) :
    (landTimed l c).latches = c.latches.set (2 * u) v := by
  obtain ⟨b, hb⟩ := noteParity_eq a { c with latches := c.latches.set (latchIx u false) v }
  simp only [landTimed, hd, hv, hb]
  simp [latchIx, b2n, Nat.mul_comm]

theorem duePositions_single {l : Landing} (ht : timedDue c = [l]) (hf : fixedDue c = []) : duePositions c.bclk c = [l.land] := by
  have h1 : (c.landing.map (·.land)).filter (fun q => decide (q ≤ c.bclk)) = (timedDue c).map (·.land) := List.filter_map ..
  have h2 : (c.flight.map (·.land)).filter (fun q => decide (q ≤ c.bclk)) = (fixedDue c).map (·.land) := List.filter_map ..
  rw [duePositions, List.filter_append, h1, h2, ht, hf]
  rfl

/-- What is due at a position that is due lies among what is due. -/
theorem dueAt_single {l : Landing} (ht : timedDue c = [l]) (hf : fixedDue c = []) : dueAt l.land c = [.timed l] := by
  have hle : l.land ≤ c.bclk := by
    have : l ∈ timedDue c := ht ▸ List.mem_cons_self
    simpa [timedDue] using (List.mem_filter.1 this).2
  have h1 : c.landing.filter (fun x => x.land == l.land) = (timedDue c).filter fun x => x.land == l.land := by
    rw [timedDue, List.filter_filter]
    exact List.filter_congr fun x _ => by by_cases h : x.land = l.land <;> simp [h, hle]
  have h2 : c.flight.filter (fun x => x.land == l.land) = (fixedDue c).filter fun x => x.land == l.land := by
    rw [fixedDue, List.filter_filter]
    exact List.filter_congr fun x _ => by by_cases h : x.land = l.land <;> simp [h, hle]
  rw [dueAt, h1, h2, ht, hf]
  simp [sortBy, insertBy]

theorem seen_latches_single {l : Landing} {u : Nat} {v : Val} {a : Dword} (ht : timedDue c = [l]) (hf : fixedDue c = [])
    (hd : l.dst = .latch u) (hv : l.data = .value v a) : (seen c).latches = c.latches.set (2 * u) v := by
  rw [seen, landDue_eq, duePositions_single ht hf]
  show (landAt l.land c).latches = _
  simp only [landAt, dueAt_single ht hf, List.foldl_cons, List.foldl_nil]
  exact landTimed_latches hd hv _

end

/-! ## Lines (R14) -/

section
variable {s : State}

theorem exec_lineFetch {k : CoreId} {n : Nat} (hk : k.wf = true) (hn : n < 2 ^ 14) (hb : bufLine s k n = none) :
    exec (.lineFetch k n) s = .next
      (let s1 := setCore k
         { getCore s k with fetch := ((getCore s k).fetch ++ [openLine s k.clId n]).drop ((getCore s k).fetch.length - 7) } s
       if (openLine s k.clId n).failed then lineRecord k n s1 else s1) := by
  have hnamed : (k.wf && decide (n < 2 ^ 14)) = true := by rw [hk, decide_eq_true hn]; rfl
  refine eventStep_named hnamed ?_
  simp [fireLineFetch, hb]

theorem lineRecord_untagged {k : CoreId} {n : Nat} (h : assoc n (getCl s k.clId).tags = none) : lineRecord k n s = s := by
  simp [lineRecord, h]

/-- A fault record for the log adds one entry there, and touches neither memory nor the units. -/
theorem appendFault_logged (die kind : Nat) (part : Option Nat) (mk : Nat → FaultRec) (s : State) :
    let t := appendFault die part mk (some kind) s
    t.cores = s.cores ∧ t.ctxs = s.ctxs ∧ t.mem = s.mem ∧ t.log.length = s.log.length + 1 := by
  cases part <;> simp [appendFault, logEvent]

theorem lineRecord_tagged {k : CoreId} {n : Nat} (h : (assoc n (getCl s k.clId).tags).isSome) :
    (lineRecord k n s).cores = s.cores ∧ (lineRecord k n s).ctxs = s.ctxs ∧ (lineRecord k n s).mem = s.mem
      ∧ (lineRecord k n s).log.length = s.log.length + 1 := by
  rw [lineRecord, if_neg (by simpa [Option.isNone_iff_eq_none, Option.isSome_iff_ne_none] using h)]
  exact appendFault_logged k.die 6 _ _ { s with free := s.free + 1 }

/-! ## Entries of the landing buffer -/

variable {c : CtxId}

theorem onlyCtx_setCtx (c : CtxId) (x : Ctx) (s : State) : OnlyCtx c s (setCtx c x s) := ⟨rfl, fun _ hk => getCtx_setCtx_ne x s hk⟩

theorem allLandings_mapLandings (f : Landing → Landing) (x : Ctx) : allLandings (mapLandings f x) = (allLandings x).map f := by
  unfold allLandings mapLandings
  cases x.snap <;> simp

/-- What has arrived under a name reads as it arrived. -/
theorem setLanding_arrived {now k : Nat} {d : LandData} {x : Ctx} {y : Landing} (hy : y ∈ allLandings (setLanding now k d x)) (hid : y.id = k) :
    y.arrived = true ∧ y.data = d := by
  rw [setLanding, allLandings_mapLandings] at hy
  obtain ⟨l, -, rfl⟩ := List.mem_map.1 hy
  by_cases h : l.id = k
  · simp [h]
  · simp [h] at hid

theorem findLanding_id {x : Ctx} {k : Nat} {l : Landing} (h : findLanding x k = some l) : l.id = k := by
  have := List.find?_some h
  simp only [Bool.and_eq_true, beq_iff_eq] at this
  exact this.1

theorem exec_timedDataArrival (hc : c.wf = true) {k : Nat} {l : Landing} (hf : findLanding (getCtx s c) k = some l) (hw : isWalk l.data = false) :
    exec (.timedDataArrival c k) s = .next (updCtx c (setLanding (clk s c.clId) k l.data) s) :=
  eventStep_named hc (by simp [fireTimedDataArrival, hf, hw])

/-! ## Landings at a bundle that issues -/

/-- A bundle that issues is one that nothing stops. -/
theorem verdict_of_commits (h : commits c s = true) : verdictOf c s = .go := by
  unfold commits at h
  split at h
  · assumption
  · cases h

theorem exec_latchLanding (hc : c.wf = true) (hf : fixedDue (getCtx s c) ≠ []) (ht : timedDue (getCtx s c) = []) (hgo : commits c s = true) :
    exec (.latchLanding c) s = .next (setCtx c (seen (getCtx s c)) s) :=
  eventStep_named hc (by simp [fireLatchLanding, hf, ht, hgo])

theorem exec_timedLanding (hc : c.wf = true) (ht : timedDue (getCtx s c) ≠ []) (hgo : commits c s = true) :
    exec (.timedLanding c) s = .next (setCtx c (seen (getCtx s c)) s) :=
  eventStep_named hc (by simp [fireTimedLanding, ht, hgo, verdict_of_commits hgo])

theorem exec_timedLanding_trap (hc : c.wf = true) {tr : Trap} {y b : Ctx} (ht : timedDue (getCtx s c) ≠ []) (hv : verdictOf c s = .trap tr y)
    (ho : outerTrap (getCtx s c) = some (tr, b)) : exec (.timedLanding c) s = .next (trapEnter c tr (setCtx c y s)) :=
  eventStep_named hc (by simp [fireTimedLanding, ht, hv, ho])

/-! ## Walks and pins (R169, R182, R196, R305) -/

theorem exec_pageWalkComplete (hc : c.wf = true) {k va : Nat} {l : Landing} (hf : findLanding (getCtx s c) k = some l) (hd : l.data = .walk va)
    (hw : walkWaits s (partOf s c) va = false) : exec (.pageWalkComplete c k) s = .next (endWalk c l va s) :=
  eventStep_named hc (by simp [firePageWalkComplete, hf, hd, hw])

/-- The pin made lives among the pins, its window no shorter at the front. -/
theorem addPin_mem (pos : Nat) (p : Pin) (ps : List Pin) :
    ∃ q ∈ addPin pos p ps, q.va = p.va ∧ q.size = p.size ∧ q.pte = p.pte ∧ q.first ≤ p.first ∧ q.last = p.last ∧ q.born = p.born := by
  unfold addPin
  dsimp only
  split
  · next q _ =>
    refine ⟨_, List.mem_append_right _ List.mem_cons_self, rfl, rfl, rfl, ?_, rfl, rfl⟩
    dsimp only
    split
    · exact Nat.min_le_right _ _
    · exact le_rfl
  · exact ⟨p, List.mem_append_right _ List.mem_cons_self, rfl, rfl, rfl, le_rfl, rfl, rfl⟩

theorem onlyCtx_endWalk (c : CtxId) (l : Landing) (va : Nat) (s : State) : OnlyCtx c s (endWalk c l va s) := by
  unfold endWalk
  split <;> exact onlyCtx_setCtx c _ s

theorem endWalk_fault {l : Landing} {va f : Nat} (h : walk s (partOf s c) (worldOf s c) (nodeOf s c) va = .fault f) :
    getCtx (endWalk c l va s) c = setLanding (clk s c.clId) l.id (.walkFault va f) (getCtx s c) := by
  simp [endWalk, h]

theorem endWalk_leaf {l : Landing} {va e size : Nat} (h : walk s (partOf s c) (worldOf s c) (nodeOf s c) va = .leaf e size) :
    getCtx (endWalk c l va s) c = { setLanding (clk s c.clId) l.id (.value (.sc ⟨BitVec.ofNat 64 (touchWord e size), false⟩) 0) (getCtx s c) with
      pins := addPin (coverFrom (getCtx s c)) ⟨va, size, BitVec.ofNat 64 e, l.issued + 2, l.issued + 2047, s.stamp⟩ (getCtx s c).pins } := by
  simp [endWalk, h]

theorem exec_pinExpiry (hc : c.wf = true) (h : (getCtx s c).pins.any (fun p => decide (p.last < coverFrom (getCtx s c))) = true) :
    exec (.pinExpiry c) s
      = .next (setCtx c { getCtx s c with pins := (getCtx s c).pins.filter fun p => decide (coverFrom (getCtx s c) ≤ p.last) } s) :=
  eventStep_named hc (if_pos h)

end

/-- Settles O45: each event through what it does when its condition holds. -/
theorem landingEvents : Obligations.LandingEvents := by
  intro s c hc x
  refine ⟨?_, ?_, ?_, ?_, ?_, ?_, ?_⟩
  · intro k n hk hn hb u
    rw [exec_lineFetch hk hn hb]
    refine ⟨fun h => congrArg _ ?_, fun hfail htag => ⟨_, rfl, ?_⟩⟩
    · rcases h with h | h
      · exact if_neg (by simp [h])
      · dsimp only
        rw [lineRecord_untagged (s := u) h, ite_self]
    · dsimp only
      rw [if_pos hfail]
      exact lineRecord_tagged (s := u) htag
  · intro hf ht hgo
    refine ⟨exec_latchLanding hc hf ht hgo, fun f hmem => ?_⟩
    rw [seen_flight] at hmem
    simpa using (List.mem_filter.1 hmem).2
  · intro k l hl hw
    refine ⟨_, exec_timedDataArrival hc hl hw, onlyCtx_setCtx c _ s, fun y hy hid => ?_⟩
    rw [getCtx_updCtx_same] at hy
    exact setLanding_arrived hy hid
  · intro ht hgo
    exact ⟨exec_timedLanding hc ht hgo, (landDue_kept _ _).1, fun _ _ => ⟨seen_landing x, seen_flight x,
      fun l u v a hone hnone hdst hdata => seen_latches_single hone hnone hdst hdata⟩⟩
  · intro tr y b ht hv ho
    exact exec_timedLanding_trap hc ht hv ho
  · intro k l va hl hd hw
    obtain rfl := findLanding_id hl
    refine ⟨_, exec_pageWalkComplete hc hl hd hw, onlyCtx_endWalk c l va s, fun f h => ?_, fun e size h => ?_⟩
    · rw [endWalk_fault h]
      exact ⟨rfl, fun y hy hid => setLanding_arrived hy hid⟩
    · rw [endWalk_leaf h]
      exact ⟨addPin_mem _ _ _, fun y hy hid => setLanding_arrived hy hid⟩
  · exact exec_pinExpiry hc

end Sys2Proof.Machine
end


section
/-! SUPPORT. The order of steps, and what a trap leaves (R68, R71, R120): entry to the handler, or a double fault and the kill of its node. -/

namespace Sys2Proof.Machine

/-- Settles O5: a step by what the agenda, the focus, the due events and the cores hold. -/
theorem stepOrder : Obligations.StepOrder := by
  intro s
  refine ⟨fun e r h => ?_, fun c ha hf => ?_, fun ha hf => ?_⟩
  · simp only [step, h]
  · simp only [step, ha, nextInstr, hf]
  · cases hd : firstDue (dueEvents s) with
    | some e => exact .inl ⟨e, rfl, by simp only [step, ha, nextInstr, hf, hd]⟩
    | none =>
      cases hn : nextCore s with
      | some c => exact .inr (.inl ⟨rfl, c, rfl, by simp only [step, ha, nextInstr, hf, hd, hn, Option.map_some]⟩)
      | none => exact .inr (.inr ⟨rfl, rfl, by simp only [step, ha, nextInstr, hf, hd, hn, Option.map_none]⟩)

/-! ## Trap entry (R68, R71) -/

section
variable {s : State} {who : CtxId} {t : Trap} {g : Guard} {src : Source}

theorem trapEnter_clear (h : (getCtx s who).snap = none) : trapEnter who t s = updCtx who (trapCtx t) s := by simp [trapEnter, h]
theorem trapEnter_occupied (h : (getCtx s who).snap.isSome) : trapEnter who t s = doubleFault who s := by simp [trapEnter, h]

theorem regsKept_trapCtx (t : Trap) (c : Ctx) : RegsKept c (trapCtx t c) := ⟨rfl, rfl, rfl, rfl, rfl, fun _ => rfl, rfl, rfl⟩

theorem room_none (s : State) : Room s 0 0 0 := by simp [Room]

/-- TRAP traps in its own bundle with its operands (R120). -/
theorem exec_trap (hq : Quiet s) (hb : Brings s g src .s) : exec (.trap g src) s
    = .next (trapEnter s.sel.who ⟨0x10, (trigSc s src).v.toNat, (portSc s 3 0).v.toNat⟩ s) :=
  congrArg _ (issueOne_trap defTrap 108 g src s _ hq hb (room_none s) rfl (fun _ h => nomatch h) rfl)

end

/-- Settles O16: the trap that TRAP raises, entered or met by an occupied snapshot slot. -/
theorem trapInstruction : Obligations.TrapInstruction := by
  intro s g src hq hb
  refine ⟨fun hs => ⟨_, exec_trap hq hb, ?_⟩, fun hs => ?_⟩
  · rw [trapEnter_free s _ hs, trapped]
    refine ⟨othersKept_setCtx s _, ?_⟩
    rw [getCtx_setCtx_same]
    exact ⟨by simp [trapCtx], rfl, rfl, regsKept_trapCtx _ _⟩
  · rw [exec_trap hq hb, trapEnter_occupied hs]

/-! ## The kill of a node by a double fault (R71, R366) -/

/-- A write in memory order leaves the nodes and the engines, and of the contexts it wakes some that wait at a barrier word (R196). -/
structure WakesOnly (s t : State) : Prop where
  nodes : t.nodes = s.nodes
  engines : t.mex = s.mex ∧ t.cpy = s.cpy ∧ t.glz = s.glz ∧ t.rtc = s.rtc
  ctxs : ∀ k, ∃ r, getCtx t k = { getCtx s k with run := r } ∧ ((getCtx s k).run = .halted → r = .halted)

section
variable {s t u : State}

theorem WakesOnly.of_ctxs (hn : t.nodes = s.nodes) (he : t.mex = s.mex ∧ t.cpy = s.cpy ∧ t.glz = s.glz ∧ t.rtc = s.rtc)
    (hc : t.ctxs = s.ctxs) : WakesOnly s t :=
  ⟨hn, he, fun k => ⟨(getCtx s k).run, by simp only [getCtx, hc], id⟩⟩

theorem WakesOnly.refl (s : State) : WakesOnly s s := .of_ctxs rfl ⟨rfl, rfl, rfl, rfl⟩ rfl

theorem WakesOnly.trans (h : WakesOnly s t) (h' : WakesOnly t u) : WakesOnly s u := by
  obtain ⟨hm, hp, hg, hr⟩ := h.engines
  obtain ⟨hm', hp', hg', hr'⟩ := h'.engines
  refine ⟨h'.nodes.trans h.nodes, ⟨hm'.trans hm, hp'.trans hp, hg'.trans hg, hr'.trans hr⟩, fun k => ?_⟩
  obtain ⟨r, hk, hhalt⟩ := h.ctxs k
  obtain ⟨r', hk', hhalt'⟩ := h'.ctxs k
  exact ⟨r', by rw [hk', hk], fun hs => hhalt' (by rw [hk]; exact hhalt hs)⟩

theorem WakesOnly.foldl {α : Type} {f : State → α → State} (h : ∀ s a, WakesOnly s (f s a)) (l : List α) (s : State) :
    WakesOnly s (l.foldl f s) := by
  induction l generalizing s with
  | nil => exact .refl s
  | cons a l ih => exact (h s a).trans (ih _)

theorem wakesOnly_signalWord (w : Nat) (b : Wake) (s : State) : WakesOnly s (signalWord w b s) := by
  refine ⟨rfl, ⟨rfl, rfl, rfl, rfl⟩, fun k => ?_⟩
  have hkey : ∀ x : CtxId × Ctx, ((match x.2.run with
      | .bwait phys ph word n wake => (x.1, { x.2 with run := .bwait phys ph word n (if phys = w ∧ wake = .waiting then b else wake) })
      | _ => (x.1, x.2)) : CtxId × Ctx).1 = x.1 := by
    intro x
    split <;> rfl
  have hmap := assoc_map hkey k s.ctxs
  have hget : getCtx (signalWord w b s) k = ((assoc k s.ctxs).map _).getD Ctx.start := congrArg (Option.getD · Ctx.start) hmap
  rw [hget, getCtx]
  cases assoc k s.ctxs with
  | none => exact ⟨_, rfl, id⟩
  | some c =>
    simp only [Option.map_some, Option.getD_some]
    split
    · next h => exact ⟨_, rfl, fun hh => by simp [h] at hh⟩
    · exact ⟨_, rfl, id⟩

theorem wakesOnly_coreWrite (who : CtxId) (ws : List WByte) (s : State) : WakesOnly s (coreWrite who none ws s) := by
  have hcells : WakesOnly s { nodeEvent who s with mem := writeCells ws (nodeEvent who s).mem } := .of_ctxs rfl ⟨rfl, rfl, rfl, rfl⟩ rfl
  have hput : WakesOnly s (putBytes none ws (nodeEvent who s)) :=
    hcells.trans (WakesOnly.foldl (f := fun s w => signalWord w .byStore s) (fun s w => wakesOnly_signalWord w .byStore s) _ _)
  exact hput.trans (.of_ctxs rfl ⟨rfl, rfl, rfl, rfl⟩ rfl)

theorem wakesOnly_dirtySectors (own : Owner) (bs : List (GByte × Byte)) (s : State) : WakesOnly s (dirtySectors own bs s) := by
  refine .foldl (fun s sec => ?_) _ _
  dsimp only
  split
  · exact .of_ctxs rfl ⟨rfl, rfl, rfl, rfl⟩ rfl
  · split <;> exact .of_ctxs rfl ⟨rfl, rfl, rfl, rfl⟩ rfl

theorem wakesOnly_baristaStore (d : Node) (va v : Nat) (s : State) : WakesOnly s (baristaStore d va v s) := by
  unfold baristaStore
  split
  · exact .refl s
  · exact (wakesOnly_dirtySectors _ _ _).trans (wakesOnly_coreWrite _ _ _)

theorem wakesOnly_setState (n : Nat) (d : Node) (s : State) : WakesOnly (setNode n d s) (setState n d s) := wakesOnly_baristaStore _ _ _ _

theorem getCtx_mapNodeCtxs {n : Nat} (f : CtxId → Ctx → Ctx) (k : CtxId) (hs : Ctx.start.node ≠ some n) :
    getCtx (mapNodeCtxs n f s) k = if (getCtx s k).node = some n then f k (getCtx s k) else getCtx s k := by
  have hkey : ∀ x : CtxId × Ctx, (if x.2.node = some n then (x.1, f x.1 x.2) else (x.1, x.2)).1 = x.1 := by
    intro x
    split <;> rfl
  have hget : getCtx (mapNodeCtxs n f s) k = ((assoc k s.ctxs).map _).getD Ctx.start :=
    congrArg (Option.getD · Ctx.start) (assoc_map hkey k s.ctxs)
  rw [hget, getCtx]
  cases assoc k s.ctxs with
  | none => simp [hs]
  | some c =>
    simp only [Option.map_some, Option.getD_some]
    split <;> rfl

theorem killCommands_idle (sel : CtxId → Bool) (hm : s.mex = []) (hc : s.cpy = []) (hg : s.glz = []) (hr : s.rtc = []) :
    killCommands sel s = s := by simp [killCommands, hm, hc, hg, hr]

theorem getCtx_discardOverlays (n : Nat) (k : CtxId) : getCtx (discardOverlays n s) k = getCtx s k := rfl
theorem getNode_stopped {n : Nat} (f : CtxId → Ctx → Ctx) (k : Nat) : getNode (discardOverlays n (mapNodeCtxs n f s)) k = getNode s k := rfl
theorem killCommands_stopped {n : Nat} (f : CtxId → Ctx → Ctx) (sel : CtxId → Bool) (hm : s.mex = []) (hc : s.cpy = []) (hg : s.glz = [])
    (hr : s.rtc = []) : killCommands sel (discardOverlays n (mapNodeCtxs n f s)) = discardOverlays n (mapNodeCtxs n f s) :=
  killCommands_idle sel hm hc hg hr

/-- A node that a kill has reached, with its image gone (R366). -/
def killedNode (double : Bool) (d : Node) : Node := { d with st := .killed, kill2 := double, stop := .kill, saved := none }

/-- The kill of a running node without commands: its status store, and its contexts stop. -/
theorem killNode_running {n : Nat} {d : Node} {double : Bool} (hd : getNode s n = some d) (hrun : d.st = .running) (hsaved : d.saved = none)
    (hm : s.mex = []) (hc : s.cpy = []) (hg : s.glz = []) (hr : s.rtc = []) :
    killNode n double s = discardOverlays n (mapNodeCtxs n (fun _ c => { c with stopped := true }) (setState n (killedNode double d) s)) := by
  have hkept : keptImage d = none := by simp [keptImage, hsaved]
  have hdrop : dropSaved n d s = s := by simp [dropSaved, hsaved]
  obtain ⟨hm', hc', hg', hr'⟩ := (wakesOnly_setState n (killedNode double d) s).engines
  simp only [killNode, hd, hrun, true_or, if_true, hdrop, hkept]
  exact killCommands_stopped _ _ (hm'.trans hm) (hc'.trans hc) (hg'.trans hg) (hr'.trans hr)

theorem stopped_if (c : Ctx) (r : Run) (n : Nat) :
    (if ({ c with run := r } : Ctx).node = some n then { { c with run := r } with stopped := true } else { c with run := r } : Ctx)
      = { c with run := r, stopped := c.stopped || decide (c.node = some n) } := by
  by_cases h : c.node = some n <;> simp [h]

theorem awake_of_halted {who : CtxId} {c : Ctx} (h : c.run = .halted) : awake s who c = false := by simp [awake, h]

/-- A context halted by a double fault: nothing of it is in flight. -/
def haltedCtx (c : Ctx) : Ctx :=
  { c with run := .halted, nap := .awake, flight := [], redirects := [], rft := none, calling := none, touchLost := none, replayTrap := none }

theorem doubleFault_node {who : CtxId} {n : Nat} (h : (getCtx s who).node = some n) :
    doubleFault who s = killNode n true (updCtx who haltedCtx s) := by
  have hn : nodeOf s who = some n := h
  simp only [doubleFault, hn]
  rfl

/-- A double fault in a running node without commands kills the node, and stops its contexts; at most a store of the status wakes some. -/
theorem doubleFault_running {who : CtxId} {n : Nat} {d : Node} (hn : (getCtx s who).node = some n) (hd : getNode s n = some d) (hrun : d.st = .running)
    (hsaved : d.saved = none) (hm : s.mex = []) (hc : s.cpy = []) (hg : s.glz = []) (hr : s.rtc = []) :
    getNode (doubleFault who s) n = some (killedNode true d)
    ∧ ∀ k, ∃ r, getCtx (doubleFault who s) k = { getCtx (updCtx who haltedCtx s) k with
          run := r, stopped := (getCtx s k).stopped || decide ((getCtx s k).node = some n) }
        ∧ ((getCtx (updCtx who haltedCtx s) k).run = .halted → r = .halted) := by
  have hlt : n < s.nodes.length := by
    by_contra h
    simp [getNode, Nat.not_lt.1 h] at hd
  have hwake := wakesOnly_setState n (killedNode true d) (updCtx who haltedCtx s)
  rw [doubleFault_node hn, killNode_running (s := updCtx who haltedCtx s) hd hrun hsaved hm hc hg hr]
  refine ⟨?_, fun k => ?_⟩
  · rw [getNode_stopped, getNode, hwake.nodes]
    simp [setNode, hlt]
  · obtain ⟨r, hk, hhalt⟩ := hwake.ctxs k
    obtain ⟨hnode, hstop⟩ : (getCtx (updCtx who haltedCtx s) k).node = (getCtx s k).node
        ∧ (getCtx (updCtx who haltedCtx s) k).stopped = (getCtx s k).stopped := by
      by_cases h : k = who
      · subst h
        rw [getCtx_updCtx_same]
        exact ⟨rfl, rfl⟩
      · rw [getCtx_updCtx_ne _ _ h]
        exact ⟨rfl, rfl⟩
    rw [getCtx_setNode] at hk hhalt
    refine ⟨r, ?_, hhalt⟩
    rw [getCtx_discardOverlays, getCtx_mapNodeCtxs _ _ (by simp [Ctx.start]), hk, ← hnode, ← hstop]
    exact stopped_if _ _ _

end

/-- Settles O11: trap entry as the trap's own update of the context, a double fault as the kill of its running node. -/
theorem trapEntry : Obligations.TrapEntry := by
  constructor
  · intro s who t c hs _ d
    have hd : d = trapCtx t c := by simp [d, c, trapEnter_clear hs]
    rw [hd, trapEnter_clear hs]
    exact ⟨rfl, rfl, rfl, rfl, rfl, rfl, rfl, rfl, regsKept_trapCtx t c, ⟨snapshot c, rfl, rfl, rfl, rfl, rfl, rfl, rfl, rfl, rfl, rfl⟩, rfl,
      fun k hk => getCtx_updCtx_ne _ s hk⟩
  · intro s who t n d hs hn hd hrun hsaved hm hc hg hr u
    obtain ⟨hnode, hctx⟩ := doubleFault_running hn hd hrun hsaved hm hc hg hr
    have hu : u = doubleFault who s := trapEnter_occupied hs
    rw [hu]
    obtain ⟨r, hwho, hhalt⟩ := hctx who
    rw [getCtx_updCtx_same] at hwho hhalt
    have hr : (getCtx (doubleFault who s) who).run = .halted := by rw [hwho]; exact hhalt rfl
    refine ⟨hr, by rw [hwho]; rfl, awake_of_halted hr, ⟨_, hnode, rfl, rfl⟩, fun k hk => ?_⟩
    obtain ⟨r, hk', -⟩ := hctx k
    rw [hk', decide_eq_true hk]
    exact Bool.or_true _

end Sys2Proof.Machine
end

section
/-! SUPPORT. RFT and the end of a handler (R70, R130): a bundle of one move in which a handler may end, and what the end restores. -/

namespace Sys2Proof.Machine

section
variable {s t : State} {op : OpDef} {field : Nat} {g : Guard} {src : Source} {who : CtxId}

/-! ## A bundle in which a handler may end -/

/-- Nothing outside the move holds back or traps the bundle, whether a handler ends with it or not. -/
structure Unhindered (s : State) : Prop where
  awake : awake s s.sel.who (own s) = true
  twait : (own s).twait = 0
  await : s.sel.await = 0
  slot : s.sel.slot < 8
  longs : s.sel.longs.length ≤ 2
  fits : (own s).pc + 2 + s.sel.longs.length ≤ 2 ^ 18
  outer : outerTrap (own s) = none
  replay : (own s).replayTrap = none

theorem Quiet.unhindered (h : Quiet s) : Unhindered s := by
  obtain ⟨h1, h2, h3, h4, h5, h6, h7, h8, -⟩ := h
  exact ⟨h1, h2, h3, h4, h5, h6, h7, h8⟩
theorem Ending.unhindered {p : RftPend} (h : Ending s p) : Unhindered s := by
  obtain ⟨h1, h2, h3, h4, h5, h6, h7, h8, -⟩ := h
  exact ⟨h1, h2, h3, h4, h5, h6, h7, h8⟩

theorem Unhindered.awaited (h : Unhindered s) : awaited (own s) (trigBundle s op field g src) = 0 := by
  simp [Machine.awaited, trigBundle, lone, h.twait, h.await]

theorem Unhindered.runnable (h : Unhindered s) : (own s).run = .runnable := by
  have := h.awake
  simp only [Machine.awake, Bool.and_eq_true, beq_iff_eq] at this
  obtain ⟨⟨⟨⟨⟨hrun, -⟩, -⟩, -⟩, -⟩, -⟩ := this
  exact hrun

/-- A move that takes no room, enters no queue and raises no token is not held back. -/
theorem judge_unhindered (hu : Unhindered s) (hb : Brings s g src op.ty) (hr : Room s op.land op.vecs op.scs)
    (hblk : blocked s (view s) [(op, given s field op.ty src)] = false) :
    judge s s.sel.who (.got (trigBundle s op field g src)) = .go := by
  obtain ⟨hpass, -, hlong, hty, hreplay⟩ := hb
  have hown : getCtx s s.sel.who = own s := rfl
  have hview : seen (own s) = view s := rfl
  have hms := passing_one s op field g src (view s) hpass
  have hnames : replayNames (view s) [trigLive s op field g src] = [] := by
    cases src with
    | v n => simp [replayNames, trigLive, hreplay n rfl, sortBy]
    | _ => rfl
  have hbits := bitsTrap_one s op field g src (view s) hlong hu.longs hu.fits (by rw [hms]; exact capFault_one s op field g src hr) hty
  simp [judge, hown, hview, hu.awake, hu.awaited, tokensClear_zero, hms, triggers_one s op field g src hu.slot, hblk, hu.outer, hbits, hu.replay,
    hnames, tokenError_zero]

/-- Its operation runs and its bundle ends. -/
theorem issueOne_finish (hu : Unhindered s) (hb : Brings s g src op.ty) (hr : Room s op.land op.vecs op.scs)
    (hblk : blocked s (view s) [(op, given s field op.ty src)] = false)
    (hrun : op.run (given s field op.ty src) (started s src) = .ok t) :
    issueOne op field g src s = finish s.sel.who (trigBundle s op field g src) (view s) [field] t := by
  have hown : getCtx s s.sel.who = own s := rfl
  have hview : seen (own s) = view s := rfl
  have hms := passing_one s op field g src (view s) hb.1
  have hguard : guardTraps (view s) (trigBundle s op field g src) = [] := by simp [guardTraps, trigBundle, lone, SlotMove.live, hb.2.1]
  have hstart : setCtx s.sel.who (entry s src) s = started s src := rfl
  have hacq : acquire s.sel.who (fun p => p.who == s.sel.who && p.done && bit 0 p.tok) (started s src) = started s src :=
    acquire_none _ _ _ (by simp [bit_zero])
  rw [issueOne_attempt]
  simp only [attempt, judge_unhindered hu hb hr hblk, perform, performed, hown, hview, hms, triggers_one s op field g src hu.slot, begin_one,
    hguard, hu.awaited, hstart, hacq, runOps, hrun]
  rfl

theorem blocked_free {x : OpIn} (hf : op.full x s = false) (ht : op.tok x = none) (c : Ctx) : blocked s c [(op, x)] = false := by
  simp [blocked, hf, ht]

theorem advance_flowAfter (s : State) (c : Ctx) : advance s c = { c with
    bclk := (view s).bclk + 1, pc := (flowAfter c (view s) (own s).pc (oneLen s)).1, via := (flowAfter c (view s) (own s).pc (oneLen s)).2,
    redirects := c.redirects.filter fun r => decide ((view s).bclk + 1 < r.pos) } := by
  simp only [advance, flowAfter]
  cases redirectAt c ((view s).bclk + 1) with
  | some r => rfl
  | none => cases (loopStep (view s) (own s).pc).2 <;> rfl

/-- The end of a bundle in a context that goes on, with no LINK to settle: the flow follows, and then a handler ends if this is where. -/
theorem finish_flow (h : s.sel.slot < 8) (hrun : (getCtx t s.sel.who).run = .runnable)
    (hlink : linkReach (getCtx t s.sel.who) ((view s).bclk + 1) [field] = none) :
    finish s.sel.who (trigBundle s op field g src) (view s) [field] t = match (getCtx t s.sel.who).rft with
      | some p => if p.pos = (view s).bclk + 1 then endHandler s.sel.who (goOn s t) else goOn s t
      | none => goOn s t := by
  have hlen := trigBundle_length s op field g src h
  have hh : (trigBundle s op field g src).h = (own s).pc := rfl
  have hgo : ¬((getCtx t s.sel.who).run = .retired ∨ (getCtx t s.sel.who).run = .halted) := by simp [hrun]
  rw [goOn, advance_flowAfter, finish]
  simp only [hgo, if_false, hlen, hh, hlink] <;> rfl

/-! ## What an operation is given -/

@[simp] theorem given_who (ty : Ty) : (given s field ty src).who = s.sel.who := rfl
@[simp] theorem given_slot (ty : Ty) : (given s field ty src).slot = s.sel.slot := rfl
@[simp] theorem given_h (ty : Ty) : (given s field ty src).h = (own s).pc := rfl
@[simp] theorem given_pos (ty : Ty) : (given s field ty src).pos = (view s).bclk := rfl
@[simp] theorem given_c0 (ty : Ty) : (given s field ty src).c0 = view s := rfl
@[simp] theorem given_tP : (given s field .s src).tP = (trigSc s src).p := rfl
@[simp] theorem given_tN : (given s field .s src).tN = (trigSc s src).v.toNat := rfl
@[simp] theorem given_aP (ty : Ty) : (given s field ty src).aP = (portSc s (field / 32) 0).p := rfl
@[simp] theorem given_bP (ty : Ty) : (given s field ty src).bP = (portSc s (field / 32) 1).p := rfl
@[simp] theorem given_cP (ty : Ty) : (given s field ty src).cP = (portSc s (field / 32) 2).p := rfl

/-! ## RFT (R130) -/

theorem shrinkTo_snap (k : Nat) (c : Ctx) : (shrinkTo k c).snap = c.snap := by
  induction k generalizing c with
  | zero => rfl
  | succ k ih =>
    simp only [shrinkTo]
    split
    · rfl
    · split
      · exact ih _
      · rfl

/-- Landing neither takes nor frees the snapshot slot. -/
theorem landOne_snap_isNone (x : Due) (c : Ctx) : (landOne x c).snap.isNone = c.snap.isNone := by
  cases x with
  | timed l =>
    simp only [landOne, landTimed]
    split
    · obtain ⟨b, hb⟩ := noteParity_eq ‹Dword› { c with latches := c.latches.set (latchIx ‹Nat› false) ‹Val› }
      rw [hb]
    · rfl
    · split <;> rfl
    · rfl
  | fixed f =>
    obtain ⟨b, hb⟩ := noteParity_eq f.parity c
    simp only [landOne, landFixed, hb]
    split
    · unfold landMain
      split_ifs <;> rfl
    · split <;> rfl
    · rfl
    · unfold writeSr
      split
      case h_1 => cases c.snap <;> rfl
      case h_6 => exact congrArg Option.isNone (shrinkTo_snap _ _)
      all_goals rfl
    · rfl

theorem seen_snap_isNone (c : Ctx) : (seen c).snap.isNone = c.snap.isNone := by
  unfold seen landDue
  refine foldl_kept (fun c : Ctx => c.snap.isNone) _ (fun c q => ?_) _ _
  exact foldl_kept (fun c : Ctx => c.snap.isNone) _ (fun c x => landOne_snap_isNone x c) _ _

theorem view_snap_none (h : (own s).snap = none) : (view s).snap = none := by
  rw [← Option.isNone_iff_eq_none] at h ⊢
  exact (seen_snap_isNone _).trans h

theorem entry_runnable (hu : Unhindered s) (src : Source) : (entry s src).run = .runnable := by
  rw [entry_kept Ctx.run (fun _ _ _ => rfl) s src (fun _ => rfl), view_run, hu.runnable]

theorem entry_rft_eq (s : State) (src : Source) : (entry s src).rft = (view s).rft :=
  entry_kept Ctx.rft (fun _ _ _ => rfl) s src (fun _ => rfl)

/-- A bundle of one move that changes its own context only, in which no handler ends. -/
theorem issueOne_goes_on {f : Ctx → Ctx} (hu : Unhindered s) (hb : Brings s g src op.ty) (hr : Room s op.land op.vecs op.scs)
    (hblk : blocked s (view s) [(op, given s field op.ty src)] = false)
    (hrun : op.run (given s field op.ty src) (started s src) = .ok (updCtx s.sel.who f (started s src)))
    (hfield : field ∉ [104, 106, 107, 165]) (hrunnable : (f (entry s src)).run = .runnable) :
    issueOne op field g src s = match (f (entry s src)).rft with
      | some p => if p.pos = (view s).bclk + 1 then endHandler s.sel.who (after s src f) else after s src f
      | none => after s src f := by
  have hupd : updCtx s.sel.who f (started s src) = setCtx s.sel.who (f (entry s src)) s := by simp [started, updCtx]
  have hgo : goOn s (setCtx s.sel.who (f (entry s src)) s) = after s src f := by simp [goOn, after]
  rw [issueOne_finish hu hb hr hblk hrun, hupd, finish_flow hu.slot (by simpa using hrunnable) (linkReach_none _ _ hfield), getCtx_setCtx_same, hgo]

theorem exec_rft_ends (hq : Quiet s) (hb : Brings s g src .s) (hp : (trigSc s src).p = false) (hsnap : (view s).snap.isSome)
    (hmode : (trigSc s src).v.toNat ≤ 1) : exec (.rft g src) s = .next (after s src fun c =>
      { c with rft := some ⟨(view s).bclk + 3, (trigSc s src).v.toNat, (own s).pc, (view s).sr.trappc⟩ }) := by
  have hrft := quiet_rft hq
  have hrun : defRft.run (given s 169 .s src) (started s src) = .ok (updCtx s.sel.who (fun c =>
      { c with rft := some ⟨(view s).bclk + 3, (trigSc s src).v.toNat, (own s).pc, (view s).sr.trappc⟩ }) (started s src)) := by
    have hpoison : ¬(given s 169 .s src).tP = true := by simp [hp]
    have hc : ¬(1 < (trigSc s src).v.toNat ∨ (view s).snap.isNone ∨ (view s).rft.isSome) := by
      simp [hrft, Option.isSome_iff_ne_none.1 hsnap]; omega
    exact (if_neg hpoison).trans (if_neg hc)
  refine congrArg _ ((issueOne_goes_on hq.unhindered hb (room_none s) (blocked_free rfl rfl _) hrun (by decide)
    (entry_runnable hq.unhindered src)).trans ?_)
  exact if_neg (by simp)

theorem exec_rft_illegal (hq : Quiet s) (hb : Brings s g src .s) (hp : (trigSc s src).p = false)
    (h : 1 < (trigSc s src).v.toNat ∨ (view s).snap.isNone) : exec (.rft g src) s = .next (trapEnter s.sel.who ⟨0x01, s.sel.slot, 0⟩ s) := by
  have hrun : defRft.run (given s 169 .s src) (started s src) = .error ⟨0x01, s.sel.slot, 0⟩ := by
    have hpoison : ¬(given s 169 .s src).tP = true := by simp [hp]
    exact (if_neg hpoison).trans (if_pos (h.imp_right Or.inl))
  exact congrArg _ (issueOne_trap defRft 169 g src s _ hq hb (room_none s) rfl (fun _ hk => nomatch hk) hrun)

/-- YIELD in the second delay bundle of an RFT. -/
theorem exec_yield_ending {p : RftPend} (he : Ending s p) (hb : Brings s g src .s) : exec (.yield g src) s
    = .next (endHandler s.sel.who (after s src fun c => { c with yieldAt := some (clk s s.sel.who.clId + 1) })) := by
  have hu := he.unhindered
  obtain ⟨-, -, -, -, -, -, -, -, hrft, hpos⟩ := he
  refine congrArg _ ((issueOne_goes_on (op := defYield) (field := 166)
    (f := fun c => { c with yieldAt := some (clk s s.sel.who.clId + 1) }) hu hb (room_none s) (blocked_free rfl rfl _) rfl (by decide)
    (entry_runnable hu src)).trans ?_)
  simp only [entry_rft_eq, hrft, hpos, if_true]

/-! ## The end of a handler (R70) -/

/-- What a handler leaves when it ends: the snapshot's ports, latches, loop state and flow, its results and requests at their remaining counts,
in skip mode one bundle sooner, and the rest as the handler left it. -/
def resumed (r : RftPend) (sn : Snap) (pc : Nat) (c : Ctx) : Ctx := { c with
  snap := none, rft := none, calling := sn.calling.map fun k => k.1 + c.bclk - r.mode, ports := sn.ports, latches := sn.latches,
  loopStart := sn.loopStart, loopCnt := sn.loopCnt, loopEnd := sn.loopEnd, twait := if r.mode = 0 then c.twait ||| sn.twait else c.twait,
  pc := pc, via := if r.mode = 0 then some r.src else none,
  redirects := sn.redirects.map fun x => { x with pos := x.pos + c.bclk - r.mode },
  flight := sn.flight.map fun f => { f with land := f.land + c.bclk - r.mode },
  landing := (sn.landing.map fun l => { l with land := l.land + c.bclk - r.mode }) ++ c.landing }

theorem resumeAt_retry {r : RftPend} (h : r.mode = 0) : resumeAt s who r = some r.pc := by simp [resumeAt, h]
theorem resumeAt_skip {r : RftPend} {w : Syllable} (h : r.mode = 1) (hw : peekSyl s who.coreId r.pc = some w) (hh : isHeader w = true) :
    resumeAt s who r = some ((r.pc + (headerFields w).length) % 2 ^ 18) := by simp [resumeAt, h, hw, hh]

/-- The handler ends where a bundle stands, with no redirect of the snapshot due there. -/
theorem finishRft_resumed {r : RftPend} {sn : Snap} {pc : Nat} (hr : (getCtx s who).rft = some r) (hs : (getCtx s who).snap = some sn)
    (hmode : r.mode ≤ 1) (hred : ∀ x ∈ sn.redirects, r.mode < x.pos) (hpc : resumeAt s who r = some pc) :
    finishRft who s = setCtx who (resumed r sn pc (getCtx s who)) (dropCounts who s) := by
  have hat : (if r.mode = 1 then 1 else 0) = r.mode := by split <;> omega
  have hlater : ∀ x ∈ sn.redirects.map (fun x => { x with pos := x.pos + (getCtx s who).bclk - r.mode }), (getCtx s who).bclk < x.pos := by
    intro x hx
    obtain ⟨y, hy, rfl⟩ := List.mem_map.1 hx
    have := hred y hy
    show (getCtx s who).bclk < y.pos + (getCtx s who).bclk - r.mode
    omega
  have hdue : (sn.redirects.map (fun x => { x with pos := x.pos + (getCtx s who).bclk - r.mode })).filter
      (fun x => decide (x.pos ≤ (getCtx s who).bclk)) = [] :=
    List.filter_eq_nil_iff.2 fun x hx => by simpa using hlater x hx
  have hkeep : (sn.redirects.map (fun x => { x with pos := x.pos + (getCtx s who).bclk - r.mode })).filter
      (fun x => decide ((getCtx s who).bclk < x.pos)) = sn.redirects.map (fun x => { x with pos := x.pos + (getCtx s who).bclk - r.mode }) :=
    List.filter_eq_self.2 fun x hx => by simpa using hlater x hx
  have hvia : (if r.mode = 1 ∧ (some pc).isSome = true then none else some r.src) = if r.mode = 0 then some r.src else none := by
    rcases Nat.le_one_iff_eq_zero_or_eq_one.1 hmode with h | h <;> simp [h]
  simp only [finishRft, hr, hs, hat, hpc, hdue, hkeep, hvia]
  rfl

theorem noCall_of_free {x : Ctx} (h : x.snap = none) : noCall x = { x with calling := none } := by
  simp only [noCall, h, Option.map_none]

/-- Settling LINK changes LINK and what decides it, and may use a free value (R117). -/
theorem settleLink_nil (who : CtxId) (q k : Nat) {c x : Ctx} (hx : ∃ p, c = { x with pc := p }) (s : State) :
    ∃ p l j n, settleLink who q k [] c s
      = ({ noCall x with pc := p, calling := j, sr := { x.sr with link := l } }, { s with free := n }) := by
  obtain ⟨p, rfl⟩ := hx
  unfold settleLink
  cases linkAhead s who { x with pc := p } (q + k) k with
  | some a => exact ⟨_, _, _, s.free, rfl⟩
  | none => exact ⟨_, _, _, s.free + 1, rfl⟩

/-- Beside the end of the handler, LINK alone may be settled anew, and only where the resumed flow is another than that a pending CALL saw. -/
theorem endHandler_finishRft {r : RftPend} {sn : Snap} (hr : (getCtx s who).rft = some r) (hs : (getCtx s who).snap = some sn)
    (hsnap : (getCtx (finishRft who s) who).snap = none) :
    ((∀ n h, sn.calling = some (n, h) → r.mode = 0 ∧ r.pc = h) → endHandler who s = finishRft who s)
    ∧ (endHandler who s = finishRft who s ∨ ∃ l q n, endHandler who s = setCtx who
        { getCtx (finishRft who s) who with sr := { (getCtx (finishRft who s) who).sr with link := l }, calling := q }
        { finishRft who s with free := n }) := by
  have hbind : (getCtx s who).snap.bind (·.calling) = sn.calling := by rw [hs]; rfl
  cases hcall : sn.calling with
  | none =>
    have : endHandler who s = finishRft who s := by simp only [endHandler, hr, hbind, hcall]
    exact ⟨fun _ => this, .inl this⟩
  | some nh =>
    obtain ⟨n, h⟩ := nh
    constructor
    · intro hretry
      obtain ⟨hmode, hpc⟩ := hretry n h rfl
      simp [endHandler, hr, hbind, hcall, resumeAt_retry hmode, hmode, hpc]
    · cases hpc : resumeAt s who r with
      | none => exact .inl (by simp only [endHandler, hr, hbind, hcall, hpc])
      | some pc =>
        by_cases hsame : r.mode ≠ 1 ∧ pc = h
        · exact .inl (by simp only [endHandler, hr, hbind, hcall, hpc, if_pos hsame])
        · have hx : ∀ (x : Ctx) (k : Nat), ∃ p, (if k = 0 then { x with pc := pc } else x : Ctx) = { x with pc := p } := by
            intro x k
            split
            · exact ⟨pc, rfl⟩
            · exact ⟨x.pc, rfl⟩
          obtain ⟨p, l, j, m, heq⟩ := settleLink_nil who (getCtx (finishRft who s) who).bclk (if r.mode = 1 then n - 1 else n)
            (hx (getCtx (finishRft who s) who) (if r.mode = 1 then n - 1 else n)) (finishRft who s)
          refine .inr ⟨l, j, m, ?_⟩
          simp only [endHandler, hr, hbind, hcall, hpc, if_neg hsame, heq, noCall_of_free hsnap]

end

/-- Settles O34: RFT in its own bundle, YIELD where its handler ends, and what the end restores. -/
theorem returnFromTrap : Obligations.ReturnFromTrap := by
  refine ⟨?_, ?_, ?_⟩
  · intro s g src hq hb hp t
    refine ⟨fun hs ht => exec_rft_ends hq hb hp hs ht, fun hs => ?_, fun ht hs => ?_⟩
    · rw [exec_rft_illegal hq hb hp (.inr (by simp [view_snap_none hs])), trapEnter_free s _ hs]
    · rw [exec_rft_illegal hq hb hp (.inl ht), trapEnter_occupied hs]
  · exact fun s g src p he hb => exec_yield_ending he hb
  · intro s who sn r w c hr hs hmode hred hskip
    have hpc : resumeAt s who r = some (if r.mode = 0 then r.pc else (r.pc + (headerFields w).length) % 2 ^ 18) := by
      rcases Nat.le_one_iff_eq_zero_or_eq_one.1 hmode with h | h
      · rw [resumeAt_retry h, if_pos h]
      · obtain ⟨hw, hh⟩ := hskip h
        rw [resumeAt_skip h hw hh, if_neg (by omega)]
    have hfin := finishRft_resumed hr hs hmode hred hpc
    have hctx : getCtx (finishRft who s) who = resumed r sn (if r.mode = 0 then r.pc else (r.pc + (headerFields w).length) % 2 ^ 18) c := by rw [hfin]; exact getCtx_setCtx_same _ _ _
    have hothers : ∀ k, k ≠ who → getCtx (finishRft who s) k = getCtx s k := fun k hk => by rw [hfin]; exact getCtx_setCtx_ne _ _ hk
    obtain ⟨hsame, hend⟩ := endHandler_finishRft hr hs (by rw [hctx]; rfl)
    refine ⟨hctx, by rw [hfin]; rfl, hothers, hsame, ?_⟩
    rcases hend with h | ⟨l, q, n, h⟩
    · rw [h]
      exact ⟨⟨_, _, rfl⟩, rfl, hothers⟩
    · rw [h]
      refine ⟨⟨l, q, getCtx_setCtx_same _ _ _⟩, rfl, fun k hk => ?_⟩
      rw [getCtx_setCtx_ne _ _ hk]
      exact hothers k hk

end Sys2Proof.Machine
end

section
/-! SUPPORT. The choice of a core's cycle (R57 to R59): which ready context leads, and which merges. -/

namespace Sys2Proof.Machine

section
variable {s : State} {c : CoreId} {ks : List Nat} {l m : Nat}

theorem le_foldl_max (l : List Nat) (a : Nat) : a ≤ l.foldl max a ∧ ∀ x ∈ l, x ≤ l.foldl max a := by
  induction l generalizing a with
  | nil => simp
  | cons y l ih =>
    obtain ⟨ha, hl⟩ := ih (max a y)
    exact ⟨(le_max_left _ _).trans ha, List.forall_mem_cons.2 ⟨(le_max_right _ _).trans ha, hl⟩⟩

theorem foldl_max_mem (l : List Nat) (a : Nat) : l.foldl max a = a ∨ l.foldl max a ∈ l := by
  induction l generalizing a with
  | nil => simp
  | cons y l ih =>
    rcases ih (max a y) with h | h
    · rw [List.foldl_cons, h]
      exact (max_choice a y).imp_right fun (hm : max a y = y) => by simp [hm]
    · exact .inr (List.mem_cons_of_mem _ h)

theorem head_le (h : ks.Pairwise (· < ·)) (hl : ks.head? = some l) : ∀ k ∈ ks, l ≤ k := by
  obtain ⟨t, rfl⟩ := List.head?_eq_some_iff.1 hl
  exact List.forall_mem_cons.2 ⟨le_rfl, fun k hk => (List.rel_of_pairwise_cons h hk).le⟩

theorem readyList_sorted (ops : Nat → Option OpDef) (c : CoreId) (s : State) : (readyList ops c s).Pairwise (· < ·) :=
  List.Pairwise.filter _ List.pairwise_lt_range

/-! ## Priority, then number (R58) -/

/-- A context that no other of the list precedes by priority or number. -/
def Foremost (s : State) (c : CoreId) (ks : List Nat) (l : Nat) : Prop := ∀ k ∈ ks,
  min 7 (prioOf s c k) < min 7 (prioOf s c l) ∨ (min 7 (prioOf s c k) = min 7 (prioOf s c l) ∧ l ≤ k)

theorem Foremost.unique (hl : Foremost s c ks l) (hm : Foremost s c ks m) (h1 : l ∈ ks) (h2 : m ∈ ks) : l = m := by
  have := hl m h2
  have := hm l h1
  omega

theorem foremost_of_byPriority (hs : ks.Pairwise (· < ·)) (h : byPriority s c ks = some l) : l ∈ ks ∧ Foremost s c ks l := by
  refine ⟨mem_sortBy.1 (List.mem_of_mem_head? h), fun k hk => ?_⟩
  rcases sortBy_head_min hs h k hk with rfl | hlt
  · exact .inr ⟨rfl, le_rfl⟩
  · simp only [Before] at hlt
    omega

theorem byPriority_isSome (h : l ∈ ks) : ∃ k, byPriority s c ks = some k := by
  have hne : sortBy (fun k => 7 - prioOf s c k) ks ≠ [] := List.ne_nil_of_mem (mem_sortBy.2 h)
  exact ⟨_, List.head?_eq_some_head hne⟩

theorem byPriority_eq_some (hs : ks.Pairwise (· < ·)) : byPriority s c ks = some l ↔ l ∈ ks ∧ Foremost s c ks l := by
  refine ⟨foremost_of_byPriority hs, fun ⟨hl, hf⟩ => ?_⟩
  obtain ⟨k, hk⟩ := byPriority_isSome (s := s) (c := c) hl
  obtain ⟨hmem, hfk⟩ := foremost_of_byPriority hs hk
  rw [hk, hfk.unique hf hmem hl]

/-! ## The lead (R58) -/

/-- How long a ready context has waited. -/
def waited (s : State) (c : CoreId) (k : Nat) : Nat := (lately s c).waits.getD k 0

theorem starved_none (h : starved s c ks = none) : ∀ k ∈ ks, waited s c k < 64 := by
  intro k hk
  by_contra hlong
  have hle := (le_foldl_max (ks.map (waited s c)) 0).2 _ (List.mem_map_of_mem hk)
  obtain ⟨j, hj, hmax⟩ := List.mem_map.1 ((foldl_max_mem (ks.map (waited s c)) 0).resolve_left (by omega))
  have hno := List.filter_eq_nil_iff.1 (List.head?_eq_none_iff.1 h) j hj
  exact hno (by simpa using ⟨(show 64 ≤ waited s c j by omega), hmax⟩)

theorem starved_some (hs : ks.Pairwise (· < ·)) (h : starved s c ks = some l) : l ∈ ks ∧ 64 ≤ waited s c l
    ∧ ∀ k ∈ ks, waited s c k < waited s c l ∨ (waited s c k = waited s c l ∧ l ≤ k) := by
  obtain ⟨hl, hwait⟩ := List.mem_filter.1 (List.mem_of_mem_head? h)
  obtain ⟨hlong, hmax⟩ : 64 ≤ waited s c l ∧ waited s c l = (ks.map (waited s c)).foldl max 0 := by
    simp only [Bool.and_eq_true, decide_eq_true_eq, beq_iff_eq] at hwait
    exact hwait
  refine ⟨hl, hlong, fun k hk => ?_⟩
  have hle := (le_foldl_max (ks.map (waited s c)) 0).2 _ (List.mem_map_of_mem hk)
  rw [← hmax] at hle
  refine hle.lt_or_eq.imp_right fun heq => ⟨heq, head_le (hs.filter _) h k (List.mem_filter.2 ⟨hk, ?_⟩)⟩
  simpa using ⟨(show 64 ≤ waited s c k by omega), heq.trans hmax⟩

/-- Who leads: the starved context, the last cycle's lead, the foremost. -/
theorem chooseLead_spec (hs : ks.Pairwise (· < ·)) (hne : ks ≠ []) : ∃ l, chooseLead s c ks = some l ∧ l ∈ ks
    ∧ ((∃ k ∈ ks, 64 ≤ waited s c k) → 64 ≤ waited s c l ∧ ∀ k ∈ ks, waited s c k < waited s c l ∨ (waited s c k = waited s c l ∧ l ≤ k))
    ∧ ((∀ k ∈ ks, waited s c k < 64) → (∀ k, (lately s c).lead = some k → k ∈ ks → l = k)
      ∧ ((∀ k, (lately s c).lead = some k → k ∉ ks) → Foremost s c ks l)) := by
  simp only [chooseLead]
  cases hst : starved s c ks with
  | some l =>
    obtain ⟨hl, hlong, hmax⟩ := starved_some hs hst
    exact ⟨l, rfl, hl, fun _ => ⟨hlong, hmax⟩, fun hno => absurd (hno l hl) (by omega)⟩
  | none =>
    have hshort := starved_none hst
    have hno : ¬∃ k ∈ ks, 64 ≤ waited s c k := fun ⟨k, hk, h⟩ => absurd (hshort k hk) (by omega)
    obtain ⟨x, hx⟩ := List.exists_mem_of_ne_nil _ hne
    obtain ⟨f, hf⟩ := byPriority_isSome (s := s) (c := c) hx
    obtain ⟨hmem, hfore⟩ := foremost_of_byPriority hs hf
    cases hlead : (lately s c).lead with
    | none => exact ⟨f, hf, hmem, fun h => absurd h hno, fun _ => ⟨nofun, fun _ => hfore⟩⟩
    | some k =>
      by_cases hk : k ∈ ks
      · refine ⟨k, if_pos (by simpa using hk), hk, fun h => absurd h hno, fun _ => ⟨fun j hj _ => Option.some.inj hj, fun h => absurd hk (h k rfl)⟩⟩
      · refine ⟨f, (if_neg (by simpa using hk)).trans hf, hmem, fun h => absurd h hno,
          fun _ => ⟨fun j hj hjk => ?_, fun _ => hfore⟩⟩
        cases hj
        exact absurd hjk hk

/-! ## The merged context (R59) -/

theorem mayMerge_iff {x y : Fetched} : mayMerge x y = true ↔ ∃ a b, x = .got a ∧ y = .got b ∧ a.sig = true ∧ b.sig = true
    ∧ a.hdr.mask &&& b.hdr.mask = 0 ∧ a.hdr.solo = false ∧ b.hdr.solo = false
    ∧ (∀ u ∈ bundleUnits a, u ∉ bundleUnits b) ∧ bundleVReads a + bundleVReads b ≤ 8 := by
  cases x <;> cases y
  case got.got a b => simp [mayMerge, and_assoc]; tauto
  all_goals simp [mayMerge]

variable {ops : Nat → Option OpDef}

theorem choose_fst (ops : Nat → Option OpDef) (c : CoreId) (s : State) : (choose ops c s).1 = chooseLead s c (readyList ops c s) := by
  simp only [choose]
  cases chooseLead s c (readyList ops c s) with
  | none => rfl
  | some l =>
    dsimp only
    cases byPriority s c ((readyList ops c s).filter (· ≠ l)) <;> rfl

theorem choose_snd_iff (h : (choose ops c s).1 = some l) : (choose ops c s).2 = some m
    ↔ byPriority s c ((readyList ops c s).filter (· ≠ l)) = some m
      ∧ mayMerge (fetchBundle ops s (c.ctxId l)) (fetchBundle ops s (c.ctxId m)) = true := by
  rw [choose_fst] at h
  simp only [choose, h]
  cases byPriority s c ((readyList ops c s).filter (· ≠ l)) with
  | none => simp
  | some k =>
    simp only [Option.ite_none_right_eq_some, Option.some.injEq]
    constructor
    · rintro ⟨hm, rfl⟩
      exact ⟨rfl, hm⟩
    · rintro ⟨rfl, hm⟩
      exact ⟨hm, rfl⟩

theorem choose_nil (h : readyList ops c s = []) : choose ops c s = (none, none) := by
  have hlead : chooseLead s c [] = none := by
    simp only [chooseLead, starved, byPriority, sortBy, List.filter_nil, List.foldl_nil, List.head?_nil]
    cases (lately s c).lead <;> rfl
  simp only [choose, h, hlead]

end

section
variable {s : State} {c : CoreId}

theorem exec_bundleIssue (hc : c.wf = true) : exec (.bundleIssue c) s = .next (coreCycle opOfField c { s with focus := none }) := if_pos hc
theorem exec_starvationLead (hc : c.wf = true) (h : someStarved c s = true) :
    exec (.starvationLead c) s = .next (coreCycle opOfField c { s with focus := none }) := (if_pos hc).trans (by rw [if_pos h])

end

/-- Settles O44: what a core's cycle issues, who leads it and who merges. -/
theorem coreCycles : Obligations.CoreCycles := by
  intro s c hc s0 s1 ks w p ch
  have hs : ks.Pairwise (· < ·) := readyList_sorted _ _ _
  refine ⟨⟨_, exec_bundleIssue hc, fun hks => ?_⟩, fun l hl => ⟨_, exec_bundleIssue hc, ?_⟩, fun hne => ?_, fun l m hl => ?_,
    fun h => ⟨_, exec_starvationLead hc h, exec_bundleIssue hc⟩⟩
  · have hch : ch = (none, none) := choose_nil hks
    have hiss : issuers opOfField c s0 = [] := by show (ch.1.toList ++ ch.2.toList).map c.ctxId = []; rw [hch]; rfl
    have hprep : prepare opOfField c s0 = noteCycle c ks ch.1 ch.2 s1 := rfl
    rw [coreCycle, hiss, hprep, hch, hks]
    rfl
  · have hiss : issuers opOfField c s0 = (l :: ch.2.toList).map c.ctxId := by
      show (ch.1.toList ++ ch.2.toList).map c.ctxId = _
      rw [hl]
      rfl
    rw [coreCycle, hiss]
  · obtain ⟨l, hlead, hspec⟩ := chooseLead_spec (s := s1) (c := c) hs hne
    exact ⟨l, (choose_fst _ _ _).trans hlead, hspec⟩
  · have hmerge : ch.2 = some m ↔ _ := choose_snd_iff hl
    rw [hmerge, byPriority_eq_some (hs.filter _), mayMerge_iff]
    simp only [Foremost, List.mem_filter, decide_eq_true_eq, and_imp, and_assoc]
    rfl

end Sys2Proof.Machine
end

section
/-! SUPPORT. Poisoned operands (R64): every operation looks for poison first, so the instruction traps with its point whatever else is wrong. -/

namespace Sys2Proof.Machine

/-! ## What holds back no trap -/

/-- A state in which nothing holds the bundle back, its trap finds the snapshot slot free, no parity fault is recorded, and every queue and
every token has room. -/
structure Poised (s : State) (g : Guard) (src : Source) : Prop where
  quiet : Quiet s
  brings : Brings s g src .s
  room : Room s 1 1 2
  free : (own s).snap = none
  parity : (view s).parity = 0
  tokens : ∀ k, (getTok (view s) k).count < 15
  mex : s.mex = []
  cpy : s.cpy = []
  glz : s.glz = []
  rtc : s.rtc = []
  shares : ∀ p, (getPart s p).shares = []
  calls : (getDie s s.sel.who.die).calls = []

theorem Room.mono {s : State} {a b c a' b' c' : Nat} (h : Room s a b c) (ha : a' ≤ a) (hb : b' ≤ b) (hc : c' ≤ c) : Room s a' b' c' := by
  obtain ⟨h1, h2, h3⟩ := h
  exact ⟨by omega, by omega, by omega⟩

section
variable {s : State} {g : Guard} {src : Source} {field : Nat}

theorem Poised.mex_free (h : Poised s g src) (kind : MexKind) (usesA : Bool) (bad : OpIn → Bool) (ctl row : OpIn → Nat) :
    (mexCommand kind usesA bad ctl row).full (given s field .s src) s = false := by
  simp [mexCommand, getMex, h.mex, assoc, Mex.start]

theorem Poised.queue_free (h : Poised s g src) (x : OpIn) (kind eng : Nat) {depth : Nat} (hd : 0 < depth) : queueFull s x kind eng depth [] = false := by
  simp only [queueFull, h.shares, assoc, Option.getD_none, List.filter_nil, List.length_nil]
  simp only [decide_eq_false (Nat.not_le.2 hd), Bool.or_self]

theorem Poised.cgo_free (h : Poised s g src) : defCgo.full (given s field .s src) s = false := by
  have hq : (getCpy s (cpyOf (given s field .s src))).queue = [] := by simp [getCpy, h.cpy, assoc, Cpy.start]
  simp only [defCgo, cgoOp, hq]
  exact h.queue_free _ _ _ (by decide)

theorem Poised.glz_free (h : Poised s g src) (kind : GlzKind) : (glzCommand kind).full (given s field .s src) s = false := by
  have hq : (getGlz s (glzOf (given s field .s src))).queue = [] := by simp [getGlz, h.glz, assoc, Glz.start]
  simp only [glzCommand, hq]
  exact h.queue_free _ _ _ (by decide)

theorem Poised.twrt_free (h : Poised s g src) : defTwrt.full (given s field .s src) s = false := by
  have hq : (getRtc s (rtcOf (given s field .s src))).queue = [] := by simp [getRtc, h.rtc, assoc, Rtc.start]
  simp only [defTwrt, twrtOp, hq]
  exact h.queue_free _ _ _ (by decide)

theorem Poised.sysc_free (h : Poised s g src) : defSysc.full (given s field .s src) s = false := by
  simp [defSysc, syscOp, h.calls]

end

/-! ## The point of an instruction -/

/-- The instruction runs an operation with a scalar trigger that never lacks room, a queue or a token in a poised state. -/
structure Runs (i : Guard → Source → Instr) (op : OpDef) (field : Nat) : Prop where
  exec : ∀ g src s, exec (i g src) s = .next (issueOne op field g src s)
  ty : op.ty = .s
  land : op.land ≤ 1
  vecs : op.vecs ≤ 1
  scs : op.scs ≤ 2
  full : ∀ s g src, Poised s g src → op.full (given s field .s src) s = false

/-- The instruction traps with this point when one of these operands is poisoned. -/
def StopsAt (k : Nat) (poisoned : State → Source → Bool) (i : Guard → Source → Instr) : Prop :=
  ∃ op field, Runs i op field
    ∧ ∀ s src, poisoned s src = true → op.run (given s field .s src) (started s src) = .error ((given s field .s src).poison k)

section
variable {s : State} {g : Guard} {src : Source} {field k : Nat} {op : OpDef} {i : Guard → Source → Instr}

theorem Runs.exec_poison (h : Runs i op field) (hp : Poised s g src)
    (hrun : op.run (given s field .s src) (started s src) = .error ((given s field .s src).poison k)) :
    Machine.exec (i g src) s = .next (trapped s ⟨0x08, k, s.sel.slot⟩) := by
  have htrap : (given s field .s src).poison k = ⟨0x08, k, s.sel.slot⟩ := if_pos hp.parity
  have hroom := hp.room.mono h.land h.vecs h.scs
  rw [htrap] at hrun
  rw [h.exec, issueOne_trap op field g src s _ hp.quiet (h.ty ▸ hp.brings) hroom (h.ty ▸ h.full s g src hp) (fun _ _ => hp.tokens _) (h.ty ▸ hrun),
    trapEnter_free s _ hp.free]

theorem StopsAt.exec {poisoned : State → Source → Bool} (h : StopsAt k poisoned i) (hp : Poised s g src) (hb : poisoned s src = true) :
    Machine.exec (i g src) s = .next (trapped s ⟨0x08, k, s.sel.slot⟩) := by
  obtain ⟨op, field, hruns, hrun⟩ := h
  exact hruns.exec_poison hp (hrun s src hb)

theorem StopsAt.of_noQueue {poisoned : State → Source → Bool} (op : OpDef) (field : Nat)
    (he : ∀ g src s, Machine.exec (i g src) s = .next (issueOne op field g src s)) (hty : op.ty = .s)
    (hneeds : op.land ≤ 1 ∧ op.vecs ≤ 1 ∧ op.scs ≤ 2) (hfull : ∀ x s, op.full x s = false)
    (hrun : ∀ s src, poisoned s src = true → op.run (given s field .s src) (started s src) = .error ((given s field .s src).poison k)) :
    StopsAt k poisoned i :=
  ⟨op, field, ⟨he, hty, hneeds.1, hneeds.2.1, hneeds.2.2, fun _ _ _ _ => hfull _ _⟩, hrun⟩

end

/-! ## The commands that enter a queue -/

section
variable {field : Nat} {i : Guard → Source → Instr}

theorem runs_mex {kind : MexKind} {usesA : Bool} {bad : OpIn → Bool} {ctl row : OpIn → Nat}
    (he : ∀ g src s, exec (i g src) s = .next (issueOne (mexCommand kind usesA bad ctl row) field g src s)) :
    Runs i (mexCommand kind usesA bad ctl row) field :=
  ⟨he, rfl, Nat.zero_le _, Nat.zero_le _, Nat.le_succ _, fun _ _ _ h => h.mex_free _ _ _ _ _⟩

theorem runs_glz {kind : GlzKind} (he : ∀ g src s, exec (i g src) s = .next (issueOne (glzCommand kind) field g src s)) :
    Runs i (glzCommand kind) field :=
  ⟨he, rfl, Nat.zero_le _, Nat.zero_le _, Nat.le_succ _, fun _ _ _ h => h.glz_free _⟩

theorem runs_cgo : Runs Instr.cgo defCgo 453 := ⟨fun _ _ _ => rfl, rfl, by decide, by decide, by decide, fun _ _ _ h => h.cgo_free⟩
theorem runs_twrt : Runs Instr.twrt defTwrt 517 := ⟨fun _ _ _ => rfl, rfl, by decide, by decide, by decide, fun _ _ _ h => h.twrt_free⟩
theorem runs_sysc : Runs Instr.sysc defSysc 168 := ⟨fun _ _ _ => rfl, rfl, by decide, by decide, by decide, fun _ _ _ h => h.sysc_free⟩

end

/-- The trigger's value, and an operand port, is poisoned. -/
def trigPoisoned (s : State) (src : Source) : Bool := (trigSc s src).p
def portPoisoned (u j : Nat) (s : State) (_ : Source) : Bool := (portSc s u j).p

theorem trigPoisoned.eq {s : State} {src : Source} (h : trigPoisoned s src = true) : (trigSc s src).p = true := h
theorem portPoisoned.eq {u j : Nat} {s : State} {src : Source} (h : portPoisoned u j s src = true) : (portSc s u j).p = true := h

/-! ## The value that triggers -/

theorem commands_stop : StopsAt 4 trigPoisoned Instr.mldw ∧ StopsAt 4 trigPoisoned Instr.mstr ∧ StopsAt 4 trigPoisoned Instr.mdrn
    ∧ StopsAt 4 trigPoisoned Instr.mzero ∧ StopsAt 4 trigPoisoned Instr.cgo ∧ StopsAt 4 trigPoisoned Instr.gsend
    ∧ StopsAt 4 trigPoisoned Instr.grecv ∧ StopsAt 4 trigPoisoned Instr.gred ∧ StopsAt 4 trigPoisoned Instr.twrt
    ∧ StopsAt 4 trigPoisoned Instr.sysc := by
  refine ⟨⟨_, 422, runs_mex fun _ _ _ => rfl, ?_⟩, ⟨_, 423, runs_mex fun _ _ _ => rfl, ?_⟩, ⟨_, 424, runs_mex fun _ _ _ => rfl, ?_⟩,
    ⟨_, 425, runs_mex fun _ _ _ => rfl, ?_⟩, ⟨_, _, runs_cgo, ?_⟩, ⟨_, 485, runs_glz fun _ _ _ => rfl, ?_⟩, ⟨_, 486, runs_glz fun _ _ _ => rfl, ?_⟩,
    ⟨_, 487, runs_glz fun _ _ _ => rfl, ?_⟩, ⟨_, _, runs_twrt, ?_⟩, ⟨_, _, runs_sysc, ?_⟩⟩
  all_goals exact fun s src h => if_pos (by simp [trigPoisoned.eq h])

theorem trigger_stops : ∀ r ∈ ([
    (2, [Instr.ldb, Instr.ldbs, Instr.ldh, Instr.ldhs, Instr.ldw, Instr.ldws, Instr.ldd, Instr.stb, Instr.sth, Instr.stw, Instr.std, Instr.spld,
      Instr.spst, Instr.tch, Instr.gld, Instr.gst, Instr.vld, Instr.vlds, Instr.vst, Instr.vsts, Instr.vstm, Instr.vldbf, Instr.vstbf, Instr.vldf8,
      Instr.vldi8, Instr.vldz8, Instr.vldx, Instr.vlde, Instr.vstp, Instr.vgld, Instr.vgst, Instr.vstmc, Instr.pset, Instr.rdef, Instr.rtag, Instr.rclr,
      Instr.rdrop]),
    (3, [Instr.aadd, Instr.amax, Instr.amin, Instr.axchg, Instr.acas]),
    (1, [Instr.jmp, Instr.bra, Instr.brz, Instr.brnz, Instr.call, Instr.loops, Instr.loopx]),
    (4, [Instr.mtsr, Instr.prio, Instr.sysc, Instr.msel, Instr.mset, Instr.mldw, Instr.mstr, Instr.mdrn, Instr.mzero, Instr.mstat, Instr.mcan, Instr.cset,
      Instr.cgo, Instr.cstat, Instr.ccan, Instr.csel, Instr.gset, Instr.gsend, Instr.grecv, Instr.gred, Instr.gcan, Instr.gprec, Instr.tset, Instr.twrt,
      Instr.tstat, Instr.twear, Instr.tmap, Instr.binit, Instr.barv, Instr.bexp, Instr.btst, Instr.bwait, Instr.fence, Instr.twait])]
    : List (Nat × List (Guard → Source → Instr))), ∀ i ∈ r.2, StopsAt r.1 trigPoisoned i := by
  obtain ⟨hmldw, hmstr, hmdrn, hmzero, hcgo, hgsend, hgrecv, hgred, htwrt, hsysc⟩ := commands_stop
  simp only [List.forall_mem_cons, List.not_mem_nil, false_implies, implies_true, and_true, true_and, hmldw, hmstr, hmdrn, hmzero,
    hcgo, hgsend, hgrecv, hgred, htwrt, hsysc]
  constructorm* _ ∧ _
  all_goals exact .of_noQueue _ _ (fun _ _ _ => rfl) rfl (by decide) (fun _ _ => rfl) fun s src h => if_pos (by simp [trigPoisoned.eq h])

/-! ## The operand ports -/

theorem commands_stop_at_port : StopsAt 4 (portPoisoned 5 0) Instr.sysc ∧ StopsAt 4 (portPoisoned 5 1) Instr.sysc
    ∧ StopsAt 4 (portPoisoned 13 0) Instr.mzero := by
  refine ⟨⟨_, _, runs_sysc, ?_⟩, ⟨_, _, runs_sysc, ?_⟩, ⟨_, 425, runs_mex fun _ _ _ => rfl, ?_⟩⟩
  all_goals exact fun s src h => if_pos (by simp [portPoisoned.eq h])

theorem ports_stop : ∀ r ∈ ([
    (1, 3, 0, [Instr.brz, Instr.brnz, Instr.loops, Instr.loopx]), (1, 3, 1, [Instr.loopx]),
    (2, 4, 0, [Instr.gld]), (2, 4, 1, [Instr.gst]), (2, 4, 2, [Instr.gld]),
    (3, 4, 0, [Instr.aadd, Instr.amax, Instr.amin, Instr.axchg, Instr.acas]), (3, 4, 1, [Instr.acas]),
    (3, 4, 2, [Instr.aadd, Instr.amax, Instr.amin, Instr.axchg, Instr.acas]),
    (4, 5, 0, [Instr.mtsr, Instr.sysc]), (4, 5, 1, [Instr.sysc]), (2, 5, 0, [Instr.rdef, Instr.rtag]),
    (2, 6, 1, [Instr.vlds, Instr.vsts, Instr.vldf8, Instr.vldx, Instr.vlde, Instr.vstp]), (2, 6, 2, [Instr.vstp, Instr.vgld]), (2, 12, 0, [Instr.pset]),
    (4, 13, 0, [Instr.mset, Instr.mzero]), (4, 14, 0, [Instr.cset]), (4, 15, 0, [Instr.gset, Instr.gcan, Instr.gprec]), (4, 16, 0, [Instr.tset]),
    (4, 17, 0, [Instr.binit, Instr.bexp, Instr.bwait]), (4, 17, 2, [Instr.btst])]
    : List (Nat × Nat × Nat × List (Guard → Source → Instr))), ∀ i ∈ r.2.2.2, StopsAt r.1 (portPoisoned r.2.1 r.2.2.1) i := by
  obtain ⟨ha, hb, hz⟩ := commands_stop_at_port
  simp only [List.forall_mem_cons, List.not_mem_nil, false_implies, implies_true, and_true, true_and, ha, hb, hz]
  constructorm* _ ∧ _
  all_goals exact .of_noQueue _ _ (fun _ _ _ => rfl) rfl (by decide) (fun _ _ => rfl) fun s src h => if_pos (by simp [portPoisoned.eq h])

/-! ## The value of a store -/

section
variable {s : State} {g : Guard} {src : Source}

theorem firstFail_none {ok : Nat → Bool} {as : List Nat} (h : ∀ a ∈ as, ok a = true) : firstFail ok as = none :=
  List.find?_eq_none.2 fun a ha => by simp [h a ha]

theorem localCheck_ok {as : List Nat} {n align : Nat} (kind : Nat) {row : Nat → Nat → Bool} (ha : ∀ a ∈ as, a % align = 0)
    (hr : ∀ a ∈ as, row a n = true) : localCheck as n align kind row = .ok () := by
  rw [localCheck, firstFail_none fun a h => by simpa using ha a h]
  dsimp only
  rw [firstFail_none hr]

theorem loadable_of_inLocal {a n : Nat} (h : InLocal a n) : loadable a n = true := by
  unfold InLocal at h
  simp [loadable, inSpad, inAcc]
  omega

theorem runs_localStore {i : Guard → Source → Instr} {n field : Nat}
    (he : ∀ g src s, exec (i g src) s = .next (issueOne (localStore n) field g src s)) : Runs i (localStore n) field :=
  ⟨he, rfl, Nat.zero_le _, Nat.zero_le _, Nat.zero_le _, fun _ _ _ _ => rfl⟩

theorem localStore_poison {n field : Nat} (hu : field / 32 = 4) (ht : (trigSc s src).p = false) (ha : (portSc s 4 0).p = true)
    (hal : (trigSc s src).v.toNat % n = 0) (hin : InLocal (trigSc s src).v.toNat n) :
    (localStore n).run (given s field .s src) (started s src) = .error ((given s field .s src).poison 0) := by
  have hok : localCheck [(trigSc s src).v.toNat] n n 1 (fun a n => loadable a n || inWin a n) = .ok () :=
    localCheck_ok 1 (by simpa using hal) (by simp [loadable_of_inLocal hin])
  simp only [localStore, given_tP, given_tN, given_aP, hu, ht, ha, hok, if_true, Bool.false_eq_true, if_false]

theorem runStore_poison {x : OpIn} {n : Nat} {data : Lane → List Byte} (hl : ∃ l < 128, (laneAt x.aV l).p = true) (hal : x.tN % n = 0)
    (hin : InLocal x.tN (128 * n)) (t : State) : runStore x (List.range 128) n data t = .error (x.poison 0) := by
  have hok : localCheck ((List.range 128).map fun l => x.tN + n * l) n n 1 loadable = .ok () := by
    refine localCheck_ok 1 (fun a ha => ?_) fun a ha => ?_
    · obtain ⟨l, -, rfl⟩ := List.mem_map.1 ha
      rw [Nat.add_mul_mod_self_left, hal]
    · obtain ⟨l, hl, rfl⟩ := List.mem_map.1 ha
      have hl : n * l + n ≤ 128 * n := by
        calc n * l + n = n * (l + 1) := by ring
          _ ≤ n * 128 := Nat.mul_le_mul_left n (List.mem_range.1 hl)
          _ = 128 * n := by ring
      refine loadable_of_inLocal ?_
      unfold InLocal at hin ⊢
      omega
  have hany : ((List.range 128).any fun l => (laneAt x.aV l).p) = true := by
    obtain ⟨l, hlt, hp⟩ := hl
    exact List.any_eq_true.2 ⟨l, List.mem_range.2 hlt, hp⟩
  simp only [runStore, hok, hany, if_true]

theorem runs_vst : Runs Instr.vst defVst 199 := ⟨fun _ _ _ => rfl, rfl, by decide, by decide, by decide, fun _ _ _ _ => rfl⟩
theorem runs_vstbf : Runs Instr.vstbf defVstbf 204 := ⟨fun _ _ _ => rfl, rfl, by decide, by decide, by decide, fun _ _ _ _ => rfl⟩
theorem runs_gst : Runs Instr.gst defGst 147 := ⟨fun _ _ _ => rfl, rfl, by decide, by decide, by decide, fun _ _ _ _ => rfl⟩

theorem vst_poison (ht : (trigSc s src).p = false) (hl : ∃ l < 128, (laneAt (portVec s 6 0) l).p = true)
    (hal : (trigSc s src).v.toNat % 4 = 0) (hin : InLocal (trigSc s src).v.toNat (128 * 4)) :
    defVst.run (given s 199 .s src) (started s src) = .error ((given s 199 .s src).poison 0) := by
  simp only [defVst, vstOp, given_tP, ht, Bool.false_eq_true, if_false]
  exact runStore_poison (x := given s 199 .s src) hl hal hin _

theorem vstbf_poison (ht : (trigSc s src).p = false) (hl : ∃ l < 128, (laneAt (portVec s 6 0) l).p = true)
    (hal : (trigSc s src).v.toNat % 2 = 0) (hin : InLocal (trigSc s src).v.toNat (128 * 2)) :
    defVstbf.run (given s 204 .s src) (started s src) = .error ((given s 204 .s src).poison 0) := by
  simp only [defVstbf, vstbfOp, given_tP, ht, Bool.false_eq_true, if_false]
  rw [runStore_poison (x := given s 204 .s src) hl hal hin]

/-! A covered address -/

theorem coverBytes_covered {va n : Nat} {q : Pin} (h : Covered s va n q) :
    coverBytes (view s) (view s).bclk va n = .ok ((List.range n).map fun i => ⟨pinAt q (va + i), q.pte.toNat⟩) := by
  obtain ⟨hlt, hpin, -, -⟩ := h
  suffices ∀ l : List Nat, (∀ i ∈ l, i < n) → l.foldr (fun i acc =>
      if 2 ^ 56 ≤ va + i then Except.error va
      else match pinFor (view s) (view s).bclk (va + i), acc with
        | some q, .ok r => .ok (⟨ptePhys q.pte.toNat q.size (va + i), q.pte.toNat⟩ :: r)
        | _, _ => .error va) (.ok []) = .ok (l.map fun i => (⟨pinAt q (va + i), q.pte.toNat⟩ : GByte)) from
    (this _ fun i hi => List.mem_range.1 hi).trans rfl
  intro l hl
  induction l with
  | nil => rfl
  | cons i l ih =>
    obtain ⟨hi, hl⟩ := List.forall_mem_cons.1 hl
    rw [List.foldr_cons, ih hl, if_neg (by omega), hpin i hi]
    rfl

theorem aliasTrap_noLines {t : State} (h : t.lines = []) (va : Nat) (bs : List GByte) : aliasTrap t va bs = none := by
  rw [aliasTrap, List.find?_eq_none.2 fun b _ => by simp [h, assoc]]

/-- A store of an aligned, covered and writable address passes its checks. -/
theorem globalCheck_covered {x : OpIn} {t : State} {va n : Nat} {q : Pin} (hc0 : x.c0 = view s) (hpos : x.pos = (view s).bclk) (h : Covered s va n q)
    (ht : t.lines = s.lines) (hal : va % n = 0) (hw : pteWrite q.pte.toNat = true) :
    globalCheck x t [va] n n 1 = .ok [(List.range n).map fun i => ⟨pinAt q (va + i), q.pte.toNat⟩] := by
  have hcover := coverBytes_covered h
  obtain ⟨-, -, -, hlines⟩ := h
  have hlanes : coverLanes x n [va] = .ok [(List.range n).map fun i => ⟨pinAt q (va + i), q.pte.toNat⟩] := by
    simp only [coverLanes, hc0, hpos, hcover]
  have hperm : permitted 1 ((List.range n).map fun i => (⟨pinAt q (va + i), q.pte.toNat⟩ : GByte)) = true := by simp [permitted, hw]
  have halias := aliasTrap_noLines (ht.trans hlines) va ((List.range n).map fun i => ⟨pinAt q (va + i), q.pte.toNat⟩)
  have hfirst : firstFail (fun a => a % n == 0) [va] = none := firstFail_none (by simpa using hal)
  simp only [globalCheck, hlanes, hfirst, List.zip_cons_cons, List.zip_nil_right, List.find?_cons, List.find?_nil, hperm, Bool.not_true,
    List.findSome?_cons, List.findSome?_nil, halias]

theorem gst_poison {q : Pin} (ht : (trigSc s src).p = false) (ha : (portSc s 4 0).p = true) (hb : (portSc s 4 1).p = false)
    (hn : (portSc s 4 1).v.toNat < 4) (hal : (trigSc s src).v.toNat % 2 ^ (portSc s 4 1).v.toNat = 0)
    (hc : Covered s (trigSc s src).v.toNat (2 ^ (portSc s 4 1).v.toNat) q) (hw : pteWrite q.pte.toNat = true) :
    defGst.run (given s 147 .s src) (started s src) = .error ((given s 147 .s src).poison 0) := by
  have hbN : (given s 147 .s src).bN = (portSc s 4 1).v.toNat := rfl
  have hok := globalCheck_covered (x := given s 147 .s src) (t := started s src) rfl rfl hc rfl hal hw
  simp only [defGst, gstOp, given_tP, given_tN, given_aP, given_bP, Nat.reduceDiv, hbN, ht, ha, hb, hok, if_true, Bool.or_self, Bool.false_eq_true,
    if_false, if_neg (Nat.not_le.2 hn)]

/-! ## RFT -/

theorem exec_rft_poison (hq : Quiet s) (hb : Brings s g src .s) (hp : (trigSc s src).p = true) (hs : (own s).snap.isSome) :
    exec (.rft g src) s = .next (doubleFault s.sel.who s) := by
  have hrun : defRft.run (given s 169 .s src) (started s src) = .error ((given s 169 .s src).poison 1) := if_pos hp
  refine congrArg _ ((issueOne_trap defRft 169 g src s _ hq hb (room_none s) rfl (fun _ hk => nomatch hk) hrun).trans ?_)
  exact trapEnter_occupied hs

end

/-- Settles O12: each operation looks for poison first; a poisoned value of a store comes after the checks of its address. -/
theorem poisonPoints : Obligations.PoisonPoints := by
  refine ⟨?_, fun s g src hq hb hp hs => exec_rft_poison hq hb hp hs⟩
  intro s g src hq hb hr hs hpar htok hmex hcpy hglz hrtc hshares hcalls
  have h : Poised s g src := ⟨hq, hb, hr, hs, hpar, htok, hmex, hcpy, hglz, hrtc, hshares, hcalls⟩
  refine ⟨fun hp r hr i hi => (trigger_stops r hr i hi).exec h hp, fun r hr hp i hi => (ports_stop r hr i hi).exec h hp, fun ht => ⟨?_, ?_, ?_⟩⟩
  · simp only [List.forall_mem_cons, List.not_mem_nil, false_implies, implies_true, and_true]
    constructorm* _ ∧ _
    all_goals exact fun ha hal hin => (runs_localStore fun _ _ _ => rfl).exec_poison h (localStore_poison rfl ht ha hal hin)
  · simp only [List.forall_mem_cons, List.not_mem_nil, false_implies, implies_true, and_true]
    refine ⟨fun hl hal hin => runs_vst.exec_poison h (vst_poison ht hl hal hin), fun hl hal hin => runs_vstbf.exec_poison h (vstbf_poison ht hl hal hin)⟩
  · intro q ha hb hn n hal hc hw
    exact runs_gst.exec_poison h (gst_poison ht ha hb hn hal hc hw)

end Sys2Proof.Machine
end

section
/-! SUPPORT. What lands at a position (R47, R48, R80): one result's effect, and what of several that land together stays. -/

namespace Sys2Proof.Machine

section
variable {c d : Ctx} {f : Flight} {l : Landing} {x y : Due} {i k n q : Nat}

/-! ## One result -/

theorem shrinkTo_eq (k : Nat) (c : Ctx) : ∃ w, shrinkTo k c = { c with v := w } := by
  induction k generalizing c with
  | zero => exact ⟨c.v, rfl⟩
  | succ k ih =>
    simp only [shrinkTo]
    split
    · exact ⟨c.v, rfl⟩
    · split
      · exact ih _
      · exact ⟨c.v, rfl⟩

/-- A special-register write leaves everything but these. -/
theorem writeSr_eq (i v : Nat) (c : Ctx) : ∃ sr cnt stop calling snap w, writeSr i v c
    = { c with sr := sr, loopCnt := cnt, loopEnd := stop, calling := calling, snap := snap, v := w } := by
  unfold writeSr
  split
  case h_6 =>
    obtain ⟨w, hw⟩ := shrinkTo_eq 32 { c with sr := { c.sr with quota := v % 64 } }
    exact ⟨_, _, _, _, _, w, hw⟩
  all_goals exact ⟨_, _, _, _, _, _, rfl⟩

theorem writeSr_v (h : i ≠ 9) (v : Nat) (c : Ctx) : (writeSr i v c).v = c.v := by
  unfold writeSr
  split
  case h_6 => exact absurd rfl h
  all_goals rfl

/-- What one fixed-latency result leaves, by its destination. -/
inductive Lands (c : Ctx) : FlightDst → Val → Ctx → Prop where
  | general {i : Nat} (b : Dword) (v : Val) (h : i < 0x40) : Lands c (.main i) v { c with parity := b, g := c.g.set i (valSc v) }
  | vector {n : Nat} (b : Dword) (v : Val) (h : n < 32) :
    Lands c (.main (0x40 + n)) v { c with parity := b, v := c.v.set n { getV c n with st := .resident, val := valVec v, bound := none } }
  | mask {n : Nat} (b : Dword) (v : Val) (h : n < 8) : Lands c (.main (0x60 + n)) v { c with parity := b, m := c.m.set n (valMask v) }
  | pred (n : Nat) (b : Dword) (v : Val) :
    Lands c (.main (0x68 + n)) v { c with parity := b, p := c.p.set n (decide ((valSc v).v ≠ 0), (valSc v).p) }
  | oper {i : Nat} (b : Dword) (v : Val) (h : i < 16) : Lands c (.oper i) v { c with parity := b, o := c.o.set i (valSc v) }
  | vecOper (n : Nat) (b : Dword) (v : Val) : Lands c (.oper (0x10 + n)) v { c with parity := b, vo := c.vo.set n (valVec v) }
  | latch (u : Nat) (y : Bool) (b : Dword) (v : Val) : Lands c (.latch u y) v { c with parity := b, latches := c.latches.set (latchIx u y) v }
  | special (i : Nat) (b : Dword) (v : Val) {sr : Special} {cnt stop : Nat} {calling : Option Nat} {snap : Option Snap} {w : List VName}
    (h : writeSr i (valSc v).v.toNat { c with parity := b }
      = { c with parity := b, sr := sr, loopCnt := cnt, loopEnd := stop, calling := calling, snap := snap, v := w }) :
    Lands c (.special i) v { c with parity := b, sr := sr, loopCnt := cnt, loopEnd := stop, calling := calling, snap := snap, v := w }
  | flags (b : Dword) (v : Val) : Lands c .flags v { c with parity := b }

theorem landMain_lands (i : Nat) (b : Dword) (v : Val) (c : Ctx) : Lands c (.main i) v (landMain i v { c with parity := b }) := by
  unfold landMain
  split_ifs with hg hv hm
  · exact .general b v hg
  · obtain ⟨n, rfl⟩ := Nat.exists_eq_add_of_le (Nat.not_lt.1 hg)
    rw [Nat.add_sub_cancel_left]
    exact .vector b v (by omega)
  · obtain ⟨n, rfl⟩ := Nat.exists_eq_add_of_le (Nat.not_lt.1 hv)
    rw [Nat.add_sub_cancel_left]
    exact .mask b v (by omega)
  · obtain ⟨n, rfl⟩ := Nat.exists_eq_add_of_le (Nat.not_lt.1 hm)
    rw [Nat.add_sub_cancel_left]
    exact .pred n b v

theorem landFixed_lands (f : Flight) (c : Ctx) : Lands c f.dst f.val (landFixed f c) := by
  obtain ⟨b, hb⟩ := noteParity_eq f.parity c
  simp only [landFixed, hb]
  cases f.dst with
  | main i => exact landMain_lands i b f.val c
  | oper i =>
    dsimp only
    split_ifs with h
    · exact .oper b f.val h
    · obtain ⟨n, rfl⟩ := Nat.exists_eq_add_of_le (Nat.not_lt.1 h)
      rw [Nat.add_sub_cancel_left]
      exact .vecOper n b f.val
  | latch u y => exact .latch u y b f.val
  | special i =>
    obtain ⟨_, _, _, _, _, _, h⟩ := writeSr_eq i (valSc f.val).v.toNat { c with parity := b }
    dsimp only
    rw [h]
    exact .special i b f.val h
  | flags => exact .flags b f.val

/-- The entry that a descriptor defines (R243, R247, R248). -/
def sketchFrom (k : Nat) (frm : BitVec 2) (bs : List Byte) (bad : Bool) (c : Ctx) : Sketch :=
  if sketchOk bs && !tooDeep 32 c { c with sketches := c.sketches.set k ⟨bs, true, frm, bad⟩ } then ⟨bs, true, frm, bad⟩ else .cleared

/-- What one timed request leaves, by its destination and data. -/
inductive Arrives (c : Ctx) : LandDst → LandData → Ctx → Prop where
  | latch (u : Nat) (v : Val) (a b : Dword) : Arrives c (.latch u) (.value v a) { c with parity := b, latches := c.latches.set (latchIx u false) v }
  | pattern (k : Nat) (bs : List Byte) (bad : Bool) : Arrives c (.pattern k) (.desc bs bad) { c with pats := c.pats.set k ⟨bs, patternOk bs, bad⟩ }
  | sketch (k : Nat) (frm : BitVec 2) (bs : List Byte) (bad : Bool) :
    Arrives c (.sketch k frm) (.desc bs bad) { c with sketches := c.sketches.set k (sketchFrom k frm bs bad c) }
  | nothing (dst : LandDst) (data : LandData) (hv : ∀ u v a, dst = .latch u → data ≠ .value v a)
      (hp : ∀ k bs bad, dst = .pattern k → data ≠ .desc bs bad) (hs : ∀ k frm bs bad, dst = .sketch k frm → data ≠ .desc bs bad) : Arrives c dst data c

theorem landTimed_arrives (l : Landing) (c : Ctx) : Arrives c l.dst l.data (landTimed l c) := by
  simp only [landTimed]
  generalize l.dst = dst, l.data = data
  split
  next u v a =>
    obtain ⟨b, hb⟩ := noteParity_eq a { c with latches := c.latches.set (latchIx u false) v }
    rw [hb]
    exact .latch u v a b
  next k bs bad => exact .pattern k bs bad
  next k frm bs bad =>
    have h := Arrives.sketch (c := c) k frm bs bad
    unfold sketchFrom at h
    split_ifs at h ⊢ <;> exact h
  next hv hp hs =>
    exact .nothing _ _ (fun u v a h h' => hv u v a h h') (fun k bs bad h h' => hp k bs bad h h')
      fun k frm bs bad h h' => hs k frm bs bad h h'

/-! ## Several results -/

/-- The context with what is due at a position taken out of what is in flight. -/
def emptied (q : Nat) (c : Ctx) : Ctx := { c with landing := c.landing.filter (fun l => l.land != q), flight := c.flight.filter (fun f => f.land != q) }
/-- What the results due at a position leave, before their flags. -/
def landed (q : Nat) (c : Ctx) : Ctx := (dueAt q c).foldl (fun c x => landOne x c) (emptied q c)

theorem mem_dueAt : y ∈ dueAt q c ↔ (∃ l ∈ c.landing.filter (fun l => l.land == q), .timed l = y)
    ∨ ∃ f ∈ c.flight.filter (fun f => f.land == q), .fixed f = y := by
  rw [dueAt, mem_sortBy, mem_sortBy, List.mem_append, List.mem_map, List.mem_map]

/-- Definitions of sketches land last, and otherwise what was triggered later. -/
theorem dueAt_sorted (q : Nat) (c : Ctx) : (dueAt q c).Pairwise fun x y => x.defines = y.defines → x.issued ≤ y.issued := by
  refine (pairwise_sortBy (pairwise_sortBy (List.pairwise_of_forall fun _ _ => trivial))).imp fun {x y} h hxy => ?_
  simp only [Before, hxy, lt_self_iff_false, true_and, false_or, and_true] at h
  omega

/-- What nothing that lands touches stays. -/
theorem landed_kept {γ : Type} (obs : Ctx → γ) (h : ∀ y ∈ dueAt q c, ∀ b, obs (landOne y b) = obs b) : obs (landed q c) = obs (emptied q c) := by
  refine List.foldlRecOn _ _ (motive := fun b => obs b = _) rfl fun b hb y hy => ?_
  exact (h y hy b).trans hb

/-- A result stays when every other that lands there either leaves its place alone or was triggered before it. -/
theorem landed_last {γ : Type} (obs : Ctx → γ) (P : Ctx → Prop) {v : γ} (hx : x ∈ dueAt q c)
    (hP : P (emptied q c))
    (hpres : ∀ y ∈ dueAt q c, ∀ b, P b → P (landOne y b)) (hset : ∀ b, P b → obs (landOne x b) = v)
    (hother : ∀ y ∈ dueAt q c, y = x ∨ (x.defines = y.defines ∧ y.issued < x.issued) ∨ ∀ b, P b → obs (landOne y b) = obs b) :
    obs (landed q c) = v := by
  have hsorted := dueAt_sorted q c
  unfold landed
  generalize dueAt q c = ys at *
  obtain ⟨before, after, rfl⟩ := List.append_of_mem hx
  obtain ⟨-, hafter, -⟩ := List.pairwise_append.1 hsorted
  have hlater := (List.pairwise_cons.1 hafter).1
  rw [List.foldl_append, List.foldl_cons]
  have hbefore := List.foldlRecOn before (fun c y => landOne y c) (motive := P) hP fun b hb y hy => hpres y (List.mem_append_left _ hy) b hb
  refine (List.foldlRecOn after (fun c y => landOne y c) (motive := fun b => P b ∧ obs b = v) ⟨hpres x hx _ hbefore, hset _ hbefore⟩
    fun b hb y hy => ?_).2
  obtain ⟨hPb, hv⟩ := hb
  have hmem : y ∈ before ++ x :: after := List.mem_append_right _ (List.mem_cons_of_mem _ hy)
  refine ⟨hpres y hmem b hPb, ?_⟩
  rcases hother y hmem with rfl | ⟨hd, hlt⟩ | hkeep
  · exact hset b hPb
  · exact absurd (hlater y hy hd) (Nat.not_le.2 hlt)
  · exact (hkeep b hPb).trans hv

/-! ## Files of latches and registers -/

/-- Where and what one result writes of a file, everything else leaving the file alone. -/
def Writes {α : Type} (file : Ctx → List α) (write : Due → Option (Nat × α)) : Prop :=
  ∀ y b, file (landOne y b) = (write y).elim (file b) fun t => (file b).set t.1 t.2

section
variable {α : Type} {file : Ctx → List α} {write : Due → Option (Nat × α)} {w : α}

theorem writes_of (hf : ∀ f b d, Lands b f.dst f.val d → file d = (write (.fixed f)).elim (file b) fun t => (file b).set t.1 t.2)
    (ht : ∀ l b d, Arrives b l.dst l.data d → file d = (write (.timed l)).elim (file b) fun t => (file b).set t.1 t.2) : Writes file write := by
  intro y b
  cases y with
  | timed l => exact ht l b _ (landTimed_arrives l b)
  | fixed f => exact hf f b _ (landFixed_lands f b)

theorem Writes.length (h : Writes file write) (y : Due) (b : Ctx) : (file (landOne y b)).length = (file b).length := by
  rw [h]
  cases write y with
  | none => rfl
  | some t => exact List.length_set

theorem Writes.miss (h : Writes file write) (hy : ∀ w, write y ≠ some (i, w)) (b : Ctx) : (file (landOne y b))[i]? = (file b)[i]? := by
  rw [h]
  cases hw : write y with
  | none => rfl
  | some t => exact List.getElem?_set_ne fun hi => hy t.2 (by rw [hw, ← hi])

theorem Writes.kept (h : Writes file write) (hno : ∀ y ∈ dueAt q c, ∀ w, write y ≠ some (i, w)) : (file (landed q c))[i]?
    = (file (emptied q c))[i]? :=
  landed_kept (fun b => (file b)[i]?) fun y hy b => h.miss (hno y hy) b

theorem Writes.last (h : Writes file write) (hx : x ∈ dueAt q c) (hw : write x = some (i, w))
    (hi : i < (file (emptied q c)).length)
    (hlast : ∀ y ∈ dueAt q c, ∀ w, write y = some (i, w) → y = x ∨ (x.defines = y.defines ∧ y.issued < x.issued)) :
    (file (landed q c))[i]? = some w := by
  refine landed_last (fun b => (file b)[i]?) (fun b => i < (file b).length) hx hi (fun y _ b hb => by rwa [h.length]) (fun b hb => ?_)
    fun y hy => ?_
  · rw [h, hw, Option.elim_some, List.getElem?_set_self hb]
  · by_cases hex : ∃ w, write y = some (i, w)
    · obtain ⟨w, hyw⟩ := hex
      exact (hlast y hy w hyw).imp_right .inl
    · exact .inr (.inr fun b _ => h.miss (fun w hyw => hex ⟨w, hyw⟩) b)

end

/-- What fixed-latency results write of a file, by the place that a destination names in it. -/
def fixedWrite {α : Type} (place : FlightDst → Option Nat) (val : Val → α) : Due → Option (Nat × α)
  | .fixed f => (place f.dst).map fun i => (i, val f.val)
  | .timed _ => none

/-- The places of the main file and of the operand file (R28). -/
def generalPlace : FlightDst → Option Nat
  | .main i => if i < 0x40 then some i else none
  | _ => none
def vectorPlace : FlightDst → Option Nat
  | .main i => if 0x40 ≤ i ∧ i < 0x60 then some (i - 0x40) else none
  | _ => none
def maskPlace : FlightDst → Option Nat
  | .main i => if 0x60 ≤ i ∧ i < 0x68 then some (i - 0x60) else none
  | _ => none
def predPlace : FlightDst → Option Nat
  | .main i => if 0x68 ≤ i then some (i - 0x68) else none
  | _ => none
def operPlace : FlightDst → Option Nat
  | .oper i => if i < 0x10 then some i else none
  | _ => none
def vecOperPlace : FlightDst → Option Nat
  | .oper i => if 0x10 ≤ i then some (i - 0x10) else none
  | _ => none
def predVal (v : Val) : Bool × Bool := (decide ((valSc v).v ≠ 0), (valSc v).p)

/-- What a result writes of the latches. -/
def latchWrite : Due → Option (Nat × Val)
  | .fixed ⟨_, .latch u y, v, _, _, _⟩ => some (latchIx u y, v)
  | .timed ⟨_, _, _, .latch u, _, .value v _, _, _⟩ => some (latchIx u false, v)
  | _ => none
/-- What a timed request writes of the pattern registers. -/
def patWrite : Due → Option (Nat × Pattern)
  | .timed ⟨_, _, _, .pattern k, _, .desc bs bad, _, _⟩ => some (k, ⟨bs, patternOk bs, bad⟩)
  | _ => none

section
variable {y : Due} {i : Nat} {k : FlightDst}

theorem fixedWrite_some {α : Type} {place : FlightDst → Option Nat} {val : Val → α} {w : α} :
    fixedWrite place val y = some (i, w) ↔ ∃ f, y = .fixed f ∧ place f.dst = some i ∧ w = val f.val := by
  cases y <;> simp [fixedWrite, eq_comm]

theorem generalPlace_some : generalPlace k = some i ↔ k = .main i ∧ i < 0x40 := by
  cases k <;> simp [generalPlace]
  omega
theorem vectorPlace_some : vectorPlace k = some i ↔ k = .main (0x40 + i) ∧ i < 32 := by
  cases k <;> simp [vectorPlace]
  omega
theorem maskPlace_some : maskPlace k = some i ↔ k = .main (0x60 + i) ∧ i < 8 := by
  cases k <;> simp [maskPlace]
  omega
theorem predPlace_some : predPlace k = some i ↔ k = .main (0x68 + i) := by
  cases k <;> simp [predPlace]
  omega
theorem operPlace_some : operPlace k = some i ↔ k = .oper i ∧ i < 0x10 := by
  cases k <;> simp [operPlace]
  omega
theorem vecOperPlace_some : vecOperPlace k = some i ↔ k = .oper (0x10 + i) := by
  cases k <;> simp [vecOperPlace]
  omega

theorem latchIx_inj {u u' : Nat} {b b' : Bool} : latchIx u b = latchIx u' b' ↔ u = u' ∧ b = b' := by
  cases b <;> cases b' <;> simp [latchIx, b2n] <;> omega

theorem latchWrite_some {u : Nat} {b : Bool} {w : Val} : latchWrite y = some (latchIx u b, w) ↔ (∃ k, y = .fixed k ∧ k.dst = .latch u b ∧ w = k.val)
    ∨ ∃ l a, y = .timed l ∧ l.dst = .latch u ∧ b = false ∧ l.data = .value w a := by
  cases y with
  | timed l =>
    obtain ⟨_, _, _, dst, _, data, _, _⟩ := l
    cases dst <;> cases data <;> simp [latchWrite, latchIx_inj]
    grind
  | fixed f =>
    obtain ⟨_, dst, v, _, _, _⟩ := f
    cases dst <;> simp [latchWrite, latchIx_inj]
    grind

theorem patWrite_some {w : Pattern} : patWrite y = some (i, w)
    ↔ ∃ l bs bad, y = .timed l ∧ l.dst = .pattern i ∧ l.data = .desc bs bad ∧ w = ⟨bs, patternOk bs, bad⟩ := by
  cases y with
  | timed l =>
    obtain ⟨_, _, _, dst, _, data, _, _⟩ := l
    cases dst with
    | pattern j => cases data with
      | desc bs bad =>
        constructor
        · intro h
          cases h
          exact ⟨_, _, _, rfl, rfl, rfl, rfl⟩
        · rintro ⟨k, bs, bad, hk, hd, hx, rfl⟩
          cases hk
          cases hd
          cases hx
          rfl
      | _ => simp [patWrite]
    | _ => simp [patWrite]
  | fixed f => simp [patWrite]

end

theorem fixedWrite_writes {α : Type} {file : Ctx → List α} {place : FlightDst → Option Nat} {val : Val → α}
    (hf : ∀ b k v d, Lands b k v d → file d = (place k).elim (file b) fun i => (file b).set i (val v))
    (ht : ∀ b k x d, Arrives b k x d → file d = file b) : Writes file (fixedWrite place val) := by
  refine writes_of (fun f b d h => ?_) fun l b d h => ht b _ _ d h
  rw [hf b _ _ d h, fixedWrite]
  cases place f.dst <;> rfl

theorem registers_write : Writes Ctx.g (fixedWrite generalPlace valSc) ∧ Writes Ctx.m (fixedWrite maskPlace valMask)
    ∧ Writes Ctx.p (fixedWrite predPlace predVal) ∧ Writes Ctx.o (fixedWrite operPlace valSc) ∧ Writes Ctx.vo (fixedWrite vecOperPlace valVec) := by
  refine ⟨?_, ?_, ?_, ?_, ?_⟩
  all_goals
    refine fixedWrite_writes (fun b k v d h => ?_) fun b k x d h => by cases h <;> rfl
    cases h <;> simp (disch := omega) [generalPlace, maskPlace, predPlace, predVal, operPlace, vecOperPlace, if_pos, if_neg]

theorem latch_writes : Writes Ctx.latches latchWrite := by
  refine writes_of (fun f b d h => ?_) fun l b d h => ?_
  · obtain ⟨_, dst, v, _, _, _⟩ := f
    cases h <;> rfl
  · obtain ⟨_, _, _, dst, _, data, _, _⟩ := l
    cases h with
    | nothing _ _ hv =>
      cases dst with
      | latch u => cases data with
        | value v a => exact absurd rfl (hv u v a rfl)
        | _ => rfl
      | _ => rfl
    | _ => rfl

theorem pat_writes : Writes Ctx.pats patWrite := by
  refine writes_of (fun f b d h => ?_) fun l b d h => ?_
  · obtain ⟨_, dst, v, _, _, _⟩ := f
    cases h <;> rfl
  · obtain ⟨_, _, _, dst, _, data, _, _⟩ := l
    cases h with
    | nothing _ _ _ hp =>
      cases dst with
      | pattern k => cases data with
        | desc bs bad => exact absurd rfl (hp k bs bad rfl)
        | _ => rfl
      | _ => rfl
    | _ => rfl

/-! ## Vector names -/

theorem Arrives.v_eq {k : LandDst} {x : LandData} (h : Arrives c k x d) : d.v = c.v := by cases h <;> rfl

/-- A name with a vector written to it. -/
def written (n : Nat) (v : Val) (c : Ctx) : VName := { getV c n with st := .resident, val := valVec v, bound := none }

/-- Beside a write of VQUOTA, one result writes one name or none. -/
theorem landOne_v (h9 : ∀ f, y = .fixed f → f.dst ≠ .special 9) (b : Ctx) :
    (landOne y b).v = (fixedWrite vectorPlace id y).elim b.v fun t => b.v.set t.1 (written t.1 t.2 b) := by
  cases y with
  | timed l => exact (landTimed_arrives l b).v_eq
  | fixed f =>
    have h := landFixed_lands f b
    obtain ⟨_, dst, v, _, _, _⟩ := f
    replace h9 := h9 _ rfl
    simp only [landOne]
    generalize landFixed _ b = d at h
    cases h with
    | special j a _ h => exact (congrArg Ctx.v h).symm.trans (writeSr_v (fun hj => h9 (hj ▸ rfl)) _ _)
    | _ => simp (disch := omega) [fixedWrite, vectorPlace, if_pos, if_neg, written]

theorem landOne_v_length (h9 : ∀ f, y = .fixed f → f.dst ≠ .special 9) (b : Ctx) : (landOne y b).v.length = b.v.length := by
  rw [landOne_v h9]
  cases fixedWrite vectorPlace id y with
  | none => rfl
  | some t => exact List.length_set

theorem getV_landOne_ne (h9 : ∀ f, y = .fixed f → f.dst ≠ .special 9) (hy : ∀ w, fixedWrite vectorPlace id y ≠ some (n, w)) (b : Ctx) :
    getV (landOne y b) n = getV b n := by
  rw [getV, landOne_v h9]
  cases hw : fixedWrite vectorPlace id y with
  | none => rfl
  | some t => exact getV_setV_ne fun hn => hy t.2 (by rw [hw, hn])

theorem getV_landOne_same (h9 : ∀ f, y = .fixed f → f.dst ≠ .special 9) {v : Val} (hy : fixedWrite vectorPlace id y = some (n, v)) {b : Ctx} (hn : n < b.v.length) :
    getV (landOne y b) n = written n v b := by
  rw [getV, landOne_v h9, hy]
  exact getV_setV_same hn

/-! ## Sketch entries -/

theorem Lands.sketches_eq {k : FlightDst} {v : Val} (h : Lands c k v d) : d.sketches = c.sketches := by cases h <;> rfl

theorem Arrives.sketches_eq {k : LandDst} {x : LandData} (h : Arrives c k x d) : d.sketches = c.sketches
    ∨ ∃ j frm bs bad, k = .sketch j frm ∧ x = .desc bs bad ∧ d.sketches = c.sketches.set j (sketchFrom j frm bs bad c) := by
  cases h with
  | sketch j frm bs bad => exact .inr ⟨j, frm, bs, bad, rfl, rfl, rfl⟩
  | _ => exact .inl rfl

theorem landTimed_sketch {j : Nat} {frm : BitVec 2} {bs : List Byte} {bad : Bool} (hd : l.dst = .sketch j frm) (hdata : l.data = .desc bs bad) (b : Ctx) :
    (landTimed l b).sketches = b.sketches.set j (sketchFrom j frm bs bad b) := by
  have h := landTimed_arrives l b
  rw [hd, hdata] at h
  generalize landTimed l b = d at h
  cases h with
  | sketch => rfl
  | nothing _ _ _ _ hs => exact absurd rfl (hs _ _ _ _ rfl)

theorem landOne_sketches (y : Due) (b : Ctx) : (landOne y b).sketches = b.sketches ∨ ∃ l j frm bs bad, y = .timed l ∧ l.dst = .sketch j frm
    ∧ l.data = .desc bs bad ∧ (landOne y b).sketches = b.sketches.set j (sketchFrom j frm bs bad b) := by
  cases y with
  | timed l => exact (landTimed_arrives l b).sketches_eq.imp_right fun ⟨j, frm, bs, bad, hk, hx, h⟩ => ⟨l, j, frm, bs, bad, rfl, hk, hx, h⟩
  | fixed f => exact .inl (landFixed_lands f b).sketches_eq

theorem deepName_false (h : (getV c n).st ≠ .dropped) : deepName c n = false := by simp [deepName, h]

theorem sketchFrom_noneDropped (h : ∀ n, (getV c n).st ≠ .dropped) (k : Nat) (frm : BitVec 2) (bs : List Byte) (bad : Bool) :
    sketchFrom k frm bs bad c = if sketchOk bs then ⟨bs, true, frm, bad⟩ else .cleared := by
  have hdeep : tooDeep 32 c { c with sketches := c.sketches.set k ⟨bs, true, frm, bad⟩ } = false := by
    have hname : ∀ n, deepName { c with sketches := c.sketches.set k ⟨bs, true, frm, bad⟩ } n = false := fun n => deepName_false (h n)
    simp [tooDeep, hname]
  simp [sketchFrom, hdeep]

/-! ## Special registers -/

theorem shrinkTo_sr (k : Nat) (c : Ctx) : (shrinkTo k c).sr = c.sr ∧ (shrinkTo k c).loopCnt = c.loopCnt ∧ (shrinkTo k c).loopEnd = c.loopEnd := by
  obtain ⟨w, hw⟩ := shrinkTo_eq k c
  rw [hw]
  exact ⟨rfl, rfl, rfl⟩

/-- A field of the special registers, written modulo `m` by one register's write and by those of `js` alone. -/
structure SrField (i : Nat) (js : List Nat) (m : Nat) (field : Ctx → Nat) : Prop where
  hit : ∀ v c, field (writeSr i v c) = v % m
  miss : ∀ j v c, j ∉ js → field (writeSr j v c) = field c
  only : ∀ c d : Ctx, d.sr = c.sr → d.loopCnt = c.loopCnt → d.loopEnd = c.loopEnd → field d = field c

theorem landFixed_special (hd : f.dst = .special i) (b : Ctx) : ∃ p, landFixed f b = writeSr i (valSc f.val).v.toNat { b with parity := p } := by
  obtain ⟨p, hp⟩ := noteParity_eq f.parity b
  exact ⟨p, by simp only [landFixed, hp, hd]⟩

theorem Lands.sr_eq {k : FlightDst} {v : Val} (h : Lands c k v d) (hk : ∀ i, k ≠ .special i) :
    d.sr = c.sr ∧ d.loopCnt = c.loopCnt ∧ d.loopEnd = c.loopEnd := by
  cases h with
  | special i => exact absurd rfl (hk i)
  | _ => exact ⟨rfl, rfl, rfl⟩

theorem Arrives.sr_eq {k : LandDst} {x : LandData} (h : Arrives c k x d) : d.sr = c.sr ∧ d.loopCnt = c.loopCnt ∧ d.loopEnd = c.loopEnd := by
  cases h <;> exact ⟨rfl, rfl, rfl⟩

theorem landOne_sr (h : ∀ f, y = .fixed f → ∀ i, f.dst ≠ .special i) (b : Ctx) :
    (landOne y b).sr = b.sr ∧ (landOne y b).loopCnt = b.loopCnt ∧ (landOne y b).loopEnd = b.loopEnd := by
  cases y with
  | timed l => exact (landTimed_arrives l b).sr_eq
  | fixed f => exact (landFixed_lands f b).sr_eq (h f rfl)

section
variable {js : List Nat} {m : Nat} {field : Ctx → Nat} (hs : SrField i js m field)
include hs

theorem SrField.landOne_miss (h : ∀ f j, y = .fixed f → f.dst = .special j → j ∉ js) (b : Ctx) : field (landOne y b) = field b := by
  by_cases hy : ∃ f j, y = .fixed f ∧ f.dst = .special j
  · obtain ⟨f, j, rfl, hd⟩ := hy
    obtain ⟨p, hp⟩ := landFixed_special hd b
    exact (congrArg field hp).trans ((hs.miss _ _ _ (h f j rfl hd)).trans (hs.only _ _ rfl rfl rfl))
  · obtain ⟨h1, h2, h3⟩ := landOne_sr (fun f hf j hd => hy ⟨f, j, hf, hd⟩) b
    exact hs.only _ _ h1 h2 h3

theorem SrField.kept (h : ∀ f j, .fixed f ∈ dueAt q c → f.dst = .special j → j ∉ js) : field (landed q c) = field c :=
  (landed_kept field fun _ hy b => hs.landOne_miss (fun f j hf hd => h f j (hf ▸ hy) hd) b).trans (hs.only _ _ rfl rfl rfl)

theorem SrField.last (hf : .fixed f ∈ dueAt q c) (hd : f.dst = .special i) (hlast : ∀ k, .fixed k ∈ dueAt q c → k.dst = f.dst → k = f ∨ k.issued < f.issued)
    (hothers : ∀ k j, .fixed k ∈ dueAt q c → k.dst = .special j → j ∈ js → j = i) : field (landed q c) = (valSc f.val).v.toNat % m := by
  refine landed_last field (fun _ => True) hf trivial (fun _ _ _ _ => trivial) (fun b _ => ?_) fun y hy => ?_
  · obtain ⟨p, hp⟩ := landFixed_special hd b
    exact (congrArg field hp).trans (hs.hit _ _)
  · by_cases hex : ∃ k, y = .fixed k ∧ k.dst = .special i
    · obtain ⟨k, rfl, hk⟩ := hex
      rcases hlast k hy (hk.trans hd.symm) with rfl | hlt
      · exact .inl rfl
      · exact .inr (.inl ⟨rfl, hlt⟩)
    · refine .inr (.inr fun b _ => hs.landOne_miss (fun k j hk hkd hj => hex ⟨k, hk, ?_⟩) b)
      rw [hkd, hothers k j (hk ▸ hy) hkd hj]

end

theorem fflags_field : SrField 8 [8] 32 (fun x => x.sr.fflags.toNat) where
  hit v c := by simp [writeSr]
  miss j v c hj := by
    unfold writeSr
    split <;> simp_all [noCall, shrinkTo_sr]
  only c d h1 h2 h3 := by simp only [h1]

theorem sr_fields : ∀ r ∈ ([(0x04, 2 ^ 18, fun x => x.sr.link.toNat), (0x05, 2 ^ 32, Ctx.loopCnt), (0x06, 2 ^ 18, Ctx.loopEnd), (0x07, 4, fun x => x.sr.frm.toNat),
    (0x09, 64, fun x => x.sr.quota), (0x0A, 2 ^ 18, fun x => x.sr.trapvec), (0x0B, 2 ^ 18, fun x => x.sr.trappc),
    (0x0C, 256, fun x => x.sr.trapcause), (0x0D, 2 ^ 64, fun x => x.sr.info0.toNat), (0x0E, 2 ^ 64, fun x => x.sr.info1.toNat),
    (0x10, 8, fun x => x.sr.prio), (0x12, 2 ^ 32, fun x => x.sr.mcwin.toNat)] : List (Nat × Nat × (Ctx → Nat))),
    SrField r.1 [r.1] r.2.1 r.2.2 ∧ ∀ c x, r.2.2 { c with sr := { c.sr with fflags := x } } = r.2.2 c := by
  have hlink : ∀ v, v % 262144 < 18446744073709551616 := fun v => by omega
  simp only [List.forall_mem_cons, List.not_mem_nil, false_implies, implies_true, and_true]
  refine ⟨?_, ?_, ?_, ?_, ?_, ?_, ?_, ?_, ?_, ?_, ?_, ?_⟩
  all_goals
    refine ⟨fun v c => ?_, fun j v c hj => ?_, fun c d h1 h2 h3 => by simp only [h1, h2, h3]⟩
    · simp [writeSr, noCall, shrinkTo_sr, hlink]
    · unfold writeSr
      split <;> simp_all [noCall, shrinkTo_sr]

/-! ENGSEL, whose fields MSEL and CSEL write apart (R109) -/

theorem engsel_field : SrField 0x13 [0x13, 0x113, 0x213] 256 (fun x => x.sr.engsel.toNat) where
  hit v c := by simp [writeSr]
  miss j v c hj := by
    unfold writeSr
    split <;> simp_all [noCall, shrinkTo_sr]
  only c d h1 h2 h3 := by simp only [h1]

theorem engsel_mex : SrField 0x113 [0x13, 0x113] 4 (fun x => x.sr.engsel.toNat % 4) where
  hit v c := by
    simp only [writeSr, BitVec.toNat_ofNat]
    omega
  miss j v c hj := by
    unfold writeSr
    split <;> simp_all [noCall, shrinkTo_sr]
    omega
  only c d h1 h2 h3 := by simp only [h1]

theorem engsel_cpy : SrField 0x213 [0x13, 0x213] 8 (fun x => x.sr.engsel.toNat / 4 % 8) where
  hit v c := by
    simp only [writeSr, BitVec.toNat_ofNat]
    omega
  miss j v c hj := by
    unfold writeSr
    split <;> simp_all [noCall, shrinkTo_sr]
    omega
  only c d h1 h2 h3 := by simp only [h1]

/-! ## Landing at a position -/

theorem landAt_eq (q : Nat) (c : Ctx) : landAt q c = { landed q c with sr := { (landed q c).sr with
    fflags := (c.flight.filter fun f => f.land == q).foldl (fun a f => a ||| f.flags) (landed q c).sr.fflags } } := rfl

theorem fixed_mem_dueAt : .fixed f ∈ dueAt q c ↔ f ∈ c.flight.filter fun f => f.land == q := by simp [mem_dueAt]
theorem timed_mem_dueAt : .timed l ∈ dueAt q c ↔ l ∈ c.landing.filter fun l => l.land == q := by simp [mem_dueAt]

/-! The last result of a destination -/

section
variable (hf : .fixed f ∈ dueAt q c) (hlast : ∀ k, .fixed k ∈ dueAt q c → k.dst = f.dst → k = f ∨ k.issued < f.issued)
include hf hlast

theorem Writes.fixed_last {α : Type} {file : Ctx → List α} {place : FlightDst → Option Nat} {val : Val → α} (h : Writes file (fixedWrite place val))
    (hp : ∀ k, place k = some i ↔ k = f.dst) (hi : i < (file (emptied q c)).length) : (file (landed q c))[i]? = some (val f.val) := by
  refine h.last hf (fixedWrite_some.2 ⟨f, rfl, (hp _).2 rfl, rfl⟩) hi fun y hy w hyw => ?_
  obtain ⟨k, rfl, hk, -⟩ := fixedWrite_some.1 hyw
  exact (hlast k hy ((hp _).1 hk)).imp (congrArg _) fun hlt => ⟨rfl, hlt⟩

theorem getV_last (hd : f.dst = .main (0x40 + n)) (hn : n < 32) (hlen : n < c.v.length) (h9 : ∀ k, .fixed k ∈ dueAt q c → k.dst ≠ .special 9) :
    getV (landed q c) n = written n f.val c := by
  have hquota : ∀ y ∈ dueAt q c, ∀ k, y = .fixed k → k.dst ≠ .special 9 := fun y hy k hk => h9 k (hk ▸ hy)
  have hwrite : fixedWrite vectorPlace id (.fixed f) = some (n, f.val) := fixedWrite_some.2 ⟨f, rfl, vectorPlace_some.2 ⟨hd, hn⟩, rfl⟩
  refine landed_last (fun b => getV b n) (fun b => n < b.v.length ∧ (getV b n).access = (getV c n).access) hf ⟨hlen, rfl⟩ (fun y hy b hb => ?_)
    (fun b hb => ?_) fun y hy => ?_
  · obtain ⟨hb, hacc⟩ := hb
    refine ⟨by rwa [landOne_v_length (hquota y hy)], ?_⟩
    by_cases hw : ∃ w, fixedWrite vectorPlace id y = some (n, w)
    · obtain ⟨w, hw⟩ := hw
      rw [getV_landOne_same (hquota y hy) hw hb]
      exact hacc
    · rw [getV_landOne_ne (hquota y hy) (fun w h => hw ⟨w, h⟩), hacc]
  · obtain ⟨hb, hacc⟩ := hb
    rw [getV_landOne_same (hquota _ hf) hwrite hb, written, written, hacc]
  · by_cases hw : ∃ w, fixedWrite vectorPlace id y = some (n, w)
    · obtain ⟨w, hw⟩ := hw
      obtain ⟨k, rfl, hk, -⟩ := fixedWrite_some.1 hw
      exact (hlast k hy ((vectorPlace_some.1 hk).1.trans hd.symm)).imp (congrArg _) fun hlt => .inl ⟨rfl, hlt⟩
    · exact .inr (.inr fun b _ => getV_landOne_ne (hquota y hy) (fun w h => hw ⟨w, h⟩) b)

end

theorem sketch_last {frm : BitVec 2} {bs : List Byte} {bad : Bool} (hl : .timed l ∈ dueAt q c) (hd : l.dst = .sketch k frm) (hdata : l.data = .desc bs bad)
    (hk : k < c.sketches.length) (honly : ∀ x, .timed x ∈ dueAt q c → ∀ frm, x.dst = .sketch k frm → x = l)
    (hdrop : ∀ n, (getV c n).st ≠ .dropped) (h9 : ∀ f, .fixed f ∈ dueAt q c → f.dst ≠ .special 9) :
    (landed q c).sketches[k]? = some (if sketchOk bs then ⟨bs, true, frm, bad⟩ else .cleared) := by
  refine landed_last (fun b => b.sketches[k]?) (fun b => k < b.sketches.length ∧ ∀ n, (getV b n).st ≠ .dropped) hl ⟨hk, hdrop⟩
    (fun y hy b hb => ?_) (fun b hb => ?_) fun y hy => ?_
  · obtain ⟨hb, hdrop⟩ := hb
    have hquota : ∀ f, y = .fixed f → f.dst ≠ .special 9 := fun f hf => h9 f (hf ▸ hy)
    refine ⟨?_, fun n hn => ?_⟩
    · rcases landOne_sketches y b with h | ⟨_, _, _, _, _, _, _, _, h⟩ <;> simpa [h] using hb
    · have hlen := lt_of_getV_st (c := landOne y b) (n := n) (by rw [hn]; decide)
      rw [landOne_v_length hquota] at hlen
      by_cases hw : ∃ w, fixedWrite vectorPlace id y = some (n, w)
      · obtain ⟨w, hw⟩ := hw
        rw [getV_landOne_same hquota hw hlen] at hn
        exact absurd hn (by simp [written])
      · rw [getV_landOne_ne hquota fun w h => hw ⟨w, h⟩] at hn
        exact hdrop n hn
  · obtain ⟨hb, hdrop⟩ := hb
    rw [show landOne (.timed l) b = landTimed l b from rfl, landTimed_sketch hd hdata, List.getElem?_set_self hb, sketchFrom_noneDropped hdrop]
  · by_cases hex : ∃ x frm, y = .timed x ∧ x.dst = .sketch k frm
    · obtain ⟨x, frm, rfl, hx⟩ := hex
      exact .inl (congrArg _ (honly x hy frm hx))
    · refine .inr (.inr fun b _ => ?_)
      rcases landOne_sketches y b with h | ⟨x, j, frm, _, _, rfl, hx, -, h⟩
      · rw [h]
      · rw [h, List.getElem?_set_ne fun (hj : j = k) => hex ⟨x, frm, rfl, hj ▸ hx⟩]

end

/-- Settles O10: for each place, what writes it, and the last of what lands. -/
theorem resultsLand : Obligations.ResultsLand := by
  intro c q d due timed
  obtain ⟨hgeneral, hmask, hpred, hoper, hvecOper⟩ := registers_write
  have hmem : ∀ {f}, f ∈ due → .fixed f ∈ dueAt q c := fun h => fixed_mem_dueAt.2 h
  have hmem' : ∀ {f}, .fixed f ∈ dueAt q c → f ∈ due := fun h => fixed_mem_dueAt.1 h
  have htim : ∀ {l}, l ∈ timed → .timed l ∈ dueAt q c := fun h => timed_mem_dueAt.2 h
  have htim' : ∀ {l}, .timed l ∈ dueAt q c → l ∈ timed := fun h => timed_mem_dueAt.1 h
  refine ⟨landAt_flight q c, landAt_landing q c, (landAt_kept q c).2.1, (landAt_kept q c).1, fun h => ?_, ?_, ?_, fun u y hfix hlat => ?_,
    fun i hi h => ?_, fun i hi h => ?_, fun i hi h => ?_, fun i h => ?_, fun i hi h => ?_, fun i h => ?_, fun h => ?_⟩
  · have h8 := fflags_field.kept (q := q) (c := c) fun f j hf hd hj => h f (hmem' hf) (by simpa [hd] using hj)
    exact congrArg (due.foldl fun a f => a ||| f.flags) (BitVec.eq_of_toNat_eq h8)
  · intro f hf hlast v
    replace hlast : ∀ k, .fixed k ∈ dueAt q c → k.dst = f.dst → k = f ∨ k.issued < f.issued := fun k hk => hlast k (hmem' hk)
    have hfd := hmem hf
    refine ⟨fun u y hd hi htl => ?_, fun i hd hi hlen => ?_, fun i hd hi hlen h9 => ?_, fun i hd hi hlen => ?_, fun i hd hlen => ?_,
      fun i hd hi hlen => ?_, fun i hd hlen => ?_, fun hd => ?_, fun r hr hd => ?_, fun hd h => ?_, fun hd h => ?_, fun hd h => ?_⟩
    · refine latch_writes.last hfd (latchWrite_some.2 (.inl ⟨f, rfl, hd, rfl⟩)) hi fun z hz w hw => ?_
      rcases latchWrite_some.1 hw with ⟨k, rfl, hk, -⟩ | ⟨l, a, rfl, hl, hy, -⟩
      · exact (hlast k hz (hk.trans hd.symm)).imp (congrArg _) fun hlt => ⟨rfl, hlt⟩
      · exact .inr ⟨by simp [Due.defines, hl], htl l (htim' hz) hl hy⟩
    · exact hgeneral.fixed_last hfd hlast (fun k => by rw [generalPlace_some, and_iff_left hi, hd]) hlen
    · exact getV_last hfd hlast hd hi hlen fun k hk => h9 k (hmem' hk)
    · exact hmask.fixed_last hfd hlast (fun k => by rw [maskPlace_some, and_iff_left hi, hd]) hlen
    · exact hpred.fixed_last hfd hlast (fun k => by rw [predPlace_some, hd]) hlen
    · exact hoper.fixed_last hfd hlast (fun k => by rw [operPlace_some, and_iff_left hi, hd]) hlen
    · exact hvecOper.fixed_last hfd hlast (fun k => by rw [vecOperPlace_some, hd]) hlen
    · have h8 := fflags_field.last hfd hd hlast fun k j _ _ hj => List.mem_singleton.1 hj
      exact congrArg (due.foldl fun a f => a ||| f.flags) (BitVec.eq_of_toNat_eq (h8.trans (BitVec.toNat_ofNat v 5).symm))
    · obtain ⟨hfield, hflags⟩ := sr_fields r hr
      exact (hflags _ _).trans (hfield.last hfd hd hlast fun k j _ _ hj => List.mem_singleton.1 hj)
    · refine engsel_field.last hfd hd hlast fun k j hk hkd hj => ?_
      simp only [List.mem_cons, List.not_mem_nil, or_false] at hj
      obtain ⟨h1, h2⟩ := h k (hmem' hk)
      rcases hj with rfl | rfl | rfl
      · rfl
      · exact absurd hkd h1
      · exact absurd hkd h2
    · refine engsel_mex.last hfd hd hlast fun k j hk hkd hj => ?_
      simp only [List.mem_cons, List.not_mem_nil, or_false] at hj
      rcases hj with rfl | rfl
      · exact absurd hkd (h k (hmem' hk))
      · rfl
    · refine engsel_cpy.last hfd hd hlast fun k j hk hkd hj => ?_
      simp only [List.mem_cons, List.not_mem_nil, or_false] at hj
      rcases hj with rfl | rfl
      · exact absurd hkd (h k (hmem' hk))
      · rfl
  · intro l hl hlast
    replace hlast : ∀ k, .timed k ∈ dueAt q c → k.dst = l.dst → k = l ∨ k.issued < l.issued := fun k hk => hlast k (htim' hk)
    have hld := htim hl
    refine ⟨fun u v par hd hdata hi hfl => ?_, fun k bs bad hd hdata hk => ?_, fun k frm bs bad hd hdata hk honly hdrop h9 => ?_⟩
    · refine latch_writes.last hld (latchWrite_some.2 (.inr ⟨l, par, rfl, hd, rfl, hdata⟩)) hi fun z hz w hw => ?_
      rcases latchWrite_some.1 hw with ⟨k, rfl, hk, -⟩ | ⟨k, a, rfl, hk, -, -⟩
      · exact .inr ⟨by simp [Due.defines, hd], hfl k (hmem' hz) hk⟩
      · exact (hlast k hz (hk.trans hd.symm)).imp (congrArg _) fun hlt => ⟨by simp [Due.defines, hd, hk], hlt⟩
    · refine pat_writes.last hld (patWrite_some.2 ⟨l, bs, bad, rfl, hd, hdata, rfl⟩) hk fun z hz w hw => ?_
      obtain ⟨x, _, _, rfl, hx, -, -⟩ := patWrite_some.1 hw
      exact (hlast x hz (hx.trans hd.symm)).imp (congrArg _) fun hlt => ⟨by simp [Due.defines, hd, hx], hlt⟩
    · exact sketch_last hld hd hdata hk (fun x hx => honly x (htim' hx)) hdrop fun f hf => h9 f (hmem' hf)
  · refine latch_writes.kept fun z hz w hw => ?_
    rcases latchWrite_some.1 hw with ⟨k, rfl, hk, -⟩ | ⟨l, a, rfl, hl, hy, -⟩
    · exact hfix k (hmem' hz) hk
    · exact absurd (hlat l (htim' hz) hl) (by simp [hy])
  · refine hgeneral.kept fun y hy w hw => ?_
    obtain ⟨k, rfl, hd, -⟩ := fixedWrite_some.1 hw
    exact h k (hmem' hy) (generalPlace_some.1 hd).1
  · refine landed_kept (fun b => getV b i) fun y hy b => getV_landOne_ne (fun f hf => (h f (hmem' (hf ▸ hy))).2) (fun w hw => ?_) b
    obtain ⟨k, rfl, hd, -⟩ := fixedWrite_some.1 hw
    exact (h k (hmem' hy)).1 (vectorPlace_some.1 hd).1
  · refine hmask.kept fun y hy w hw => ?_
    obtain ⟨k, rfl, hd, -⟩ := fixedWrite_some.1 hw
    exact h k (hmem' hy) (maskPlace_some.1 hd).1
  · refine hpred.kept fun y hy w hw => ?_
    obtain ⟨k, rfl, hd, -⟩ := fixedWrite_some.1 hw
    exact h k (hmem' hy) (predPlace_some.1 hd)
  · refine hoper.kept fun y hy w hw => ?_
    obtain ⟨k, rfl, hd, -⟩ := fixedWrite_some.1 hw
    exact h k (hmem' hy) (operPlace_some.1 hd).1
  · refine hvecOper.kept fun y hy w hw => ?_
    obtain ⟨k, rfl, hd, -⟩ := fixedWrite_some.1 hw
    exact h k (hmem' hy) (vecOperPlace_some.1 hd)
  · have hno : ∀ y ∈ dueAt q c, ∀ f, y = .fixed f → ∀ i, f.dst ≠ .special i := fun y hy f hf i => h f (hmem' (hf ▸ hy)) i
    have hsr : (landed q c).sr = c.sr := landed_kept Ctx.sr fun y hy b => (landOne_sr (hno y hy) b).1
    refine ⟨?_, landed_kept Ctx.loopCnt fun y hy b => (landOne_sr (hno y hy) b).2.1, landed_kept Ctx.loopEnd fun y hy b => (landOne_sr (hno y hy) b).2.2⟩
    exact congrArg (fun x : Special => { x with fflags := d.sr.fflags }) hsr

end Sys2Proof.Machine
end

section
/-! SUPPORT. A bundle of one trigger move in any state whose context has a free snapshot slot and awaits no token: it waits, it traps, or its
operation runs (R57, R68). -/

namespace Sys2Proof.Machine

section
variable {s t u : State} {op : OpDef} {field : Nat} {g : Guard} {src : Source} {c d : Ctx} {who : CtxId}

/-! ## The verdict -/

theorem outerTrap_ctx {e : Trap} (h : outerTrap c = some (e, d)) : d = c ∨ ∃ l, d = dropEntry l c := by
  unfold outerTrap at h
  split at h
  · exact .inl (by cases h; rfl)
  · split at h
    · exact .inr (by cases h; exact ⟨_, rfl⟩)
    · split at h
      · exact .inr (by cases h; exact ⟨_, rfl⟩)
      · cases h

/-- A bundle that awaits no token traps from its context, but for the failed request that it reports (R68). -/
theorem judge_trap {b : Bundle} {e : Trap} (hawait : awaited (getCtx s who) b = 0) (h : judge s who (.got b) = .trap e d) :
    d = getCtx s who ∨ ∃ l, d = dropEntry l (getCtx s who) := by
  simp only [judge, hawait, tokenError_zero] at h
  split at h
  · cases h
  · split at h
    · cases h
    · split at h
      · next ho =>
        cases h
        exact outerTrap_ctx ho
      · split at h
        · exact .inl (by cases h; rfl)
        · split at h
          · exact .inl (by cases h; rfl)
          · split at h <;> cases h

theorem judge_awake {b : Bundle} (h : judge s who (.got b) = .go) : awake s who (getCtx s who) = true := by
  by_contra hn
  simp only [judge, Bool.not_eq_true] at h hn
  simp only [hn, Bool.not_false, if_true] at h
  cases h

theorem runnable_of_awake (h : awake s who c = true) : c.run = .runnable := by
  simp only [awake, Bool.and_eq_true, beq_iff_eq] at h
  obtain ⟨⟨⟨⟨⟨hrun, -⟩, -⟩, -⟩, -⟩, -⟩ := h
  exact hrun

/-! ## The operation -/

/-- The context that the operation of a bundle starts from: what the bundle sees, but for the flow and the accesses of names. -/
structure Began (s : State) (c : Ctx) : Prop where
  regs : RegsKept (view s) c
  specials : SpecialsKept (view s) c
  flight : c.flight = (view s).flight
  run : c.run = (view s).run

theorem Began.snap (h : Began s c) : c.snap = (view s).snap := by
  obtain ⟨-, -, -, -, -, -, -, -, -, -, -, hsnap, -⟩ := h.specials
  exact hsnap

theorem began_entry (s : State) (src : Source) : Began s (entry s src) := by
  have hread : ∀ n, readV (entry s src) n = readV (view s) n := fun n =>
    readV_of_getV (getV_touchNames (readNames src) n (view s)).choose_spec
  have heq := touchNames_eq (readNames src) (view s)
  simp only [entry] at hread ⊢
  rw [heq] at hread ⊢
  exact ⟨⟨rfl, rfl, rfl, rfl, rfl, hread, rfl, rfl⟩, ⟨rfl, rfl, rfl, rfl, rfl, rfl, rfl, rfl, rfl, rfl, rfl, rfl, rfl⟩, rfl, rfl⟩

theorem began_flowed (s : State) : Began s (flowed s (view s)) :=
  ⟨⟨rfl, rfl, rfl, rfl, rfl, fun _ => rfl, rfl, rfl⟩, ⟨rfl, rfl, rfl, rfl, rfl, rfl, rfl, rfl, rfl, rfl, rfl, rfl, rfl⟩, rfl, rfl⟩

/-- The state after the operations: as the bundle began, where its guard fails, or as its operation leaves it. -/
def Operated (op : OpDef) (s u : State) : Prop :=
  ∃ c, Began s c ∧ (u = setCtx s.sel.who c s ∨ ∃ x : OpIn, x.who = s.sel.who ∧ op.run x (setCtx s.sel.who c s) = .ok u)

theorem lowest_ne_none {ts : List (Nat × Trap)} {x : Nat × Trap} (h : x ∈ ts) : lowest ts ≠ none := by
  have hne : sortBy (·.1) ts ≠ [] := List.ne_nil_of_mem (mem_sortBy.2 h)
  simp [lowest, hne]

theorem triggers_lone (s : State) (op : OpDef) (field : Nat) (g : Guard) (src : Source) : ∃ x : OpIn, x.who = s.sel.who
    ∧ triggers s.sel.who (trigBundle s op field g src) (view s) [trigLive s op field g src] = [(op, x)] := ⟨_, rfl, rfl⟩

theorem performed_operated (hawait : awaited (own s) (trigBundle s op field g src) = 0)
    (h : (performed s.sel.who (trigBundle s op field g src) s).1 = none) :
    Operated op s (performed s.sel.who (trigBundle s op field g src) s).2 := by
  have hown : getCtx s s.sel.who = own s := rfl
  have hseen : seen (own s) = view s := rfl
  have hacq : ∀ c, acquire s.sel.who (fun p => p.who == s.sel.who && p.done && bit 0 p.tok) (setCtx s.sel.who c s) = setCtx s.sel.who c s :=
    fun c => acquire_none _ _ _ (by simp [bit_zero])
  cases hg : guardPasses (view s) g with
  | false =>
    have hbegin : begin (trigBundle s op field g src) (view s) [] = .ok (flowed s (view s)) := rfl
    have htrig : triggers s.sel.who (trigBundle s op field g src) (view s) [] = [] := rfl
    simp only [performed, hseen, hown, passing_held s op field g src (view s) hg, hbegin, htrig, hawait, hacq, runOps] at h ⊢
    exact ⟨_, began_flowed s, .inl rfl⟩
  | true =>
    obtain ⟨x, hx, htrig⟩ := triggers_lone s op field g src
    simp only [performed, hseen, hown, passing_one s op field g src (view s) hg, begin_one, htrig, hawait, hacq, runOps] at h ⊢
    cases hrun : op.run x (setCtx s.sel.who (entry s src) s) with
    | ok u =>
      exact ⟨_, began_entry s src, .inr ⟨x, hx, hrun⟩⟩
    | error e =>
      simp only [hrun] at h
      exact absurd h (lowest_ne_none (List.mem_append_right _ (List.mem_singleton_self _)))

/-! ## The end of the bundle -/

theorem endHandler_free (h : (getCtx s who).snap = none) : endHandler who s = s := by
  have hfin : finishRft who s = s := by
    cases hr : (getCtx s who).rft <;> simp only [finishRft, hr, h]
  cases hr : (getCtx s who).rft <;> simp only [endHandler, hfin, hr, h, Option.bind_none]

theorem linkReach_trigger (hf : field ∉ [104, 106, 107, 165]) (c : Ctx) (q : Nat) :
    linkReach c q (trigFields (passing (view s) (trigBundle s op field g src))) = none := by
  cases hg : guardPasses (view s) g with
  | false => rw [passing_held s op field g src (view s) hg]; simp [trigFields, linkReach]
  | true => rw [passing_one s op field g src (view s) hg]; exact linkReach_none c q hf

/-- A bundle that settles no LINK moves the flow of its context on, and a handler ends nothing with the snapshot slot free. -/
theorem finish_free {fields : List Nat} {b : Bundle} (hrun : (getCtx u who).run = .runnable) (hsnap : (getCtx u who).snap = none)
    (hlink : ∀ c q, linkReach c q fields = none) : ∃ p v rs, finish who b d fields u
      = setCtx who { getCtx u who with bclk := d.bclk + 1, pc := p, via := v, redirects := rs } u := by
  have hgo : ¬((getCtx u who).run = .retired ∨ (getCtx u who).run = .halted) := by simp [hrun]
  refine ⟨(flowAfter (getCtx u who) d b.h b.hdr.length).1, (flowAfter (getCtx u who) d b.h b.hdr.length).2,
    (getCtx u who).redirects.filter fun r => decide (d.bclk + 1 < r.pos), ?_⟩
  simp only [finish, hlink]
  rw [if_neg hgo]
  split
  · split
    · exact endHandler_free (by rw [getCtx_setCtx_same]; exact hsnap)
    · rfl
  · rfl

/-! ## The bundle -/

/-- What becomes of the bundle: nothing, a replay (R246), a trap (R68), or the end of the bundle after its operation. -/
inductive Issued (op : OpDef) (s : State) : State → Prop where
  | waits : Issued op s s
  | stalls (r : Run) : Issued op s (updCtx s.sel.who (fun c => { c with run := r }) s)
  | traps (e : Trap) (c : Ctx) (h : c = own s ∨ ∃ l, c = dropEntry l (own s)) : Issued op s (setCtx s.sel.who (trapCtx e c) s)
  | ends (u : State) (h : Operated op s u) (p : Nat) (v : Option Nat) (rs : List Redirect) (hu : (getCtx u s.sel.who).run = .runnable) :
    Issued op s (setCtx s.sel.who { getCtx u s.sel.who with bclk := (own s).bclk + 1, pc := p, via := v, redirects := rs } u)

/-- What an operation does when it does not trap: to its own context, and to the rest of the state. -/
def Acts (op : OpDef) (own : Ctx → Ctx → Prop) (rest : State → State → Prop) : Prop :=
  ∀ x t u, op.run x t = .ok u → ∃ v d, u = setCtx x.who d v ∧ own (getCtx t x.who) d ∧ rest t v

/-- A change of a context that leaves whether it runs and its snapshot slot. -/
def KeepsRun (own : Ctx → Ctx → Prop) : Prop := ∀ c d, own c d → d.run = c.run ∧ d.snap = c.snap

theorem issueOne_issued (hsnap : (own s).snap = none) (htwait : (own s).twait = 0) (hawait : s.sel.await = 0) (hf : field ∉ [104, 106, 107, 165])
    {own' : Ctx → Ctx → Prop} {rest : State → State → Prop} (hop : Acts op own' rest) (hkeep : KeepsRun own') : Issued op s (issueOne op field g src s) := by
  have ha : awaited (own s) (trigBundle s op field g src) = 0 := by simp [Machine.awaited, trigBundle, lone, htwait, hawait]
  rw [issueOne_attempt]
  unfold attempt
  cases hj : judge s s.sel.who (.got (trigBundle s op field g src)) with
  | wait => exact .waits
  | stall n => exact .stalls _
  | trap e c =>
    have hc := judge_trap ha hj
    have hcsnap : c.snap = none := by rcases hc with rfl | ⟨l, rfl⟩ <;> exact hsnap
    simpa [trapEnter, hcsnap, updCtx] using Issued.traps (op := op) e c hc
  | go =>
    have hrun : (view s).run = .runnable := (view_run s).trans (runnable_of_awake (judge_awake hj))
    have hperf := performed_operated (op := op) (field := field) (g := g) (src := src) ha
    simp only [perform]
    generalize performed s.sel.who (trigBundle s op field g src) s = r at hperf
    obtain ⟨_ | e, u⟩ := r
    · obtain ⟨c, hc, hu⟩ := hperf rfl
      have hcrun : c.run = .runnable := hc.run.trans hrun
      have hcsnap : c.snap = none := hc.snap.trans (view_snap_none hsnap)
      have hkeep : (getCtx u s.sel.who).run = c.run ∧ (getCtx u s.sel.who).snap = c.snap := by
        rcases hu with rfl | ⟨x, hx, hu⟩
        · rw [getCtx_setCtx_same]
          exact ⟨rfl, rfl⟩
        · obtain ⟨v, d, rfl, hd, -⟩ := hop x _ u hu
          simpa [hx] using hkeep _ _ hd
      obtain ⟨p, v, rs, hfin⟩ := finish_free (b := trigBundle s op field g src) (d := view s) (hkeep.1.trans hcrun) (hkeep.2.trans hcsnap)
        (linkReach_trigger (s := s) (op := op) (g := g) (src := src) hf)
      have hend := Issued.ends u ⟨c, hc, hu⟩ p v rs (hkeep.1.trans hcrun)
      rw [← view_bclk, ← hfin] at hend
      exact hend
    · have htrap : trapEnter s.sel.who e s = setCtx s.sel.who (trapCtx e (own s)) s := trapEnter_free s e hsnap
      simpa only [htrap] using Issued.traps e (own s) (.inl rfl)

/-- A context that a trap or a bundle that waits leaves as it was, but for the trap's own registers (R68). -/
def Held (c d : Ctx) : Prop := RegsKept c d ∧ d.bclk = c.bclk ∧ d.tokens = c.tokens ∧ d.spill = c.spill
  ∧ d.sr = { c.sr with trappc := d.sr.trappc, trapcause := d.sr.trapcause, info0 := d.sr.info0, info1 := d.sr.info1 }

theorem held_of_eq {r : Run} {ls : List Landing} (h : d = { c with run := r } ∨ d = c ∨ ∃ e, d = trapCtx e { c with landing := ls }) : Held c d := by
  rcases h with rfl | rfl | ⟨e, rfl⟩ <;> exact ⟨⟨rfl, rfl, rfl, rfl, rfl, fun _ => rfl, rfl, rfl⟩, rfl, rfl, rfl, rfl⟩

/-- What the bundle comes to: its context held, or gone on from what its operation left. -/
theorem Issued.outcome {own' : Ctx → Ctx → Prop} {rest : State → State → Prop} (h : Issued op s t) (hop : Acts op own' rest)
    (hrefl : ∀ c, own' c c) (hrest : ∀ w, rest w w) :
    (Held (own s) (getCtx t s.sel.who) ∧ (t = s ∨ ∃ d, t = setCtx s.sel.who d s))
    ∨ ∃ c d p v rs w, Began s c ∧ own' c d ∧ rest (setCtx s.sel.who c s) w
      ∧ t = setCtx s.sel.who { d with bclk := (own s).bclk + 1, pc := p, via := v, redirects := rs } w := by
  cases h with
  | waits => exact .inl ⟨held_of_eq (r := .runnable) (ls := []) (.inr (.inl rfl)), .inl rfl⟩
  | stalls r => exact .inl ⟨held_of_eq (r := r) (ls := []) (.inl (getCtx_updCtx_same _ _ _)), .inr ⟨_, rfl⟩⟩
  | traps e c h =>
    refine .inl ⟨?_, .inr ⟨_, rfl⟩⟩
    rw [getCtx_setCtx_same]
    rcases h with rfl | ⟨l, rfl⟩
    · exact held_of_eq (r := .runnable) (ls := (own s).landing) (.inr (.inr ⟨e, rfl⟩))
    · exact held_of_eq (r := .runnable) (.inr (.inr ⟨e, rfl⟩))
  | ends u h p v rs hu =>
    obtain ⟨c, hc, rfl | ⟨x, hx, hu⟩⟩ := h
    · exact .inr ⟨c, c, p, v, rs, _, hc, hrefl c, hrest _, by rw [getCtx_setCtx_same]⟩
    · obtain ⟨w, d, rfl, hd, hw⟩ := hop x _ u hu
      rw [hx] at hd ⊢
      rw [getCtx_setCtx_same] at hd
      exact .inr ⟨c, d, p, v, rs, w, hc, hd, hw, by rw [getCtx_setCtx_same, setCtx_setCtx]⟩

end

/-! ## Operations that only put results in flight -/

/-- The operation puts results in flight and does nothing else. -/
def Flies (op : OpDef) : Prop := Acts op (fun c d => ∃ fs, d = inFlight fs c) (· = ·)

theorem flies_of {op : OpDef} (h : ∀ x s u, op.run x s = .ok u → ∃ fs, u = updCtx x.who (inFlight fs) s) : Flies op := fun x s u hu => by
  obtain ⟨fs, rfl⟩ := h x s u hu
  exact ⟨s, _, rfl, ⟨fs, rfl⟩, rfl⟩

theorem landY_landX (x : OpIn) (u v lat lat' : Nat) (a b : Val) (fl : BitVec 5) (s : State) : ∃ fs, landY x u lat a (landX x v lat' b fl s)
    = updCtx x.who (inFlight fs) s := by
  refine ⟨[⟨x.pos + lat', .latch v false, b, fl, 0, x.pos⟩, ⟨x.pos + lat, .latch u true, a, 0, 0, x.pos⟩], ?_⟩
  simp [landY, landX, pushFlight, updCtx, inFlight]

/-- What an operation comes to that traps or puts one result in flight. -/
inductive OneResult (x : OpIn) (s : State) : Except Trap State → Prop where
  | error (e : Trap) : OneResult x s (.error e)
  | ok (f : Flight) : OneResult x s (.ok (pushFlight x.who f s))

theorem OneResult.ite {x : OpIn} {s : State} {p : Prop} [Decidable p] {a b : Except Trap State} (ha : OneResult x s a) (hb : OneResult x s b) :
    OneResult x s (if p then a else b) := by
  split
  · exact ha
  · exact hb

theorem flies_of_one {op : OpDef} (h : ∀ x s, OneResult x s (op.run x s)) : Flies op :=
  flies_of fun x s u hu => by
    have hr := h x s
    rw [hu] at hr
    cases hr with
    | ok f => exact ⟨[f], rfl⟩

/-- An operation with results in both latches. -/
theorem flies_of_pair {op : OpDef} (unit lat lat' : OpIn → Nat) (a b : OpIn → State → Val) (fl : OpIn → State → BitVec 5)
    (h : ∀ x s, op.run x s = .ok (landY x (unit x) (lat x) (a x s) (landX x (unit x) (lat' x) (b x s) (fl x s) s))) : Flies op :=
  flies_of fun x s u hu => by
    rw [h] at hu
    cases hu
    exact landY_landX x _ _ _ _ _ _ _ s

theorem laneOp_flies (unit lat : Nat) (ty : Ty) (bad : OpIn → Bool) (f : OpIn → List FLane) : Flies (laneOp unit lat ty bad f) :=
  flies_of_one fun _ _ => .ite (.error _) (.ok _)

theorem twear_flies : Flies defTwear := flies_of_one fun x s => .ite (.error _) (.ite (.error _) (by
  cases nodeFresco s x x.tN with
  | none => exact .error _
  | some f => exact .ite (.error _) (.ok _)))

/-! ## The instructions -/

/-- The instruction's operation only puts results in flight, and is none that settles LINK. -/
def Reports (i : Guard → Source → Instr) : Prop :=
  ∃ op field, field ∉ [104, 106, 107, 165] ∧ (∀ g src s, exec (i g src) s = .next (issueOne op field g src s)) ∧ Flies op

/-- One result, whatever the operands. -/
theorem unchecked_report : ∀ i ∈ [
    Instr.addAlu0, Instr.subAlu0, Instr.andAlu0, Instr.orAlu0, Instr.xorAlu0, Instr.andnAlu0, Instr.shlAlu0, Instr.shrAlu0, Instr.sarAlu0,
    Instr.rolAlu0, Instr.minAlu0, Instr.maxAlu0, Instr.minuAlu0, Instr.maxuAlu0, Instr.eqAlu0, Instr.neAlu0, Instr.ltAlu0, Instr.ltuAlu0,
    Instr.leAlu0, Instr.leuAlu0, Instr.selAlu0, Instr.clzAlu0, Instr.ctzAlu0, Instr.popcAlu0, Instr.sextAlu0, Instr.zextAlu0,
    Instr.bfxAlu0, Instr.bfiAlu0, Instr.addAlu1, Instr.subAlu1, Instr.andAlu1, Instr.orAlu1, Instr.xorAlu1, Instr.andnAlu1, Instr.shlAlu1,
    Instr.shrAlu1, Instr.sarAlu1, Instr.rolAlu1, Instr.minAlu1, Instr.maxAlu1, Instr.minuAlu1, Instr.maxuAlu1, Instr.eqAlu1, Instr.neAlu1,
    Instr.ltAlu1, Instr.ltuAlu1, Instr.leAlu1, Instr.leuAlu1, Instr.selAlu1, Instr.clzAlu1, Instr.ctzAlu1, Instr.popcAlu1, Instr.sextAlu1,
    Instr.zextAlu1, Instr.bfxAlu1, Instr.bfiAlu1, Instr.mul, Instr.mulh, Instr.mulhu, Instr.mulw, Instr.madd, Instr.div, Instr.divu,
    Instr.rem, Instr.remu, Instr.vieq, Instr.vilt, Instr.viltu, Instr.vsel, Instr.vpopm, Instr.vmand, Instr.vmor, Instr.vmxor, Instr.vmnot,
    Instr.feq, Instr.flt, Instr.fle, Instr.funord, Instr.dqpal, Instr.rsum, Instr.rmax, Instr.rmin, Instr.rsumi, Instr.scan, Instr.perm,
    Instr.vrot, Instr.vxpd, Instr.vbit, Instr.chk16], Reports i := by
  simp only [List.forall_mem_cons, List.not_mem_nil, false_implies, implies_true, and_true]
  constructorm* _ ∧ _
  all_goals exact ⟨_, _, by decide, fun _ _ _ => rfl, flies_of_one fun _ _ => .ok _⟩

/-- Two results, in latches x and y. -/
theorem pair_reports : ∀ i ∈ [
    Instr.cvthf, Instr.cvtp16f, Instr.qpal, Instr.ramax, Instr.vcmp, Instr.zip, Instr.unzip], Reports i := by
  simp only [List.forall_mem_cons, List.not_mem_nil, false_implies, implies_true, and_true]
  constructorm* _ ∧ _
  all_goals exact ⟨_, _, by decide, fun _ _ _ => rfl, flies_of_pair _ _ _ _ _ _ fun _ _ => rfl⟩

/-- One vector with its flags. -/
theorem lane_reports : ∀ i ∈ [
    Instr.viadd, Instr.visub, Instr.vimul, Instr.vimin, Instr.vimax, Instr.viminu, Instr.vimaxu, Instr.vand, Instr.vor, Instr.vxor,
    Instr.vandn, Instr.vshl, Instr.vshr, Instr.vsar, Instr.viota, Instr.vbeq8, Instr.viadds, Instr.fadd, Instr.fsub, Instr.fmul, Instr.fma,
    Instr.fms, Instr.fnma, Instr.fmax, Instr.fmin, Instr.fabs, Instr.fneg, Instr.fclmp, Instr.fsubx, Instr.hadd, Instr.hmul, Instr.hfma,
    Instr.hmax, Instr.cvtfi, Instr.cvtif, Instr.cvtfh, Instr.cvtf8, Instr.cvt8f, Instr.cvtf5, Instr.cvt5f, Instr.cvtfp16, Instr.frnd,
    Instr.fscl, Instr.fxpn, Instr.exp2, Instr.log2, Instr.rcp, Instr.rsqrt, Instr.sqrt, Instr.tanh, Instr.sigm], Reports i := by
  simp only [List.forall_mem_cons, List.not_mem_nil, false_implies, implies_true, and_true]
  constructorm* _ ∧ _
  all_goals exact ⟨_, _, by decide, fun _ _ _ => rfl, laneOp_flies _ _ _ _ _⟩

/-- One result where one check of the operands passes. -/
theorem checked_report : ∀ i ∈ [
    Instr.mfsr, Instr.tokq, Instr.ctxq, Instr.vext, Instr.vins, Instr.pget, Instr.punpk, Instr.ppack, Instr.sphdr], Reports i := by
  simp only [List.forall_mem_cons, List.not_mem_nil, false_implies, implies_true, and_true]
  constructorm* _ ∧ _
  all_goals exact ⟨_, _, by decide, fun _ _ _ => rfl, flies_of_one fun _ _ => .ite (.error _) (.ok _)⟩

/-- One result where the trigger is not poisoned and a check passes. -/
theorem poisonChecked_report : ∀ i ∈ [
    Instr.spld, Instr.mstat, Instr.cstat, Instr.tstat, Instr.tmap], Reports i := by
  simp only [List.forall_mem_cons, List.not_mem_nil, false_implies, implies_true, and_true]
  constructorm* _ ∧ _
  all_goals exact ⟨_, _, by decide, fun _ _ _ => rfl, flies_of_one fun _ _ => .ite (.error _) (.ite (.error _) (.ok _))⟩

theorem twear_reports : Reports Instr.twear := ⟨_, _, by decide, fun _ _ _ => rfl, twear_flies⟩

theorem all_report : ∀ i ∈ [
    Instr.addAlu0, Instr.subAlu0, Instr.andAlu0, Instr.orAlu0, Instr.xorAlu0, Instr.andnAlu0, Instr.shlAlu0, Instr.shrAlu0, Instr.sarAlu0,
    Instr.rolAlu0, Instr.minAlu0, Instr.maxAlu0, Instr.minuAlu0, Instr.maxuAlu0, Instr.eqAlu0, Instr.neAlu0, Instr.ltAlu0, Instr.ltuAlu0, Instr.leAlu0,
    Instr.leuAlu0, Instr.selAlu0, Instr.clzAlu0, Instr.ctzAlu0, Instr.popcAlu0, Instr.sextAlu0, Instr.zextAlu0, Instr.bfxAlu0, Instr.bfiAlu0,
    Instr.addAlu1, Instr.subAlu1, Instr.andAlu1, Instr.orAlu1, Instr.xorAlu1, Instr.andnAlu1, Instr.shlAlu1, Instr.shrAlu1, Instr.sarAlu1,
    Instr.rolAlu1, Instr.minAlu1, Instr.maxAlu1, Instr.minuAlu1, Instr.maxuAlu1, Instr.eqAlu1, Instr.neAlu1, Instr.ltAlu1, Instr.ltuAlu1, Instr.leAlu1,
    Instr.leuAlu1, Instr.selAlu1, Instr.clzAlu1, Instr.ctzAlu1, Instr.popcAlu1, Instr.sextAlu1, Instr.zextAlu1, Instr.bfxAlu1, Instr.bfiAlu1,
    Instr.mul, Instr.mulh, Instr.mulhu, Instr.mulw, Instr.madd, Instr.div, Instr.divu, Instr.rem, Instr.remu, Instr.spld, Instr.mfsr, Instr.tokq, Instr.ctxq,
    Instr.viadd, Instr.visub, Instr.vimul, Instr.vimin, Instr.vimax, Instr.viminu, Instr.vimaxu, Instr.vand, Instr.vor, Instr.vxor, Instr.vandn,
    Instr.vshl, Instr.vshr, Instr.vsar, Instr.vieq, Instr.vilt, Instr.viltu, Instr.vsel, Instr.viota, Instr.vpopm, Instr.vmand, Instr.vmor, Instr.vmxor,
    Instr.vmnot, Instr.vbeq8, Instr.viadds, Instr.fadd, Instr.fsub, Instr.fmul, Instr.fma, Instr.fms, Instr.fnma, Instr.fmax, Instr.fmin, Instr.fabs,
    Instr.fneg, Instr.feq, Instr.flt, Instr.fle, Instr.funord, Instr.fclmp, Instr.fsubx, Instr.hadd, Instr.hmul, Instr.hfma, Instr.hmax, Instr.cvtfi,
    Instr.cvtif, Instr.cvtfh, Instr.cvthf, Instr.cvtf8, Instr.cvt8f, Instr.cvtf5, Instr.cvt5f, Instr.cvtfp16, Instr.cvtp16f, Instr.qpal, Instr.dqpal,
    Instr.frnd, Instr.fscl, Instr.fxpn, Instr.exp2, Instr.log2, Instr.rcp, Instr.rsqrt, Instr.sqrt, Instr.tanh, Instr.sigm, Instr.rsum, Instr.rmax,
    Instr.rmin, Instr.rsumi, Instr.ramax, Instr.scan, Instr.perm, Instr.vrot, Instr.vext, Instr.vins, Instr.vcmp, Instr.vxpd, Instr.zip, Instr.unzip,
    Instr.vbit, Instr.pget, Instr.punpk, Instr.ppack, Instr.chk16, Instr.sphdr, Instr.mstat, Instr.cstat, Instr.tstat, Instr.twear, Instr.tmap], Reports i := by
  have h1 := unchecked_report
  have h2 := pair_reports
  have h3 := lane_reports
  have h4 := checked_report
  have h5 := poisonChecked_report
  simp only [List.forall_mem_cons, List.not_mem_nil, false_implies, implies_true, and_true] at h1 h2 h3 h4 h5 ⊢
  simp only [h1, h2, h3, h4, h5, twear_reports, and_self]

section
variable {s t : State} {g : Guard} {src : Source} {i : Guard → Source → Instr} {c d : Ctx}

theorem Reports.frame (hi : Reports i) (hsnap : (own s).snap = none) (htwait : (own s).twait = 0) (hawait : s.sel.await = 0)
    (h : exec (i g src) s = .next t) : OthersKept s t ∧ t.mem = s.mem ∧
      ((RegsKept (view s) (getCtx t s.sel.who) ∧ SpecialsKept (view s) (getCtx t s.sel.who) ∧ (getCtx t s.sel.who).bclk = (own s).bclk + 1
        ∧ ∃ fs, (getCtx t s.sel.who).flight = (view s).flight ++ fs) ∨ Held (own s) (getCtx t s.sel.who)) := by
  obtain ⟨op, field, hf, hexec, hop⟩ := hi
  have ht : issueOne op field g src s = t := by
    rw [hexec] at h
    cases h
    rfl
  have hiss := issueOne_issued (g := g) (src := src) hsnap htwait hawait hf hop fun c d hd => by
    obtain ⟨fs, rfl⟩ := hd
    exact ⟨rfl, rfl⟩
  rw [ht] at hiss
  rcases hiss.outcome hop (fun c => ⟨[], by simp [inFlight]⟩) fun _ => rfl with ⟨hheld, rfl | ⟨d, rfl⟩⟩ | ⟨c, d, p, v, rs, w, hc, ⟨fs, rfl⟩, rfl, rfl⟩
  · exact ⟨⟨rfl, fun _ _ => rfl⟩, rfl, .inr hheld⟩
  · exact ⟨othersKept_setCtx s d, rfl, .inr hheld⟩
  · rw [setCtx_setCtx, getCtx_setCtx_same]
    refine ⟨othersKept_setCtx s _, rfl, .inl ⟨hc.regs, hc.specials, rfl, fs, ?_⟩⟩
    exact congrArg (· ++ fs) hc.flight

end

/-! ## Loads and touches -/

/-- What a memory event by which a context reads leaves (R178, R201). -/
structure Looked (s t : State) : Prop where
  mem : t.mem = s.mem
  marks : t.marks = s.marks
  overlay : t.overlay = s.overlay
  mex : t.mex = s.mex
  ctxs : t.ctxs = s.ctxs

theorem Looked.refl (s : State) : Looked s s := ⟨rfl, rfl, rfl, rfl, rfl⟩
theorem Looked.trans {s t u : State} (h : Looked s t) (h' : Looked t u) : Looked s u :=
  ⟨h'.mem.trans h.mem, h'.marks.trans h.marks, h'.overlay.trans h.overlay, h'.mex.trans h.mex, h'.ctxs.trans h.ctxs⟩

theorem looked_nodeEvent (who : CtxId) (s : State) : Looked s (nodeEvent who s) := ⟨rfl, rfl, rfl, rfl, rfl⟩
theorem looked_ctxRead (x : OpIn) (bs : List GByte) (s : State) : Looked s (ctxRead x bs s).2 := ⟨rfl, rfl, rfl, rfl, rfl⟩
theorem looked_lookRun (x : OpIn) (a n : Nat) (s : State) : Looked s (lookRun x a n s).2.2 := ⟨rfl, rfl, rfl, rfl, rfl⟩
theorem looked_readRun (x : OpIn) (a n : Nat) (s : State) : Looked s (readRun x a n s).2.2 := ⟨rfl, rfl, rfl, rfl, rfl⟩
theorem looked_readSparse (x : OpIn) (a : Nat) (s : State) : Looked s (readSparse x a s).2.2 := by
  have h := (looked_nodeEvent x.who s).trans (looked_lookRun x a 16 _)
  simp only [readSparse]
  generalize lookRun x a 16 (nodeEvent x.who s) = r at h ⊢
  exact h.trans (looked_lookRun x _ _ _)

theorem looked_ctxReads (x : OpIn) (bss : List (List GByte)) (s : State) : Looked s (ctxReads x bss s).2 := by
  induction bss generalizing s with
  | nil => exact .refl s
  | cons bs r ih => exact (looked_ctxRead x bs s).trans (ih _)

/-- A load changes its context's landing buffer. -/
def Buffered (c d : Ctx) : Prop := ∃ ls n, d = { c with landing := ls, nextId := n }

/-- What an operation comes to that traps or takes an entry of the landing buffer after reading. -/
inductive OneLoad (x : OpIn) (s : State) : Except Trap State → Prop where
  | error (e : Trap) : OneLoad x s (.error e)
  | ok (delta : Nat) (dst : LandDst) (data : LandData) (t : State) (h : Looked s t) : OneLoad x s (.ok (takeEntry x delta dst data t))

theorem OneLoad.ite {x : OpIn} {s : State} {p : Prop} [Decidable p] {a b : Except Trap State} (ha : OneLoad x s a) (hb : OneLoad x s b) :
    OneLoad x s (if p then a else b) := by
  split
  · exact ha
  · exact hb

def Loads (op : OpDef) : Prop := ∀ x s, OneLoad x s (op.run x s)

theorem Loads.acts {op : OpDef} (h : Loads op) : Acts op Buffered Looked := fun x s u hu => by
  have hr := h x s
  rw [hu] at hr
  cases hr with
  | ok delta dst data t ht =>
    refine ⟨t, _, rfl, ?_, ht⟩
    have hctx : getCtx t x.who = getCtx s x.who := by simp only [getCtx, ht.ctxs]
    rw [hctx]
    exact ⟨_, _, rfl⟩

theorem localLoad_loads (n : Nat) (signed : Bool) : Loads (localLoad n signed) := fun x s => .ite (.error _) (by
  split
  · exact .error _
  · exact .ok _ _ _ _ (looked_ctxRead x _ s))

theorem gld_loads : Loads defGld := fun x s => .ite (.error _) (.ite (.error _) (by
  dsimp only
  split
  · exact .error _
  · exact .ok _ _ _ _ (looked_ctxRead x _ s)))

theorem vld_loads : Loads defVld := fun x s => .ite (.error _) (by
  split
  · exact .error _
  · exact .ok _ _ _ _ (looked_readRun x _ _ s))

theorem laneLoad_loads (x : OpIn) (as : List Nat) (s : State) : OneLoad x s (laneLoad x as s) := by
  unfold laneLoad
  split
  · exact .error _
  · exact .ok _ _ _ _ (looked_ctxReads x _ s)

theorem convLoad_loads (x : OpIn) (n : Nat) (widen : Nat → Word32) (s : State) : OneLoad x s (convLoad x n widen s) := by
  unfold convLoad
  split
  · exact .error _
  · exact .ok _ _ _ _ (looked_readRun x _ _ s)

theorem vldx_loads : Loads defVldx := fun x s => .ite (.error _) (.ite (.error _) (by
  split
  · exact .error _
  · exact .ok _ _ _ _ (looked_readRun x _ _ s)))

theorem vlde_loads : Loads defVlde := fun x s => .ite (.error _) (.ite (.error _) (by
  split
  · exact .error _
  · exact .ok _ _ _ _ (looked_readSparse x _ s)))

theorem vgld_loads : Loads defVgld := fun x s => .ite (.error _) (by
  split
  · exact .error _
  · exact .ok _ _ _ _ (looked_ctxReads x _ s))

theorem pset_loads : Loads defPset := fun x s =>
  .ite (.error _) (.ite (.error _) (.ite (.error _) (.ite (.error _) (.ok _ _ _ _ (looked_ctxRead x _ s)))))

/-- The instruction's operation only reads and takes an entry of the landing buffer, and is none that settles LINK. -/
def LoadsOnly (i : Guard → Source → Instr) : Prop :=
  ∃ op field, field ∉ [104, 106, 107, 165] ∧ (∀ g src s, exec (i g src) s = .next (issueOne op field g src s)) ∧ Loads op

theorem all_load : ∀ i ∈ [Instr.ldb, Instr.ldbs, Instr.ldh, Instr.ldhs, Instr.ldw, Instr.ldws, Instr.ldd, Instr.gld, Instr.vld, Instr.vlds,
    Instr.vldg, Instr.vldbf, Instr.vldf8, Instr.vldi8, Instr.vldz8, Instr.vldx, Instr.vlde, Instr.vgld, Instr.pset], LoadsOnly i := by
  simp only [List.forall_mem_cons, List.not_mem_nil, false_implies, implies_true, and_true]
  refine ⟨⟨_, _, ?_, fun _ _ _ => rfl, localLoad_loads _ _⟩, ⟨_, _, ?_, fun _ _ _ => rfl, localLoad_loads _ _⟩,
    ⟨_, _, ?_, fun _ _ _ => rfl, localLoad_loads _ _⟩, ⟨_, _, ?_, fun _ _ _ => rfl, localLoad_loads _ _⟩,
    ⟨_, _, ?_, fun _ _ _ => rfl, localLoad_loads _ _⟩, ⟨_, _, ?_, fun _ _ _ => rfl, localLoad_loads _ _⟩,
    ⟨_, _, ?_, fun _ _ _ => rfl, localLoad_loads _ _⟩, ⟨_, _, ?_, fun _ _ _ => rfl, gld_loads⟩, ⟨_, _, ?_, fun _ _ _ => rfl, vld_loads⟩,
    ⟨_, _, ?_, fun _ _ _ => rfl, fun x s => .ite (.error _) (laneLoad_loads x _ s)⟩,
    ⟨_, _, ?_, fun _ _ _ => rfl, fun x s => .ite (.error _) (laneLoad_loads x _ s)⟩,
    ⟨_, _, ?_, fun _ _ _ => rfl, fun x s => .ite (.error _) (convLoad_loads x _ _ s)⟩,
    ⟨_, _, ?_, fun _ _ _ => rfl, fun x s => .ite (.error _) (.ite (.error _) (convLoad_loads x _ _ s))⟩,
    ⟨_, _, ?_, fun _ _ _ => rfl, fun x s => .ite (.error _) (convLoad_loads x _ _ s)⟩,
    ⟨_, _, ?_, fun _ _ _ => rfl, fun x s => .ite (.error _) (convLoad_loads x _ _ s)⟩,
    ⟨_, _, ?_, fun _ _ _ => rfl, vldx_loads⟩, ⟨_, _, ?_, fun _ _ _ => rfl, vlde_loads⟩, ⟨_, _, ?_, fun _ _ _ => rfl, vgld_loads⟩,
    ⟨_, _, ?_, fun _ _ _ => rfl, pset_loads⟩⟩
  all_goals decide

section
variable {s t : State} {g : Guard} {src : Source} {i : Guard → Source → Instr}

theorem LoadsOnly.frame (hi : LoadsOnly i) (hsnap : (own s).snap = none) (htwait : (own s).twait = 0) (hawait : s.sel.await = 0)
    (h : exec (i g src) s = .next t) : t.mem = s.mem ∧ t.marks = s.marks ∧ t.overlay = s.overlay ∧ t.mex = s.mex
      ∧ (∀ k, k ≠ s.sel.who → getCtx t k = getCtx s k)
      ∧ ((RegsKept (view s) (getCtx t s.sel.who) ∧ SpecialsKept (view s) (getCtx t s.sel.who)) ∨ Held (own s) (getCtx t s.sel.who)) := by
  obtain ⟨op, field, hf, hexec, hop⟩ := hi
  have ht : issueOne op field g src s = t := by
    rw [hexec] at h
    cases h
    rfl
  have hiss := issueOne_issued (g := g) (src := src) hsnap htwait hawait hf hop.acts fun c d hd => by
    obtain ⟨ls, n, rfl⟩ := hd
    exact ⟨rfl, rfl⟩
  rw [ht] at hiss
  rcases hiss.outcome hop.acts (fun c => ⟨c.landing, c.nextId, rfl⟩) .refl with
    ⟨hheld, rfl | ⟨d, rfl⟩⟩ | ⟨c, d, p, v, rs, w, hc, ⟨ls, n, rfl⟩, hw, rfl⟩
  · exact ⟨rfl, rfl, rfl, rfl, fun _ _ => rfl, .inr hheld⟩
  · exact ⟨rfl, rfl, rfl, rfl, fun k hk => getCtx_setCtx_ne _ _ hk, .inr hheld⟩
  · rw [getCtx_setCtx_same]
    refine ⟨hw.mem, hw.marks, hw.overlay, hw.mex, fun k hk => ?_, .inl ⟨hc.regs, hc.specials⟩⟩
    rw [getCtx_setCtx_ne _ _ hk, getCtx, hw.ctxs]
    exact getCtx_setCtx_ne _ _ hk

/-! ## Touches (R182) -/

/-- A touch changes its context's landing buffer and pins. -/
def Touched (c d : Ctx) : Prop := ∃ ls n ps, d = { c with landing := ls, nextId := n, pins := ps }

theorem updCtx_updCtx (who : CtxId) (f k : Ctx → Ctx) (s : State) : updCtx who f (updCtx who k s) = setCtx who (f (k (getCtx s who))) s := by
  simp [updCtx]

theorem tch_acts : Acts defTch Touched (· = ·) := by
  intro x s u h
  have h : tchOp.run x s = .ok u := h
  simp only [tchOp] at h
  split at h
  · cases h
  split at h
  · cases h
  split at h
  · cases h
    refine ⟨s, _, by rw [takeHit, enterBuffer, updCtx_updCtx], ?_, rfl⟩
    exact ⟨_, _, _, rfl⟩
  split at h
  · cases h
    refine ⟨s, _, by rw [takeEntry, enterBuffer, updCtx_updCtx], ?_, rfl⟩
    exact ⟨_, _, _, rfl⟩
  · cases h
    exact ⟨s, _, rfl, ⟨_, _, (getCtx s x.who).pins, rfl⟩, rfl⟩

theorem exec_tch_frame (hsnap : (own s).snap = none) (htwait : (own s).twait = 0) (hawait : s.sel.await = 0)
    (h : exec (.tch g src) s = .next t) : OthersKept s t ∧ t.mem = s.mem
      ∧ ((RegsKept (view s) (getCtx t s.sel.who) ∧ SpecialsKept (view s) { getCtx t s.sel.who with pins := (view s).pins })
        ∨ Held (own s) (getCtx t s.sel.who)) := by
  have ht : issueOne defTch 145 g src s = t := by
    cases h
    rfl
  have hiss := issueOne_issued (g := g) (src := src) (field := 145) hsnap htwait hawait (by decide) tch_acts fun c d hd => by
    obtain ⟨ls, n, ps, rfl⟩ := hd
    exact ⟨rfl, rfl⟩
  rw [ht] at hiss
  rcases hiss.outcome tch_acts (fun c => ⟨c.landing, c.nextId, c.pins, rfl⟩) (fun _ => rfl) with
    ⟨hheld, rfl | ⟨d, rfl⟩⟩ | ⟨c, d, p, v, rs, w, hc, ⟨ls, n, ps, rfl⟩, rfl, rfl⟩
  · exact ⟨⟨rfl, fun _ _ => rfl⟩, rfl, .inr hheld⟩
  · exact ⟨othersKept_setCtx s d, rfl, .inr hheld⟩
  · rw [setCtx_setCtx, getCtx_setCtx_same]
    obtain ⟨h1, h2, h3, h4, -, h6⟩ := hc.specials
    exact ⟨othersKept_setCtx s _, rfl, .inl ⟨hc.regs, h1, h2, h3, h4, rfl, h6⟩⟩

end

/-- Settles O41: the bundle waits, traps, or ends with what its operation put in flight or in the landing buffer. -/
theorem registerFrames : Obligations.RegisterFrames := by
  refine ⟨fun s t g src hsnap htwait hawait i hi h => ?_, fun s t g src hsnap htwait hawait i hi h => ?_, fun s t g src hsnap htwait hawait h => ?_⟩
  · obtain ⟨hothers, hmem, hctx⟩ := (all_report i hi).frame hsnap htwait hawait h
    exact ⟨hothers, fun a => by rw [hmem], hctx⟩
  · obtain ⟨hmem, hmarks, hoverlay, hmex, hothers, hctx⟩ := (all_load i hi).frame hsnap htwait hawait h
    refine ⟨fun a => by rw [hmem], hmarks, hoverlay, hmex, hothers, hctx.imp_right fun ⟨hregs, _, htok, hspill, hsr⟩ => ⟨hregs, htok, hspill, hsr⟩⟩
  · obtain ⟨hothers, hmem, hctx⟩ := exec_tch_frame hsnap htwait hawait h
    exact ⟨hothers, fun a => by rw [hmem], hctx.imp_right fun ⟨hregs, _, htok, hspill, hsr⟩ => ⟨hregs, htok, hspill, hsr⟩⟩

end Sys2Proof.Machine
end

section
/-! SUPPORT. Scalar arithmetic (R110 to R114): each integer function of the model is the one its rule gives, and an instruction that computes it
puts the one scalar in flight. -/

namespace Sys2Proof.Machine

/-! ## Functions of two operands (R111) -/

theorem aluAdd_eq (a t : Dword) : aluAdd a t = BitVec.ofNat 64 (a.toNat + t.toNat) := rfl

theorem aluSub_eq (a t : Dword) : aluSub a t = BitVec.ofInt 64 ((a.toNat : Int) - t.toNat) := by
  apply BitVec.eq_of_toNat_eq
  rw [aluSub, BitVec.toNat_sub, BitVec.toNat_ofInt]
  omega

theorem aluShl_eq (a t : Dword) : aluShl a t = BitVec.ofNat 64 (a.toNat * 2 ^ (t.toNat % 64)) := by
  apply BitVec.eq_of_toNat_eq
  simp [aluShl, Nat.shiftLeft_eq]

theorem aluShr_eq (a t : Dword) : aluShr a t = BitVec.ofNat 64 (a.toNat / 2 ^ (t.toNat % 64)) := by
  apply BitVec.eq_of_toNat_eq
  rw [aluShr, BitVec.toNat_ushiftRight, Nat.shiftRight_eq_div_pow, BitVec.toNat_ofNat,
    Nat.mod_eq_of_lt ((Nat.div_le_self _ _).trans_lt a.isLt)]

theorem aluSar_eq (a t : Dword) : aluSar a t = BitVec.ofInt 64 (a.toInt / (2 ^ (t.toNat % 64) : Nat)) := by
  rw [aluSar, BitVec.sshiftRight, Int.shiftRight_eq_div_pow]

theorem aluRol_eq (a t : Dword) : aluRol a t = (a <<< (t.toNat % 64)) ||| (a >>> (64 - t.toNat % 64)) := by
  rw [aluRol, BitVec.rotateLeft_eq_rotateLeftAux_of_lt (Nat.mod_lt _ (by decide)), BitVec.rotateLeftAux]

theorem flagOf_decide (p : Prop) [Decidable p] : flagOf (decide p) = if p then 1 else 0 := by simp [flagOf]

theorem aluNe_eq (a t : Dword) : aluNe a t = if a = t then 0 else 1 := by simp [aluNe, flagOf]

theorem aluSel_eq (a b t : Dword) : aluSel a b t = if t = 0 then b else a := by simp [aluSel]

/-! ## Counts and fields (R112) -/
theorem bit_toNat (t : Dword) (i : Nat) : bit t.toNat i = t.getLsbD i := by
  rw [bit, BitVec.getLsbD, Nat.testBit_eq_decide_div_mod_eq, beq_eq_decide]

/-- The indices below n up to the first failure. -/
theorem length_takeWhile_range {n k : Nat} {p : Nat → Bool} (hk : k ≤ n) (hp : ∀ i < k, p i = true) (hs : k < n → p k = false) :
    ((List.range n).takeWhile p).length = k := by
  obtain ⟨m, rfl⟩ := Nat.exists_eq_add_of_le hk
  rw [List.range_add, List.takeWhile_append_of_pos (by simpa using hp)]
  cases m with
  | zero => simp
  | succ m => simp [List.range_succ_eq_map, hs (by omega)]

theorem aluCtz_eq (t : Dword) : aluCtz t = BitVec.ofNat 64 ((List.range 64).takeWhile fun i => !t.getLsbD i).length := by
  have hbit : (fun i => bit t.toNat i) = fun i => t.getLsbD i := funext (bit_toNat t)
  rw [aluCtz, hbit]
  congr 1
  cases h : (List.range 64).find? fun i => t.getLsbD i with
  | none => 
    refine (length_takeWhile_range le_rfl (fun i hi => ?_) (by omega)).symm
    simpa using List.find?_eq_none.1 h i (List.mem_range.2 hi)
  | some k =>
    obtain ⟨hk, hlt, hbefore⟩ := List.find?_range_eq_some.1 h
    exact (length_takeWhile_range (List.mem_range.1 hlt).le (by simpa using hbefore) fun _ => by simpa using hk).symm

theorem aluClz_eq (t : Dword) : aluClz t = BitVec.ofNat 64 ((List.range 64).takeWhile fun i => !t.getMsbD i).length := by
  rw [aluClz]
  congr 1
  split
  next h =>
    have : t = 0#64 := BitVec.eq_of_toNat_eq h
    exact (length_takeWhile_range le_rfl (by simp [this]) (by omega)).symm
  next h =>
    have hlog : t.toNat.log2 < 64 := (Nat.log2_lt h).2 t.isLt
    refine (length_takeWhile_range (by omega) (fun i hi => ?_) fun _ => ?_).symm
    · have : t.toNat < 2 ^ (63 - i) := (Nat.log2_lt h).1 (by omega)
      have hi64 : i < 64 := by omega
      simpa [BitVec.getMsbD, BitVec.getLsbD, hi64] using Nat.testBit_lt_two_pow this
    · have h63 : 64 - 1 - (63 - t.toNat.log2) = t.toNat.log2 := by omega
      simp [BitVec.getMsbD, BitVec.getLsbD, h63, Nat.testBit_log2 h]; omega

theorem aluPopc_eq (t : Dword) : aluPopc t = BitVec.ofNat 64 ((List.range 64).filter fun i => t.getLsbD i).length := by
  simp only [aluPopc, bit_toNat]

theorem aluSext_eq (a t : Dword) : aluSext a t = BitVec.ofInt 64 (Int.bmod a.toNat (2 ^ min t.toNat 64)) := by
  unfold aluSext aluWidth
  split
  next h => simp [h]
  next h => 
    obtain ⟨w, hw⟩ := Nat.exists_eq_succ_of_ne_zero h
    have hpow : 2 ^ (w + 1) = 2 * 2 ^ w := pow_succ' 2 w
    simp only [hw, dwordOf, toSigned, Int.bmod, ← Int.natCast_mod, hpow, Nat.succ_eq_add_one, Nat.add_sub_cancel]
    congr 1
    split <;> split <;> omega

theorem aluZext_eq (a t : Dword) : aluZext a t = a &&& BitVec.ofNat 64 (2 ^ min t.toNat 64 - 1) := by
  apply BitVec.eq_of_toNat_eq
  have hmask : (2 ^ min t.toNat 64 - 1) < 2 ^ 64 := by
    have := Nat.pow_le_pow_right (n := 2) (by decide) (min_le_right t.toNat 64)
    omega
  rw [aluZext, aluWidth, BitVec.toNat_and, BitVec.toNat_ofNat, BitVec.toNat_ofNat, Nat.mod_eq_of_lt hmask, Nat.and_two_pow_sub_one_eq_mod,
    Nat.mod_eq_of_lt ((Nat.mod_le _ _).trans_lt a.isLt)]

theorem aluBfx_eq (a b t : Dword) : aluBfx a b t = (a >>> (b.toNat % 64)) &&& BitVec.ofNat 64 (2 ^ min t.toNat 64 - 1) := by
  rw [← aluZext_eq, aluBfx, aluZext, BitVec.toNat_ushiftRight, Nat.shiftRight_eq_div_pow]

/-! ## Products and quotients (R113, R114) -/
theorem mulLow_eq (a t : Dword) : mulLow a t = BitVec.ofNat 64 (a.toNat * t.toNat) := rfl

theorem signExtend_mul_signExtend (a t : Dword) : a.signExtend 128 * t.signExtend 128 = BitVec.ofInt 128 (a.toInt * t.toInt) :=
  (BitVec.ofInt_mul _ _).symm

theorem mulHigh_eq (a t : Dword) : mulHigh a t = (a.signExtend 128 * t.signExtend 128).extractLsb' 64 64 := by
  apply BitVec.eq_of_toNat_eq
  rw [mulHigh, dwordOf, signExtend_mul_signExtend, BitVec.extractLsb'_toNat, BitVec.toNat_ofInt, BitVec.toNat_ofInt, Nat.shiftRight_eq_div_pow]
  omega

theorem mulHighU_eq (a t : Dword) : mulHighU a t = (a.setWidth 128 * t.setWidth 128).extractLsb' 64 64 := by
  apply BitVec.eq_of_toNat_eq
  have hprod : a.toNat * t.toNat < 2 ^ 64 * 2 ^ 64 := Nat.mul_lt_mul'' a.isLt t.isLt
  rw [mulHighU, BitVec.extractLsb'_toNat, BitVec.toNat_mul, BitVec.toNat_setWidth_of_le (by decide), BitVec.toNat_setWidth_of_le (by decide),
    BitVec.toNat_ofNat, Nat.shiftRight_eq_div_pow, Nat.mod_eq_of_lt (hprod.trans_le (by decide))]

theorem mulWord_eq (a t : Dword) : mulWord a t = (a.setWidth 32 * t.setWidth 32).signExtend 64 := by
  rw [mulWord, dwordOf, BitVec.signExtend, BitVec.toInt_eq_toNat_cond, BitVec.toNat_mul, BitVec.toNat_setWidth, BitVec.toNat_setWidth, toSigned]
  congr 1
  split <;> split <;> omega

theorem mulAdd_eq (a b t : Dword) : mulAdd a b t = BitVec.ofNat 64 (a.toNat * t.toNat + b.toNat) := by
  apply BitVec.eq_of_toNat_eq
  simp [mulAdd]

theorem toInt_eq_zero {t : Dword} : t.toInt = 0 ↔ t = 0 := by
  rw [← BitVec.toInt_inj]; rfl

theorem toNat_eq_zero {t : Dword} : (t.toNat : Int) = 0 ↔ t = 0 := by
  rw [Int.natCast_eq_zero, ← BitVec.toNat_inj]; rfl

theorem divRem_tmod (n d : Int) (a : Dword) :
    divRem n d a = if d = 0 then (BitVec.allOnes 64, a) else (BitVec.ofInt 64 (n.tdiv d), BitVec.ofInt 64 (n.tmod d)) := by
  rw [divRem, Int.tmod_def, mul_comm d]; rfl

/-- The quotient of the most negative dividend by -1 leaves the signed range. -/
theorem divRem_corner {a t : Dword} (h : a.toInt = -2 ^ 63 ∧ t.toInt = -1) : divRem a.toInt t.toInt a = (0x8000000000000000, 0) := by
  obtain ⟨ha, ht⟩ := h
  rw [ha, ht]; rfl

theorem divS_eq (a t : Dword) : divS a t = if t = 0 then BitVec.allOnes 64
    else if a.toInt = -2 ^ 63 ∧ t.toInt = -1 then 0x8000000000000000 else BitVec.ofInt 64 (a.toInt.tdiv t.toInt) := by
  rw [divS]
  split_ifs with h0 hc
  · rw [divRem_tmod, if_pos (toInt_eq_zero.2 h0)]
  · rw [divRem_corner hc]
  · rw [divRem_tmod, if_neg (mt toInt_eq_zero.1 h0)]

theorem remS_eq (a t : Dword) : remS a t = if t = 0 then a
    else if a.toInt = -2 ^ 63 ∧ t.toInt = -1 then 0 else BitVec.ofInt 64 (a.toInt.tmod t.toInt) := by
  rw [remS]
  split_ifs with h0 hc
  · rw [divRem_tmod, if_pos (toInt_eq_zero.2 h0)]
  · rw [divRem_corner hc]
  · rw [divRem_tmod, if_neg (mt toInt_eq_zero.1 h0)]

theorem divU_eq (a t : Dword) : divU a t = if t = 0 then BitVec.allOnes 64 else BitVec.ofNat 64 (a.toNat / t.toNat) := by
  rw [divU, divRem_tmod]
  split_ifs with h h0 h0
  · rfl
  · exact absurd (toNat_eq_zero.1 h) h0
  · exact absurd (toNat_eq_zero.2 h0) h
  · exact BitVec.ofInt_natCast _ _

theorem remU_eq (a t : Dword) : remU a t = if t = 0 then a else BitVec.ofNat 64 (a.toNat % t.toNat) := by
  rw [remU, divRem_tmod]
  split_ifs with h h0 h0
  · rfl
  · exact absurd (toNat_eq_zero.1 h) h0
  · exact absurd (toNat_eq_zero.2 h0) h
  · exact BitVec.ofInt_natCast _ _

/-! ## Scalar instructions (R110) -/

section
variable {s : State} {g : Guard} {src : Source}

/-- What the functions of a scalar operation in unit `u` are applied to: a, b, c and t, or their tags. -/
def applied {α : Type} (s : State) (src : Source) (u : Nat) (part : Sc → α) (f : α → α → α → α → α) : α :=
  f (part (portSc s u 0)) (part (portSc s u 1)) (part (portSc s u 2)) (part (trigSc s src))

/-- An instruction runs a scalar operation of a unit at a latency: a function of a, b, c and t, and one of their tags. -/
structure ScalarRow (s : State) (g : Guard) (src : Source) (i : Instr) (field unit lat : Nat) (v : Dword → Dword → Dword → Dword → Dword)
    (tag : Bool → Bool → Bool → Bool → Bool) : Prop where
  parts : moveParts i = some (g, src, field)
  exec : exec i s = .next (issueOne (scalarOp unit lat (fun x => v x.aD x.bD x.cD x.tD) fun x => tag x.aP x.bP x.cP x.tP) field g src s)

section
variable {i j : Instr} {field k unit lat : Nat} {v : Dword → Dword → Dword → Dword → Dword} {tag : Bool → Bool → Bool → Bool → Bool}
  {f : OpIn → Dword} {p : OpIn → Bool}

theorem scalarRow_of (hv : ∀ x, f x = v x.aD x.bD x.cD x.tD) (hp : ∀ x : OpIn, p x = tag x.aP x.bP x.cP x.tP)
    (hparts : moveParts i = some (g, src, field)) (hexec : exec i s = .next (issueOne (scalarOp unit lat f p) field g src s)) :
    ScalarRow s g src i field unit lat v tag := by
  obtain rfl := funext hv
  obtain rfl := funext hp
  exact ⟨hparts, hexec⟩

/-- Its one result is in flight to latch x of the unit. -/
theorem ScalarRow.next (h : ScalarRow s g src i field unit lat v tag) (hq : Quiet s) (hb : Brings s g src .s) (hr : Room s 0 0 1)
    (hu : field / 32 = unit) (hf : field ∉ [104, 106, 107, 165]) :
    Machine.exec i s = .next (after s src (inFlight [latchSc s unit lat (applied s src unit Sc.v v) (applied s src unit Sc.p tag)])) := by
  subst hu
  exact h.exec.trans (congrArg _ (issueOne_flights (scalarOp ..) field g src s _ hq hb hr rfl (fun _ h => nomatch h) rfl hf))

/-- One function in both integer units, at fields 32 apart (R111, R112). -/
structure BothUnits (s : State) (g : Guard) (src : Source) (i j : Instr) (k : Nat) (v : Dword → Dword → Dword → Dword → Dword)
    (tag : Bool → Bool → Bool → Bool → Bool) : Prop where
  field : k < 32
  alu0 : ScalarRow s g src i k 0 1 v tag
  alu1 : ScalarRow s g src j (0x20 + k) 1 1 v tag

theorem bothUnits_of (hv : ∀ x, f x = v x.aD x.bD x.cD x.tD) (hp : ∀ x : OpIn, p x = tag x.aP x.bP x.cP x.tP) (hk : k < 32 := by decide)
    (hi : moveParts i = some (g, src, k) := by rfl) (hj : moveParts j = some (g, src, 0x20 + k) := by rfl)
    (hexec : exec i s = .next (issueOne (scalarOp 0 1 f p) k g src s) := by rfl)
    (hexec' : exec j s = .next (issueOne (scalarOp 1 1 f p) (0x20 + k) g src s) := by rfl) : BothUnits s g src i j k v tag :=
  ⟨hk, scalarRow_of hv hp hi hexec, scalarRow_of hv hp hj hexec'⟩

/-- A function of a and t (R111). -/
theorem bothUnits_opAT {f v : Dword → Dword → Dword} (hv : ∀ a t, f a t = v a t) (hk : k < 32 := by decide)
    (hi : moveParts i = some (g, src, k) := by rfl) (hj : moveParts j = some (g, src, 0x20 + k) := by rfl)
    (hexec : exec i s = .next (issueOne (opAT 0 1 f) k g src s) := by rfl)
    (hexec' : exec j s = .next (issueOne (opAT 1 1 f) (0x20 + k) g src s) := by rfl) :
    BothUnits s g src i j k (fun a _ _ t => v a t) (fun a _ _ t => a || t) :=
  bothUnits_of (fun _ => hv _ _) (fun _ => rfl) hk hi hj hexec hexec'

theorem BothUnits.next (h : BothUnits s g src i j k v tag) (hq : Quiet s) (hb : Brings s g src .s) (hr : Room s 0 0 1) :
    moveParts i = some (g, src, k) ∧ moveParts j = some (g, src, 0x20 + k)
    ∧ exec i s = .next (after s src (inFlight [latchSc s 0 1 (applied s src 0 Sc.v v) (applied s src 0 Sc.p tag)]))
    ∧ exec j s = .next (after s src (inFlight [latchSc s 1 1 (applied s src 1 Sc.v v) (applied s src 1 Sc.p tag)])) := by
  obtain ⟨hk, h0, h1⟩ := h
  have far : ∀ n < 64, n ∉ [104, 106, 107, 165] := by decide
  exact ⟨h0.parts, h1.parts, h0.next hq hb hr (by omega) (far _ (by omega)), h1.next hq hb hr (by omega) (far _ (by omega))⟩

end

/-- A row of the multiplier (R113, R114): a function of a, b and t, and whether b's tag counts. -/
theorem mul_row {i : Instr} {field lat : Nat} {f v : Dword → Dword → Dword → Dword} {p : OpIn → Bool} {usesB : Bool}
    (hq : Quiet s) (hb : Brings s g src .s) (hr : Room s 0 0 1) (hv : ∀ a b t, f a b t = v a b t)
    (hp : ∀ x : OpIn, p x = (x.aP || (usesB && x.bP) || x.tP)) (hu : field / 32 = 2 := by decide)
    (hf : field ∉ [104, 106, 107, 165] := by decide) (hparts : moveParts i = some (g, src, field) := by rfl)
    (hexec : exec i s = .next (issueOne (scalarOp 2 lat (fun x => f x.aD x.bD x.tD) p) field g src s) := by rfl) :
    moveParts i = some (g, src, field) ∧ exec i s = .next (after s src (inFlight [latchSc s 2 lat (v (portSc s 2 0).v (portSc s 2 1).v (trigSc s src).v)
      ((portSc s 2 0).p || (usesB && (portSc s 2 1).p) || (trigSc s src).p)])) :=
  have row := scalarRow_of (v := fun a b _ t => v a b t) (tag := fun a b _ t => a || (usesB && b) || t) (fun _ => hv _ _ _) hp hparts hexec
  ⟨row.parts, row.next hq hb hr hu hf⟩

/-! Which tags an operation reads, written as a choice among those of a, b, c and t -/

theorem tag_t (x : OpIn) : x.tP = (false && x.aP || false && x.bP || false && x.cP || x.tP) := by simp
theorem tag_at (x : OpIn) : (x.aP || x.tP) = (true && x.aP || false && x.bP || false && x.cP || x.tP) := by simp
theorem tag_abt (x : OpIn) : (x.aP || x.bP || x.tP) = (true && x.aP || true && x.bP || false && x.cP || x.tP) := by simp
theorem tag_abct (x : OpIn) : (x.aP || x.bP || x.cP || x.tP) = (true && x.aP || true && x.bP || true && x.cP || x.tP) := by simp

end

/-- Settles O13: row by row, the function of the model is the rule's, and both units put it in flight. -/
theorem aluResults : Obligations.AluResults := by
  refine ⟨fun s g src hq hb hr => ?_, fun s g src hq hb hr => ?_⟩
  · refine fun r hm => BothUnits.next (v := fun a _ _ t => r.2.2.2 a t) (tag := fun a _ _ t => a || t) ?_ hq hb hr
    revert r hm
    simp only [List.forall_mem_cons]
    have same : ∀ {f : Dword → Dword → Dword} (a t : Dword), f a t = f a t := fun _ _ => rfl
    have flag : ∀ {p : Dword → Dword → Prop} [∀ a t, Decidable (p a t)] (a t : Dword), flagOf (decide (p a t)) = if p a t then 1 else 0 :=
      fun _ _ => flagOf_decide _
    exact ⟨bothUnits_opAT aluAdd_eq, bothUnits_opAT aluSub_eq, bothUnits_opAT same, bothUnits_opAT same, bothUnits_opAT same,
      bothUnits_opAT same, bothUnits_opAT aluShl_eq, bothUnits_opAT aluShr_eq, bothUnits_opAT aluSar_eq, bothUnits_opAT aluRol_eq,
      bothUnits_opAT same, bothUnits_opAT same, bothUnits_opAT same, bothUnits_opAT same, bothUnits_opAT flag, bothUnits_opAT aluNe_eq,
      bothUnits_opAT flag, bothUnits_opAT flag, bothUnits_opAT flag, bothUnits_opAT flag, by simp⟩
  · refine fun r hm => BothUnits.next (v := r.2.2.2.2)
      (tag := fun a b c t => (r.2.2.2.1.1 && a) || (r.2.2.2.1.2.1 && b) || (r.2.2.2.1.2.2 && c) || t) ?_ hq hb hr
    revert r hm
    simp only [List.forall_mem_cons]
    exact ⟨bothUnits_of (fun _ => aluSel_eq _ _ _) tag_abt, bothUnits_of (fun _ => aluClz_eq _) tag_t, bothUnits_of (fun _ => aluCtz_eq _) tag_t,
      bothUnits_of (fun _ => aluPopc_eq _) tag_t, bothUnits_of (fun _ => aluSext_eq _ _) tag_at, bothUnits_of (fun _ => aluZext_eq _ _) tag_at,
      bothUnits_of (fun _ => aluBfx_eq _ _ _) tag_abt, bothUnits_of (f := fun x => aluBfi x.aD x.bD x.cD x.tD) (fun _ => rfl) tag_abct, by simp⟩

/-- Settles O14: row by row, the function of the model is the rule's, at the rule's latency. -/
theorem multiplyDivideResults : Obligations.MultiplyDivideResults := by
  intro s g src hq hb hr
  have noB : ∀ x : OpIn, (x.aP || x.tP) = (x.aP || (false && x.bP) || x.tP) := by simp
  have withB : ∀ x : OpIn, (x.aP || x.bP || x.tP) = (x.aP || (true && x.bP) || x.tP) := by simp
  intro r hm
  fin_cases hm
  · exact mul_row hq hb hr (fun a _ t => mulLow_eq a t) noB
  · exact mul_row hq hb hr (fun a _ t => mulHigh_eq a t) noB
  · exact mul_row hq hb hr (fun a _ t => mulHighU_eq a t) noB
  · exact mul_row hq hb hr (fun a _ t => mulWord_eq a t) noB
  · exact mul_row hq hb hr mulAdd_eq withB
  · exact mul_row hq hb hr (fun a _ t => divS_eq a t) noB
  · exact mul_row hq hb hr (fun a _ t => divU_eq a t) noB
  · exact mul_row hq hb hr (fun a _ t => remS_eq a t) noB
  · exact mul_row hq hb hr (fun a _ t => remU_eq a t) noB

end Sys2Proof.Machine
end

section
/-! SUPPORT. Control (R61, R62, R115 to R118): a taken transfer is a redirect, the loop instructions set the loop state, and CALL settles LINK from
the flow behind its delay bundles. -/

namespace Sys2Proof.Machine

/-! ## Landing and the redirects of a context do not meet -/

/-- A context with other redirects. -/
def rerouted (rs : List Redirect) (c : Ctx) : Ctx := { c with redirects := rs }

section
variable {rs : List Redirect}

theorem shrinkTo_rerouted (n : Nat) (c : Ctx) : shrinkTo n (rerouted rs c) = rerouted rs (shrinkTo n c) := by
  induction n generalizing c with
  | zero => rfl
  | succ n ih =>
    have hres : residentCount (rerouted rs c) = residentCount c := rfl
    have hev : evictee (rerouted rs c) [] = evictee c [] := rfl
    have hquota : (rerouted rs c).sr = c.sr := rfl
    simp only [shrinkTo, hres, hev, hquota]
    split
    · rfl
    · cases evictee c [] with
      | none => rfl
      | some k => exact ih (dropName k c)

theorem writeSr_rerouted (i v : Nat) (c : Ctx) : writeSr i v (rerouted rs c) = rerouted rs (writeSr i v c) := by
  unfold writeSr
  split
  case h_6 => exact shrinkTo_rerouted 32 { c with sr := { c.sr with quota := v % 64 } }
  all_goals rfl

theorem noteParity_rerouted (a : Dword) (c : Ctx) : noteParity a (rerouted rs c) = rerouted rs (noteParity a c) := by
  have hpar : (rerouted rs c).parity = c.parity := rfl
  simp only [noteParity, hpar]
  split <;> rfl

theorem landFixed_rerouted (f : Flight) (c : Ctx) : landFixed f (rerouted rs c) = rerouted rs (landFixed f c) := by
  simp only [landFixed, noteParity_rerouted]
  generalize noteParity f.parity c = d
  cases f.dst with
  | main i => simp only [landMain]; split_ifs <;> rfl
  | oper i => simp only; split_ifs <;> rfl
  | latch u y => rfl
  | special i => exact writeSr_rerouted i _ d
  | flags => rfl

theorem landTimed_rerouted (l : Landing) (c : Ctx) : landTimed l (rerouted rs c) = rerouted rs (landTimed l c) := by
  unfold landTimed
  split
  · exact noteParity_rerouted _ { c with latches := c.latches.set _ _ }
  · rfl
  · simp only
    rw [apply_ite (rerouted rs)]
    rfl
  · rfl

theorem landOne_rerouted (x : Due) (c : Ctx) : landOne x (rerouted rs c) = rerouted rs (landOne x c) := by
  cases x with
  | timed l => exact landTimed_rerouted l c
  | fixed f => exact landFixed_rerouted f c

theorem foldl_rerouted {α : Type} {f : Ctx → α → Ctx} (h : ∀ c x, f (rerouted rs c) x = rerouted rs (f c x)) (l : List α) (c : Ctx) :
    l.foldl f (rerouted rs c) = rerouted rs (l.foldl f c) := by
  induction l generalizing c with
  | nil => rfl
  | cons x l ih => rw [List.foldl_cons, List.foldl_cons, h, ih]

theorem landAt_rerouted (q : Nat) (c : Ctx) : landAt q (rerouted rs c) = rerouted rs (landAt q c) := by
  have h := foldl_rerouted (f := fun c x => landOne x c) (rs := rs) (fun c x => landOne_rerouted x c) (dueAt q c)
    { c with landing := c.landing.filter (fun l => l.land != q), flight := c.flight.filter (fun f => f.land != q) }
  exact congrArg (fun d : Ctx =>
    { d with sr := { d.sr with fflags := (c.flight.filter fun f : Flight => f.land == q).foldl (fun a (f : Flight) => a ||| f.flags) d.sr.fflags } }) h

theorem seen_rerouted (c : Ctx) : seen (rerouted rs c) = rerouted rs (seen c) :=
  foldl_rerouted (f := fun c q => landAt q c) (fun c q => landAt_rerouted q c) _ c

end

/-! ## Transfers (R61, R115, R116) -/

section
variable {s t : State} {g : Guard} {src : Source} {op : OpDef} {field : Nat}

/-- A transfer of the bundle decides the third bundle after it (R61). -/
def transferTo (s : State) (target : Nat) (c : Ctx) : Ctx := { c with redirects := c.redirects ++ [⟨(view s).bclk + 3, target, (own s).pc⟩] }

theorem takeTransfer_given (hq : Quiet s) (target : Nat) (u : State) :
    takeTransfer (given s field .s src) target u = .ok (updCtx s.sel.who (transferTo s (target % 2 ^ 18)) u) := by
  rw [takeTransfer, given_c0, quiet_rft hq]
  rfl

/-- A bundle of one control move: nothing lands, and the context alone changes. -/
theorem issueOne_control {f : Ctx → Ctx} (hq : Quiet s) (hb : Brings s g src op.ty)
    (hop : op.land = 0 ∧ op.vecs = 0 ∧ op.scs = 0 ∧ op.full (given s field op.ty src) s = false ∧ op.tok (given s field op.ty src) = none)
    (hrun : op.run (given s field op.ty src) (started s src) = .ok (updCtx s.sel.who f (started s src)))
    (hfield : field ∉ [104, 106, 107, 165]) (hf : ∀ c, (f c).run = c.run ∧ (f c).rft = c.rft) :
    issueOne op field g src s = after s src f := by
  obtain ⟨hland, hvecs, hscs, hfull, htok⟩ := hop
  have hr : (f (entry s src)).run = .runnable := (hf _).1.trans (entry_run src hq)
  exact issueOne_after op field g src s f hq hb (by rw [hland, hvecs, hscs]; exact room_none s) hfull (by simp [htok]) hrun
    (linkReach_none _ _ hfield) (by simp [hr]) (by simp [hr]) ((hf _).2.trans (entry_rft src hq))

theorem relative_lt (x : OpIn) (v : Dword) : relative x v < 2 ^ 18 := by
  have := Int.emod_lt_of_pos ((x.h : Int) + v.toInt) (by decide : (0 : Int) < (2 ^ 18 : Nat))
  rw [relative]
  omega

theorem issueOne_taken {target : Nat} (hq : Quiet s) (hb : Brings s g src op.ty) (hty : op.ty = .s)
    (hop : op.land = 0 ∧ op.vecs = 0 ∧ op.scs = 0 ∧ op.full (given s field op.ty src) s = false ∧ op.tok (given s field op.ty src) = none)
    (hrun : op.run (given s field .s src) (started s src) = takeTransfer (given s field .s src) target (started s src))
    (hfield : field ∉ [104, 106, 107, 165]) (ht : target < 2 ^ 18) : issueOne op field g src s = after s src (transferTo s target) :=
  issueOne_control hq hb hop (by rw [hty, hrun, takeTransfer_given hq, Nat.mod_eq_of_lt ht]) hfield fun _ => ⟨rfl, rfl⟩

theorem exec_jmp (hq : Quiet s) (hb : Brings s g src .s) (hp : (trigSc s src).p = false) :
    exec (.jmp g src) s = .next (after s src (transferTo s ((trigSc s src).v.toNat % 2 ^ 18))) :=
  congrArg _ (issueOne_taken hq hb rfl ⟨rfl, rfl, rfl, rfl, rfl⟩ (if_neg (by simp [hp])) (by decide) (Nat.mod_lt _ (by decide)))

theorem exec_bra (hq : Quiet s) (hb : Brings s g src .s) (hp : (trigSc s src).p = false) :
    exec (.bra g src) s = .next (after s src (transferTo s (relative (given s 101 .s src) (trigSc s src).v))) :=
  congrArg _ (issueOne_taken hq hb rfl ⟨rfl, rfl, rfl, rfl, rfl⟩ (if_neg (by simp [hp])) (by decide) (relative_lt _ _))

theorem exec_ret (hq : Quiet s) (hb : Brings s g src .s) :
    exec (.ret g src) s = .next (after s src (transferTo s ((view s).sr.link.toNat % 2 ^ 18))) :=
  congrArg _ (issueOne_control (field := 105) (f := transferTo s _) hq hb ⟨rfl, rfl, rfl, rfl, rfl⟩ (takeTransfer_given hq _ _) (by decide)
    fun _ => ⟨rfl, rfl⟩)

/-- A branch is taken when the test of a holds, and else changes nothing (R116). -/
theorem issueOne_branch (test : Dword → Bool) (hq : Quiet s) (hb : Brings s g src .s) (hp : (trigSc s src).p = false)
    (hu : field / 32 = 3) (ha : (portSc s 3 0).p = false) (hfield : field ∉ [104, 106, 107, 165]) :
    issueOne (branchOp test) field g src s = if test (portSc s 3 0).v then after s src (transferTo s (relative (given s field .s src) (trigSc s src).v))
      else after s src id := by
  have hrun : (branchOp test).run (given s field .s src) (started s src) = if test (portSc s 3 0).v
      then takeTransfer (given s field .s src) (relative (given s field .s src) (trigSc s src).v) (started s src) else .ok (started s src) := by
    have hclean : ((given s field .s src).aP || (given s field .s src).tP) = false := by simp [hu, ha, hp]
    have haD : (given s field .s src).aD = (portSc s 3 0).v := by rw [← hu]; rfl
    simp only [branchOp, hclean, haD]
    rfl
  split
  next h => exact issueOne_taken hq hb rfl ⟨rfl, rfl, rfl, rfl, rfl⟩ (hrun.trans (if_pos h)) hfield (relative_lt _ _)
  next h =>
    refine issueOne_control hq hb ⟨rfl, rfl, rfl, rfl, rfl⟩ ((hrun.trans (if_neg h)).trans ?_) hfield fun _ => ⟨rfl, rfl⟩
    simp [updCtx, started]

/-! ## The end of a bundle that settles LINK (R117, R119) -/

theorem peekSyl_setCtx (who : CtxId) (x : Ctx) (c : CoreId) (a : Nat) : peekSyl (setCtx who x s) c a = peekSyl s c a := rfl

theorem flowOn_setCtx (who : CtxId) (x : Ctx) (core : CoreId) (c : Ctx) (last : Nat) : ∀ k pc cnt q,
    flowOn (setCtx who x s) core c last k pc cnt q = flowOn s core c last k pc cnt q
  | 0, _, _, _ => rfl
  | k + 1, pc, cnt, q => by
    simp only [flowOn, peekSyl_setCtx, flowOn_setCtx who x core c last k]

/-- Where LINK is settled, only the memories and the context itself matter. -/
theorem settleLink_setCtx (who : CtxId) (x : Ctx) (q k : Nat) (fields : List Nat) (c : Ctx) :
    settleLink who q k fields c (setCtx who x s) = ((settleLink who q k fields c s).1, setCtx who x (settleLink who q k fields c s).2) := by
  simp only [settleLink, linkAhead, flowOn_setCtx]
  cases flowOn s who.coreId _ (q + k) k c.pc _ c.bclk <;> rfl

/-- Only a RET of the bundle itself goes where LINK then points. -/
theorem settleLink_fields {fields : List Nat} (h : ¬fields.contains 105 = true) (who : CtxId) (q k : Nat) (c : Ctx) :
    settleLink who q k fields c s = settleLink who q k [] c s := by
  simp only [settleLink, if_neg h]
  rfl

/-- The end of a bundle that settles LINK: the flow follows, and LINK is settled from the context after it. -/
theorem finish_settles {k : Nat} {x : Ctx} (h : s.sel.slot < 8) (hrun : x.run = .runnable) (hrft : x.rft = none)
    (hlink : linkReach x ((view s).bclk + 1) [field] = some k) :
    finish s.sel.who (trigBundle s op field g src) (view s) [field] (setCtx s.sel.who x s)
      = let r := settleLink s.sel.who ((view s).bclk + 1) k [field] (advance s x) s
        setCtx s.sel.who r.1 r.2 := by
  have hlen := trigBundle_length s op field g src h
  have hh : (trigBundle s op field g src).h = (own s).pc := rfl
  have hgo : ¬(x.run = .retired ∨ x.run = .halted) := by simp [hrun]
  have hr : (settleLink s.sel.who ((view s).bclk + 1) k [field] (advance s x) s).1.rft = none :=
    (advance_kept Ctx.rft (fun _ _ _ _ _ => rfl) s x).trans hrft
  simp only [finish, getCtx_setCtx_same, hgo, if_false, hlen, hh, hlink, ← advance_flowAfter, settleLink_setCtx, setCtx_setCtx, hr]


/-- LOOPS, LOOPX and MTSR settle LINK anew in the first delay bundle of a CALL (R117). -/
theorem finish_relink {x : Ctx} (h : s.sel.slot < 8) (hrun : x.run = .runnable) (hrft : x.rft = none) (hcall : x.calling = (view s).calling)
    (hfield : field ∈ [106, 107, 165]) :
    finish s.sel.who (trigBundle s op field g src) (view s) [field] (setCtx s.sel.who x s) = relink s (setCtx s.sel.who (advance s x) s) := by
  have h104 : ¬[field].contains 104 = true ∧ ¬[field].contains 105 = true := by revert field; decide
  have hset : [field].contains 165 = true ∨ [field].contains 106 = true ∨ [field].contains 107 = true := by revert field; decide
  by_cases hc : (view s).calling = some ((view s).bclk + 2)
  · rw [finish_settles h hrun hrft (k := 1) (by rw [linkReach, if_neg h104.1, if_pos ⟨hcall.trans hc, hset⟩]), relink, if_pos hc]
    simp only [getCtx_setCtx_same, settleLink_setCtx, setCtx_setCtx, settleLink_fields h104.2]
  · rw [finish_on op field g src s _ h (by simp [hrun]) (by simp [hrun]) (by simpa using hrft)
      (by
      rw [getCtx_setCtx_same, linkReach, if_neg h104.1, if_neg fun hn => hc (hcall ▸ hn.1)]), relink, if_neg hc]
    simp [goOn]

/-- A bundle of one move that changes its own context, and may settle LINK anew. -/
theorem issueOne_relink {f : Ctx → Ctx} (hq : Quiet s) (hb : Brings s g src op.ty) (hr : Room s op.land op.vecs op.scs)
    (hfull : op.full (given s field op.ty src) s = false) (htok : op.tok (given s field op.ty src) = none)
    (hrun : op.run (given s field op.ty src) (started s src) = .ok (updCtx s.sel.who f (started s src)))
    (hfield : field ∈ [106, 107, 165]) (hf : ∀ c, (f c).run = c.run ∧ (f c).rft = c.rft ∧ (f c).calling = c.calling) :
    issueOne op field g src s = relink s (after s src f) := by
  obtain ⟨h1, h2, h3⟩ := hf (entry s src)
  have hcall : (entry s src).calling = (view s).calling := entry_kept Ctx.calling (fun _ _ _ => rfl) s src fun _ => rfl
  rw [issueOne_run op field g src s _ hq hb hr hfull (by simp [htok]) hrun, started, updCtx_setCtx,
    finish_relink (quiet_slot hq) (h1.trans (entry_run src hq)) (h2.trans (entry_rft src hq)) (h3.trans hcall) hfield]
  rfl

/-! ## Loops (R118) -/

/-- The loop state that LOOPS or LOOPX sets. -/
def looping (cnt stop start : Nat) (c : Ctx) : Ctx := { c with loopCnt := cnt, loopEnd := stop, loopStart := start }

theorem run_loops (ha : (portSc s 3 0).p = false) (hp : (trigSc s src).p = false) (u : State) :
    defLoops.run (given s 106 .s src) u = .ok (updCtx s.sel.who (looping ((portSc s 3 0).v.toNat % 2 ^ 32)
      (relative (given s 106 .s src) (trigSc s src).v) (((own s).pc + oneLen s) % 2 ^ 18)) u) :=
  if_neg (by simp [ha, hp])

theorem exec_loops (hq : Quiet s) (hb : Brings s g src .s) (hp : (trigSc s src).p = false) (ha : (portSc s 3 0).p = false) :
    exec (.loops g src) s = .next (relink s (after s src (looping ((portSc s 3 0).v.toNat % 2 ^ 32)
      (relative (given s 106 .s src) (trigSc s src).v) (((own s).pc + oneLen s) % 2 ^ 18)))) :=
  congrArg _ (issueOne_relink (field := 106) hq hb (room_none s) rfl rfl (run_loops ha hp _) (by decide) fun _ => ⟨rfl, rfl, rfl⟩)

theorem looping_kept (cnt stop start : Nat) (c : Ctx) : (looping cnt stop start c).run = c.run ∧ (looping cnt stop start c).rft = c.rft
    ∧ (looping cnt stop start c).calling = c.calling := ⟨rfl, rfl, rfl⟩
theorem transferTo_kept (target : Nat) (c : Ctx) : (transferTo s target c).run = c.run ∧ (transferTo s target c).rft = c.rft
    ∧ (transferTo s target c).calling = c.calling := ⟨rfl, rfl, rfl⟩

theorem loopExit_mod {core : CoreId} {e : Nat} (he : e < 2 ^ 18) : loopExit s core e % 2 ^ 18 = match peekSyl s core e with
    | some w => if isHeader w then (e + (headerFields w).length) % 2 ^ 18 else e
    | none => e := by
  rw [loopExit]
  cases peekSyl s core e with
  | none => exact Nat.mod_eq_of_lt he
  | some w =>
    dsimp only
    split
    · rfl
    · exact Nat.mod_eq_of_lt he

/-- The context after LOOPX: with a count of 0 it also leaves the loop. -/
def loopxed (s : State) (src : Source) (c : Ctx) : Ctx :=
  let n := (portSc s 3 0).v.toNat % 2 ^ 32
  let stop := relative (given s 107 .s src) (trigSc s src).v
  let d := looping n stop (relative (given s 107 .s src) (portSc s 3 1).v) c
  if n = 0 then transferTo s (loopExit s s.sel.who.coreId stop % 2 ^ 18) d else d

theorem run_loopx (hq : Quiet s) (ha : (portSc s 3 0).p = false) (hb : (portSc s 3 1).p = false) (hp : (trigSc s src).p = false) :
    defLoopx.run (given s 107 .s src) (started s src) = .ok (updCtx s.sel.who (loopxed s src) (started s src)) := by
  have hstart : relative (given s 107 .s src) (portSc s 3 1).v % 2 ^ 18 = relative (given s 107 .s src) (portSc s 3 1).v :=
    Nat.mod_eq_of_lt (relative_lt _ _)
  have hset : setLoop (given s 107 .s src) (relative (given s 107 .s src) (given s 107 .s src).bD) (started s src)
      = updCtx s.sel.who (looping ((portSc s 3 0).v.toNat % 2 ^ 32) (relative (given s 107 .s src) (trigSc s src).v)
        (relative (given s 107 .s src) (portSc s 3 1).v)) (started s src) := by
    rw [← hstart]
    rfl
  refine (if_neg (by simp [ha, hb, hp])).trans ?_
  rw [hset]
  by_cases hn : (portSc s 3 0).v.toNat % 2 ^ 32 = 0
  · refine (if_pos hn).trans ?_
    rw [takeTransfer_given hq, updCtx_updCtx, started, updCtx_setCtx, getCtx_setCtx_same, setCtx_setCtx, loopxed, if_pos hn]
    rfl
  · refine (if_neg hn).trans ?_
    rw [started, updCtx_setCtx, updCtx_setCtx, loopxed, if_neg hn]

theorem exec_loopx (hq : Quiet s) (hb : Brings s g src .s) (hp : (trigSc s src).p = false) (ha : (portSc s 3 0).p = false)
    (hbp : (portSc s 3 1).p = false) : exec (.loopx g src) s = .next (relink s (after s src (loopxed s src))) := by
  have kept : ∀ c, (loopxed s src c).run = c.run ∧ (loopxed s src c).rft = c.rft ∧ (loopxed s src c).calling = c.calling := fun c => by
    by_cases hn : (portSc s 3 0).v.toNat % 2 ^ 32 = 0
    · rw [loopxed, if_pos hn]; exact transferTo_kept _ _
    · rw [loopxed, if_neg hn]; exact looping_kept _ _ _ _
  exact congrArg _ (issueOne_relink (op := defLoopx) (field := 107) hq hb (room_none s) rfl rfl (run_loopx hq ha hbp hp) (by decide) kept)


/-! ## CALL (R117) -/

/-- Where flow goes behind the bundle with header `w`, from an address and a loop count, and the count then, by the loop state of `c` (R61, R62). -/
def beyond (c : Ctx) (x : Nat × Nat) (w : Syllable) : Nat × Nat :=
  let hit := decide (x.1 = c.loopEnd) && decide (x.2 ≠ 0)
  (if hit && decide (x.2 - 1 ≠ 0) then c.loopStart else (x.1 + (headerFields w).length) % 2 ^ 18, if hit then x.2 - 1 else x.2)

theorem redirectAt_append (c : Ctx) (x : Redirect) (q : Nat) :
    redirectAt (rerouted (c.redirects ++ [x]) c) q = if x.pos = q then some x else redirectAt c q := by
  by_cases h : x.pos = q <;> simp [redirectAt, rerouted, List.filter_append, h]

/-- A bundle of the flow that decides LINK: a redirect takes it elsewhere, but for the one of the CALL itself. -/
theorem flowOn_header {core : CoreId} {c : Ctx} {last k pc cnt q : Nat} {w : Syllable} (hw : peekSyl s core pc = some w) (hh : isHeader w = true) :
    flowOn s core c last (k + 1) pc cnt q = flowOn s core c last k
      (match redirectAt c (q + 1) with
        | some r => if q + 1 = last then (beyond c (pc, cnt) w).1 else r.target
        | none => (beyond c (pc, cnt) w).1) (beyond c (pc, cnt) w).2 (q + 1) := by
  have hnext : ∀ p : Bool, (if p = true ∧ (if p = true then cnt - 1 else cnt) ≠ 0 then c.loopStart else (pc + (headerFields w).length) % 2 ^ 18)
      = if (p && decide (cnt - 1 ≠ 0)) = true then c.loopStart else (pc + (headerFields w).length) % 2 ^ 18 := by
    intro p
    cases p <;> simp
  simp only [flowOn, hw, hh, beyond, hnext]
  rfl

/-- The two delay bundles of a CALL: what the second one is reached by and with which loop count, and then where flow goes behind it. -/
def second (c1 : Ctx) (w : Syllable) : Nat × Nat :=
  match redirectAt c1 (c1.bclk + 1) with
  | some r => (r.target, (beyond (seen c1) (c1.pc, (seen c1).loopCnt) w).2)
  | none => beyond (seen c1) (c1.pc, (seen c1).loopCnt) w

/-- A context with the loop bounds of another. -/
def loopedAs (d c : Ctx) : Ctx := { c with loopEnd := d.loopEnd, loopStart := d.loopStart }

theorem linkAhead_call {who : CtxId} {c1 : Ctx} {x : Redirect} {w1 w2 : Syllable} (hx : x.pos = c1.bclk + 2)
    (h1 : peekSyl s who.coreId c1.pc = some w1) (hh1 : isHeader w1 = true)
    (h2 : peekSyl s who.coreId (second c1 w1).1 = some w2) (hh2 : isHeader w2 = true) :
    linkAhead s who (rerouted (c1.redirects ++ [x]) c1) (c1.bclk + 2) 2 = some (beyond (seen c1) (second c1 w1) w2).1 := by
  have hseen : landDue (rerouted (c1.redirects ++ [x]) c1).bclk (rerouted (c1.redirects ++ [x]) c1) = rerouted (c1.redirects ++ [x]) (seen c1) :=
    seen_rerouted c1
  have hred : ∀ q, redirectAt (loopedAs (seen c1) (rerouted (c1.redirects ++ [x]) c1)) q = if x.pos = q then some x else redirectAt c1 q :=
    redirectAt_append c1 x
  have first : flowOn s who.coreId (loopedAs (seen c1) (rerouted (c1.redirects ++ [x]) c1)) (c1.bclk + 2) 2 c1.pc (seen c1).loopCnt c1.bclk
      = flowOn s who.coreId (loopedAs (seen c1) (rerouted (c1.redirects ++ [x]) c1)) (c1.bclk + 2) 1 (second c1 w1).1 (second c1 w1).2 (c1.bclk + 1) := by
    rw [flowOn_header h1 hh1, hred, if_neg (by omega), second]
    cases redirectAt c1 (c1.bclk + 1) with
    | none => rfl
    | some r => simp only [Nat.add_right_inj, OfNat.one_ne_ofNat, if_false]; rfl
  rw [linkAhead, hseen]
  refine first.trans ?_
  rw [flowOn_header h2 hh2, hred, if_pos hx]
  exact congrArg some (if_pos rfl)

theorem advance_transferTo (target : Nat) (c : Ctx) :
    advance s (transferTo s target c) = rerouted ((advance s c).redirects ++ [⟨(view s).bclk + 3, target, (own s).pc⟩]) (advance s c) := by
  have hred : redirectAt (transferTo s target c) ((view s).bclk + 1) = redirectAt c ((view s).bclk + 1) := by
    rw [show transferTo s target c = rerouted (c.redirects ++ [⟨(view s).bclk + 3, target, (own s).pc⟩]) c from rfl, redirectAt_append, if_neg (by simp)]
  have hlate : decide ((view s).bclk + 1 < (view s).bclk + 3) = true := by simp
  simp only [advance_flowAfter, flowAfter, hred]
  simp [transferTo, rerouted, List.filter_append]

/-- The context after CALL, its LINK still to be settled. -/
def called (s : State) (src : Source) : Ctx :=
  rerouted ((advance s (entry s src)).redirects ++ [⟨(view s).bclk + 3, (trigSc s src).v.toNat % 2 ^ 18, (own s).pc⟩]) (advance s (entry s src))

theorem run_call (hq : Quiet s) (hp : (trigSc s src).p = false) (u : State) :
    defCall.run (given s 104 .s src) u = .ok (updCtx s.sel.who (transferTo s ((trigSc s src).v.toNat % 2 ^ 18)) u) := by
  refine (if_neg (by simp [hp])).trans ((takeTransfer_given hq _ _).trans ?_)
  rw [Nat.mod_mod]
  rfl

theorem exec_call (hq : Quiet s) (hb : Brings s g src .s) (hp : (trigSc s src).p = false) :
    exec (.call g src) s = .next (setCtx s.sel.who (settleLink s.sel.who ((view s).bclk + 1) 2 [104] (called s src) s).1
      (settleLink s.sel.who ((view s).bclk + 1) 2 [104] (called s src) s).2) := by
  have h : issueOne defCall 104 g src s = setCtx s.sel.who (settleLink s.sel.who ((view s).bclk + 1) 2 [104] (called s src) s).1
      (settleLink s.sel.who ((view s).bclk + 1) 2 [104] (called s src) s).2 := by
    have hend := finish_settles (op := defCall) (g := g) (src := src) (field := 104) (k := 2)
      (x := transferTo s ((trigSc s src).v.toNat % 2 ^ 18) (entry s src)) (quiet_slot hq) (entry_run src hq) (entry_rft src hq) rfl
    rw [issueOne_run defCall 104 g src s _ hq hb (room_none s) rfl (fun _ h => nomatch h) (run_call hq hp _), started, updCtx_setCtx, hend,
      advance_transferTo]
    rfl
  exact congrArg _ h

/-- A context whose LINK a CALL has settled; a delay bundle before position `q` may settle it anew. -/
def linked (l : Dword) (q : Nat) (c : Ctx) : Ctx := { noCall c with calling := some q, sr := { c.sr with link := l } }

@[simp] theorem linked_redirects (l : Dword) (q : Nat) (c : Ctx) : (linked l q c).redirects = c.redirects := rfl
@[simp] theorem linked_pc (l : Dword) (q : Nat) (c : Ctx) : (linked l q c).pc = c.pc := rfl
@[simp] theorem linked_bclk (l : Dword) (q : Nat) (c : Ctx) : (linked l q c).bclk = c.bclk := rfl
@[simp] theorem linked_sr (l : Dword) (q : Nat) (c : Ctx) : (linked l q c).sr = { c.sr with link := l } := rfl
theorem regsKept_linked {c d : Ctx} (l : Dword) (q : Nat) (h : RegsKept d c) : RegsKept d (linked l q c) := h

/-- LINK is the address that flow reaches, or a free value where that cannot be told (R117). -/
theorem settleLink_cases {fields : List Nat} (h : ¬fields.contains 105 = true) (who : CtxId) (q k : Nat) (c : Ctx) :
    ∃ l n, settleLink who q k fields c s = (linked l (q + k) c, { s with free := n })
      ∧ ∀ a, linkAhead s who c (q + k) k = some a → n = s.free ∧ l = BitVec.ofNat 64 a := by
  simp only [settleLink, if_neg h]
  cases linkAhead s who c (q + k) k with
  | some a => exact ⟨_, _, rfl, fun b hb => ⟨rfl, congrArg _ (Option.some.inj hb)⟩⟩
  | none => exact ⟨_, _, rfl, fun b hb => nomatch hb⟩

theorem regsKept_called (s : State) (src : Source) : RegsKept (view s) (called s src) := regsKept_advance (began_entry s src).regs
@[simp] theorem called_sr (s : State) (src : Source) : (called s src).sr = (view s).sr :=
  (advance_kept Ctx.sr (fun _ _ _ _ _ => rfl) s _).trans (entry_sr s src)
@[simp] theorem called_bclk (s : State) (src : Source) : (called s src).bclk = (own s).bclk + 1 := advance_bclk s _

end

/-- Settles O15: a taken transfer is a redirect for the third bundle; CALL also settles LINK from the flow behind its two delay bundles, and a
loop instruction settles it anew when it is the first of them. -/
theorem transfers : Obligations.Transfers := by
  refine ⟨fun s g src hq hb => ⟨fun hp => ⟨exec_jmp hq hb hp, exec_bra hq hb hp⟩, exec_ret hq hb, fun hp ha => ?_⟩,
    fun s g src hq hb hp => ?_, fun s g src hq hb hp ha => ⟨exec_loops hq hb hp ha, fun hbp => ?_⟩⟩
  · have branch : ∀ (test : Dword → Bool) (field : Nat), field / 32 = 3 → field ∉ [104, 106, 107, 165] → _ :=
      fun test field hu hf => issueOne_branch test hq hb hp hu ha hf
    refine ⟨congrArg _ ((branch (fun a => decide (a = 0)) 102 rfl (by decide)).trans ?_),
      congrArg _ ((branch (fun a => decide (a ≠ 0)) 103 rfl (by decide)).trans ?_)⟩
    · simp only [decide_eq_true_eq]
      rfl
    · simp only [decide_eq_true_eq, ne_eq, ite_not]
      rfl
  · obtain ⟨l, n, hset, hlink⟩ := settleLink_cases (s := s) (fields := [104]) (by decide) s.sel.who ((view s).bclk + 1) 2 (called s src)
    refine ⟨_, exec_call hq hb hp, ?_⟩
    rw [hset, getCtx_setCtx_same]
    refine ⟨⟨rfl, fun k hk => getCtx_setCtx_ne _ _ hk⟩, regsKept_linked _ _ (regsKept_called s src), linked_redirects .., linked_pc .., by simp,
      ⟨l, by simp⟩, fun w1 w2 h1 hh1 h2 hh2 => ?_⟩
    have hclk : (advance s (entry s src)).bclk = (view s).bclk + 1 := by rw [advance_bclk, view_bclk]
    exact hlink _ (hclk ▸ linkAhead_call (c1 := advance s (entry s src))
      (x := ⟨(view s).bclk + 3, (trigSc s src).v.toNat % 2 ^ 18, (own s).pc⟩) (by rw [hclk]) h1 hh1 h2 hh2)
  · rw [exec_loopx hq hb hp ha hbp]
    refine congrArg (fun f => Host.Outcome.next (relink s (after s src f))) (funext fun c => ?_)
    by_cases hn : (portSc s 3 0).v.toNat % 2 ^ 32 = 0
    · rw [loopxed, if_pos hn, loopExit_mod (relative_lt _ _)]
      simp only [if_pos hn]
      rfl
    · rw [loopxed, if_neg hn]
      simp only [if_neg hn]
      rfl

end Sys2Proof.Machine
end

section
/-! SUPPORT. Control of contexts (R125 to R127, R131 to R134): the operations of the system unit that act on tokens, flags, sleep and the queue of
calls. -/

namespace Sys2Proof.Machine

section
variable {s : State} {g : Guard} {src : Source} {op : OpDef} {field : Nat}

/-! ## Bundles of one move -/

/-- An operation without a queue or a token that traps, with the snapshot slot free. -/
theorem issueOne_trapped {e : Trap} (hq : Quiet s) (hb : Brings s g src op.ty) (hr : Room s op.land op.vecs op.scs)
    (hfull : op.full (given s field op.ty src) s = false) (htok : op.tok (given s field op.ty src) = none)
    (hrun : op.run (given s field op.ty src) (started s src) = .error e) (hs : (own s).snap = none) :
    issueOne op field g src s = trapped s e :=
  (issueOne_trap op field g src s e hq hb hr hfull (by simp [htok]) hrun).trans (trapEnter_free s e hs)

/-- A bundle with a full queue before it does not issue (R34). -/
theorem issueOne_full (hq : Quiet s) (hb : Brings s g src op.ty) (hfull : op.full (given s field op.ty src) s = true) :
    issueOne op field g src s = s := by
  have hview : seen (getCtx s s.sel.who) = view s := rfl
  have hblk : blocked s (view s) [(op, given s field op.ty src)] = true := by simp [blocked, hfull]
  have hawake : awake s s.sel.who (getCtx s s.sel.who) = true := hq.unhindered.awake
  rw [issueOne_attempt]
  simp only [attempt, judge, hview, passing_one s op field g src _ hb.1, triggers_one s op field g src (quiet_slot hq), hblk,
    awaited_one s op field g src hq, hawake, tokensClear_zero]
  rfl

/-! ## YIELD, PRIO, TOKQ and FFLGS (R125, R126, R131, R132) -/

theorem exec_yield (hq : Quiet s) (hb : Brings s g src .s) :
    exec (.yield g src) s = .next (after s src fun d => { d with yieldAt := some (clk s s.sel.who.clId + 1) }) :=
  congrArg _ (issueOne_control (op := defYield) (field := 166) (f := fun d => { d with yieldAt := some (clk s s.sel.who.clId + 1) }) hq hb
    ⟨rfl, rfl, rfl, rfl, rfl⟩ rfl (by decide) fun _ => ⟨rfl, rfl⟩)

/-- Two results of one operation are put in flight together. -/
theorem pushFlight_pushFlight (who : CtxId) (a b : Flight) (u : State) :
    pushFlight who b (pushFlight who a u) = updCtx who (inFlight [a, b]) u := by
  rw [pushFlight, pushFlight, updCtx, updCtx, updCtx, getCtx_setCtx_same, setCtx_setCtx, inFlight, List.append_assoc]
  rfl

theorem exec_prio (hq : Quiet s) (hb : Brings s g src .s) (hr : Room s 0 0 2) (hp : (trigSc s src).p = false) (ht : (trigSc s src).v.toNat < 8) :
    exec (.prio g src) s = .next (after s src (inFlight
      [latchSc s 5 1 (BitVec.ofNat 64 (view s).sr.prio) false, specialW s 0x10 (trigSc s src).v.toNat])) := by
  refine congrArg _ (issueOne_flights defPrio 167 g src s _ hq hb hr rfl (fun _ h => nomatch h) ?_ (by decide))
  have ht' : ¬7 < (trigSc s src).v.toNat := by omega
  simp only [defPrio, prioOp, given_tP, given_tN, hp, ht', Bool.false_eq_true, if_false]
  exact congrArg _ (pushFlight_pushFlight ..)

theorem exec_prio_illegal (hq : Quiet s) (hb : Brings s g src .s) (hr : Room s 0 0 2) (hp : (trigSc s src).p = false)
    (ht : 8 ≤ (trigSc s src).v.toNat) (hs : (own s).snap = none) : exec (.prio g src) s = .next (trapped s ⟨0x01, s.sel.slot, 0⟩) := by
  refine congrArg _ (issueOne_trapped (op := defPrio) hq hb hr rfl rfl ?_ hs)
  have ht' : 7 < (trigSc s src).v.toNat := ht
  simp only [defPrio, prioOp, given_tP, given_tN, hp, ht', Bool.false_eq_true, if_false, if_true]
  rfl

theorem exec_tokq (hq : Quiet s) (hb : Brings s g src .s) (hr : Room s 0 0 1) (ht : (trigSc s src).v.toNat < 8) :
    exec (.tokq g src) s = .next (after s src (inFlight [latchSc s 5 1 (BitVec.ofNat 64 ((getTok (view s) (trigSc s src).v.toNat).count
      + (if (getTok (view s) (trigSc s src).v.toNat).err then 16 else 0))) (trigSc s src).p])) := by
  refine congrArg _ (issueOne_flights defTokq 170 g src s _ hq hb hr rfl (fun _ h => nomatch h) ?_ (by decide))
  have ht' : ¬7 < (trigSc s src).v.toNat := by omega
  have hb2n : ∀ b n, b2n b * 16 + n = n + if b then 16 else 0 := by intro b n; cases b <;> simp [b2n, Nat.add_comm]
  simp only [defTokq, tokqOp, given_tP, given_tN, ht', if_false, hb2n]
  rfl

theorem exec_tokq_illegal (hq : Quiet s) (hb : Brings s g src .s) (hr : Room s 0 0 1) (ht : 8 ≤ (trigSc s src).v.toNat) (hs : (own s).snap = none) :
    exec (.tokq g src) s = .next (trapped s ⟨0x01, s.sel.slot, 0⟩) :=
  congrArg _ (issueOne_trapped (op := defTokq) hq hb hr rfl rfl (if_pos (c := 7 < (trigSc s src).v.toNat) ht) hs)

theorem exec_fflgs (hq : Quiet s) (hb : Brings s g src .s) (hr : Room s 0 0 2) :
    exec (.fflgs g src) s = .next (after s src (inFlight [latchSc s 5 1 ((view s).sr.fflags.setWidth 64) (trigSc s src).p,
      specialW s 0x08 ((view s).sr.fflags &&& ~~~((trigSc s src).v.setWidth 5)).toNat])) := by
  refine congrArg _ (issueOne_flights defFflgs 172 g src s _ hq hb hr rfl (fun _ h => nomatch h) ?_ (by decide))
  rw [← BitVec.ofNat_toNat, ← BitVec.ofNat_toNat]
  exact congrArg _ (pushFlight_pushFlight ..)

/-! ## SLEEP and WAKE (R133) -/

/-- SLEEP for a count of cycles, 0 for no limit: it takes the wake flag, where it is set, and else sleeps. -/
def sleeping (now n : Nat) (c : Ctx) : Ctx :=
  if c.wake then { c with wake := false } else { c with nap := if n = 0 then .ever else .till (now + n) }

theorem exec_sleep (hq : Quiet s) (hb : Brings s g src .s) :
    exec (.sleep g src) s = .next (after s src (sleeping (clk s s.sel.who.clId) ((trigSc s src).v.toNat % 2 ^ 32))) := by
  refine congrArg _ (issueOne_control (op := defSleep) (field := 173) hq hb ⟨rfl, rfl, rfl, rfl, rfl⟩ ?_ (by decide) ?_)
  · have hrun : (getCtx (started s src) s.sel.who).run ≠ .retired := by simp [started, entry_run src hq]
    exact congrArg (fun c => Except.ok (setCtx s.sel.who c (started s src))) (if_neg hrun)
  · intro c
    unfold sleeping
    split <;> exact ⟨rfl, rfl⟩

theorem exec_wake_illegal (hq : Quiet s) (hb : Brings s g src .s) (ht : 4 ≤ (trigSc s src).v.toNat) (hs : (own s).snap = none) :
    exec (.wake g src) s = .next (trapped s ⟨0x01, s.sel.slot, 0⟩) :=
  congrArg _ (issueOne_trapped (op := defWake) hq hb (room_none s) rfl rfl (if_pos (c := 3 < (trigSc s src).v.toNat) ht) hs)

theorem run_wake (ht : (trigSc s src).v.toNat < 4) (u : State) :
    defWake.run (given s 174 .s src) u = .ok (updCtx (s.sel.who.coreId.ctxId (trigSc s src).v.toNat) wakeCtx u) :=
  if_neg (by simp only [given_tN]; omega)

/-- The state after a WAKE of another context. -/
def afterWake (s : State) (src : Source) (other : CtxId) : State := setCtx s.sel.who (advance s (entry s src)) (updCtx other wakeCtx (started s src))

/-- What a context becomes is nothing to the rest of the state. -/
theorem rest_setCtx {t r : State} {cs : List (CtxId × Ctx)} {who : CtxId} {c : Ctx} (h : { t with ctxs := cs } = r) :
    { setCtx who c t with ctxs := cs } = r := h

theorem rest_afterWake (s : State) (src : Source) (other : CtxId) : { afterWake s src other with ctxs := s.ctxs } = s := by
  rw [afterWake, updCtx, started]
  exact rest_setCtx (rest_setCtx (rest_setCtx rfl))

theorem exec_wake_other (hq : Quiet s) (hb : Brings s g src .s) (ht : (trigSc s src).v.toNat < 4)
    (hne : s.sel.who.coreId.ctxId (trigSc s src).v.toNat ≠ s.sel.who) :
    exec (.wake g src) s = .next (afterWake s src (s.sel.who.coreId.ctxId (trigSc s src).v.toNat)) := by
  have hc : getCtx (updCtx (s.sel.who.coreId.ctxId (trigSc s src).v.toNat) wakeCtx (started s src)) s.sel.who = entry s src := by
    simp [updCtx, started, getCtx_setCtx_ne _ _ hne.symm]
  have hissue := issueOne_run defWake 174 g src s _ hq hb (room_none s) rfl (fun _ h => nomatch h) (run_wake ht _)
  refine congrArg _ (hissue.trans ?_)
  rw [finish_on defWake 174 g src s _ (quiet_slot hq) (by rw [hc, entry_run src hq]; decide) (by rw [hc, entry_run src hq]; decide)
    (by rw [hc, entry_rft src hq]) (linkReach_none _ _ (by decide)), goOn, hc]
  rfl

/-- One's own WAKE sets one's own flag, to be taken by a later SLEEP. -/
theorem exec_wake_own (hq : Quiet s) (hb : Brings s g src .s) (ht : (trigSc s src).v.toNat < 4)
    (he : s.sel.who.coreId.ctxId (trigSc s src).v.toNat = s.sel.who) :
    exec (.wake g src) s = .next (after s src wakeCtx) :=
  congrArg _ (issueOne_control (op := defWake) (field := 174) hq hb ⟨rfl, rfl, rfl, rfl, rfl⟩ (by rw [← he]; exact run_wake ht _) (by decide)
    fun c => by unfold wakeCtx; split <;> exact ⟨rfl, rfl⟩)

/-- A context with other contents of what landing can change: registers, latches, special registers, loop state, and what they settle. -/
def landedAs (b : Dword) (g o : List Sc) (p : List (Bool × Bool)) (m : List (List MLane)) (vo : List (List Lane)) (v : List VName)
    (latches : List Val) (sr : Special) (cnt stop : Nat) (calling : Option Nat) (snap : Option Snap) (pats : List Pattern) (sketches : List Sketch)
    (flight : List Flight) (landing : List Landing) (c : Ctx) : Ctx :=
  { c with parity := b, g := g, o := o, p := p, m := m, vo := vo, v := v, latches := latches, sr := sr, loopCnt := cnt, loopEnd := stop,
           calling := calling, snap := snap, pats := pats, sketches := sketches, flight := flight, landing := landing }

section
variable {α : Type} {obs : Ctx → α} (h : ∀ b g o p m vo v l sr cnt stop q sn ps sk fl la c,
  obs (landedAs b g o p m vo v l sr cnt stop q sn ps sk fl la c) = obs c)
include h

theorem landOne_obs (x : Due) (c : Ctx) : obs (landOne x c) = obs c := by
  cases x with
  | timed l =>
    have harr := landTimed_arrives l c
    rw [landOne]
    generalize landTimed l c = d, l.dst = dst, l.data = data at harr
    cases harr with
    | nothing => rfl
    | _ => exact h ..
  | fixed f =>
    have hlands := landFixed_lands f c
    rw [landOne]
    generalize landFixed f c = d, f.dst = dst, f.val = val at hlands
    cases hlands <;> exact h ..

/-- What landing cannot change, it leaves. -/
theorem seen_obs (c : Ctx) : obs (seen c) = obs c := by
  unfold seen landDue
  refine foldl_kept obs _ (fun c q => ?_) _ _
  exact (h (b := (landAt q c).parity) ..).trans ((foldl_kept obs (fun c x => landOne x c) (fun c x => landOne_obs h x c) _ _).trans (h ..))

end

/-- What lands neither wakes a context nor puts it to sleep. -/
theorem seen_nap (c : Ctx) : (seen c).nap = c.nap := seen_obs (fun _ _ _ _ _ _ _ _ _ _ _ _ _ _ _ _ _ _ => rfl) c
theorem seen_node (c : Ctx) : (seen c).node = c.node := seen_obs (fun _ _ _ _ _ _ _ _ _ _ _ _ _ _ _ _ _ _ => rfl) c

theorem entry_nap (hq : Quiet s) : (entry s src).nap = .awake := by
  have hawake := hq.unhindered.awake
  have hview : (view s).nap = (own s).nap := seen_nap _
  rw [entry_kept Ctx.nap (fun _ _ _ => rfl) s src fun _ => rfl, hview]
  simp only [awake, Bool.and_eq_true, beq_iff_eq] at hawake
  obtain ⟨⟨⟨⟨⟨-, hnap⟩, -⟩, -⟩, -⟩, -⟩ := hawake
  exact hnap

theorem wakeCtx_awake {c : Ctx} (h : c.nap = .awake) : wakeCtx c = { c with wake := true } := by rw [wakeCtx, h]

/-! ## CTXQ (R134) -/

theorem exec_ctxq_illegal (hq : Quiet s) (hb : Brings s g src .s) (hr : Room s 0 0 1) (ht : 4 ≤ (trigSc s src).v.toNat) (hs : (own s).snap = none) :
    exec (.ctxq g src) s = .next (trapped s ⟨0x01, s.sel.slot, 0⟩) :=
  congrArg _ (issueOne_trapped (op := defCtxq) hq hb hr rfl rfl (if_pos (c := 3 < (trigSc s src).v.toNat) ht) hs)

/-- CTXQ's word for a context and its state code (R134). -/
def ctxWord (c : Ctx) (code : Nat) : Nat :=
  c.bclk % 2 ^ 32 * 2 ^ 32 + c.sr.prio * 2 ^ 16 + tokStat c % 256 * 2 ^ 8 + (if c.wake then 16 else 0) + (if c.snap.isSome then 8 else 0) + code

theorem exec_ctxq {c : Ctx} {code : Nat} (hq : Quiet s) (hb : Brings s g src .s) (hr : Room s 0 0 1) (ht : (trigSc s src).v.toNat < 4)
    (hc : (if (trigSc s src).v.toNat = s.sel.who.ctx then view s
      else seen (getCtx (started s src) (s.sel.who.coreId.ctxId (trigSc s src).v.toNat))) = c)
    (hcode : ctxCode (started s src) (given s 175 .s src) (trigSc s src).v.toNat = code) :
    exec (.ctxq g src) s = .next (after s src (inFlight [latchSc s 5 1 (BitVec.ofNat 64 (ctxWord c code)) (trigSc s src).p])) := by
  obtain rfl := hc
  obtain rfl := hcode
  have hw : ∀ b (k : Nat), b2n b * k = if b then k else 0 := by intro b k; cases b <;> simp [b2n]
  refine congrArg _ (issueOne_flights defCtxq 175 g src s _ hq hb hr rfl (fun _ h => nomatch h) ((if_neg (Nat.not_lt.2 (Nat.le_of_lt_succ ht))).trans
    (congrArg (fun n => Except.ok (landSc (given s 175 .s src) 5 1 n (trigSc s src).p (started s src))) ?_)) (by decide))
  rw [ctxWord, hw, hw]
  rfl

/-- The state code of a sibling. -/
def siblingCode (s : State) (t : Nat) : Nat :=
  let k := getCtx s (s.sel.who.coreId.ctxId t)
  let asleep : Nat → Nat := fun n => if k.nap = .awake then n else 3
  match k.run with
  | .notStarted => 0
  | .retired => 4
  | .halted => 5
  | .runnable => asleep (if (getCore s s.sel.who.coreId).ready.contains t then 1 else 2)
  | .bwait .. => asleep 2
  | .fence _ => asleep 2
  | .replay .. => 2

theorem ctxCode_sibling {t : Nat} (hne : t ≠ s.sel.who.ctx)
    (hk : getCtx (started s src) (s.sel.who.coreId.ctxId t) = getCtx s (s.sel.who.coreId.ctxId t)) :
    ctxCode (started s src) (given s 175 .s src) t = siblingCode s t := by
  have hcore : ∀ core, getCore (started s src) core = getCore s core := fun _ => rfl
  simp only [ctxCode, given_who, hne, if_false, hk, hcore, siblingCode]
  cases (getCtx s (s.sel.who.coreId.ctxId t)).run <;> simp only [ne_eq, ite_not]

theorem exec_ctxq_own (hq : Quiet s) (hb : Brings s g src .s) (hr : Room s 0 0 1) (he : (trigSc s src).v.toNat = s.sel.who.ctx)
    (ht : (trigSc s src).v.toNat < 4) :
    exec (.ctxq g src) s = .next (after s src (inFlight [latchSc s 5 1 (BitVec.ofNat 64 (ctxWord (view s) 1)) (trigSc s src).p])) :=
  exec_ctxq hq hb hr ht (if_pos he) (if_pos he)

theorem exec_ctxq_sibling (hq : Quiet s) (hb : Brings s g src .s) (hr : Room s 0 0 1) (hne : (trigSc s src).v.toNat ≠ s.sel.who.ctx)
    (ht : (trigSc s src).v.toNat < 4) :
    exec (.ctxq g src) s = .next (after s src (inFlight [latchSc s 5 1 (BitVec.ofNat 64
      (ctxWord (seen (getCtx s (s.sel.who.coreId.ctxId (trigSc s src).v.toNat))) (siblingCode s (trigSc s src).v.toNat))) (trigSc s src).p])) := by
  have hk : getCtx (started s src) (s.sel.who.coreId.ctxId (trigSc s src).v.toNat) = getCtx s (s.sel.who.coreId.ctxId (trigSc s src).v.toNat) :=
    getCtx_setCtx_ne _ _ fun h => hne (congrArg CtxId.ctx h)
  exact exec_ctxq hq hb hr ht ((if_neg hne).trans (congrArg seen hk)) (ctxCode_sibling hne hk)

/-! ## SYSC (R127) -/

/-- The die's record with a call entered in its queue. -/
def dieWithCall (s : State) (src : Source) : Die :=
  let t := (trigSc s src).v.toNat
  let d := getDie s s.sel.who.die
  { d with calls := d.calls ++ [⟨s.sel.who, t % 2 ^ 16, (portSc s 5 0).v, (portSc s 5 1).v.toNat, t / 2 ^ 16⟩] }
/-- The state after a SYSC. -/
def afterCall (s : State) (src : Source) : State :=
  setCtx s.sel.who (advance s (tokenUp ((trigSc s src).v.toNat / 2 ^ 16) (entry s src))) (setDie s.sel.who.die (dieWithCall s src) s)

theorem bits_call {n : Nat} (h : n < 2 ^ 19) : bits n 18 16 = n / 2 ^ 16 := by rw [bits]; omega

theorem run_sysc (hp : (trigSc s src).p = false) (ha : (portSc s 5 0).p = false) (hbp : (portSc s 5 1).p = false)
    (ht : (trigSc s src).v.toNat < 2 ^ 19) (hoff : (portSc s 5 1).v.toNat % 8 = 0) (hle : (portSc s 5 1).v.toNat ≤ 0x3FF0) :
    defSysc.run (given s 168 .s src) (started s src) = .ok (updCtx s.sel.who (tokenUp ((trigSc s src).v.toNat / 2 ^ 16))
      (setDie s.sel.who.die (dieWithCall s src) (started s src))) := by
  have hclean : ¬((given s 168 .s src).aP || (given s 168 .s src).bP || (given s 168 .s src).tP) = true := by simp [ha, hbp, hp]
  have hzero : ¬(given s 168 .s src).tN / 2 ^ 19 ≠ 0 := by rw [given_tN]; omega
  have hreply : ¬((given s 168 .s src).bN % 8 ≠ 0 ∨ 0x3FF0 < (given s 168 .s src).bN) :=
    not_or.2 ⟨not_not.2 hoff, Nat.not_lt.2 hle⟩
  refine (if_neg hclean).trans ((if_neg hzero).trans ((if_neg hreply).trans ?_))
  rw [given_tN, bits_call ht]
  rfl

theorem exec_sysc (hq : Quiet s) (hb : Brings s g src .s) (hp : (trigSc s src).p = false) (ha : (portSc s 5 0).p = false)
    (hbp : (portSc s 5 1).p = false) (hcalls : (getDie s s.sel.who.die).calls.length < 64) (ht : (trigSc s src).v.toNat < 2 ^ 19)
    (hoff : (portSc s 5 1).v.toNat % 8 = 0) (hle : (portSc s 5 1).v.toNat ≤ 0x3FF0)
    (htok : (getTok (view s) ((trigSc s src).v.toNat / 2 ^ 16)).count < 15) : exec (.sysc g src) s = .next (afterCall s src) := by
  have hc : getCtx (setDie s.sel.who.die (dieWithCall s src) (started s src)) s.sel.who = entry s src := getCtx_setCtx_same ..
  have htoken : ∀ k, defSysc.tok (given s 168 .s src) = some k → (getTok (view s) k).count < 15 := by
    intro k hk
    obtain rfl : bits (trigSc s src).v.toNat 18 16 = k := Option.some.inj hk
    rwa [bits_call ht]
  have hrun : ∀ k, (tokenUp k (entry s src)).run = .runnable := fun _ => entry_run src hq
  have hrft : ∀ k, (tokenUp k (entry s src)).rft = none := fun _ => entry_rft src hq
  have hfull : defSysc.full (given s 168 .s src) s = false := decide_eq_false (Nat.not_le.2 hcalls)
  have hissue := issueOne_run defSysc 168 g src s _ hq hb (room_none s) hfull htoken (run_sysc hp ha hbp ht hoff hle)
  refine congrArg _ (hissue.trans ((finish_on defSysc 168 g src s _ (quiet_slot hq) ?_ ?_ ?_ (linkReach_none _ _ (by decide))).trans ?_))
  all_goals simp only [goOn, updCtx, getCtx_setCtx_same, hc, hrun, hrft, setCtx_setCtx, reduceCtorEq, not_false_iff, ne_eq]
  have hswap : setDie s.sel.who.die (dieWithCall s src) (started s src)
      = setCtx s.sel.who (entry s src) (setDie s.sel.who.die (dieWithCall s src) s) := rfl
  rw [hswap, setCtx_setCtx]
  rfl

theorem getDie_setDie_same {d : Nat} (x : Die) (h : d < s.dies.length) : getDie (setDie d x s) d = x := by
  simp [getDie, setDie, h]

end

/-- Settles O33, instruction by instruction: what each puts in flight, what it does to its own or a sibling's context, and when it traps. -/
theorem contextControl : Obligations.ContextControl := by
  refine ⟨fun s g src hq hb => ⟨exec_yield hq hb, exec_prio hq hb, fun hs => ⟨?_, ?_, ?_, ?_⟩, exec_tokq hq hb, exec_fflgs hq hb⟩,
    fun s g src hq hb => ⟨exec_sleep hq hb, ?_, exec_ctxq_own hq hb, exec_ctxq_sibling hq hb⟩,
    fun s g src hq hb hp ha hbp hdie => ⟨?_, ?_⟩⟩
  · exact fun hr hp ht => exec_prio_illegal hq hb hr hp ht hs
  · exact fun hr ht => exec_tokq_illegal hq hb hr ht hs
  · exact fun hr ht => exec_ctxq_illegal hq hb hr ht hs
  · exact fun ht => exec_wake_illegal hq hb ht hs
  · intro ht
    by_cases he : s.sel.who.coreId.ctxId (trigSc s src).v.toNat = s.sel.who
    · have hnap := wakeCtx_awake (entry_nap (s := s) (src := src) hq)
      refine ⟨_, exec_wake_own hq hb ht he, rest_setCtx rfl, fun k hk _ => getCtx_setCtx_ne _ _ hk, fun hne => absurd he hne, fun _ => ?_, ?_⟩
      all_goals rw [after, getCtx_setCtx_same, hnap]
      · exact ⟨advance_kept Ctx.wake (fun _ _ _ _ _ => rfl) _ _, (advance_kept Ctx.run (fun _ _ _ _ _ => rfl) _ _).trans (entry_run src hq)⟩
      · exact regsKept_advance (began_entry s src).regs
    · refine ⟨_, exec_wake_other hq hb ht he, rest_afterWake .., fun k hk hk' => ?_, fun hne => ?_, fun h => absurd h he, ?_⟩
      · rw [afterWake, getCtx_setCtx_ne _ _ hk, updCtx, getCtx_setCtx_ne _ _ hk', started, getCtx_setCtx_ne _ _ hk]
      · rw [afterWake, getCtx_setCtx_ne _ _ hne, updCtx, getCtx_setCtx_same, started, getCtx_setCtx_ne _ _ hne]
        rfl
      · rw [afterWake, getCtx_setCtx_same]
        exact regsKept_advance (began_entry s src).regs
  · intro hcalls ht hoff hle htok
    refine ⟨_, exec_sysc hq hb hp ha hbp hcalls ht hoff hle htok, rfl, ?_, getCtx_setCtx_same .., fun k hk => getCtx_setCtx_ne _ _ hk⟩
    exact congrArg Die.calls (getDie_setDie_same (dieWithCall s src) hdie)
  · exact fun hfull => congrArg _ (issueOne_full (op := defSysc) (field := 168) hq hb (decide_eq_true hfull))

end Sys2Proof.Machine
end

section
/-! SUPPORT. Special registers (R108, R109, R123, R124): MFSR, MTSR, what a write changes when it lands, and how a write of VQUOTA drops names. -/

namespace Sys2Proof.Machine

/-! ## Dropping names down to the quota (R239, R241) -/

section
variable {c d : Ctx} {k m n : Nat}

theorem evictee_lt {busy : List Nat} (h : evictee c busy = some k) : k < 32 := by
  obtain ⟨t, ht⟩ := List.head?_eq_some_iff.1 h
  have hk : k ∈ (List.range 32).filter (droppable c busy) := mem_sortBy.1 (ht ▸ List.mem_cons_self)
  exact List.mem_range.1 (List.mem_filter.1 hk).1

/-- A droppable name lies in the file, is bound to a live sketch, and no write to it is in flight (R241). -/
theorem droppable_spec {busy : List Nat} (h : droppable c busy k = true) :
    k < c.v.length ∧ (liveSketch c k).isSome ∧ vInFlight c k = false := by
  have hst := droppable_resident h
  simp only [droppable, Bool.and_eq_true, Bool.not_eq_true'] at h
  obtain ⟨⟨⟨⟨⟨-, hlive⟩, -⟩, hfree⟩, -⟩, -⟩ := h
  exact ⟨lt_of_getV_st (by simp [hst]), hlive, hfree⟩

theorem getV_dropName_same (h : k < c.v.length) : getV (dropName k c) k = { getV c k with st := .dropped, val := [] } := getV_setV_same h
theorem getV_dropName_ne (h : m ≠ k) : getV (dropName k c) m = getV c m := getV_setV_ne h

theorem getV_dropName_bound (k m : Nat) (c : Ctx) : (getV (dropName k c) m).bound = (getV c m).bound := by
  by_cases hm : m = k
  · subst hm
    by_cases hl : m < c.v.length
    · rw [getV_dropName_same hl]
    · rw [dropName, setV, List.set_eq_of_length_le (Nat.not_lt.1 hl)]
  · rw [getV_dropName_ne hm]

theorem liveSketch_dropName (k m : Nat) (c : Ctx) : liveSketch (dropName k c) m = liveSketch c m := by
  rw [liveSketch, getV_dropName_bound]
  rfl

theorem vHolds_dropName (h : droppable c [] k = true) (m : Nat) : vHolds (dropName k c) m = (vHolds c m && m != k) := by
  obtain ⟨hl, -, hfree⟩ := droppable_spec h
  have hflight : vInFlight (dropName k c) m = vInFlight c m := rfl
  by_cases hm : m = k
  · subst hm
    simp [vHolds, getV_dropName_same hl, hflight, hfree]
  · simp [vHolds, getV_dropName_ne hm, hflight, hm]

/-- An eviction frees one register. -/
theorem residentCount_dropName (h : evictee c [] = some k) : residentCount (dropName k c) + 1 = residentCount c := by
  have hd := evictee_droppable h
  have hnodup : ((List.range 32).filter (vHolds c)).Nodup := List.nodup_range.filter _
  have hmem : k ∈ (List.range 32).filter (vHolds c) :=
    List.mem_filter.2 ⟨List.mem_range.2 (evictee_lt h), by simp [vHolds, droppable_resident hd]⟩
  have herase : (List.range 32).filter (vHolds (dropName k c)) = ((List.range 32).filter (vHolds c)).erase k := by
    rw [hnodup.erase_eq_filter, List.filter_filter]
    exact List.filter_congr fun m _ => by rw [vHolds_dropName hd, Bool.and_comm]
  have hpos := List.length_pos_of_mem hmem
  rw [residentCount, residentCount, herase, List.length_erase_of_mem hmem]
  omega

theorem shrinkTo_fits (h : residentCount c ≤ c.sr.quota) (n : Nat) : shrinkTo n c = c := by
  cases n with
  | zero => rfl
  | succ n => exact if_pos h

theorem shrinkTo_evicts (h : c.sr.quota < residentCount c) (he : evictee c [] = some k) (n : Nat) :
    shrinkTo (n + 1) c = shrinkTo n (dropName k c) := by
  rw [shrinkTo, if_neg (Nat.not_le.2 h), he]

theorem shrinkTo_stuck (he : evictee c [] = none) (n : Nat) : shrinkTo n c = c := by
  cases n with
  | zero => rfl
  | succ n =>
    rw [shrinkTo, he]
    exact ite_self _

/-- What every eviction above the quota keeps, the whole of them keeps. -/
theorem shrinkTo_invariant {P : Ctx → Prop} (hstep : ∀ d k, P d → d.sr.quota < residentCount d → evictee d [] = some k → P (dropName k d))
    (n : Nat) (hc : P c) : P (shrinkTo n c) := by
  induction n generalizing c with
  | zero => exact hc
  | succ n ih =>
    rcases Nat.lt_or_ge c.sr.quota (residentCount c) with h | h
    · cases he : evictee c [] with
      | none => rwa [shrinkTo_stuck he]
      | some k =>
        rw [shrinkTo_evicts h he]
        exact ih (hstep c k hc h he)
    · rwa [shrinkTo_fits h]

/-- With an eviction for each name in excess, the names fit the quota at the end, or none is droppable. -/
theorem shrinkTo_ends (n : Nat) (h : residentCount c ≤ c.sr.quota + n) :
    residentCount (shrinkTo n c) ≤ c.sr.quota ∨ evictee (shrinkTo n c) [] = none := by
  induction n generalizing c with
  | zero => exact .inl h
  | succ n ih =>
    rcases Nat.lt_or_ge c.sr.quota (residentCount c) with hq | hq
    · cases he : evictee c [] with
      | none => exact .inr (by rwa [shrinkTo_stuck he])
      | some k =>
        rw [shrinkTo_evicts hq he]
        have := residentCount_dropName he
        exact ih (c := dropName k c) (by rw [dropName_sr]; omega)
    · exact .inl (by rwa [shrinkTo_fits hq])

theorem le_residentCount_shrinkTo (n : Nat) : min (residentCount c) c.sr.quota ≤ residentCount (shrinkTo n c) := by
  refine (shrinkTo_invariant (P := fun d => d.sr.quota = c.sr.quota ∧ min (residentCount c) c.sr.quota ≤ residentCount d) ?_ n
    ⟨rfl, min_le_left _ _⟩).2
  intro d k ⟨hq, hmin⟩ hlt he
  have := residentCount_dropName he
  exact ⟨hq, by omega⟩

/-- A name in a context that only evictions have changed: kept, or dropped with its binding (R239, R242). -/
def KeptOrDropped (c d : Ctx) (m : Nat) : Prop :=
  getV d m = getV c m ∨ ((getV c m).st = .resident ∧ (liveSketch c m).isSome ∧ getV d m = { getV c m with st := .dropped, val := [] })

theorem keptOrDropped_shrinkTo (n m : Nat) : KeptOrDropped c (shrinkTo n c) m := by
  refine (shrinkTo_invariant (P := fun d => liveSketch d m = liveSketch c m ∧ KeptOrDropped c d m) ?_ n ⟨rfl, .inl rfl⟩).2
  intro d k ⟨hlive, hkept⟩ hlt he
  refine ⟨(liveSketch_dropName k m d).trans hlive, ?_⟩
  by_cases hm : m = k
  · subst hm
    have hd := evictee_droppable he
    obtain ⟨hl, hsome, -⟩ := droppable_spec hd
    have hst := droppable_resident hd
    rcases hkept with h | ⟨-, -, h⟩
    · exact .inr ⟨h ▸ hst, hlive ▸ hsome, (getV_dropName_same hl).trans (by rw [h])⟩
    · simp [h] at hst
  · rw [KeptOrDropped, getV_dropName_ne hm]
    exact hkept

/-- A dropped name stays dropped. -/
theorem shrinkTo_dropped (n : Nat) (h : (getV c k).st = .dropped) : (getV (shrinkTo n c) k).st = .dropped := by
  refine shrinkTo_invariant (P := fun d => (getV d k).st = .dropped) (fun d j hd _ he => ?_) n h
  rw [getV_dropName_ne (fun hkj => ?_)]
  · exact hd
  · have := droppable_resident (evictee_droppable he)
    rw [← hkj, hd] at this
    cases this

theorem residentCount_le (c : Ctx) : residentCount c ≤ 32 := (List.length_filter_le _ _).trans (by simp)

/-! ## What a write changes when it lands (R108, R124) -/

/-- A context with another quota. -/
def withQuota (n : Nat) (c : Ctx) : Ctx := { c with sr := { c.sr with quota := n } }

theorem writeSr_quota (n : Nat) (c : Ctx) : writeSr 0x09 n c = shrinkTo 32 (withQuota (n % 64) c) := rfl

theorem writeSr_quota_spec (n : Nat) (c : Ctx) : let d := writeSr 0x09 n c
    d.sr = { c.sr with quota := n % 64 } ∧ (residentCount c ≤ n % 64 → d.v = c.v) ∧ min (residentCount c) (n % 64) ≤ residentCount d
    ∧ (n % 64 < residentCount c → residentCount d = n % 64 ∨ evictee d [] = none)
    ∧ (∀ k, n % 64 < residentCount c → evictee c [] = some k → (getV d k).st = .dropped) ∧ ∀ m, KeptOrDropped c d m := by
  have hcount : residentCount (withQuota (n % 64) c) = residentCount c := rfl
  have hquota : (withQuota (n % 64) c).sr.quota = n % 64 := rfl
  have hmin := le_residentCount_shrinkTo (c := withQuota (n % 64) c) 32
  rw [writeSr_quota]
  refine ⟨(shrinkTo_sr _ _).1, fun h => ?_, hmin, fun h => ?_, fun k h he => ?_, fun m => keptOrDropped_shrinkTo 32 m⟩
  · rw [shrinkTo_fits (c := withQuota (n % 64) c) h]
    rfl
  · have := residentCount_le c
    refine (shrinkTo_ends (c := withQuota (n % 64) c) 32 (by omega)).imp_left fun hle => ?_
    omega
  · have he' : evictee (withQuota (n % 64) c) [] = some k := he
    rw [shrinkTo_evicts h he']
    refine shrinkTo_dropped 31 ?_
    rw [getV_dropName_same (droppable_spec (evictee_droppable he')).1]

/-- Of the registers a program names, a write changes vector names alone, and those only where it writes VQUOTA. -/
theorem writeSr_frame (i n : Nat) (c : Ctx) : let d := writeSr i n c
    d.g = c.g ∧ d.o = c.o ∧ d.p = c.p ∧ d.m = c.m ∧ d.vo = c.vo ∧ d.ports = c.ports ∧ d.latches = c.latches ∧ d.pc = c.pc ∧ d.tokens = c.tokens
    ∧ d.spill = c.spill ∧ d.pins = c.pins ∧ (i ≠ 0x09 → d.v = c.v) := by
  unfold writeSr
  split
  case h_6 =>
    obtain ⟨w, hw⟩ := shrinkTo_eq 32 { c with sr := { c.sr with quota := n % 64 } }
    rw [hw]
    exact ⟨rfl, rfl, rfl, rfl, rfl, rfl, rfl, rfl, rfl, rfl, rfl, fun h => absurd rfl h⟩
  all_goals exact ⟨rfl, rfl, rfl, rfl, rfl, rfl, rfl, rfl, rfl, rfl, rfl, fun _ => rfl⟩

end

section
variable {s : State} {g : Guard} {src : Source}

/-! ## MFSR (R123) -/

theorem exec_mfsr (hq : Quiet s) (hb : Brings s g src .s) (hr : Room s 0 0 1) {i v : Nat} (hi : i ≤ 0x14)
    (hv : readSr (given s 164 .s src) (started s src) i = v) (hk : (trigSc s src).v.toNat % 256 = i) :
    exec (.mfsr g src) s = .next (after s src (inFlight [latchSc s 5 1 (BitVec.ofNat 64 v) (trigSc s src).p])) := by
  obtain rfl := hk
  obtain rfl := hv
  exact congrArg _ (issueOne_flights defMfsr 164 g src s _ hq hb hr rfl (fun _ h => nomatch h) (if_neg (Nat.not_lt.2 hi)) (by decide))

theorem exec_mfsr_illegal (hq : Quiet s) (hb : Brings s g src .s) (hr : Room s 0 0 1) (hk : 0x14 < (trigSc s src).v.toNat % 256)
    (hs : (own s).snap = none) : exec (.mfsr g src) s = .next (trapped s ⟨0x01, s.sel.slot, 0⟩) :=
  congrArg _ (issueOne_trapped (op := defMfsr) hq hb hr rfl rfl (if_pos hk) hs)

theorem readSr_nodeid : readSr (given s 164 .s src) (started s src) 0x01
    = match (view s).node with | some m => (match getNode s m with | some d => d.idx % 2 ^ 32 | none => 0) | none => 0 := by
  have hnode : ∀ m, getNode (started s src) m = getNode s m := fun _ => rfl
  simp only [readSr, nodeidWord, given_c0, hnode]
  cases (view s).node with
  | none => rfl
  | some m => cases getNode s m <;> rfl

theorem readSr_link : readSr (given s 164 .s src) (started s src) 0x04 = (view s).sr.link.toNat :=
  if_neg fun h => by simp [given] at h

theorem readSr_world : readSr (given s 164 .s src) (started s src) 0x11 = if worldOf s s.sel.who then 1 else 0 := by
  have hb2n : ∀ b, b2n b = if b then 1 else 0 := by intro b; cases b <;> rfl
  exact hb2n _

/-! ## MTSR (R124) -/

theorem run_mtsr (ht : (trigSc s src).p = false) (ha : (portSc s 5 0).p = false) (u : State) :
    defMtsr.run (given s 165 .s src) u = if srReadOnly ((portSc s 5 0).v.toNat % 256) then .error ⟨0x01, s.sel.slot, 0⟩
      else if (portSc s 5 0).v.toNat % 256 = 0x09 ∧ (32 < (trigSc s src).v.toNat % 64 ∨ 64 < (trigSc s src).v.toNat % 64 + othersQuota u s.sel.who)
        then .error ⟨0x01, s.sel.slot, 0⟩
      else .ok (updCtx s.sel.who (inFlight [specialW s ((portSc s 5 0).v.toNat % 256) (trigSc s src).v.toNat]) u) := by
  have hclean : ((given s 165 .s src).aP || (given s 165 .s src).tP) = false := by simp [ha, ht]
  have haN : (given s 165 .s src).aN = (portSc s 5 0).v.toNat := rfl
  have hcall : (given s 165 .s src).trigs.contains 104 = false := rfl
  have hclash : ∀ i, loopClash (given s 165 .s src) i = false := fun i => by simp [loopClash, given]
  simp only [defMtsr, mtsrOp, hclean, haN, given_tN, given_who, hcall, hclash, and_false, Bool.false_eq_true, if_false]
  rfl

theorem othersQuota_started : othersQuota (started s src) s.sel.who = othersQuota s s.sel.who := by
  have hk : ∀ k ∈ (List.range 4).filter (· ≠ s.sel.who.ctx),
      getCtx (started s src) (s.sel.who.coreId.ctxId k) = getCtx s (s.sel.who.coreId.ctxId k) := by
    intro k hk
    have hne : k ≠ s.sel.who.ctx := by simpa using (List.mem_filter.1 hk).2
    exact getCtx_setCtx_ne _ _ fun h => hne (congrArg CtxId.ctx h)
  simp only [othersQuota]
  congr 1
  exact List.map_congr_left fun k h => by rw [hk k h]

theorem exec_mtsr (hq : Quiet s) (hb : Brings s g src .s) (hr : Room s 0 0 1) (ht : (trigSc s src).p = false) (ha : (portSc s 5 0).p = false)
    (hw : srReadOnly ((portSc s 5 0).v.toNat % 256) = false) (hquota : (portSc s 5 0).v.toNat % 256 = 0x09 →
      (trigSc s src).v.toNat % 64 ≤ 32 ∧ (trigSc s src).v.toNat % 64 + othersQuota s s.sel.who ≤ 64) :
    exec (.mtsr g src) s = .next (relink s (after s src (inFlight [specialW s ((portSc s 5 0).v.toNat % 256) (trigSc s src).v.toNat]))) := by
  have hfits : ¬((portSc s 5 0).v.toNat % 256 = 0x09 ∧ (32 < (trigSc s src).v.toNat % 64 ∨
      64 < (trigSc s src).v.toNat % 64 + othersQuota (started s src) s.sel.who)) := by
    rw [othersQuota_started]
    omega
  refine congrArg _ (issueOne_relink (op := defMtsr) (field := 165) (f := inFlight _) hq hb hr rfl rfl
    ((run_mtsr ht ha _).trans ?_) (by decide) fun _ => ⟨rfl, rfl, rfl⟩)
  rw [hw, if_neg Bool.false_ne_true, if_neg hfits]

theorem exec_mtsr_illegal (hq : Quiet s) (hb : Brings s g src .s) (hr : Room s 0 0 1) (ht : (trigSc s src).p = false) (ha : (portSc s 5 0).p = false)
    (hs : (own s).snap = none) (hbad : srReadOnly ((portSc s 5 0).v.toNat % 256) = true ∨ ((portSc s 5 0).v.toNat % 256 = 0x09 ∧
      (32 < (trigSc s src).v.toNat % 64 ∨ 64 < (trigSc s src).v.toNat % 64 + othersQuota s s.sel.who))) :
    exec (.mtsr g src) s = .next (trapped s ⟨0x01, s.sel.slot, 0⟩) := by
  refine congrArg _ (issueOne_trapped (op := defMtsr) (field := 165) hq hb hr rfl rfl ((run_mtsr ht ha _).trans ?_) hs)
  rw [othersQuota_started]
  rcases hbad with h | h
  · rw [if_pos h]
  · rw [if_pos h, ite_self]

theorem exec_mtsr_poison (hq : Quiet s) (hb : Brings s g src .s) (hr : Room s 0 0 1) (hp : (trigSc s src).p = true ∨ (portSc s 5 0).p = true)
    (hs : (own s).snap = none) (hpar : (view s).parity = 0) : exec (.mtsr g src) s = .next (trapped s ⟨0x08, 4, s.sel.slot⟩) := by
  refine congrArg _ (issueOne_trapped (op := defMtsr) (field := 165) hq hb hr rfl rfl ((if_pos ?_).trans (congrArg _ (if_pos hpar))) hs)
  rw [Bool.or_eq_true]
  exact hp.symm

end

/-- Settles O32: MFSR register by register, MTSR by what the register allows, and what a landing write keeps and drops. -/
theorem specialRegisters : Obligations.SpecialRegisters := by
  refine ⟨fun s g src hq hb hr => ⟨?_, fun hk hs => exec_mfsr_illegal hq hb hr hk hs⟩,
    fun s g src hq hb hr => ⟨fun ht ha => ⟨fun hk => ?_, fun hk h1 h2 => ?_, fun hk hbad hs => ?_, fun hk hs => ?_⟩,
      fun hp hs hpar => exec_mtsr_poison hq hb hr hp hs hpar⟩, fun c v => ?_⟩
  · simp only [List.forall_mem_cons]
    have row {i v : Nat} (hv : readSr (given s 164 .s src) (started s src) i = v) (hi : i ≤ 0x14 := by decide) := exec_mfsr hq hb hr hi hv
    exact ⟨row rfl, row rfl, row rfl, row readSr_link, row rfl, row rfl, row rfl, row rfl, row rfl, row rfl, row rfl, row rfl, row rfl,
      row rfl, row rfl, row readSr_world, row rfl, row rfl, row rfl, row readSr_nodeid, row rfl, by simp⟩
  · have hw : ∀ k ∈ [0x04, 0x05, 0x06, 0x07, 0x08, 0x0A, 0x0B, 0x0C, 0x0D, 0x0E, 0x10, 0x12, 0x13],
        srReadOnly k = false ∧ k ≠ 0x09 := by decide
    exact exec_mtsr hq hb hr ht ha (hw _ hk).1 fun h => absurd h (hw _ hk).2
  · exact exec_mtsr hq hb hr ht ha (by rw [hk]; rfl) fun _ => ⟨h1, h2⟩
  · exact exec_mtsr_illegal hq hb hr ht ha hs (.inr ⟨hk, hbad⟩)
  · refine exec_mtsr_illegal hq hb hr ht ha hs (.inl ?_)
    rw [srReadOnly, Bool.or_eq_true, List.contains_iff_mem, decide_eq_true_iff]
    exact hk
  · have width (w : Nat) : BitVec.ofNat w v.toNat = v.setWidth w := BitVec.ofNat_toNat w v
    have whole : BitVec.ofNat 64 v.toNat = v := (width 64).trans (BitVec.setWidth_eq v)
    refine ⟨rfl, rfl, rfl, congrArg (fun x => { c.sr with frm := x }) (width 2), congrArg (fun x => { c.sr with fflags := x }) (width 5), rfl, rfl, rfl,
      congrArg (fun x => { c.sr with info0 := x }) whole, congrArg (fun x => { c.sr with info1 := x }) whole, rfl,
      congrArg (fun x => { c.sr with mcwin := x }) (width 32), congrArg (fun x => { c.sr with engsel := x }) (width 8), fun i hi k hk => ?_,
      writeSr_quota_spec v.toNat c⟩
    obtain ⟨h1, h2, h3, h4, h5, h6, h7, h8, h9, h10, h11, hv⟩ := writeSr_frame (k * 256 + i) v.toNat c
    exact ⟨h1, h2, h3, h4, h5, h6, h7, h8, h9, h10, h11, fun hne => hv (by omega)⟩

end Sys2Proof.Machine
end

section
/-! SUPPORT. Completion of engine commands (R193, R222, R234, R262, R273, R341): what it leaves as it is, and how tokens fall with it. -/

namespace Sys2Proof.Machine

/-! ## What completions change -/

/-- A context with other tokens and reports of its commands, and with its wait as it stands. -/
def attend (r : Run) (ts : List Token) (m : List Dword) (p g q : List Report) (v : List Recv) (c : Ctx) : Ctx :=
  { c with run := r, tokens := ts, mexLast := m, cpyRep := p, glzRep := g, rtcRep := q, recvs := v }

/-- The context has changed only as its commands' completions change it; one that has retired stays so. -/
def Attended (c d : Ctx) : Prop :=
  ∃ r ts m p g q v, d = attend r ts m p g q v c ∧ (c.run = .retired → r = .retired) ∧ ts.length = c.tokens.length
    ∧ m.length = c.mexLast.length ∧ p.length = c.cpyRep.length

/-- A node with its mark of a durable write. -/
def durably (b : Bool) (d : Node) : Node := { d with durable := b }

/-- Completions of commands of these issuers on these tokens, none failing: contexts are attended, nodes get marks of durable writes, and each
token of a context that answers falls once for each of its commands. -/
structure Serves (l : List (CtxId × Nat)) (s t : State) : Prop where
  cancels : t.cancels = s.cancels
  nodes : ∀ n, ∃ b, getNode t n = (getNode s n).map (durably b)
  present : ∀ k, (assoc k s.ctxs).isSome → (assoc k t.ctxs).isSome
  ctxs : ∀ k, Attended (getCtx s k) (getCtx t k)
  tokens : ∀ k tok, alive s k = true → tok < (getCtx s k).tokens.length →
    (getTok (getCtx t k) tok).count = (getTok (getCtx s k) tok).count - l.count (k, tok)
      ∧ (getTok (getCtx t k) tok).err = (getTok (getCtx s k) tok).err

/-- The engines, commands and all, are as they were. -/
def SameEngines (s t : State) : Prop := t.mex = s.mex ∧ t.cpy = s.cpy ∧ t.glz = s.glz ∧ t.rtc = s.rtc

/-- Completions that leave the engines. -/
structure Completes (l : List (CtxId × Nat)) (s t : State) : Prop where
  serves : Serves l s t
  engines : SameEngines s t

section
variable {s t u : State} {c d e : Ctx} {l l' : List (CtxId × Nat)}

theorem Attended.refl (c : Ctx) : Attended c c := ⟨_, _, _, _, _, _, _, rfl, id, rfl, rfl, rfl⟩

theorem Attended.trans (h : Attended c d) (h' : Attended d e) : Attended c e := by
  obtain ⟨r, ts, m, p, g, q, v, rfl, hrun, htok, hm, hp⟩ := h
  obtain ⟨r', ts', m', p', g', q', v', rfl, hrun', htok', hm', hp'⟩ := h'
  exact ⟨r', ts', m', p', g', q', v', rfl, fun hc => hrun' (hrun hc), htok'.trans htok, hm'.trans hm, hp'.trans hp⟩

theorem Attended.kept {α : Type} (f : Ctx → α) (hf : ∀ r ts m p g q v c, f (attend r ts m p g q v c) = f c) (h : Attended c d) : f d = f c := by
  obtain ⟨r, ts, m, p, g, q, v, rfl, -⟩ := h
  exact hf ..

theorem Attended.retired (h : Attended c d) (hc : c.run = .retired) : d.run = .retired := by
  obtain ⟨r, ts, m, p, g, q, v, rfl, hrun, -⟩ := h
  exact hrun hc

/-- As many tokens, and as many places for the reports of matrix commands and copies. -/
theorem Attended.lengths (h : Attended c d) : d.tokens.length = c.tokens.length ∧ d.mexLast.length = c.mexLast.length
    ∧ d.cpyRep.length = c.cpyRep.length := by
  obtain ⟨r, ts, m, p, g, q, v, rfl, -, hlen⟩ := h
  exact hlen

theorem Attended.node (h : Attended c d) : d.node = c.node := h.kept Ctx.node fun _ _ _ _ _ _ _ _ => rfl

/-- A context answers where the list of contexts has it and its node is not killed. -/
theorem alive_iff (s : State) (k : CtxId) : alive s k = true ↔ (assoc k s.ctxs).isSome
    ∧ ∀ n, (getCtx s k).node = some n → ∀ d, getNode s n = some d → d.st ≠ .killed := by
  rw [alive, getCtx]
  cases assoc k s.ctxs with
  | none => simp
  | some x =>
    cases hx : x.node with
    | none => simp [hx]
    | some n => cases hd : getNode s n <;> simp [hx, hd]

theorem Serves.getNode_cases (h : Serves l s t) {n : Nat} {d : Node} (hd : getNode t n = some d) : ∃ d' b, getNode s n = some d' ∧ d = durably b d' := by
  obtain ⟨b, hb⟩ := h.nodes n
  rw [hd] at hb
  obtain ⟨d', hd', rfl⟩ := Option.map_eq_some_iff.1 hb.symm
  exact ⟨d', b, hd', rfl⟩

/-- A context that answers goes on answering. -/
theorem Serves.alive (h : Serves l s t) {k : CtxId} (hk : alive s k = true) : alive t k = true := by
  rw [alive_iff] at hk ⊢
  obtain ⟨hmem, hst⟩ := hk
  refine ⟨h.present k hmem, fun n hn d hd => ?_⟩
  obtain ⟨d', b, hd', rfl⟩ := h.getNode_cases hd
  exact hst n ((h.ctxs k).node ▸ hn) d' hd'

/-- Completions leave contexts, nodes and cancels alone where the parts that hold them are as they were. -/
theorem serves_of_same (hc : t.ctxs = s.ctxs) (hn : t.nodes = s.nodes) (hk : t.cancels = s.cancels) : Serves [] s t where
  cancels := hk
  nodes n := by
    have hnode : getNode t n = getNode s n := by rw [getNode, getNode, hn]
    cases hd : getNode s n with
    | none => exact ⟨false, hnode.trans hd⟩
    | some d => exact ⟨d.durable, hnode.trans hd⟩
  present k := by rw [hc]; exact id
  ctxs k := by
    have hctx : getCtx t k = getCtx s k := by rw [getCtx, getCtx, hc]
    rw [hctx]
    exact .refl _
  tokens k tok _ _ := by
    have hctx : getCtx t k = getCtx s k := by rw [getCtx, getCtx, hc]
    simp [hctx]

theorem Serves.refl (s : State) : Serves [] s s := serves_of_same rfl rfl rfl

theorem Serves.trans (h : Serves l s t) (h' : Serves l' t u) : Serves (l ++ l') s u where
  cancels := h'.cancels.trans h.cancels
  nodes n := by
    obtain ⟨b, hb⟩ := h.nodes n
    obtain ⟨b', hb'⟩ := h'.nodes n
    exact ⟨b', by rw [hb', hb, Option.map_map]; rfl⟩
  present k hk := h'.present k (h.present k hk)
  ctxs k := (h.ctxs k).trans (h'.ctxs k)
  tokens k tok hk htok := by
    obtain ⟨hcount, herr⟩ := h.tokens k tok hk htok
    obtain ⟨hcount', herr'⟩ := h'.tokens k tok (h.alive hk) (by rwa [(h.ctxs k).lengths.1])
    exact ⟨by rw [hcount', hcount, List.count_append]; omega, herr'.trans herr⟩

theorem SameEngines.refl (s : State) : SameEngines s s := ⟨rfl, rfl, rfl, rfl⟩
theorem SameEngines.trans (h : SameEngines s t) (h' : SameEngines t u) : SameEngines s u := by
  obtain ⟨hm, hc, hg, hr⟩ := h
  obtain ⟨hm', hc', hg', hr'⟩ := h'
  exact ⟨hm'.trans hm, hc'.trans hc, hg'.trans hg, hr'.trans hr⟩

theorem SameEngines.mex (h : SameEngines s t) (e : EngId) : getMex t e = getMex s e := by rw [getMex, getMex, h.1]
theorem SameEngines.cpy (h : SameEngines s t) (e : DieEng) : getCpy t e = getCpy s e := by rw [getCpy, getCpy, h.2.1]
theorem SameEngines.glz (h : SameEngines s t) (e : DieEng) : getGlz t e = getGlz s e := by rw [getGlz, getGlz, h.2.2.1]
theorem SameEngines.rtc (h : SameEngines s t) (e : DieEng) : getRtc t e = getRtc s e := by rw [getRtc, getRtc, h.2.2.2]

theorem completes_of_same (hc : t.ctxs = s.ctxs) (hn : t.nodes = s.nodes) (hk : t.cancels = s.cancels) (he : SameEngines s t) : Completes [] s t :=
  ⟨serves_of_same hc hn hk, he⟩
theorem Completes.refl (s : State) : Completes [] s s := ⟨.refl s, .refl s⟩
theorem Completes.trans (h : Completes l s t) (h' : Completes l' t u) : Completes (l ++ l') s u :=
  ⟨h.serves.trans h'.serves, h.engines.trans h'.engines⟩

/-- Steps that complete nothing add up to one that completes nothing. -/
theorem Completes.foldl_nil {α : Type} {f : State → α → State} (h : ∀ s a, Completes [] s (f s a)) (xs : List α) (s : State) :
    Completes [] s (xs.foldl f s) := by
  induction xs generalizing s with
  | nil => exact .refl s
  | cons a xs ih => exact (h s a).trans (ih _)

/-- Each step completes one command. -/
theorem Completes.foldl {α : Type} {f : State → α → State} {key : α → CtxId × Nat} (h : ∀ s a, Completes [key a] s (f s a))
    (xs : List α) (s : State) :
    Completes (xs.map key) s (xs.foldl f s) := by
  induction xs generalizing s with
  | nil => exact .refl s
  | cons a xs ih => exact (h s a).trans (ih _)

/-! ## The parts of a completion -/

/-- A change of one context that attends it. -/
theorem serves_updCtx {w : CtxId} {f : Ctx → Ctx} (hf : Attended (getCtx s w) (f (getCtx s w)))
    (htok : ∀ tok, alive s w = true → tok < (getCtx s w).tokens.length →
      (getTok (f (getCtx s w)) tok).count = (getTok (getCtx s w) tok).count - l.count (w, tok)
        ∧ (getTok (f (getCtx s w)) tok).err = (getTok (getCtx s w) tok).err)
    (hl : ∀ k tok, k ≠ w → l.count (k, tok) = 0) : Serves l s (updCtx w f s) where
  cancels := rfl
  nodes := (Serves.refl s).nodes
  present k hk := by
    by_cases h : k = w
    · subst h
      exact Option.isSome_of_mem (assoc_assocSet_same ..)
    · exact (congrArg Option.isSome (assoc_assocSet_ne _ _ h)).trans hk
  ctxs k := by
    by_cases h : k = w
    · subst h
      rwa [updCtx, getCtx_setCtx_same]
    · rw [updCtx, getCtx_setCtx_ne _ _ h]
      exact .refl _
  tokens k tok hk ht := by
    by_cases h : k = w
    · subst h
      rw [updCtx, getCtx_setCtx_same]
      exact htok tok hk ht
    · rw [updCtx, getCtx_setCtx_ne _ _ h, hl k tok h]
      exact ⟨rfl, rfl⟩

/-- A change of one context's reports. -/
theorem completes_reports {w : CtxId} {f : Ctx → Ctx} (hf : ∀ c, ∃ m p g q v, f c = attend c.run c.tokens m p g q v c
    ∧ m.length = c.mexLast.length ∧ p.length = c.cpyRep.length) : Completes [] s (updCtx w f s) := by
  obtain ⟨m, p, g, q, v, h, hm, hp⟩ := hf (getCtx s w)
  refine ⟨serves_updCtx ⟨_, _, m, p, g, q, v, h, id, rfl, hm, hp⟩ (fun tok _ _ => ?_) fun _ _ _ => rfl, rfl, rfl, rfl, rfl⟩
  rw [h]
  exact ⟨rfl, rfl⟩

theorem getTok_tokenDown (now tok : Nat) (st : Dword) (c : Ctx) {j : Nat} (hj : j < c.tokens.length) :
    (getTok (tokenDown now tok false st c) j).count = (getTok c j).count - [tok].count j
      ∧ (getTok (tokenDown now tok false st c) j).err = (getTok c j).err := by
  by_cases h : j = tok
  · subst h
    simp [getTok, tokenDown, setTok, hj]
  · simp [getTok, tokenDown, setTok, List.getElem?_set_ne (Ne.symm h), Ne.symm h]

/-- A command completes without a failure: its token falls. -/
theorem completes_completeToken (w : CtxId) (tok : Nat) (st : Dword) (s : State) : Completes [(w, tok)] s (completeToken w tok false st s) := by
  rw [completeToken]
  split
  · refine ⟨serves_updCtx (l := [(w, tok)]) ?_ (fun j _ hj => ?_) fun k j hk => ?_, rfl, rfl, rfl, rfl⟩
    · exact ⟨_, _, _, _, _, _, _, rfl, id, List.length_set, rfl, rfl⟩
    · have hcount : [(w, tok)].count (w, j) = [tok].count j := by simp [List.count_cons]
      rw [hcount]
      exact getTok_tokenDown _ tok st _ hj
    · simp [Ne.symm hk]
  · next h =>
    refine ⟨⟨rfl, (Serves.refl s).nodes, fun _ => id, fun _ => .refl _, fun k j hk _ => ?_⟩, .refl s⟩
    have hne : ¬w = k := fun hw => h (hw ▸ hk)
    simp [hne]

theorem completes_settlePast (cmd : Nat) (s : State) : Completes [] s (settlePast cmd s) := completes_of_same rfl rfl rfl ⟨rfl, rfl, rfl, rfl⟩

/-- A context after the signal of a barrier word (R196). -/
def signalled (w : Nat) (b : Wake) (c : Ctx) : Ctx :=
  match c.run with
  | .bwait phys ph word n wake => { c with run := .bwait phys ph word n (if phys = w ∧ wake = .waiting then b else wake) }
  | _ => c

theorem attended_signalled (w : Nat) (b : Wake) (c : Ctx) : Attended c (signalled w b c) := by
  rw [signalled]
  split
  · next h => exact ⟨_, _, _, _, _, _, _, rfl, fun hc => by simp [h] at hc, rfl, rfl, rfl⟩
  · exact .refl c

theorem signalled_tokens (w : Nat) (b : Wake) (c : Ctx) : (signalled w b c).tokens = c.tokens := by
  rw [signalled]
  split <;> rfl

theorem assoc_signalWord (w : Nat) (b : Wake) (s : State) (k : CtxId) :
    assoc k (signalWord w b s).ctxs = (assoc k s.ctxs).map (signalled w b) := by
  have hmap : (signalWord w b s).ctxs = s.ctxs.map fun x => (x.1, signalled w b x.2) := by
    refine List.map_congr_left fun ⟨j, c⟩ _ => ?_
    simp only [signalled]
    cases c.run <;> rfl
  rw [hmap]
  exact assoc_map (f := fun x => (x.1, signalled w b x.2)) (fun _ => rfl) k s.ctxs

theorem getCtx_signalWord (w : Nat) (b : Wake) (s : State) (k : CtxId) : getCtx (signalWord w b s) k = signalled w b (getCtx s k) := by
  rw [getCtx, getCtx, assoc_signalWord]
  cases assoc k s.ctxs <;> rfl

theorem completes_signalWord (w : Nat) (b : Wake) (s : State) : Completes [] s (signalWord w b s) := by
  refine ⟨⟨rfl, (Serves.refl s).nodes, fun k hk => ?_, fun k => ?_, fun k tok _ _ => ?_⟩, rfl, rfl, rfl, rfl⟩
  · rwa [assoc_signalWord, Option.isSome_map]
  · rw [getCtx_signalWord]
    exact attended_signalled w b _
  · rw [getCtx_signalWord, getTok, signalled_tokens]
    exact ⟨rfl, rfl⟩

theorem Completes.signal (h : Completes [] s t) (w : Nat) (b : Wake) : Completes [] s (signalWord w b t) := h.trans (completes_signalWord w b t)

theorem completes_barUpdate (w add : Nat) (arrive : Bool) (sub : Nat) (fl : BarFlags) (s : State) :
    Completes [] s (barUpdate w add arrive sub fl s) := by
  rw [barUpdate]
  split
  · refine Completes.signal ?_ _ _
    exact completes_of_same rfl rfl rfl ⟨rfl, rfl, rfl, rfl⟩
  · exact completes_of_same rfl rfl rfl ⟨rfl, rfl, rfl, rfl⟩

theorem completes_countTo (sel : Past → Bool) (w : Nat) (s : State) : Completes [] s (countTo sel w s) :=
  completes_of_same rfl rfl rfl ⟨rfl, rfl, rfl, rfl⟩
theorem completes_countEvent (who : CtxId) (s : State) : Completes [] s (countEvent who s) := completes_of_same rfl rfl rfl ⟨rfl, rfl, rfl, rfl⟩

theorem completes_setNode_durable {n : Nat} {d : Node} (hd : getNode s n = some d) (b : Bool) : Completes [] s (setNode n (durably b d) s) := by
  refine ⟨⟨rfl, fun m => ?_, fun _ => id, fun _ => .refl _, fun _ _ _ _ => ⟨rfl, rfl⟩⟩, rfl, rfl, rfl, rfl⟩
  by_cases hm : m = n
  · subst hm
    obtain ⟨hlt, hget⟩ := List.getElem?_eq_some_iff.1 hd
    exact ⟨b, by rw [hd]; simp [getNode, setNode, hlt]⟩
  · obtain ⟨b', hb'⟩ := (Serves.refl s).nodes m
    exact ⟨b', by rw [← hb', getNode, getNode, setNode, List.getElem?_set_ne (Ne.symm hm)]⟩

theorem completes_noteDurable (node : Option Nat) (pas : List Nat) (s : State) : Completes [] s (noteDurable node pas s) := by
  cases node with
  | none => exact .refl s
  | some n =>
    rw [noteDurable]
    cases hd : getNode s n with
    | none => exact .refl s
    | some d =>
      dsimp only
      split
      · exact completes_setNode_durable hd true
      · exact .refl s

theorem completes_payFor (who : CtxId) (bar : Option Nat) (sel : Past → Bool) (bytes : Nat) (fl : BarFlags) (s : State) :
    Completes [] s (payFor who bar sel bytes fl s) := by
  cases bar with
  | none => exact .refl s
  | some w =>
    exact (((completes_noteDurable _ _ s).trans (completes_countTo sel w _)).trans (completes_barUpdate w 0 false bytes fl _)).trans
      (completes_countEvent who _)

theorem completes_pay (who : CtxId) (bar : Option Nat) (cmd bytes : Nat) (fl : BarFlags) (s : State) :
    Completes [] s (pay who bar cmd bytes fl s) := completes_payFor ..

theorem completes_logEvent (kind part : Nat) (detail : List Byte) (s : State) : Completes [] s (logEvent kind part detail s) :=
  completes_of_same rfl rfl rfl ⟨rfl, rfl, rfl, rfl⟩

/-- A change made only while its context answers. -/
theorem completes_ite {p : Bool} (h : Completes [] s t) : Completes [] s (if p then t else s) := by
  split
  · exact h
  · exact .refl s

end

/-! ## Commands that are cancelled before they start -/

section
variable {s : State}

/-- The token of a matrix command. -/
def mexTok (c : MexCmd) : Nat := bits (param c.par 0x18) 2 0

theorem completes_completeMex (e : EngId) (c : MexCmd) (s : State) : Completes [(c.who, mexTok c)] s (completeMex e c 0 0 true s) :=
  (((completes_pay ..).trans (completes_settlePast c.seq _)).trans (completes_completeToken c.who (mexTok c) _ _)).trans
    (completes_ite (completes_reports fun _ => ⟨_, _, _, _, _, rfl, List.length_set, rfl⟩))

theorem completes_completeCpy (e : DieEng) (c : CpyCmd) (bar : Option Nat) (chunk written : Nat) (s : State) :
    Completes [(c.who, cpyTok c)] s (completeCpy e c bar chunk written 0 0 none true s) :=
  (((completes_pay ..).trans (completes_settlePast c.seq _)).trans (completes_completeToken c.who (cpyTok c) _ _)).trans
    (completes_ite (completes_reports fun _ => ⟨_, _, _, _, _, rfl, rfl, List.length_set⟩))

theorem completes_completeGlz (e : DieEng) (c : GlzCmd) (s : State) : Completes [(c.who, glzTok c.par)] s (completeGlz e c 0 0 true false false s) :=
  ((completes_settlePast c.seq s).trans (completes_completeToken c.who (glzTok c.par) _ _)).trans
    (completes_ite (completes_reports fun _ => ⟨_, _, _, _, _, rfl, rfl, rfl⟩))

theorem completes_completeRtc (e : DieEng) (c : RtcCmd) (rows remapped iters detail : Nat) (digests : List (List Byte)) (s : State) :
    Completes [(c.who, rtcTok c)] s (completeRtc e c rows remapped iters 0 detail true digests s) :=
  ((((completes_pay ..).trans (completes_settlePast c.seq _)).trans (completes_completeToken c.who (rtcTok c) _ _)).trans
    (completes_ite (completes_reports fun _ => ⟨_, _, _, _, _, rfl, rfl, rfl⟩))).trans (completes_logEvent ..)

theorem completes_keepCounters (c : GlzCmd) (ks : List Nat) (s : State) : Completes [] s (keepCounters c ks s) :=
  completes_ite (completes_reports fun _ => ⟨_, _, _, _, _, rfl, rfl, rfl⟩)

theorem completes_dirtySectors (own : Owner) (bs : List (GByte × Byte)) (s : State) : Completes [] s (dirtySectors own bs s) := by
  refine .foldl_nil (fun s sec => ?_) _ _
  dsimp only
  split
  · exact completes_of_same rfl rfl rfl ⟨rfl, rfl, rfl, rfl⟩
  · split <;> exact completes_of_same rfl rfl rfl ⟨rfl, rfl, rfl, rfl⟩

theorem completes_engineWrite (src : Writer) (ws : List WByte) (s : State) : Completes [] s (engineWrite src none ws s) := by
  have hcells : Completes [] s { bumpSeq s with mem := writeCells ws (bumpSeq s).mem } := completes_of_same rfl rfl rfl ⟨rfl, rfl, rfl, rfl⟩
  have hput : Completes [] s (putBytes none ws (bumpSeq s)) :=
    hcells.trans (.foldl_nil (f := fun s w => signalWord w .byStore s) (fun s w => completes_signalWord w .byStore s) _ _)
  exact hput.trans (completes_of_same rfl rfl rfl ⟨rfl, rfl, rfl, rfl⟩)

/-- Without a leaf nothing is staged (R364). -/
theorem stageOf_zero (s : State) (node : Option Nat) (pa : Nat) : stageOf s node pa 0 = none := by
  cases node with
  | none => rfl
  | some n =>
    rw [stageOf]
    cases getNode s n with
    | none => rfl
    | some d => simp [show ptePolicy 0 = 0 from rfl]

theorem stagingOver_nil (s : State) (part : Nat) : stagingOver s part [] = none := rfl

/-- An engine's store to local memory. -/
theorem engineStore_local (src : Writer) (a : Nat) (b : Byte) (s : State) : engineStore src [(⟨a, 0⟩, b)] s
    = fillLines false [⟨a, 0⟩] (engineWrite src none [(a, b)] (noteDurable (nodeOf s src.who) [a]
      (dirtySectors (ownerTag s (nodeOf s src.who) src.who) [(⟨a, 0⟩, b)] s))) := by
  have hnone : ∀ u : State, stageOf u (nodeOf s src.who) a 0 = none := fun u => stageOf_zero u _ a
  unfold engineStore storeBytes
  generalize nodeOf s src.who = node at hnone ⊢
  cases node <;> simp [hnone, stagingOver_nil]

theorem completes_fillLines (bs : List GByte) (s : State) : Completes [] s (fillLines false bs s) :=
  completes_of_same rfl rfl rfl ⟨rfl, rfl, rfl, rfl⟩

theorem completes_writeCounter (c : GlzCmd) (k v : Nat) (s : State) : Completes [] s (writeCounter c k v s) := by
  rw [writeCounter]
  split
  · rw [engineStore_local]
    exact (((completes_dirtySectors ..).trans (completes_noteDurable ..)).trans (completes_engineWrite ..)).trans
      (completes_fillLines ..)
  · exact .refl s

theorem completes_cancelBlock (c : GlzCmd) (k : Nat) (s : State) : Completes [] s (cancelBlock c k s) :=
  (completes_writeCounter c k 0x40 s).trans (completes_payFor ..)

end

end Sys2Proof.Machine
end

section
/-! SUPPORT. Removal of queued commands (R131, R233, R263, R343): the queues that are left, and the tokens that fall. -/

namespace Sys2Proof.Machine

/-! ## Removal from one engine, for each kind of engine -/

/-- The record of an engine in a list of records. -/
def recordAt {E M : Type} [DecidableEq E] (recs : List (E × M)) (start : M) (e : E) : M := (assoc e recs).getD start

/-- Removing commands from one engine of a kind: how many, the completions, the record that is left; the other kinds are not concerned. -/
structure Removes {E M C ρ : Type} [DecidableEq E] (recs : State → List (E × M)) (start : M) (gone : M → List C) (cut : M → M)
    (key : C → CtxId × Nat) (rest : State → ρ) (remove : E → State → Nat × State) : Prop where
  count : ∀ e s, (remove e s).1 = (gone (recordAt (recs s) start e)).length
  serves : ∀ e s, Serves ((gone (recordAt (recs s) start e)).map key) s (remove e s).2
  recs : ∀ e s, recs (remove e s).2 = assocSet e (cut (recordAt (recs s) start e)) (recs s)
  rest : ∀ e s, rest (remove e s).2 = rest s
  cut_cut : ∀ m, cut (cut m) = cut m
  cut_start : cut start = start

section
variable {E M C ρ : Type} [DecidableEq E] {recs : State → List (E × M)} {start : M} {gone : M → List C} {cut : M → M} {key : C → CtxId × Nat}
  {rest : State → ρ} {remove : E → State → Nat × State}

theorem recordAt_assocSet (l : List (E × M)) (e f : E) (m : M) : recordAt (assocSet e m l) start f = if f = e then m else recordAt l start f := by
  split
  · next h =>
    rw [h, recordAt, assoc_assocSet_same]
    rfl
  · next h => rw [recordAt, recordAt, assoc_assocSet_ne _ _ h]

theorem assoc_eq_none_of_not_mem {α β : Type} [DecidableEq α] {k : α} {l : List (α × β)} (h : k ∉ l.map (·.1)) : assoc k l = none := by
  induction l with
  | nil => rfl
  | cons x l ih =>
    simp only [List.map_cons, List.mem_cons, not_or] at h
    exact (if_neg (Ne.symm h.1)).trans (ih h.2)

theorem assoc_eq_of_mem {α β : Type} [DecidableEq α] {x : α × β} {l : List (α × β)} (hnd : (l.map (·.1)).Nodup) (hx : x ∈ l) :
    assoc x.1 l = some x.2 := by
  induction l with
  | nil => cases hx
  | cons y l ih =>
    obtain ⟨hy, hl⟩ := List.nodup_cons.1 hnd
    rcases List.mem_cons.1 hx with rfl | hx
    · exact if_pos rfl
    · have hne : y.1 ≠ x.1 := fun h => hy (List.mem_map.2 ⟨x, hx, h.symm⟩)
      exact (if_neg hne).trans (ih hl hx)

/-- One engine after another is asked to remove its commands. -/
def removeEach (remove : E → State → Nat × State) (xs : List (E × M)) (a : Nat × State) : Nat × State :=
  xs.foldl (fun a x => let r := remove x.1 a.2; (a.1 + r.1, r.2)) a

/-- What removing from the engines of a list comes to. -/
theorem Removes.each (h : Removes recs start gone cut key rest remove) (xs : List (E × M)) (n : Nat) (s : State) :
    ∃ l, (removeEach remove xs (n, s)).1 = n + l.length ∧ Serves l s (removeEach remove xs (n, s)).2
      ∧ rest (removeEach remove xs (n, s)).2 = rest s
      ∧ (∀ e, recordAt (recs (removeEach remove xs (n, s)).2) start e
        = if e ∈ xs.map (·.1) then cut (recordAt (recs s) start e) else recordAt (recs s) start e)
      ∧ ((xs.map (·.1)).Nodup → l = xs.flatMap fun x => (gone (recordAt (recs s) start x.1)).map key) := by
  induction xs generalizing n s with
  | nil => exact ⟨[], rfl, .refl s, rfl, fun _ => rfl, fun _ => rfl⟩
  | cons x xs ih =>
    obtain ⟨l, hcount, hserves, hrest, hrecs, hkeys⟩ := ih (n + (remove x.1 s).1) (remove x.1 s).2
    have hstep : removeEach remove (x :: xs) (n, s) = removeEach remove xs (n + (remove x.1 s).1, (remove x.1 s).2) := rfl
    have hat : ∀ e, recordAt (recs (remove x.1 s).2) start e = if e = x.1 then cut (recordAt (recs s) start x.1) else recordAt (recs s) start e :=
      fun e => by rw [h.recs, recordAt_assocSet]
    rw [hstep]
    refine ⟨_, ?_, (h.serves x.1 s).trans hserves, hrest.trans (h.rest x.1 s), fun e => ?_, fun hnd => ?_⟩
    · rw [hcount, h.count, List.length_append, List.length_map]
      omega
    · rw [hrecs, hat, List.map_cons]
      by_cases he : e = x.1
      · simp [he, h.cut_cut]
      · simp only [he, List.mem_cons, false_or, if_false]
    · obtain ⟨hx, hxs⟩ := List.nodup_cons.1 hnd
      rw [List.flatMap_cons, hkeys hxs]
      congr 1
      refine List.flatMap_congr fun y hy => ?_
      have hne : y.1 ≠ x.1 := fun hyx => hx (List.mem_map.2 ⟨y, hy, hyx⟩)
      rw [hat, if_neg hne]

/-- Removing from every engine of a kind. -/
theorem Removes.all (h : Removes recs start gone cut key rest remove) (n : Nat) (s : State) :
    ∃ l, (removeEach remove (recs s) (n, s)).1 = n + l.length ∧ Serves l s (removeEach remove (recs s) (n, s)).2
      ∧ rest (removeEach remove (recs s) (n, s)).2 = rest s
      ∧ (∀ e, recordAt (recs (removeEach remove (recs s) (n, s)).2) start e = cut (recordAt (recs s) start e))
      ∧ (((recs s).map (·.1)).Nodup → l = (recs s).flatMap fun x => (gone x.2).map key) := by
  obtain ⟨l, hcount, hserves, hrest, hrecs, hkeys⟩ := h.each (recs s) n s
  refine ⟨l, hcount, hserves, hrest, fun e => ?_, fun hnd => (hkeys hnd).trans (List.flatMap_congr fun x hx => ?_)⟩
  · rw [hrecs]
    split
    · rfl
    · next he => rw [recordAt, assoc_eq_none_of_not_mem he, Option.getD_none, h.cut_start]
  · rw [recordAt, assoc_eq_of_mem hnd hx, Option.getD_some]

end

section
variable {s : State} {l : List (CtxId × Nat)}

theorem filter_not_filter_not {α : Type} (sel : α → Bool) (q : List α) :
    (q.filter fun c => !sel c).filter (fun c => !sel c) = q.filter fun c => !sel c := by
  simp

theorem Completes.after_set {t u : State} (h : Completes l t u) (hc : t.ctxs = s.ctxs) (hn : t.nodes = s.nodes) (hk : t.cancels = s.cancels) :
    Serves l s u := (serves_of_same hc hn hk).trans h.serves

/-- A matrix engine's record without the queued commands of a selection. -/
def cutMex (sel : MexCmd → Bool) (m : Mex) : Mex := { m with queue := m.queue.filter fun c => !sel c }
def cutCpy (sel : CpyCmd → Bool) (m : Cpy) : Cpy := { m with queue := m.queue.filter fun c => !sel c }
def cutGlz (sel : GlzCmd → Bool) (m : Glz) : Glz := { m with queue := m.queue.filter fun c => !sel c }
def cutRtc (sel : RtcCmd → Bool) (m : Rtc) : Rtc := { m with queue := m.queue.filter fun c => !sel c }

theorem completes_removeMex (e : EngId) (sel : MexCmd → Bool) (s : State) :
    Completes (((getMex s e).queue.filter sel).map fun c => (c.who, mexTok c)) (setMex e (cutMex sel (getMex s e)) s) (removeMex e sel s).2 :=
  .foldl (fun s c => completes_completeMex e c s) _ _

theorem completes_removeCpy (e : DieEng) (sel : CpyCmd → Bool) (s : State) :
    Completes (((getCpy s e).queue.filter sel).map fun c => (c.who, cpyTok c)) (setCpy e (cutCpy sel (getCpy s e)) s) (removeCpy e sel s).2 :=
  .foldl (fun s c => completes_completeCpy e c (cpyBar s c) c.chunk c.written s) _ _

theorem completes_removeGlz (e : DieEng) (sel : GlzCmd → Bool) (s : State) :
    Completes (((getGlz s e).queue.filter sel).map fun c => (c.who, glzTok c.par)) (setGlz e (cutGlz sel (getGlz s e)) s) (removeGlz e sel s).2 := by
  refine .foldl (fun s c => ?_) _ _
  have hblocks : Completes [] s (if c.kind.receives then
      ((List.range (glzBlocks s c)).filter fun k => !c.pre.contains k).foldl (fun s k => cancelBlock c k s) s else s) :=
    completes_ite (.foldl_nil (f := fun s k => cancelBlock c k s) (fun s k => completes_cancelBlock c k s) _ _)
  exact (hblocks.trans (completes_completeGlz e c _)).trans (completes_keepCounters c _ _)

theorem completes_removeRtc (e : DieEng) (sel : RtcCmd → Bool) (s : State) :
    Completes (((getRtc s e).queue.filter sel).map fun c => (c.who, rtcTok c)) (setRtc e (cutRtc sel (getRtc s e)) s) (removeRtc e sel s).2 :=
  .foldl (fun s c => completes_completeRtc e c c.done c.remapped c.iters _ c.digests s) _ _

theorem removes_mex (sel : MexCmd → Bool) : Removes State.mex Mex.start (fun m => m.queue.filter sel) (cutMex sel)
    (fun c => (c.who, mexTok c)) (fun s => (s.cpy, s.glz, s.rtc)) (fun e => removeMex e sel) where
  count _ _ := rfl
  serves e s := (completes_removeMex e sel s).after_set rfl rfl rfl
  recs e s := (completes_removeMex e sel s).engines.1
  rest e s := by
    obtain ⟨-, hc, hg, hr⟩ := (completes_removeMex e sel s).engines
    rw [hc, hg, hr]
    rfl
  cut_cut m := congrArg (fun q => { m with queue := q }) (filter_not_filter_not sel m.queue)
  cut_start := rfl

theorem removes_cpy (sel : CpyCmd → Bool) : Removes State.cpy Cpy.start (fun m => m.queue.filter sel) (cutCpy sel)
    (fun c => (c.who, cpyTok c)) (fun s => (s.mex, s.glz, s.rtc)) (fun e => removeCpy e sel) where
  count _ _ := rfl
  serves e s := (completes_removeCpy e sel s).after_set rfl rfl rfl
  recs e s := (completes_removeCpy e sel s).engines.2.1
  rest e s := by
    obtain ⟨hm, -, hg, hr⟩ := (completes_removeCpy e sel s).engines
    rw [hm, hg, hr]
    rfl
  cut_cut m := congrArg (fun q => { m with queue := q }) (filter_not_filter_not sel m.queue)
  cut_start := rfl

theorem removes_glz (sel : GlzCmd → Bool) : Removes State.glz Glz.start (fun m => m.queue.filter sel) (cutGlz sel)
    (fun c => (c.who, glzTok c.par)) (fun s => (s.mex, s.cpy, s.rtc)) (fun e => removeGlz e sel) where
  count _ _ := rfl
  serves e s := (completes_removeGlz e sel s).after_set rfl rfl rfl
  recs e s := (completes_removeGlz e sel s).engines.2.2.1
  rest e s := by
    obtain ⟨hm, hc, -, hr⟩ := (completes_removeGlz e sel s).engines
    rw [hm, hc, hr]
    rfl
  cut_cut m := congrArg (fun q => { m with queue := q }) (filter_not_filter_not sel m.queue)
  cut_start := rfl

theorem removes_rtc (sel : RtcCmd → Bool) : Removes State.rtc Rtc.start (fun m => m.queue.filter sel) (cutRtc sel)
    (fun c => (c.who, rtcTok c)) (fun s => (s.mex, s.cpy, s.glz)) (fun e => removeRtc e sel) where
  count _ _ := rfl
  serves e s := (completes_removeRtc e sel s).after_set rfl rfl rfl
  recs e s := (completes_removeRtc e sel s).engines.2.2.2
  rest e s := by
    obtain ⟨hm, hc, hg, -⟩ := (completes_removeRtc e sel s).engines
    rw [hm, hc, hg]
    rfl
  cut_cut m := congrArg (fun q => { m with queue := q }) (filter_not_filter_not sel m.queue)
  cut_start := rfl

/-! ## Removal from every engine -/

/-- Every engine has lost the queued commands of the selections, and nothing else. -/
def QueuesCut (selM : MexCmd → Bool) (selC : CpyCmd → Bool) (selG : GlzCmd → Bool) (selR : RtcCmd → Bool) (s t : State) : Prop :=
  (∀ e, (getMex t e).queue = (getMex s e).queue.filter (fun c => !selM c) ∧ (getMex t e).runs = (getMex s e).runs)
  ∧ (∀ e, (getCpy t e).queue = (getCpy s e).queue.filter (fun c => !selC c) ∧ (getCpy t e).runs = (getCpy s e).runs)
  ∧ (∀ e, (getGlz t e).queue = (getGlz s e).queue.filter (fun c => !selG c) ∧ (getGlz t e).runs = (getGlz s e).runs)
  ∧ ∀ e, (getRtc t e).queue = (getRtc s e).queue.filter (fun c => !selR c) ∧ (getRtc t e).run = (getRtc s e).run

/-- The issuer and token of every queued command of the selections. -/
def queuedKeys (selM : MexCmd → Bool) (selC : CpyCmd → Bool) (selG : GlzCmd → Bool) (selR : RtcCmd → Bool) (s : State) : List (CtxId × Nat) :=
  (s.mex.flatMap fun x => (x.2.queue.filter selM).map fun c => (c.who, mexTok c))
  ++ (s.cpy.flatMap fun x => (x.2.queue.filter selC).map fun c => (c.who, cpyTok c))
  ++ (s.glz.flatMap fun x => (x.2.queue.filter selG).map fun c => (c.who, glzTok c.par))
  ++ (s.rtc.flatMap fun x => (x.2.queue.filter selR).map fun c => (c.who, rtcTok c))

theorem removeQueued_eq (selM : MexCmd → Bool) (selC : CpyCmd → Bool) (selG : GlzCmd → Bool) (selR : RtcCmd → Bool) (s : State) :
    removeQueued selM selC selG selR s = removeEach (fun e => removeRtc e selR) s.rtc (removeEach (fun e => removeGlz e selG) s.glz
      (removeEach (fun e => removeCpy e selC) s.cpy (removeEach (fun e => removeMex e selM) s.mex (0, s)))) := rfl

theorem removeQueued_spec (selM : MexCmd → Bool) (selC : CpyCmd → Bool) (selG : GlzCmd → Bool) (selR : RtcCmd → Bool) (s : State) :
    ∃ l, (removeQueued selM selC selG selR s).1 = l.length ∧ Serves l s (removeQueued selM selC selG selR s).2
      ∧ QueuesCut selM selC selG selR s (removeQueued selM selC selG selR s).2
      ∧ ((s.mex.map (·.1)).Nodup → (s.cpy.map (·.1)).Nodup → (s.glz.map (·.1)).Nodup → (s.rtc.map (·.1)).Nodup →
        l = queuedKeys selM selC selG selR s) := by
  rw [removeQueued_eq]
  obtain ⟨l1, hn1, hs1, hr1, hq1, hk1⟩ := (removes_mex selM).all 0 s
  generalize removeEach (fun e => removeMex e selM) s.mex (0, s) = a1 at hn1 hs1 hr1 hq1 hk1 ⊢
  obtain ⟨n1, s1⟩ := a1
  obtain ⟨hc1, hg1, ht1⟩ : s1.cpy = s.cpy ∧ s1.glz = s.glz ∧ s1.rtc = s.rtc := by simpa using hr1
  obtain ⟨l2, hn2, hs2, hr2, hq2, hk2⟩ := (removes_cpy selC).all n1 s1
  rw [hc1] at hn2 hs2 hr2 hq2 hk2
  generalize removeEach (fun e => removeCpy e selC) s.cpy (n1, s1) = a2 at hn2 hs2 hr2 hq2 hk2 ⊢
  obtain ⟨n2, s2⟩ := a2
  obtain ⟨hm2, hg2, ht2⟩ : s2.mex = s1.mex ∧ s2.glz = s1.glz ∧ s2.rtc = s1.rtc := by simpa using hr2
  obtain ⟨l3, hn3, hs3, hr3, hq3, hk3⟩ := (removes_glz selG).all n2 s2
  rw [hg2, hg1] at hn3 hs3 hr3 hq3 hk3
  generalize removeEach (fun e => removeGlz e selG) s.glz (n2, s2) = a3 at hn3 hs3 hr3 hq3 hk3 ⊢
  obtain ⟨n3, s3⟩ := a3
  obtain ⟨hm3, hc3, ht3⟩ : s3.mex = s2.mex ∧ s3.cpy = s2.cpy ∧ s3.rtc = s2.rtc := by simpa using hr3
  obtain ⟨l4, hn4, hs4, hr4, hq4, hk4⟩ := (removes_rtc selR).all n3 s3
  rw [ht3, ht2, ht1] at hn4 hs4 hr4 hq4 hk4
  generalize removeEach (fun e => removeRtc e selR) s.rtc (n3, s3) = a4 at hn4 hs4 hr4 hq4 ⊢
  obtain ⟨n4, s4⟩ := a4
  obtain ⟨hm4, hc4, hg4⟩ : s4.mex = s3.mex ∧ s4.cpy = s3.cpy ∧ s4.glz = s3.glz := by simpa using hr4
  refine ⟨((l1 ++ l2) ++ l3) ++ l4, ?_, ((hs1.trans hs2).trans hs3).trans hs4, ⟨fun e => ?_, fun e => ?_, fun e => ?_, fun e => ?_⟩,
    fun d1 d2 d3 d4 => ?_⟩
  · simp only [List.length_append]
    simp only at hn1 hn2 hn3 hn4
    omega
  · have hget : getMex s4 e = cutMex selM (getMex s e) := by rw [getMex, hm4, hm3, hm2]; exact hq1 e
    rw [hget]
    exact ⟨rfl, rfl⟩
  · have hget : getCpy s4 e = cutCpy selC (getCpy s e) := by rw [getCpy, hc4, hc3]; exact hq2 e
    rw [hget]
    exact ⟨rfl, rfl⟩
  · have hget : getGlz s4 e = cutGlz selG (getGlz s e) := by rw [getGlz, hg4]; exact hq3 e
    rw [hget]
    exact ⟨rfl, rfl⟩
  · have hget : getRtc s4 e = cutRtc selR (getRtc s e) := hq4 e
    rw [hget]
    exact ⟨rfl, rfl⟩
  · rw [hk1 d1, hk2 d2, hk3 d3, hk4 d4]
    rfl

end

end Sys2Proof.Machine
end

section
/-! SUPPORT. Retirement (R121): what EXIT leaves of its context, and how a status reaches the node and its other contexts. -/

namespace Sys2Proof.Machine

section
variable {s t : State} {g : Guard} {src : Source} {op : OpDef} {field : Nat} {c d : Ctx} {status : Word32}

/-! ## The context that retires -/

/-- The end of the bundle in which a context has retired: it takes its place and goes nowhere. -/
def gone (q : Nat) (who : CtxId) (t : State) : State := setCtx who { getCtx t who with bclk := q } t

theorem finish_retired (h : (getCtx t s.sel.who).run = .retired) :
    finish s.sel.who (trigBundle s op field g src) (view s) [field] t = gone ((view s).bclk + 1) s.sel.who t := if_pos (.inl h)

theorem gone_mem (q : Nat) (who : CtxId) (t : State) : (gone q who t).mem = t.mem := rfl

theorem getCtx_gone_ne {q : Nat} {who k : CtxId} (hk : k ≠ who) : getCtx (gone q who t) k = getCtx t k := getCtx_setCtx_ne _ _ hk

theorem residentCount_empty (hv : c.v = List.replicate 32 .unwritten) (hf : c.flight = []) (hs : c.snap = none) : residentCount c = 0 := by
  have hfree : ∀ n, vHolds c n = false := by
    intro n
    have hst : (getV c n).st = .unwritten := by
      by_contra hne
      refine hne ?_
      rw [getV, hv, List.getD_eq_getElem?_getD, List.getElem?_replicate]
      split <;> rfl
    simp [vHolds, vInFlight, hst, hf, hs]
  simp [residentCount, hfree]

/-- What EXIT with a status leaves of its context. -/
structure Retired (status : Word32) (c d : Ctx) : Prop where
  run : d.run = .retired
  exitStatus : d.exitStatus = status
  flight : d.flight = []
  landing : d.landing = []
  redirects : d.redirects = []
  snap : d.snap = none
  names : d.v = List.replicate 32 .unwritten
  registers : d.g = c.g
  specials : d.sr = c.sr

theorem retired_retireCtx (status : Word32) (c : Ctx) : Retired status c (retireCtx status c) := ⟨rfl, rfl, rfl, rfl, rfl, rfl, rfl, rfl, rfl⟩

theorem Retired.residentCount (h : Retired status c d) : residentCount d = 0 := residentCount_empty h.names h.flight h.snap

theorem Retired.awake (h : Retired status c d) (who : CtxId) : awake t who d = false := by simp [Machine.awake, h.run]

theorem Retired.attended {x : Ctx} (h : Retired status c d) (hx : Attended d x) : Retired status c x where
  run := hx.retired h.run
  exitStatus := (hx.kept Ctx.exitStatus fun _ _ _ _ _ _ _ _ => rfl).trans h.exitStatus
  flight := (hx.kept Ctx.flight fun _ _ _ _ _ _ _ _ => rfl).trans h.flight
  landing := (hx.kept Ctx.landing fun _ _ _ _ _ _ _ _ => rfl).trans h.landing
  redirects := (hx.kept Ctx.redirects fun _ _ _ _ _ _ _ _ => rfl).trans h.redirects
  snap := (hx.kept Ctx.snap fun _ _ _ _ _ _ _ _ => rfl).trans h.snap
  names := (hx.kept Ctx.v fun _ _ _ _ _ _ _ _ => rfl).trans h.names
  registers := (hx.kept Ctx.g fun _ _ _ _ _ _ _ _ => rfl).trans h.registers
  specials := (hx.kept Ctx.sr fun _ _ _ _ _ _ _ _ => rfl).trans h.specials

theorem Retired.gone {q : Nat} {who : CtxId} (h : Retired status c (getCtx t who)) : Retired status c (getCtx (gone q who t) who) := by
  rw [Machine.gone, getCtx_setCtx_same]
  exact ⟨h.run, h.exitStatus, h.flight, h.landing, h.redirects, h.snap, h.names, h.registers, h.specials⟩

/-! ## The rest of the node -/

/-- A node that a context's EXIT stops. -/
def stoppedBy (status : Word32) (d : Node) : Node := { d with stop := .exit, exitSt := status }
/-- A sibling of the context whose EXIT stops the node. -/
def stopOthers (who k : CtxId) (c : Ctx) : Ctx := if k = who then c else { c with stopped := true }
/-- The node has stopped, and the commands of its other contexts are still queued. -/
def exiting (status : Word32) (who : CtxId) (n : Nat) (d : Node) (s : State) : State :=
  mapNodeCtxs n (stopOthers who) (setNode n (stoppedBy status d) (updCtx who (retireCtx status) s))

theorem exiting_mem (status : Word32) (who : CtxId) (n : Nat) (d : Node) (s : State) : (exiting status who n d s).mem = s.mem := rfl

/-- The commands that leave their queues. -/
def siblingOf (s : State) (n : Nat) (who k : CtxId) : Bool := isOfNode s n k && decide (k ≠ who)

theorem retire_zero (who : CtxId) : retire who 0 s = updCtx who (retireCtx 0) s := by simp [retire]

theorem retire_alone {who : CtxId} (hn : nodeOf s who = none) : retire who status s = updCtx who (retireCtx status) s := by
  rw [retire, hn]
  exact ite_self _

theorem retire_node {who : CtxId} {n : Nat} {d : Node} (h0 : status ≠ 0) (hn : nodeOf s who = some n) (hd : getNode s n = some d) :
    retire who status s = (removeQueued (fun c => siblingOf (exiting status who n d s) n who c.who) (fun c => siblingOf (exiting status who n d s) n who c.who)
      (fun c => siblingOf (exiting status who n d s) n who c.who) (fun c => siblingOf (exiting status who n d s) n who c.who)
      (exiting status who n d s)).2 := by
  have hd' : getNode (updCtx who (retireCtx status) s) n = some d := hd
  simp only [retire, if_neg h0, hn, hd']
  rfl

/-- The contexts when the node has stopped. -/
theorem getCtx_exiting (who : CtxId) (n : Nat) (d : Node) (k : CtxId) : getCtx (exiting status who n d s) k
    = if (getCtx (updCtx who (retireCtx status) s) k).node = some n then stopOthers who k (getCtx (updCtx who (retireCtx status) s) k)
      else getCtx (updCtx who (retireCtx status) s) k :=
  getCtx_mapNodeCtxs (stopOthers who) k nofun

theorem getCtx_exiting_self (who : CtxId) (n : Nat) (d : Node) : getCtx (exiting status who n d s) who = retireCtx status (getCtx s who) := by
  rw [getCtx_exiting, updCtx, getCtx_setCtx_same, stopOthers, if_pos rfl, ite_self]

theorem getCtx_exiting_ne {who k : CtxId} (n : Nat) (d : Node) (hk : k ≠ who) : getCtx (exiting status who n d s) k
    = if nodeOf s k = some n then { getCtx s k with stopped := true } else getCtx s k := by
  rw [getCtx_exiting, updCtx, getCtx_setCtx_ne _ _ hk, stopOthers, if_neg hk]
  rfl

theorem siblingOf_exiting (who : CtxId) (n : Nat) (d : Node) (k : CtxId) :
    siblingOf (exiting status who n d s) n who k = (decide (k ≠ who) && nodeOf s k == some n) := by
  by_cases hk : k = who
  · simp [siblingOf, hk]
  · have hnode : nodeOf (exiting status who n d s) k = nodeOf s k := by
      rw [nodeOf, getCtx_exiting_ne n d hk]
      split <;> rfl
    simp [siblingOf, isOfNode, hnode, hk]

theorem getNode_exiting {who : CtxId} {n : Nat} {d : Node} (hd : getNode s n = some d) : getNode (exiting status who n d s) n = some (stoppedBy status d) := by
  obtain ⟨hlt, -⟩ := List.getElem?_eq_some_iff.1 hd
  exact List.getElem?_set_self hlt

/-! ## EXIT -/

/-- The status that EXIT passes on: a poisoned one counts as 0xFFFFFFFF. -/
def exitWord (s : State) (src : Source) : Word32 := if (trigSc s src).p then 0xFFFFFFFF#32 else (trigSc s src).v.setWidth 32

theorem nodeOf_started (src : Source) (k : CtxId) : nodeOf (started s src) k = nodeOf s k := by
  by_cases hk : k = s.sel.who
  · subst hk
    rw [nodeOf, started, getCtx_setCtx_same, entry_kept Ctx.node (fun _ _ _ => rfl) s src fun _ => rfl]
    exact seen_node _
  · rw [nodeOf, started, getCtx_setCtx_ne _ _ hk]
    rfl

/-- The state after EXIT, given the context has retired. -/
theorem exec_exit (hq : Quiet s) (hb : Brings s g src .s)
    (h : (getCtx (retire s.sel.who (exitWord s src) (started s src)) s.sel.who).run = .retired) :
    exec (.exit g src) s = .next (gone ((view s).bclk + 1) s.sel.who (retire s.sel.who (exitWord s src) (started s src))) :=
  have hissue := issueOne_run defExit 109 g src s _ hq hb (room_none s) rfl (fun _ h => nomatch h) rfl
  congrArg _ (hissue.trans (finish_retired h))

/-- A context that retires alone: EXIT with status 0, or of a context without a node. -/
theorem gone_alone (src : Source) (q : Nat) (h : retire s.sel.who status (started s src) = updCtx s.sel.who (retireCtx status) (started s src)) :
    OthersKept s (gone q s.sel.who (retire s.sel.who status (started s src)))
    ∧ Retired status (view s) (getCtx (retire s.sel.who status (started s src)) s.sel.who) := by
  have hset : retire s.sel.who status (started s src) = setCtx s.sel.who (retireCtx status (entry s src)) s := by
    rw [h, updCtx, started, getCtx_setCtx_same, setCtx_setCtx]
  have hret := retired_retireCtx status (entry s src)
  rw [hset, gone, setCtx_setCtx, getCtx_setCtx_same]
  refine ⟨othersKept_setCtx s _, { hret with registers := ?_, specials := ?_ }⟩
  · exact hret.registers.trans (entry_kept Ctx.g (fun _ _ _ => rfl) s src fun _ => rfl)
  · exact hret.specials.trans (entry_sr s src)

/-- The contexts of a node other than one of them. -/
def others (s : State) (n : Nat) (who k : CtxId) : Bool := decide (k ≠ who) && nodeOf s k == some n

/-- The queued commands of the node's other contexts leave their engines. -/
def dropOthers (s : State) (n : Nat) (who : CtxId) (u : State) : State :=
  (removeQueued (fun c => others s n who c.who) (fun c => others s n who c.who) (fun c => others s n who c.who) (fun c => others s n who c.who) u).2

theorem retire_started (src : Source) {n : Nat} {d : Node} (h0 : status ≠ 0) (hn : nodeOf s s.sel.who = some n) (hd : getNode s n = some d) :
    retire s.sel.who status (started s src) = dropOthers s n s.sel.who (exiting status s.sel.who n d (started s src)) := by
  have hsib : ∀ k, siblingOf (exiting status s.sel.who n d (started s src)) n s.sel.who k = others s n s.sel.who k :=
    fun k => by rw [siblingOf_exiting, nodeOf_started, others]
  rw [retire_node h0 ((nodeOf_started src _).trans hn) hd]
  simp only [hsib]
  rfl

theorem dropOthers_spec (n : Nat) (who : CtxId) (u : State) : (∃ l, Serves l u (dropOthers s n who u)) ∧ QueuesCut (fun c => others s n who c.who)
    (fun c => others s n who c.who) (fun c => others s n who c.who) (fun c => others s n who c.who) u (dropOthers s n who u) := by
  obtain ⟨l, -, hserves, hcut, -⟩ := removeQueued_spec (fun c => others s n who c.who) (fun c => others s n who c.who)
    (fun c => others s n who c.who) (fun c => others s n who c.who) u
  exact ⟨⟨l, hserves⟩, hcut⟩

theorem dropOthers_idle (n : Nat) (who : CtxId) {u : State} (hm : u.mex = []) (hc : u.cpy = []) (hg : u.glz = []) (hr : u.rtc = []) :
    dropOthers s n who u = u := by simp [dropOthers, removeQueued, hm, hc, hg, hr]

theorem sameEngines_setCtx (who : CtxId) (c : Ctx) (s : State) : SameEngines s (setCtx who c s) := ⟨rfl, rfl, rfl, rfl⟩

theorem sameEngines_exiting (status : Word32) (who : CtxId) (n : Nat) (d : Node) (s : State) : SameEngines s (exiting status who n d s) :=
  ⟨rfl, rfl, rfl, rfl⟩

theorem getCtx_exiting_started (src : Source) (n : Nat) (d : Node) :
    Retired status (view s) (getCtx (exiting status s.sel.who n d (started s src)) s.sel.who) := by
  have hret := retired_retireCtx status (entry s src)
  rw [getCtx_exiting_self, started, getCtx_setCtx_same]
  exact { hret with
    registers := hret.registers.trans (entry_kept Ctx.g (fun _ _ _ => rfl) s src fun _ => rfl)
    specials := hret.specials.trans (entry_sr s src) }

theorem retire_retired (src : Source) (status : Word32) :
    Retired status (view s) (getCtx (retire s.sel.who status (started s src)) s.sel.who) := by
  by_cases h0 : status = 0
  · subst h0
    exact (gone_alone src 0 (retire_zero _)).2
  · cases hn : nodeOf s s.sel.who with
    | none => exact (gone_alone src 0 (retire_alone ((nodeOf_started src _).trans hn))).2
    | some n => cases hd : getNode s n with
      | none =>
        refine (gone_alone src 0 ?_).2
        have hd' : getNode (updCtx s.sel.who (retireCtx status) (started s src)) n = none := hd
        simp only [retire, if_neg h0, (nodeOf_started src _).trans hn, hd']
      | some d =>
        obtain ⟨⟨l, hserves⟩, -⟩ := dropOthers_spec (s := s) n s.sel.who (exiting status s.sel.who n d (started s src))
        rw [retire_started src h0 hn hd]
        exact (getCtx_exiting_started src n d).attended (hserves.ctxs _)

theorem QueuesCut.of_same {selM : MexCmd → Bool} {selC : CpyCmd → Bool} {selG : GlzCmd → Bool} {selR : RtcCmd → Bool} {u : State}
    (hs : SameEngines s t) (h : QueuesCut selM selC selG selR t u) : QueuesCut selM selC selG selR s u := by
  obtain ⟨hm, hc, hg, hr⟩ := h
  exact ⟨fun e => hs.mex e ▸ hm e, fun e => hs.cpy e ▸ hc e, fun e => hs.glz e ▸ hg e, fun e => hs.rtc e ▸ hr e⟩

theorem QueuesCut.trans_same {selM : MexCmd → Bool} {selC : CpyCmd → Bool} {selG : GlzCmd → Bool} {selR : RtcCmd → Bool} {u : State}
    (h : QueuesCut selM selC selG selR s t) (ht : SameEngines t u) : QueuesCut selM selC selG selR s u := by
  obtain ⟨hm, hc, hg, hr⟩ := h
  exact ⟨fun e => (ht.mex e).symm ▸ hm e, fun e => (ht.cpy e).symm ▸ hc e, fun e => (ht.glz e).symm ▸ hg e, fun e => (ht.rtc e).symm ▸ hr e⟩

/-- What EXIT with a status leaves of a node, of its other contexts and of the engines. -/
theorem exit_node (src : Source) (q : Nat) {n : Nat} {d : Node} (h0 : status ≠ 0) (hn : nodeOf s s.sel.who = some n) (hd : getNode s n = some d) :
    let t := gone q s.sel.who (retire s.sel.who status (started s src))
    NodeIs t n (fun x => x.stop = .exit ∧ x.exitSt = status ∧ x.st = d.st ∧ x.clusters = d.clusters)
    ∧ (∀ k, k ≠ s.sel.who → nodeOf s k = some n → (getCtx t k).stopped = true)
    ∧ QueuesCut (fun c => others s n s.sel.who c.who) (fun c => others s n s.sel.who c.who) (fun c => others s n s.sel.who c.who)
      (fun c => others s n s.sel.who c.who) s t
    ∧ (s.mex = [] → s.cpy = [] → s.glz = [] → s.rtc = [] → t.mem = s.mem ∧ ∀ k, nodeOf s k ≠ some n → getCtx t k = getCtx s k) := by
  obtain ⟨⟨l, hserves⟩, hcut⟩ := dropOthers_spec (s := s) n s.sel.who (exiting status s.sel.who n d (started s src))
  have hctx : ∀ k, k ≠ s.sel.who → getCtx (exiting status s.sel.who n d (started s src)) k
      = if nodeOf s k = some n then { getCtx s k with stopped := true } else getCtx s k := fun k hk => by
    rw [getCtx_exiting_ne n d hk, nodeOf_started, started, getCtx_setCtx_ne _ _ hk]
  have hsame := (sameEngines_setCtx s.sel.who (entry s src) s).trans (sameEngines_exiting status s.sel.who n d (started s src))
  have ⟨hmex, hcpy, hglz, hrtc⟩ := hsame
  have hidle : s.mex = [] → s.cpy = [] → s.glz = [] → s.rtc = [] → dropOthers s n s.sel.who (exiting status s.sel.who n d (started s src))
      = exiting status s.sel.who n d (started s src) := fun hm hc hg hr =>
    dropOthers_idle n s.sel.who (hmex.trans hm) (hcpy.trans hc) (hglz.trans hg) (hrtc.trans hr)
  dsimp only
  rw [retire_started src h0 hn hd]
  refine ⟨?_, fun k hk hnk => ?_, (hcut.of_same hsame).trans_same ⟨rfl, rfl, rfl, rfl⟩, fun hm hc hg hr => ⟨?_, fun k hnk => ?_⟩⟩
  · obtain ⟨b, hb⟩ := hserves.nodes n
    exact ⟨durably b (stoppedBy status d), hb.trans (congrArg _ (getNode_exiting (who := s.sel.who) (s := started s src) hd)), rfl, rfl, rfl, rfl⟩
  · rw [getCtx_gone_ne hk, (hserves.ctxs k).kept Ctx.stopped fun _ _ _ _ _ _ _ _ => rfl, hctx k hk, if_pos hnk]
  · rw [hidle hm hc hg hr, gone_mem, exiting_mem]
    rfl
  · have hk : k ≠ s.sel.who := fun h => hnk (h ▸ hn)
    rw [hidle hm hc hg hr, getCtx_gone_ne hk, hctx k hk, if_neg hnk]

end

/-- Settles O17: the context retires with its status, alone where the status is 0 or it has no node, and else with its node stopped and the
queued commands of the others removed. -/
theorem exitRetires : Obligations.ExitRetires := by
  refine ⟨fun s g src hq hb hp hv => ?_, fun s g src hq hb => fun h0 => ?_⟩
  · have hword : exitWord s src = 0 := by rw [exitWord, hp]; exact hv
    have hret := retire_retired (s := s) src (exitWord s src)
    refine ⟨_, exec_exit hq hb hret.run, ?_⟩
    rw [hword] at hret ⊢
    have h := hret.gone (q := (view s).bclk + 1)
    exact ⟨(gone_alone src _ (retire_zero _)).1, h.run, h.exitStatus, h.flight, h.landing, h.redirects, h.snap, h.residentCount, h.registers,
      h.specials, h.awake _⟩
  · have hret := retire_retired (s := s) src (exitWord s src)
    have h := hret.gone (q := (view s).bclk + 1)
    exact ⟨_, exec_exit hq hb hret.run, ⟨h.run, h.exitStatus, h.flight, h.landing, h.redirects, h.snap, h.residentCount, h.awake _⟩,
      fun hn => (gone_alone src _ (retire_alone ((nodeOf_started src _).trans hn))).1, fun n d hn hd => exit_node src _ h0 hn hd⟩

end Sys2Proof.Machine
end

section
/-! SUPPORT. Cancels as their bundle notes them (R131, R233, R263, R275), and the reports of the engines (R232, R264, R274, R276, R344, R346, R348). -/

namespace Sys2Proof.Machine

section
variable {s : State} {g : Guard} {src : Source} {op : OpDef} {field : Nat}

/-! ## Cancels noted -/

/-- A cancel noted for the end of the cycle. -/
def noteCancel (k : Cancel) (s : State) : State := { s with cancels := s.cancels ++ [k] }
/-- The state after a bundle that notes a cancel. -/
def afterNote (s : State) (src : Source) (k : Cancel) : State := setCtx s.sel.who (advance s (entry s src)) (noteCancel k s)

theorem issueOne_noted {k : Cancel} (hq : Quiet s) (hb : Brings s g src op.ty) (hr : Room s op.land op.vecs op.scs)
    (hfull : op.full (given s field op.ty src) s = false) (htok : op.tok (given s field op.ty src) = none)
    (hrun : op.run (given s field op.ty src) (started s src) = .ok (noteCancel k (started s src))) (hfield : field ∉ [104, 106, 107, 165]) :
    issueOne op field g src s = afterNote s src k := by
  have hc : getCtx (noteCancel k (started s src)) s.sel.who = entry s src := getCtx_setCtx_same ..
  have hissue := issueOne_run op field g src s _ hq hb hr hfull (by simp [htok]) hrun
  refine hissue.trans ((finish_on op field g src s _ (quiet_slot hq) ?_ ?_ ?_ (linkReach_none _ _ hfield)).trans ?_)
  · rw [hc, entry_run src hq]
    decide
  · rw [hc, entry_run src hq]
    decide
  · rw [hc, entry_rft src hq]
  · have hswap : noteCancel k (started s src) = setCtx s.sel.who (entry s src) (noteCancel k s) := rfl
    rw [goOn, hc, hswap, setCtx_setCtx]
    rfl

/-- The bundle notes the cancel and changes nothing else. -/
theorem noted_afterNote (s : State) (src : Source) (k : Cancel) : let u := afterNote s src k
    { u with ctxs := s.ctxs, cancels := s.cancels } = s ∧ u.cancels = s.cancels ++ [k]
      ∧ getCtx u s.sel.who = advance s (entry s src) ∧ ∀ j, j ≠ s.sel.who → getCtx u j = getCtx s j :=
  ⟨rfl, rfl, getCtx_setCtx_same .., fun _ hj => getCtx_setCtx_ne _ _ hj⟩

theorem exec_tokc (hq : Quiet s) (hb : Brings s g src .s) (hr : Room s 0 0 1) : exec (.tokc g src) s
    = .next (afterNote s src ⟨s.sel.who, 5, 0, (trigSc s src).v.toNat, 0, none, some ((view s).bclk + 1), (trigSc s src).p⟩) :=
  congrArg _ (issueOne_noted (op := defTokc) (field := 171) hq hb hr rfl rfl rfl (by decide))

theorem exec_mcan (hq : Quiet s) (hb : Brings s g src .s) (hr : Room s 0 0 1) (hp : (trigSc s src).p = false) (ht : (trigSc s src).v.toNat ≤ 2) :
    exec (.mcan g src) s
      = .next (afterNote s src ⟨s.sel.who, 13, engMex (view s), (trigSc s src).v.toNat, 0, none, some ((view s).bclk + 1), false⟩) := by
  refine congrArg _ (issueOne_noted (op := defMcan) (field := 427) hq hb hr rfl rfl ?_ (by decide))
  have ht' : ¬2 < (trigSc s src).v.toNat := by omega
  simp only [defMcan, mcanOp, given_tP, given_tN, hp, ht', Bool.false_eq_true, if_false]
  rfl

theorem exec_ccan (hq : Quiet s) (hb : Brings s g src .s) (hr : Room s 0 0 1) (hp : (trigSc s src).p = false) (ht : (trigSc s src).v.toNat % 4 ≠ 3)
    (hlt : (trigSc s src).v.toNat < 2 ^ 7) (hz : (trigSc s src).v.toNat / 4 % 4 = 0) : exec (.ccan g src) s
      = .next (afterNote s src ⟨s.sel.who, 14, engCpy (view s), (trigSc s src).v.toNat, 0, none, some ((view s).bclk + 1), false⟩) := by
  refine congrArg _ (issueOne_noted (op := defCcan) (field := 455) hq hb hr rfl rfl ?_ (by decide))
  have hbits : ¬((trigSc s src).v.toNat % 4 = 3 ∨ (trigSc s src).v.toNat / 2 ^ 7 ≠ 0 ∨ bits (trigSc s src).v.toNat 3 2 ≠ 0) := by
    simp only [bits]
    omega
  simp only [defCcan, ccanOp, given_tP, given_tN, hp, hbits, Bool.false_eq_true, if_false]
  rfl

theorem exec_gcan (hq : Quiet s) (hb : Brings s g src .s) (hr : Room s 0 0 1) (hp : (trigSc s src).p = false) (ha : (portSc s 15 0).p = false)
    (h1 : 1 ≤ (trigSc s src).v.toNat) (hle : (trigSc s src).v.toNat ≤ 0x400000) (hba : (portSc s 15 0).v.toNat ≤ 0x3FFFFF) : exec (.gcan g src) s
      = .next (afterNote s src ⟨s.sel.who, 15, engGlz (view s), (trigSc s src).v.toNat, (portSc s 15 0).v.toNat,
        (targetRecv (given s 488 .s src)).map (·.cmd), some ((view s).bclk + 1), false⟩) := by
  refine congrArg _ (issueOne_noted (op := defGcan) (field := 488) hq hb hr rfl rfl ?_ (by decide))
  have hclean : ((given s 488 .s src).aP || (given s 488 .s src).tP) = false := by simp [ha, hp]
  have haN : (given s 488 .s src).aN = (portSc s 15 0).v.toNat := rfl
  have hlegal : ¬((trigSc s src).v.toNat = 0 ∨ 0x3FFFFF < (portSc s 15 0).v.toNat ∨ 0x400000 < (trigSc s src).v.toNat) := by omega
  simp only [defGcan, gcanOp, hclean, given_tN, haN, hlegal, Bool.false_eq_true, if_false]
  rfl

/-! ## Reports -/

/-- An operation that reports a word two bundles later. -/
theorem issueOne_report {unit w : Nat} (hq : Quiet s) (hb : Brings s g src op.ty) (hr : Room s 0 0 1)
    (hop : op.land = 0 ∧ op.vecs = 0 ∧ op.scs = 1 ∧ op.full (given s field op.ty src) s = false ∧ op.tok (given s field op.ty src) = none)
    (hrun : op.run (given s field op.ty src) (started s src) = .ok (landSc (given s field op.ty src) unit 2 w false (started s src)))
    (hfield : field ∉ [104, 106, 107, 165]) :
    issueOne op field g src s = after s src (inFlight [latchSc s unit 2 (BitVec.ofNat 64 w) false]) := by
  obtain ⟨hland, hvecs, hscs, hfull, htok⟩ := hop
  exact issueOne_flights op field g src s _ hq hb (by rw [hland, hvecs, hscs]; exact hr) hfull (by simp [htok]) hrun hfield

theorem exec_mstat (hq : Quiet s) (hb : Brings s g src .s) (hr : Room s 0 0 1) (hp : (trigSc s src).p = false) (ht : (trigSc s src).v.toNat ≤ 1) :
    exec (.mstat g src) s = .next (after s src (inFlight [latchSc s 13 2 (BitVec.ofNat 64 (if (trigSc s src).v.toNat = 0
      then mstatWord (clk s s.sel.who.clId) (getMex s ⟨s.sel.who.die, s.sel.who.cl, engMex (view s)⟩)
      else ((view s).mexLast.getD (engMex (view s)) 0).toNat)) false])) := by
  refine congrArg _ (issueOne_report (op := defMstat) (field := 426) hq hb hr ⟨rfl, rfl, rfl, rfl, rfl⟩ ?_ (by decide))
  have ht' : ¬1 < (trigSc s src).v.toNat := by omega
  simp only [defMstat, mstatOp, given_tP, given_tN, hp, ht', Bool.false_eq_true, if_false]
  rfl

theorem bit_three {t : Nat} (ht : t < 16) : bit t 3 = decide (8 ≤ t) := by
  revert t
  decide

theorem exec_cstat (hq : Quiet s) (hb : Brings s g src .s) (hr : Room s 0 0 1) (hp : (trigSc s src).p = false) (ht : (trigSc s src).v.toNat < 16) :
    exec (.cstat g src) s = .next (after s src (inFlight [latchSc s 14 2 (BitVec.ofNat 64
      (reportWord (reported (view s).cpyRep ((trigSc s src).v.toNat % 8)) (decide (8 ≤ (trigSc s src).v.toNat)))) false])) := by
  refine congrArg _ (issueOne_report (op := defCstat) (field := 454) hq hb hr ⟨rfl, rfl, rfl, rfl, rfl⟩ ?_ (by decide))
  have ht' : ¬(trigSc s src).v.toNat / 16 ≠ 0 := by omega
  simp only [defCstat, cstatOp, given_tP, given_tN, hp, ht', bit_three ht, Bool.false_eq_true, if_false]
  rfl

theorem exec_tstat (hq : Quiet s) (hb : Brings s g src .s) (hr : Room s 0 0 1) (hp : (trigSc s src).p = false) (ht : (trigSc s src).v.toNat < 16) :
    exec (.tstat g src) s = .next (after s src (inFlight [latchSc s 16 2 (BitVec.ofNat 64
      (reportWord (match pendingRtc s (given s 0 .s src) ((trigSc s src).v.toNat % 8) with
        | some w => some w
        | none => reported (view s).rtcRep ((trigSc s src).v.toNat % 8)) (decide (8 ≤ (trigSc s src).v.toNat)))) false])) := by
  refine congrArg _ (issueOne_report (op := defTstat) (field := 518) hq hb hr ⟨rfl, rfl, rfl, rfl, rfl⟩ ?_ (by decide))
  have ht' : ¬(trigSc s src).v.toNat / 16 ≠ 0 := by omega
  have hpend : pendingRtc (started s src) (given s 518 .s src) = pendingRtc s (given s 0 .s src) := rfl
  simp only [defTstat, tstatOp, given_tP, given_tN, hp, ht', bit_three ht, hpend, Bool.false_eq_true, if_false]
  rfl

theorem exec_twear (hq : Quiet s) (hb : Brings s g src .s) (hr : Room s 0 0 1) (hp : (trigSc s src).p = false) (ht : (trigSc s src).v.toNat < 2 ^ 35)
    (ha : (trigSc s src).v.toNat % 64 = 0) {f : Nat} (hf : nodeFresco s (given s 0 .s src) (trigSc s src).v.toNat = some f) :
    exec (.twear g src) s = .next (after s src (inFlight [latchSc s 16 2 (BitVec.ofNat 64
      ((if (freeSpare s (bankOf (f / 64))).isNone then 2 ^ 49 else 0) + (if isSpare (servingRow s (f / 64)) then 2 ^ 48 else 0)
        + (getDie s (f / 2 ^ 35)).wearLimit * 2 ^ 24 + wearOf s (servingRow s (f / 64)))) false])) := by
  have ht' : ¬(trigSc s src).v.toNat / 2 ^ 35 ≠ 0 := by omega
  have hf' : nodeFresco (started s src) (given s 519 .s src) (trigSc s src).v.toNat = some f := hf
  have hw : ∀ b (k : Nat), b2n b * k = if b then k else 0 := by intro b k; cases b <;> simp [b2n]
  refine congrArg _ (issueOne_report (op := defTwear) (field := 519) hq hb hr ⟨rfl, rfl, rfl, rfl, rfl⟩ ?_ (by decide))
  have ha' : ¬(trigSc s src).v.toNat % 64 ≠ 0 := by omega
  simp only [defTwear, twearOp, given_tP, given_tN, hp, ht', hf', ha', hw, Bool.false_eq_true, if_false]
  rfl

theorem exec_tmap (hq : Quiet s) (hb : Brings s g src .s) (hr : Room s 0 0 1) (hp : (trigSc s src).p = false) (ht : (trigSc s src).v.toNat < 2 ^ 32) :
    exec (.tmap g src) s = .next (after s src (inFlight [latchSc s 16 2 (BitVec.ofNat 64
      (match frescoEntry s (partOf s s.sel.who) (worldOf s s.sel.who) (trigSc s src).v.toNat with
        | some e => tmapWord s (given s 0 .s src) e
        | none => 0)) false])) := by
  refine congrArg _ (issueOne_report (op := defTmap) (field := 520) hq hb hr ⟨rfl, rfl, rfl, rfl, rfl⟩ ?_ (by decide))
  have ht' : ¬(trigSc s src).v.toNat / 2 ^ 32 ≠ 0 := by omega
  simp only [defTmap, tmapOp, given_tP, given_tN, hp, ht', Bool.false_eq_true, if_false]
  rfl

/-- Without kept writes there is nothing to acquire. -/
theorem acquire_of_past_nil (who : CtxId) (sel : Past → Bool) (h : s.past = []) : acquire who sel s = s := by
  rw [acquire, h, List.map_nil, ← h]

theorem exec_gprec (hq : Quiet s) (hb : Brings s g src .s) (hr : Room s 0 0 1) (hp : (trigSc s src).p = false) (ha : (portSc s 15 0).p = false)
    (h1 : 1 ≤ (trigSc s src).v.toNat) (h8 : (trigSc s src).v.toNat ≤ 8) (hba : (portSc s 15 0).v.toNat ≤ 0x3FFFFF)
    (hpast : (targetRecv (given s 489 .s src)).isSome → s.past = []) :
    exec (.gprec g src) s = .next (after s src (inFlight [latchSc s 15 2 (BitVec.ofNat 64 (match targetRecv (given s 489 .s src) with
      | none => 0
      | some r => ofBytes ((((recvCounters s (given s 0 .s src) r).drop (portSc s 15 0).v.toNat).take (trigSc s src).v.toNat).map (BitVec.ofNat 8))))
      false])) := by
  refine congrArg _ (issueOne_report (op := defGprec) (field := 489) hq hb hr ⟨rfl, rfl, rfl, rfl, rfl⟩ ?_ (by decide))
  have hclean : ((given s 489 .s src).aP || (given s 489 .s src).tP) = false := by simp [ha, hp]
  have haN : (given s 489 .s src).aN = (portSc s 15 0).v.toNat := rfl
  have hlegal : ¬((trigSc s src).v.toNat = 0 ∨ 8 < (trigSc s src).v.toNat ∨ 0x3FFFFF < (portSc s 15 0).v.toNat) := by omega
  have hty : defGprec.ty = .s := rfl
  rw [hty]
  simp only [defGprec, gprecOp, hclean, given_tN, haN, hlegal, Bool.false_eq_true, if_false]
  cases ht : targetRecv (given s 489 .s src) with
  | none => rfl
  | some r =>
    have hempty : (started s src).past = [] := hpast (by rw [ht]; rfl)
    dsimp only
    rw [acquire_of_past_nil _ _ hempty]
    rfl

end
end Sys2Proof.Machine
end

section
/-! SUPPORT. Cancels as they act at the end of their cycle (R131, R233, R263, R275). -/

namespace Sys2Proof.Machine

/-! ## Counting the commands of a token -/

theorem mexTok_eq (c : MexCmd) : mexTok c = param c.par 0x18 % 8 := by simp [mexTok, bits]

theorem bits_lt_eight (n : Nat) : bits n 2 0 < 8 := Nat.mod_lt _ (by decide)

section
variable {C K M : Type} {l : List (CtxId × Nat)} {w : CtxId} {tok : Nat}

theorem sum_map_eq_count (n : Nat) (T : List Nat) : (T.map fun tok => if n = tok then 1 else 0).sum = T.count n := by
  induction T with
  | nil => rfl
  | cons m T ih => simp [ih, List.count_cons, Nat.add_comm, @eq_comm _ n m]

/-- Commands of one issuer on tokens of a list, counted token by token. -/
theorem length_eq_sum_count {T : List Nat} (hT : T.Nodup) (hl : ∀ x ∈ l, x.1 = w ∧ x.2 ∈ T) : l.length = (T.map fun tok => l.count (w, tok)).sum := by
  induction l with
  | nil => simp
  | cons x l ih =>
    obtain ⟨hx, hmem⟩ := hl x List.mem_cons_self
    obtain ⟨a, n⟩ := x
    obtain rfl : a = w := hx
    have hstep : ∀ tok, ((a, n) :: l).count (a, tok) = l.count (a, tok) + if n = tok then 1 else 0 := by
      intro tok
      rw [List.count_cons]
      simp
    have hone : (T.map fun tok => if n = tok then 1 else 0).sum = 1 := (sum_map_eq_count n T).trans (List.count_eq_one_of_mem hT hmem)
    simp only [hstep, List.sum_map_add, hone, List.length_cons]
    rw [ih fun y hy => hl y (List.mem_cons_of_mem _ hy)]

/-- Of the commands a selection takes, those of one issuer and token, where it takes all of these. -/
theorem count_keys {q : List C} {key : C → CtxId × Nat} {sel : C → Bool} (h : ∀ c, key c = (w, tok) → sel c = true) :
    ((q.filter sel).map key).count (w, tok) = (q.filter fun c => (key c).1 == w && (key c).2 == tok).length := by
  rw [List.count, List.countP_map, List.countP_filter, List.countP_eq_length_filter]
  congr 1
  refine List.filter_congr fun c _ => ?_
  have hpair : ((fun x => x == (w, tok)) ∘ key) c = ((key c).1 == w && (key c).2 == tok) := rfl
  rw [hpair]
  by_cases hc : key c = (w, tok)
  · simp [hc, h c hc]
  · have : ((key c).1 == w && (key c).2 == tok) = false := by
      simpa [Prod.ext_iff] using hc
    simp [this]

theorem count_keys_flatMap {xs : List (K × M)} {q : M → List C} {key : C → CtxId × Nat} {sel : C → Bool} (h : ∀ c, key c = (w, tok) → sel c = true) :
    (xs.flatMap fun x => ((q x.2).filter sel).map key).count (w, tok)
      = (xs.map fun x => ((q x.2).filter fun c => (key c).1 == w && (key c).2 == tok).length).sum := by
  rw [List.count_flatMap]
  congr 1
  exact List.map_congr_left fun x _ => count_keys h

end

/-! ## The count that lands -/

section
variable {s t : State} {k : Cancel} {l : List (CtxId × Nat)} {n : Nat}

/-- The cancels of the cycle are taken out before they act. -/
def uncancelled (s : State) : State := { s with cancels := [] }

/-- How many commands a cancel took lands at the bundle after its own. -/
def landCount (k : Cancel) (r : Nat × State) : State :=
  match k.land with
  | some p => pushFlight k.who ⟨p, .latch k.unit false, .sc ⟨BitVec.ofNat 64 r.1, k.poison⟩, 0, 0, p - 1⟩ r.2
  | none => r.2

theorem sameEngines_landCount (k : Cancel) (r : Nat × State) : SameEngines r.2 (landCount k r) := by
  unfold landCount
  cases k.land <;> exact ⟨rfl, rfl, rfl, rfl⟩

theorem landCount_mem (k : Cancel) (r : Nat × State) : (landCount k r).mem = r.2.mem := by
  unfold landCount
  cases k.land <;> rfl

theorem landCount_cancels (k : Cancel) (r : Nat × State) : (landCount k r).cancels = r.2.cancels := by
  unfold landCount
  cases k.land <;> rfl

theorem getCtx_landCount (k : Cancel) (r : Nat × State) (w : CtxId) : ∃ fl, getCtx (landCount k r) w = { getCtx r.2 w with flight := fl } := by
  unfold landCount
  cases k.land with
  | none => exact ⟨_, rfl⟩
  | some p =>
    dsimp only
    rw [pushFlight, updCtx]
    by_cases hw : w = k.who
    · subst hw
      rw [getCtx_setCtx_same]
      exact ⟨_, rfl⟩
    · rw [getCtx_setCtx_ne _ _ hw]
      exact ⟨_, rfl⟩

/-- What a cancel comes to that completes commands on these tokens. -/
structure CancelActs (k : Cancel) (n : Nat) (l : List (CtxId × Nat)) (s u : State) : Prop where
  cancels : u.cancels = []
  counts : ∀ q, k.land = some q → (getCtx u k.who).flight = (getCtx s k.who).flight
    ++ [⟨q, .latch k.unit false, .sc ⟨BitVec.ofNat 64 n, k.poison⟩, 0, 0, q - 1⟩]
  falls : ∀ w tok, alive s w = true → tok < (getCtx s w).tokens.length →
    (getTok (getCtx u w) tok).count = (getTok (getCtx s w) tok).count - l.count (w, tok)
      ∧ (getTok (getCtx u w) tok).err = (getTok (getCtx s w) tok).err

theorem cancelActs_landCount (h : Serves l (uncancelled s) t) (k : Cancel) (n : Nat) : CancelActs k n l s (landCount k (n, t)) where
  cancels := (landCount_cancels k (n, t)).trans h.cancels
  counts q hq := by
    have hfl : (getCtx t k.who).flight = (getCtx s k.who).flight := (h.ctxs k.who).kept Ctx.flight fun _ _ _ _ _ _ _ _ => rfl
    simp only [landCount, hq, pushFlight, updCtx, getCtx_setCtx_same, hfl]
  falls w tok hw htok := by
    obtain ⟨fl, hc⟩ := getCtx_landCount k (n, t) w
    rw [hc]
    exact h.tokens w tok hw htok

/-- What a cancel does to the engines before its count lands, and the count. -/
def cancelRun (k : Cancel) (s : State) : Nat × State :=
  let named : CtxId → Nat → Bool := fun w t => w == k.who && bit (k.t % 256) t
  if k.unit = 5 then
    removeQueued (fun c => named c.who (mexTok c)) (fun c => named c.who (cpyTok c)) (fun c => named c.who (glzTok c.par)) (fun c => named c.who (rtcTok c)) s
  else if k.unit = 13 then cancelMex ⟨k.who.die, k.who.cl, k.eng⟩ k.who k.t s
  else if k.unit = 14 then cancelCpy ⟨k.who.die, k.eng⟩ k.who k.t s
  else match k.target with
    | some c => cancelGlz ⟨k.who.die, k.eng⟩ c k.a k.t s
    | none => (0, s)

theorem applyCancels_one (hs : s.cancels = [k]) : applyCancels s = landCount k (cancelRun k (uncancelled s)) := by
  rw [applyCancels, hs, List.foldl_cons, List.foldl_nil, applyCancel]
  unfold landCount cancelRun
  cases k.land <;> cases k.target <;> rfl

/-! ## TOKC (R131) -/

/-- The commands that TOKC names. -/
def tokcNames (k : Cancel) (w : CtxId) (tok : Nat) : Bool := w == k.who && bit (k.t % 256) tok

/-- How many queued commands of a context are on a token. -/
def queuedOn (s : State) (w : CtxId) (tok : Nat) : Nat :=
  (s.mex.map fun x => (x.2.queue.filter fun c => c.who == w && mexTok c == tok).length).sum
  + (s.cpy.map fun x => (x.2.queue.filter fun c => c.who == w && cpyTok c == tok).length).sum
  + (s.glz.map fun x => (x.2.queue.filter fun c => c.who == w && glzTok c.par == tok).length).sum
  + (s.rtc.map fun x => (x.2.queue.filter fun c => c.who == w && rtcTok c == tok).length).sum

/-- Every queued command of the selections. -/
def tokcKeys (k : Cancel) (s : State) : List (CtxId × Nat) := queuedKeys (fun c => tokcNames k c.who (mexTok c)) (fun c => tokcNames k c.who (cpyTok c))
  (fun c => tokcNames k c.who (glzTok c.par)) (fun c => tokcNames k c.who (rtcTok c)) s

theorem count_tokcKeys {w : CtxId} {tok : Nat} (h : tokcNames k w tok = true) (s : State) : (tokcKeys k s).count (w, tok) = queuedOn s w tok := by
  have hsel : ∀ {C : Type} {key : C → CtxId × Nat} (c : C), key c = (w, tok) → tokcNames k (key c).1 (key c).2 = true := fun c hc => by rw [hc]; exact h
  rw [tokcKeys, queuedKeys, List.count_append, List.count_append, List.count_append, queuedOn]
  congr 1
  · congr 1
    · congr 1
      · exact count_keys_flatMap (q := Mex.queue) (key := fun c => (c.who, mexTok c)) (sel := fun c => tokcNames k c.who (mexTok c)) hsel
      · exact count_keys_flatMap (q := Cpy.queue) (key := fun c => (c.who, cpyTok c)) (sel := fun c => tokcNames k c.who (cpyTok c)) hsel
    · exact count_keys_flatMap (q := Glz.queue) (key := fun c => (c.who, glzTok c.par)) (sel := fun c => tokcNames k c.who (glzTok c.par)) hsel
  · exact count_keys_flatMap (q := Rtc.queue) (key := fun c => (c.who, rtcTok c)) (sel := fun c => tokcNames k c.who (rtcTok c)) hsel

/-- What TOKC takes it has named, on one of the eight tokens. -/
theorem mem_tokcKeys {x : CtxId × Nat} (h : x ∈ tokcKeys k s) : tokcNames k x.1 x.2 = true ∧ x.2 < 8 := by
  simp only [tokcKeys, queuedKeys, List.mem_append, List.mem_flatMap, List.mem_map, List.mem_filter] at h
  rcases h with ((⟨m, -, c, ⟨-, hc⟩, rfl⟩ | ⟨m, -, c, ⟨-, hc⟩, rfl⟩) | ⟨m, -, c, ⟨-, hc⟩, rfl⟩) | ⟨m, -, c, ⟨-, hc⟩, rfl⟩ <;>
    exact ⟨hc, bits_lt_eight _⟩

theorem length_tokcKeys (k : Cancel) (s : State) : (tokcKeys k s).length = (((List.range 8).filter (bit (k.t % 256))).map (queuedOn s k.who)).sum := by
  have hT : ((List.range 8).filter (bit (k.t % 256))).Nodup := List.nodup_range.filter _
  rw [length_eq_sum_count (w := k.who) hT fun x hx => ?_]
  · congr 1
    refine List.map_congr_left fun tok htok => count_tokcKeys ?_ s
    simp [tokcNames, (List.mem_filter.1 htok).2]
  · obtain ⟨hn, hlt⟩ := mem_tokcKeys hx
    simp only [tokcNames, Bool.and_eq_true, beq_iff_eq] at hn
    exact ⟨hn.1, List.mem_filter.2 ⟨List.mem_range.2 hlt, hn.2⟩⟩

theorem falls_tokcKeys (w : CtxId) (tok : Nat) : (tokcKeys k s).count (w, tok) = if tokcNames k w tok then queuedOn s k.who tok else 0 := by
  split
  · next h =>
    have hw : w = k.who := by simpa [tokcNames] using (Bool.and_eq_true_iff.1 h).1
    rw [count_tokcKeys h, hw]
  · next h => exact List.count_eq_zero.2 fun hmem => h (mem_tokcKeys hmem).1

/-- TOKC at the end of its cycle. -/
theorem applyCancels_tokc (hs : s.cancels = [k]) (hu : k.unit = 5) :
    ∃ n l, CancelActs k n l s (applyCancels s) ∧ QueuesCut (fun c => tokcNames k c.who (mexTok c)) (fun c => tokcNames k c.who (cpyTok c))
      (fun c => tokcNames k c.who (glzTok c.par)) (fun c => tokcNames k c.who (rtcTok c)) s (applyCancels s)
      ∧ ((s.mex.map (·.1)).Nodup → (s.cpy.map (·.1)).Nodup → (s.glz.map (·.1)).Nodup → (s.rtc.map (·.1)).Nodup →
        n = l.length ∧ l = tokcKeys k s) := by
  have hrun : cancelRun k (uncancelled s) = removeQueued (fun c => tokcNames k c.who (mexTok c)) (fun c => tokcNames k c.who (cpyTok c))
      (fun c => tokcNames k c.who (glzTok c.par)) (fun c => tokcNames k c.who (rtcTok c)) (uncancelled s) := if_pos hu
  obtain ⟨l, hn, hserves, hcut, hkeys⟩ := removeQueued_spec (fun c => tokcNames k c.who (mexTok c)) (fun c => tokcNames k c.who (cpyTok c))
    (fun c => tokcNames k c.who (glzTok c.par)) (fun c => tokcNames k c.who (rtcTok c)) (uncancelled s)
  rw [applyCancels_one hs, hrun]
  refine ⟨_, l, cancelActs_landCount hserves k _, ?_, fun h1 h2 h3 h4 => ⟨hn, hkeys h1 h2 h3 h4⟩⟩
  exact QueuesCut.of_same ⟨rfl, rfl, rfl, rfl⟩ (hcut.trans_same (sameEngines_landCount k _))

/-! ## What a completion pays, and what it reports -/

theorem memDword_congr (h : s.mem = t.mem) (a : Nat) : memDword s a = memDword t a := by rw [memDword, memDword, memBytes, memBytes, h]

theorem noteDurable_mem (node : Option Nat) (pas : List Nat) (s : State) : (noteDurable node pas s).mem = s.mem := by
  cases node with
  | none => rfl
  | some m =>
    rw [noteDurable]
    cases getNode s m with
    | none => rfl
    | some d =>
      dsimp only
      split <;> rfl

/-- The cells that an update of a barrier word writes. -/
def barCells (w add : Nat) (arrive : Bool) (sub : Nat) (fl : BarFlags) (w0 w1 : Nat) : List WByte :=
  (toBytes 8 ((barFields w0 w1).update add arrive sub fl).1.word1).zipIdx.map fun (b, i) => (w + 8 + i, b)

theorem barUpdate_mem (w add : Nat) (arrive : Bool) (sub : Nat) (fl : BarFlags) (s : State) : (barUpdate w add arrive sub fl s).mem
    = writeCells (barCells w add arrive sub fl (memDword s w) (memDword s (w + 8))) s.mem := by
  rw [barUpdate]
  split <;> rfl

/-- What a payment writes depends on memory alone. -/
theorem pay_mem_congr (h : s.mem = t.mem) (who : CtxId) (bar : Option Nat) (cmd bytes : Nat) (fl : BarFlags) :
    (pay who bar cmd bytes fl s).mem = (pay who bar cmd bytes fl t).mem := by
  cases bar with
  | none => exact h
  | some w =>
    have hpay : ∀ u : State, (pay who (some w) cmd bytes fl u).mem = writeCells (barCells w 0 false bytes fl (memDword u w) (memDword u (w + 8))) u.mem := by
      intro u
      have hmem : (countTo (fun p => p.cmd == cmd) w (noteDurable (nodeOf u who) [w] u)).mem = u.mem := noteDurable_mem _ _ u
      have hupd := barUpdate_mem w 0 false bytes fl (countTo (fun p => p.cmd == cmd) w (noteDurable (nodeOf u who) [w] u))
      rw [memDword_congr hmem, memDword_congr hmem, hmem] at hupd
      exact hupd
    rw [hpay, hpay, memDword_congr h, memDword_congr h, h]

theorem completeToken_mem (who : CtxId) (tok : Nat) (failed : Bool) (st : Dword) (s : State) : (completeToken who tok failed st s).mem = s.mem := by
  rw [completeToken]
  split <;> rfl

theorem ite_updCtx_mem (p : Bool) (w : CtxId) (f : Ctx → Ctx) (s : State) : (if p then updCtx w f s else s).mem = s.mem := by
  split <;> rfl

theorem settlePast_mem (cmd : Nat) (s : State) : (settlePast cmd s).mem = s.mem := rfl

theorem completeMex_mem (e : EngId) (c : MexCmd) (s : State) : (completeMex e c 0 0 true s).mem
    = (pay c.who (localBar e.clId (param c.par 0x19)) c.seq (mexCount c) ⟨true, false, false⟩ s).mem :=
  (ite_updCtx_mem ..).trans ((completeToken_mem ..).trans (settlePast_mem ..))

theorem completeCpy_mem (e : DieEng) (c : CpyCmd) (bar : Option Nat) (chunk written : Nat) (s : State) :
    (completeCpy e c bar chunk written 0 0 none true s).mem
      = (pay c.who bar c.seq (cpyTotal c.par - cpyCounted c.par chunk) ⟨true, false, false⟩ s).mem :=
  (ite_updCtx_mem ..).trans ((completeToken_mem ..).trans (settlePast_mem ..))

/-- The status of a cancelled matrix command is the last of its engine. -/
theorem completeMex_mexLast (e : EngId) (c : MexCmd) {s : State} (ha : alive s c.who = true) (hlt : e.eng < (getCtx s c.who).mexLast.length) :
    (getCtx (completeMex e c 0 0 true s) c.who).mexLast.getD e.eng 0 = BitVec.ofNat 64 (mexStatus c e.eng 0 0 true) := by
  have hs := (((completes_pay c.who (localBar e.clId (param c.par 0x19)) c.seq (mexCount c) ⟨true, false, decide (0 ≠ 0)⟩ s).trans
    (completes_settlePast c.seq _)).trans (completes_completeToken c.who (mexTok c) (BitVec.ofNat 64 (mexStatus c e.eng 0 0 true)) _)).serves
  have hlt' := hlt
  rw [← (hs.ctxs c.who).lengths.2.1] at hlt'
  have hset : ∀ u : State, e.eng < (getCtx u c.who).mexLast.length → alive u c.who = true → (getCtx (if alive u c.who then updCtx c.who (fun x =>
      { x with mexLast := x.mexLast.set e.eng (BitVec.ofNat 64 (mexStatus c e.eng 0 0 true)) }) u else u) c.who).mexLast.getD e.eng 0
      = BitVec.ofNat 64 (mexStatus c e.eng 0 0 true) := by
    intro u hu hal
    rw [if_pos hal, updCtx, getCtx_setCtx_same]
    simp [hu]
  exact hset _ hlt' (hs.alive ha)

theorem getD_addReport {rs : List Report} {tok : Nat} (h : tok < rs.length) (failed : Bool) (st pr : Dword) :
    ((addReport tok failed st pr rs).getD tok .none).last = some (st, pr) := by
  simp [addReport, h]

/-- The status of a cancelled copy is the last that its token reports. -/
theorem completeCpy_report (e : DieEng) (c : CpyCmd) (bar : Option Nat) (chunk written : Nat) {s : State} (ha : alive s c.who = true)
    (hlt : cpyTok c < (getCtx s c.who).cpyRep.length) :
    ((getCtx (completeCpy e c bar chunk written 0 0 none true s) c.who).cpyRep.getD (cpyTok c) .none).last.map (·.1)
      = some (BitVec.ofNat 64 (cpyStatus c e.eng 0 0 true)) := by
  have hs := (((completes_pay c.who bar c.seq (cpyTotal c.par - cpyCounted c.par chunk) ⟨true, false, decide (0 ≠ 0)⟩ s).trans
    (completes_settlePast c.seq _)).trans (completes_completeToken c.who (cpyTok c) (BitVec.ofNat 64 (cpyStatus c e.eng 0 0 true)) _)).serves
  have hlt' := hlt
  rw [← (hs.ctxs c.who).lengths.2.2] at hlt'
  have hset : ∀ (u : State) (pr : Dword), cpyTok c < (getCtx u c.who).cpyRep.length → alive u c.who = true → ((getCtx (if alive u c.who then
      updCtx c.who (fun x => { x with cpyRep := addReport (cpyTok c) (decide (0 ≠ 0)) (BitVec.ofNat 64 (cpyStatus c e.eng 0 0 true)) pr x.cpyRep }) u
      else u) c.who).cpyRep.getD (cpyTok c) .none).last.map (·.1) = some (BitVec.ofNat 64 (cpyStatus c e.eng 0 0 true)) := by
    intro u pr hu hal
    rw [if_pos hal, updCtx, getCtx_setCtx_same, getD_addReport hu]
    rfl
  exact hset _ _ hlt' (hs.alive ha)

end

end Sys2Proof.Machine
end

section
/-! SUPPORT. The cancels of one engine (R233, R263, R275): MCAN, CCAN and GCAN when they act. -/

namespace Sys2Proof.Machine

section
variable {s t : State} {k : Cancel} {l : List (CtxId × Nat)} {n : Nat}

/-! ## The newest command -/

/-- The one command with the greatest issue event is the newest. -/
theorem newest_eq_some {α : Type} {seq : α → Nat} {xs : List α} {c : α} (hc : c ∈ xs) (hmax : ∀ d ∈ xs, d ≠ c → seq d < seq c) :
    newest seq xs = some c := by
  have hmem : c ∈ sortBy seq xs := mem_sortBy.2 hc
  rw [newest]
  cases hl : (sortBy seq xs).getLast? with
  | none => rw [List.getLast?_eq_none_iff.1 hl] at hmem; cases hmem
  | some d =>
    obtain ⟨ys, hys⟩ := List.getLast?_eq_some_iff.1 hl
    have hd : d ∈ xs := mem_sortBy.1 (hys ▸ List.mem_append_right ys List.mem_cons_self)
    by_contra hne
    have hdc : d ≠ c := fun h => hne (congrArg some h)
    have hpair := pairwise_sortBy (key := seq) (r := fun _ _ => True) (l := xs) (List.pairwise_of_forall fun _ _ => trivial)
    rw [hys, List.pairwise_append] at hpair
    rw [hys] at hmem
    have hle : seq c ≤ seq d := by
      rcases List.mem_append.1 hmem with h | h
      · exact (hpair.2.2 c h d List.mem_cons_self).elim Nat.le_of_lt fun h => h.1.le
      · exact absurd (List.mem_singleton.1 h).symm hdc
    exact absurd (hmax d hd hdc) (Nat.not_lt.2 hle)

theorem newest_nil {α : Type} (seq : α → Nat) : newest seq [] = none := rfl

/-- The newest of one issuer's commands. -/
theorem newest_of_who {α : Type} {seq : α → Nat} {who : α → CtxId} {w : CtxId} {xs : List α} {c : α} (hc : c ∈ xs) (hw : who c = w)
    (hmax : ∀ d ∈ xs, who d = w → d ≠ c → seq d < seq c) : newest seq (xs.filter fun d => who d == w) = some c :=
  newest_eq_some (List.mem_filter.2 ⟨hc, beq_iff_eq.2 hw⟩) fun d hd hne =>
    hmax d (List.mem_filter.1 hd).1 (beq_iff_eq.1 (List.mem_filter.1 hd).2) hne

/-- Commands on a token of an issuer. -/
theorem count_map_key {C : Type} (q : List C) (key : C → CtxId × Nat) (w : CtxId) (tok : Nat) :
    (q.map key).count (w, tok) = (q.filter fun c => (key c).1 == w && (key c).2 == tok).length := by
  have h := count_keys (q := q) (key := key) (w := w) (tok := tok) (sel := fun _ => true) fun _ _ => rfl
  rwa [List.filter_true] at h

/-! ## MCAN (R233) -/

theorem removeMex_congr {e : EngId} {sel sel' : MexCmd → Bool} (h : ∀ c ∈ (getMex s e).queue, sel c = sel' c) :
    removeMex e sel s = removeMex e sel' s := by
  have hnot : (getMex s e).queue.filter (fun c => !sel c) = (getMex s e).queue.filter fun c => !sel' c :=
    List.filter_congr fun c hc => by rw [h c hc]
  rw [removeMex, removeMex, List.filter_congr h, hnot]

/-- MCAN has taken the queued commands of a selection, and these alone. -/
def MexTakes (k : Cancel) (sel : MexCmd → Bool) (s u : State) : Prop :=
  let e : EngId := ⟨k.who.die, k.who.cl, k.eng⟩
  let gone := (getMex s e).queue.filter sel
  (getMex u e).queue = (getMex s e).queue.filter (fun c => !sel c) ∧ (getMex u e).runs = (getMex s e).runs ∧ (∀ f, f ≠ e → getMex u f = getMex s f)
  ∧ (∀ q, k.land = some q → (getCtx u k.who).flight = (getCtx s k.who).flight
    ++ [⟨q, .latch k.unit false, .sc ⟨BitVec.ofNat 64 gone.length, k.poison⟩, 0, 0, q - 1⟩])
  ∧ (∀ w tok, alive s w = true → tok < (getCtx s w).tokens.length →
    (getTok (getCtx u w) tok).count = (getTok (getCtx s w) tok).count - (gone.filter fun c => c.who == w && param c.par 0x18 % 8 == tok).length
      ∧ (getTok (getCtx u w) tok).err = (getTok (getCtx s w) tok).err)
  ∧ ∀ c, gone = [c] → u.mem = (pay c.who (localBar e.clId (param c.par 0x19)) c.seq (mexCount c) ⟨true, false, false⟩ s).mem
    ∧ (alive s c.who = true → e.eng < (getCtx s c.who).mexLast.length →
      (getCtx u c.who).mexLast.getD e.eng 0 = BitVec.ofNat 64 (mexStatus c e.eng 0 0 true))

theorem removeMex_single {e : EngId} {sel : MexCmd → Bool} {c : MexCmd} (h : (getMex s e).queue.filter sel = [c]) :
    (removeMex e sel s).2 = completeMex e c 0 0 true (setMex e (cutMex sel (getMex s e)) s) := by
  rw [removeMex, h]
  rfl

theorem mexTakes_of_run {sel : MexCmd → Bool} (hs : s.cancels = [k])
    (hrun : cancelRun k (uncancelled s) = removeMex ⟨k.who.die, k.who.cl, k.eng⟩ sel (uncancelled s)) : MexTakes k sel s (applyCancels s) := by
  have hremove := completes_removeMex ⟨k.who.die, k.who.cl, k.eng⟩ sel (uncancelled s)
  simp only [mexTok_eq] at hremove
  have hserves : Serves _ (uncancelled s) _ := hremove.after_set rfl rfl rfl
  have hacts := cancelActs_landCount hserves k (removeMex ⟨k.who.die, k.who.cl, k.eng⟩ sel (uncancelled s)).1
  have hmex := (hremove.engines.trans (sameEngines_landCount k (removeMex ⟨k.who.die, k.who.cl, k.eng⟩ sel (uncancelled s)))).mex
  rw [applyCancels_one hs, hrun]
  have hsame : getMex (landCount k (removeMex ⟨k.who.die, k.who.cl, k.eng⟩ sel (uncancelled s))) ⟨k.who.die, k.who.cl, k.eng⟩
      = cutMex sel (getMex s ⟨k.who.die, k.who.cl, k.eng⟩) := (hmex _).trans (getMex_setMex_same ..)
  refine ⟨congrArg Mex.queue hsame, (congrArg Mex.runs hsame).trans rfl,
    fun f hf => (hmex f).trans (getMex_setMex_ne _ _ hf), hacts.counts, fun w tok hw htok => ?_,
    fun c hc => ?_⟩
  · have hcount := count_map_key ((getMex s ⟨k.who.die, k.who.cl, k.eng⟩).queue.filter sel) (fun c => (c.who, param c.par 0x18 % 8)) w tok
    dsimp only at hcount
    rw [← hcount]
    exact hacts.falls w tok hw htok
  · have hone := removeMex_single (s := uncancelled s) (sel := sel) hc
    refine ⟨?_, fun hal hlt => ?_⟩
    · rw [landCount_mem, hone, completeMex_mem]
      exact pay_mem_congr (s := setMex _ _ (uncancelled s)) (t := s) rfl ..
    · obtain ⟨fl, hctx⟩ := getCtx_landCount k (removeMex ⟨k.who.die, k.who.cl, k.eng⟩ sel (uncancelled s)) c.who
      rw [hctx, hone]
      exact completeMex_mexLast _ c (s := setMex _ _ (uncancelled s)) hal hlt

theorem cancelRun_mex (hu : k.unit = 13) (s : State) : cancelRun k s = cancelMex ⟨k.who.die, k.who.cl, k.eng⟩ k.who k.t s := by
  rw [cancelRun, hu]
  rfl

/-- MCAN with t 0 takes the commands of its context. -/
theorem mcan_own (hs : s.cancels = [k]) (hu : k.unit = 13) (ht : k.t = 0) : MexTakes k (fun c => c.who == k.who) s (applyCancels s) :=
  mexTakes_of_run hs (by
    rw [cancelRun_mex hu, cancelMex, ht]
    rfl)
/-- With t 2 it takes those of every context. -/
theorem mcan_all (hs : s.cancels = [k]) (hu : k.unit = 13) (ht : k.t = 2) : MexTakes k (fun _ => true) s (applyCancels s) :=
  mexTakes_of_run hs (by
    rw [cancelRun_mex hu, cancelMex, ht]
    rfl)

/-- With t 1 it takes what agrees with the newest command of its context. -/
theorem mcan_newest {sel : MexCmd → Bool} (hs : s.cancels = [k]) (hu : k.unit = 13) (ht : k.t = 1)
    (hsel : ∀ c ∈ (getMex s ⟨k.who.die, k.who.cl, k.eng⟩).queue, ((newest MexCmd.seq ((getMex s ⟨k.who.die, k.who.cl, k.eng⟩).queue.filter
      fun c => c.who == k.who)).map (·.seq) == some c.seq) = sel c) : MexTakes k sel s (applyCancels s) :=
  mexTakes_of_run hs (by
    rw [cancelRun_mex hu, cancelMex, ht]
    exact removeMex_congr hsel)

/-- It takes none where its context has none. -/
theorem mcan_newest_none (hs : s.cancels = [k]) (hu : k.unit = 13) (ht : k.t = 1)
    (hnone : ∀ c ∈ (getMex s ⟨k.who.die, k.who.cl, k.eng⟩).queue, c.who ≠ k.who) : MexTakes k (fun _ => false) s (applyCancels s) :=
  mcan_newest hs hu ht fun c _ => by
    rw [List.filter_eq_nil_iff.2 fun d hd => by simpa using hnone d hd, newest_nil]
    rfl

/-- Else its newest one, where no other command bears the same issue event. -/
theorem mcan_newest_one {c : MexCmd} (hs : s.cancels = [k]) (hu : k.unit = 13) (ht : k.t = 1)
    (hc : c ∈ (getMex s ⟨k.who.die, k.who.cl, k.eng⟩).queue) (hw : c.who = k.who)
    (hmax : ∀ d ∈ (getMex s ⟨k.who.die, k.who.cl, k.eng⟩).queue, d.who = k.who → d ≠ c → d.seq < c.seq)
    (hone : ∀ d ∈ (getMex s ⟨k.who.die, k.who.cl, k.eng⟩).queue, d.seq = c.seq → d = c) : MexTakes k (fun d => d == c) s (applyCancels s) :=
  mcan_newest hs hu ht fun d hd => by
    rw [newest_of_who hc hw hmax, Option.map_some, Bool.eq_iff_iff, beq_iff_eq, beq_iff_eq]
    exact ⟨fun h => hone d hd (Option.some.inj h).symm, fun h => h ▸ rfl⟩

/-! ## CCAN (R263) -/

/-- Started copies of a selection take no new chunk, beside those that already took none. -/
def stopCopies (e : DieEng) (sel : CpyCmd → Bool) (r : Nat × State) : Nat × State :=
  let hit : CpyRun → Bool := fun x => sel x.cmd && !x.cancelling
  let m := getCpy r.2 e
  (r.1 + (m.runs.filter hit).length, setCpy e { m with runs := m.runs.map fun x => if hit x then { x with cancelling := true } else x } r.2)

/-- What CCAN names, by its operand. -/
def ccanNames (who : CtxId) (t : Nat) (all : List CpyCmd) (c : CpyCmd) : Bool :=
  c.who == who && (if t % 4 = 0 then true
    else if t % 4 = 1 then (newest CpyCmd.seq (all.filter fun c => c.who == who)).map (·.seq) == some c.seq else cpyTok c == bits t 6 4)

theorem cancelCpy_eq (e : DieEng) (who : CtxId) (t : Nat) (s : State) : cancelCpy e who t s
    = stopCopies e (ccanNames who t ((getCpy s e).queue ++ (getCpy s e).runs.map (·.cmd)))
      (removeCpy e (ccanNames who t ((getCpy s e).queue ++ (getCpy s e).runs.map (·.cmd))) s) := rfl

theorem getCpy_removeCpy (e : DieEng) (sel : CpyCmd → Bool) (s : State) : getCpy (removeCpy e sel s).2 e = cutCpy sel (getCpy s e) :=
  ((completes_removeCpy e sel s).engines.cpy e).trans (getCpy_setCpy_same ..)

theorem removeCpy_congr {e : DieEng} {sel sel' : CpyCmd → Bool} (h : ∀ c ∈ (getCpy s e).queue, sel c = sel' c) :
    removeCpy e sel s = removeCpy e sel' s := by
  have hnot : (getCpy s e).queue.filter (fun c => !sel c) = (getCpy s e).queue.filter fun c => !sel' c :=
    List.filter_congr fun c hc => by rw [h c hc]
  rw [removeCpy, removeCpy, List.filter_congr h, hnot]

theorem stopCopies_congr {e : DieEng} {sel sel' : CpyCmd → Bool} {r : Nat × State} (h : ∀ x ∈ (getCpy r.2 e).runs, sel x.cmd = sel' x.cmd) :
    stopCopies e sel r = stopCopies e sel' r := by
  have hfilter : (getCpy r.2 e).runs.filter (fun x => sel x.cmd && !x.cancelling) = (getCpy r.2 e).runs.filter fun x => sel' x.cmd && !x.cancelling :=
    List.filter_congr fun x hx => by rw [h x hx]
  have hmap : (getCpy r.2 e).runs.map (fun x => if sel x.cmd && !x.cancelling then { x with cancelling := true } else x)
      = (getCpy r.2 e).runs.map fun x => if sel' x.cmd && !x.cancelling then { x with cancelling := true } else x :=
    List.map_congr_left fun x hx => by rw [h x hx]
  rw [stopCopies, stopCopies, hfilter, hmap]

/-- CCAN has taken the queued copies of a selection and stopped the started ones, and these alone. -/
def CpyTakes (k : Cancel) (sel : CpyCmd → Bool) (s u : State) : Prop :=
  let e : DieEng := ⟨k.who.die, k.eng⟩
  let gone := (getCpy s e).queue.filter sel
  let rs := (getCpy s e).runs
  (getCpy u e).queue = (getCpy s e).queue.filter (fun c => !sel c)
  ∧ (getCpy u e).runs = rs.map (fun r => if sel r.cmd then { r with cancelling := true } else r)
  ∧ (∀ f, f ≠ e → getCpy u f = getCpy s f)
  ∧ (∀ q, k.land = some q → (getCtx u k.who).flight = (getCtx s k.who).flight
    ++ [⟨q, .latch k.unit false, .sc ⟨BitVec.ofNat 64 (gone.length + (rs.filter fun r => sel r.cmd && !r.cancelling).length), k.poison⟩, 0, 0, q - 1⟩])
  ∧ (∀ w tok, alive s w = true → tok < (getCtx s w).tokens.length →
    (getTok (getCtx u w) tok).count = (getTok (getCtx s w) tok).count - (gone.filter fun c => c.who == w && cpyTok c == tok).length
      ∧ (getTok (getCtx u w) tok).err = (getTok (getCtx s w) tok).err)
  ∧ ∀ c, gone = [c] → u.mem = (pay c.who (cpyBar s c) c.seq (cpyTotal c.par - cpyCounted c.par c.chunk) ⟨true, false, false⟩ s).mem
    ∧ (alive s c.who = true → cpyTok c < (getCtx s c.who).cpyRep.length →
      ((getCtx u c.who).cpyRep.getD (cpyTok c) .none).last.map (·.1) = some (BitVec.ofNat 64 (cpyStatus c e.eng 0 0 true)))

theorem removeCpy_single {e : DieEng} {sel : CpyCmd → Bool} {c : CpyCmd} (h : (getCpy s e).queue.filter sel = [c]) :
    (removeCpy e sel s).2 = completeCpy e c (cpyBar (setCpy e (cutCpy sel (getCpy s e)) s) c) c.chunk c.written 0 0 none true
      (setCpy e (cutCpy sel (getCpy s e)) s) := by
  rw [removeCpy, h]
  rfl

/-- The barrier word of a copy does not depend on the copy engines. -/
theorem cpyBar_setCpy (e : DieEng) (m : Cpy) (c : CpyCmd) (s : State) : cpyBar (setCpy e m (uncancelled s)) c = cpyBar s c := rfl

theorem stopped_map (sel : CpyCmd → Bool) (rs : List CpyRun) :
    (rs.map fun x => if sel x.cmd && !x.cancelling then { x with cancelling := true } else x)
      = rs.map fun x => if sel x.cmd then { x with cancelling := true } else x := by
  refine List.map_congr_left fun x _ => ?_
  cases hx : x.cancelling
  · simp
  · cases x
    simp_all

theorem cpyTakes_of_run {sel : CpyCmd → Bool} (hs : s.cancels = [k])
    (hrun : cancelRun k (uncancelled s) = stopCopies ⟨k.who.die, k.eng⟩ sel (removeCpy ⟨k.who.die, k.eng⟩ sel (uncancelled s))) :
    CpyTakes k sel s (applyCancels s) := by
  have hremove := completes_removeCpy ⟨k.who.die, k.eng⟩ sel (uncancelled s)
  have hget := getCpy_removeCpy ⟨k.who.die, k.eng⟩ sel (uncancelled s)
  have hserves : Serves _ (uncancelled s) (removeCpy ⟨k.who.die, k.eng⟩ sel (uncancelled s)).2 := hremove.after_set rfl rfl rfl
  have hstop := hserves.trans (serves_of_same
    (t := (stopCopies ⟨k.who.die, k.eng⟩ sel (removeCpy ⟨k.who.die, k.eng⟩ sel (uncancelled s))).2) rfl rfl rfl)
  rw [List.append_nil] at hstop
  have hacts := cancelActs_landCount hstop k (stopCopies ⟨k.who.die, k.eng⟩ sel (removeCpy ⟨k.who.die, k.eng⟩ sel (uncancelled s))).1
  have hcpy := (sameEngines_landCount k (stopCopies ⟨k.who.die, k.eng⟩ sel (removeCpy ⟨k.who.die, k.eng⟩ sel (uncancelled s)))).cpy
  have hruns : (getCpy (removeCpy ⟨k.who.die, k.eng⟩ sel (uncancelled s)).2 ⟨k.who.die, k.eng⟩).runs = (getCpy s ⟨k.who.die, k.eng⟩).runs := by
    rw [hget]
    rfl
  have hcount : (stopCopies ⟨k.who.die, k.eng⟩ sel (removeCpy ⟨k.who.die, k.eng⟩ sel (uncancelled s))).1
      = ((getCpy s ⟨k.who.die, k.eng⟩).queue.filter sel).length
        + ((getCpy s ⟨k.who.die, k.eng⟩).runs.filter fun r => sel r.cmd && !r.cancelling).length := by
    rw [stopCopies, hruns]
    rfl
  rw [applyCancels_one hs, hrun]
  refine ⟨?_, ?_, fun f hf => ?_, ?_, fun w tok hw htok => ?_, fun c hc => ?_⟩
  · rw [hcpy, stopCopies, getCpy_setCpy_same, hget]
    rfl
  · rw [hcpy, stopCopies, getCpy_setCpy_same, ← stopped_map, hruns]
  · rw [hcpy, stopCopies, getCpy_setCpy_ne _ _ hf, hremove.engines.cpy, getCpy_setCpy_ne _ _ hf]
    rfl
  · rw [← hcount]
    exact hacts.counts
  · have hfall := count_map_key ((getCpy s ⟨k.who.die, k.eng⟩).queue.filter sel) (fun c => (c.who, cpyTok c)) w tok
    dsimp only at hfall
    rw [← hfall]
    exact hacts.falls w tok hw htok
  · have hone := removeCpy_single (s := uncancelled s) (sel := sel) hc
    refine ⟨?_, fun hal hlt => ?_⟩
    · rw [landCount_mem, stopCopies, hone]
      exact (completeCpy_mem ..).trans (pay_mem_congr (s := setCpy _ _ (uncancelled s)) (t := s) rfl ..)
    · obtain ⟨fl, hctx⟩ := getCtx_landCount k (stopCopies ⟨k.who.die, k.eng⟩ sel (removeCpy ⟨k.who.die, k.eng⟩ sel (uncancelled s))) c.who
      rw [hctx, stopCopies, hone]
      exact completeCpy_report _ c _ _ _ (s := setCpy _ _ (uncancelled s)) hal hlt

theorem getCpy_uncancelled (e : DieEng) (s : State) : getCpy (uncancelled s) e = getCpy s e := rfl

theorem cancelRun_cpy (hu : k.unit = 14) (s : State) : cancelRun k s = cancelCpy ⟨k.who.die, k.eng⟩ k.who k.t s := by
  rw [cancelRun, hu]
  rfl

/-- CCAN takes what agrees with its names on the copies of its engine. -/
theorem ccan_takes {sel : CpyCmd → Bool} (hs : s.cancels = [k]) (hu : k.unit = 14)
    (hsel : ∀ c ∈ (getCpy s ⟨k.who.die, k.eng⟩).queue ++ (getCpy s ⟨k.who.die, k.eng⟩).runs.map (·.cmd),
      ccanNames k.who k.t ((getCpy s ⟨k.who.die, k.eng⟩).queue ++ (getCpy s ⟨k.who.die, k.eng⟩).runs.map (·.cmd)) c = sel c) :
    CpyTakes k sel s (applyCancels s) := by
  refine cpyTakes_of_run hs ?_
  rw [cancelRun_cpy hu, cancelCpy_eq, getCpy_uncancelled, removeCpy_congr (s := uncancelled s) fun c hc => hsel c (List.mem_append_left _ hc)]
  refine stopCopies_congr fun x hx => hsel x.cmd (List.mem_append_right _ (List.mem_map_of_mem ?_))
  rwa [getCpy_removeCpy] at hx

/-- With t mod 4 = 0 it takes the copies of its context. -/
theorem ccan_own (hs : s.cancels = [k]) (hu : k.unit = 14) (ht : k.t % 4 = 0) : CpyTakes k (fun c => c.who == k.who) s (applyCancels s) :=
  ccan_takes hs hu fun c _ => by rw [ccanNames, if_pos ht, Bool.and_true]

/-- With t mod 4 = 2 those of one token. -/
theorem ccan_token (hs : s.cancels = [k]) (hu : k.unit = 14) (ht : k.t % 4 = 2) :
    CpyTakes k (fun c => c.who == k.who && cpyTok c == k.t / 16 % 8) s (applyCancels s) :=
  ccan_takes hs hu fun c _ => by
    rw [ccanNames, if_neg (by omega), if_neg (by omega)]
    rfl

/-- With t mod 4 = 1 none where its context has none. -/
theorem ccan_newest_none (hs : s.cancels = [k]) (hu : k.unit = 14)
    (hnone : ∀ c ∈ (getCpy s ⟨k.who.die, k.eng⟩).queue ++ (getCpy s ⟨k.who.die, k.eng⟩).runs.map (·.cmd), c.who ≠ k.who) :
    CpyTakes k (fun _ => false) s (applyCancels s) :=
  ccan_takes hs hu fun c hc => by rw [ccanNames, beq_eq_false_iff_ne.2 (hnone c hc), Bool.false_and]

/-- Else its newest copy. -/
theorem ccan_newest {c : CpyCmd} (hs : s.cancels = [k]) (hu : k.unit = 14) (ht : k.t % 4 = 1)
    (hc : c ∈ (getCpy s ⟨k.who.die, k.eng⟩).queue ++ (getCpy s ⟨k.who.die, k.eng⟩).runs.map (·.cmd)) (hw : c.who = k.who)
    (hmax : ∀ d ∈ (getCpy s ⟨k.who.die, k.eng⟩).queue ++ (getCpy s ⟨k.who.die, k.eng⟩).runs.map (·.cmd), d.who = k.who → d ≠ c → d.seq < c.seq) :
    CpyTakes k (fun d => d == c) s (applyCancels s) :=
  ccan_takes hs hu fun d hd => by
    rw [ccanNames, if_neg (by omega), if_pos ht, newest_of_who hc hw hmax]
    by_cases hdc : d = c
    · subst hdc
      simp [hw]
    · rw [beq_eq_false_iff_ne.2 hdc, Bool.and_eq_false_iff]
      by_cases hdw : d.who = k.who
      · right
        simpa using (hmax d hd hdw hdc).ne'
      · exact .inl (beq_eq_false_iff_ne.2 hdw)

end

end Sys2Proof.Machine
end

section
/-! SUPPORT. GCAN when it acts (R275): blocks cancelled before the match, contributors told after it. -/

namespace Sys2Proof.Machine

section
variable {s t : State} {k : Cancel}

theorem completes_sendMessage (kind : Nat) (fields : List Nat) (p : Nat) (s : State) : Completes [] s (sendMessage kind fields p s) := by
  have hsame : Completes [] s (sendFlits p (flitsOf (Config.peerPayload kind fields).length (Config.peerPayload kind fields)) s) :=
    completes_of_same rfl rfl rfl ⟨rfl, rfl, rfl, rfl⟩
  exact completes_ite hsame

theorem completes_tellMembers (kind part group tag : Nat) (fields : List Nat) (s : State) : Completes [] s (tellMembers kind part group tag fields s) :=
  .foldl_nil (f := fun s p => sendMessage kind ([part, group, tag] ++ fields) p s) (fun s p => completes_sendMessage kind _ p s) _ s

theorem completes_cancelBlocks (c : GlzCmd) (ks : List Nat) (s : State) : Completes [] s (ks.foldl (fun s b => cancelBlock c b s) s) :=
  .foldl_nil (f := fun s b => cancelBlock c b s) (fun s b => completes_cancelBlock c b s) ks s

/-- The blocks that GCAN newly names are the free ones of its range. -/
theorem namedBlocks_eq (total a n : Nat) (taken : Nat → Bool) :
    namedBlocks total a n taken = (List.range total).filter fun b => decide (a ≤ b) && decide (b < a + n) && !taken b := by
  rw [namedBlocks, List.filter_filter]
  exact List.filter_congr fun b _ => Bool.and_comm ..

/-- What a cancel that has acted on the glaze engine of its context leaves there. -/
theorem gcan_acts {n : Nat} {m : Glz} (hs : s.cancels = [k]) (hrun : cancelRun k (uncancelled s) = (n, t))
    (h : Completes [] (setGlz ⟨k.who.die, k.eng⟩ m (uncancelled s)) t) :
    CancelActs k n [] s (applyCancels s) ∧ getGlz (applyCancels s) ⟨k.who.die, k.eng⟩ = m := by
  have hserves : Serves [] (uncancelled s) t := h.after_set rfl rfl rfl
  rw [applyCancels_one hs, hrun]
  exact ⟨cancelActs_landCount hserves k n,
    ((sameEngines_landCount k (n, t)).glz _).trans ((h.engines.glz _).trans (getGlz_setGlz_same ..))⟩

theorem gcan_idle (hs : s.cancels = [k]) (hrun : cancelRun k (uncancelled s) = (0, uncancelled s)) :
    CancelActs k 0 [] s (applyCancels s) ∧ getGlz (applyCancels s) ⟨k.who.die, k.eng⟩ = getGlz s ⟨k.who.die, k.eng⟩ := by
  rw [applyCancels_one hs, hrun]
  exact ⟨cancelActs_landCount (.refl _) k 0, (sameEngines_landCount k (0, uncancelled s)).glz _⟩

theorem cancelRun_glz (hu : k.unit = 15) (s : State) : cancelRun k s
    = match k.target with
      | some c => cancelGlz ⟨k.who.die, k.eng⟩ c k.a k.t s
      | none => (0, s) := by
  rw [cancelRun, hu]
  rfl

/-- GCAN without a target does nothing. -/
theorem gcan_none (hs : s.cancels = [k]) (hu : k.unit = 15) (ht : k.target = none) :
    CancelActs k 0 [] s (applyCancels s) ∧ getGlz (applyCancels s) ⟨k.who.die, k.eng⟩ = getGlz s ⟨k.who.die, k.eng⟩ :=
  gcan_idle hs (by rw [cancelRun_glz hu, ht])

/-- A queued receive with the blocks `ks` noted as cancelled. -/
def preCancelled (seq : Nat) (ks : List Nat) (m : Glz) : Glz :=
  { m with queue := m.queue.map fun x => if x.seq = seq then { x with pre := x.pre ++ ks } else x }

/-- A queued receive: its free blocks are noted. -/
theorem gcan_queued {seq : Nat} {c : GlzCmd} {ks : List Nat} (hs : s.cancels = [k]) (hu : k.unit = 15) (ht : k.target = some seq)
    (hc : (getGlz s ⟨k.who.die, k.eng⟩).queue.find? (fun c => c.seq == seq) = some c)
    (hks : ks = (List.range (glzBlocks s c)).filter fun b => decide (k.a ≤ b) && decide (b < k.a + k.t) && !c.pre.contains b) :
    CancelActs k ks.length [] s (applyCancels s)
      ∧ getGlz (applyCancels s) ⟨k.who.die, k.eng⟩ = preCancelled seq ks (getGlz s ⟨k.who.die, k.eng⟩) := by
  refine gcan_acts hs (t := ks.foldl (fun s b => cancelBlock c b s) (setGlz ⟨k.who.die, k.eng⟩
    (preCancelled seq ks (getGlz s ⟨k.who.die, k.eng⟩)) (uncancelled s))) ?_ (completes_cancelBlocks c ks _)
  have hc' : (getGlz (uncancelled s) ⟨k.who.die, k.eng⟩).queue.find? (fun c => c.seq == seq) = some c := hc
  rw [cancelRun_glz hu, ht, hks, ← namedBlocks_eq]
  simp only [cancelGlz, hc']
  rfl

/-- A started receive, with what a cancel of the blocks `ks` makes of it. -/
def cancelledRun (ks : List Nat) (r : GlzRun) : GlzRun :=
  if r.matched then { r with cancelling := r.cancelling ++ ks }
  else { r with cancelled := true, blocks := r.blocks.zipIdx.map fun y => if ks.contains y.2 then { y.1 with flag := 0x40, paid := true } else y.1 }

/-- A glaze engine whose started receive is replaced. -/
def replacedRun (seq : Nat) (r : GlzRun) (m : Glz) : Glz := { m with runs := m.runs.map fun x => if x.cmd.seq = seq then r else x }

/-- The free blocks of a started receive that GCAN names. -/
def freeBlocks (k : Cancel) (r : GlzRun) : List Nat :=
  (List.range r.blocks.length).filter fun b => decide (k.a ≤ b) && decide (b < k.a + k.t)
    && ((r.blocks.getD b ⟨[], 0, false, false⟩).flag == 0 && !r.cancelling.contains b)

theorem namedBlocks_run (k : Cancel) (r : GlzRun) : namedBlocks r.blocks.length k.a k.t
    (fun b => (r.blocks.getD b ⟨[], 0, false, false⟩).flag != 0 || r.cancelling.contains b) = freeBlocks k r := by
  rw [namedBlocks_eq, freeBlocks]
  exact List.filter_congr fun b _ => by rw [Bool.not_or, bne, Bool.not_not]

theorem cancelGlz_started {seq : Nat} {r : GlzRun} {e : DieEng} (hq : (getGlz s e).queue.find? (fun c => c.seq == seq) = none)
    (hr : (getGlz s e).runs.find? (fun r => r.cmd.seq == seq) = some r) : cancelGlz e seq k.a k.t s
      = if (freeBlocks k r).isEmpty then (0, s)
        else if r.matched then ((freeBlocks k r).length, tellMembers 2 (partOf s r.cmd.who) (glzGroup r.cmd.par) (glzTag r.cmd.par)
          (glzSelf r.cmd.par :: freeBlocks k r) (setGlz e (replacedRun seq { r with cancelling := r.cancelling ++ freeBlocks k r } (getGlz s e)) s))
        else ((freeBlocks k r).length, (freeBlocks k r).foldl (fun s b => cancelBlock r.cmd b s) (setGlz e (replacedRun seq { r with
          cancelled := true,
          blocks := r.blocks.zipIdx.map fun y => if (freeBlocks k r).contains y.2 then { y.1 with flag := 0x40, paid := true } else y.1 }
          (getGlz s e)) s)) := by
  rw [← namedBlocks_run]
  simp only [cancelGlz, hq, hr]
  rfl

/-- A started receive of which GCAN names no free block stays as it is. -/
theorem gcan_started_nil {seq : Nat} {r : GlzRun} (hs : s.cancels = [k]) (hu : k.unit = 15) (ht : k.target = some seq)
    (hq : (getGlz s ⟨k.who.die, k.eng⟩).queue.find? (fun c => c.seq == seq) = none)
    (hr : (getGlz s ⟨k.who.die, k.eng⟩).runs.find? (fun r => r.cmd.seq == seq) = some r) (hks : freeBlocks k r = []) :
    CancelActs k (freeBlocks k r).length [] s (applyCancels s)
      ∧ getGlz (applyCancels s) ⟨k.who.die, k.eng⟩ = getGlz s ⟨k.who.die, k.eng⟩ := by
  have hrun := cancelGlz_started (k := k) (s := uncancelled s) hq hr
  rw [hks] at hrun ⊢
  exact gcan_idle hs (by rw [cancelRun_glz hu, ht]; exact hrun)

/-- A started receive: told to its contributors after the match, cancelled at once before it. -/
theorem gcan_started {seq : Nat} {r : GlzRun} (hs : s.cancels = [k]) (hu : k.unit = 15) (ht : k.target = some seq)
    (hq : (getGlz s ⟨k.who.die, k.eng⟩).queue.find? (fun c => c.seq == seq) = none)
    (hr : (getGlz s ⟨k.who.die, k.eng⟩).runs.find? (fun r => r.cmd.seq == seq) = some r) (hks : freeBlocks k r ≠ []) :
    CancelActs k (freeBlocks k r).length [] s (applyCancels s)
      ∧ getGlz (applyCancels s) ⟨k.who.die, k.eng⟩ = replacedRun seq (cancelledRun (freeBlocks k r) r) (getGlz s ⟨k.who.die, k.eng⟩) := by
  have hrun := cancelGlz_started (k := k) (s := uncancelled s) hq hr
  have hne : ¬(freeBlocks k r).isEmpty = true := by rwa [List.isEmpty_iff]
  rw [if_neg hne] at hrun
  rw [cancelledRun]
  by_cases hm : r.matched = true
  · rw [if_pos hm] at hrun ⊢
    exact gcan_acts hs (by rw [cancelRun_glz hu, ht]; exact hrun) (completes_tellMembers ..)
  · rw [if_neg hm] at hrun ⊢
    exact gcan_acts hs (by rw [cancelRun_glz hu, ht]; exact hrun) (completes_cancelBlocks ..)

end

end Sys2Proof.Machine
end

section
/-! SUPPORT. The statement of the engines' cancels and reports. -/

namespace Sys2Proof.Machine

section
variable {s : State} {g : Guard} {src : Source} {k : Cancel}

/-- When TOKC acts (R131). -/
theorem tokc_acts (hs : s.cancels = [k]) (hu : k.unit = 5) :
    QueuesCut (fun c => tokcNames k c.who (param c.par 0x18 % 8)) (fun c => tokcNames k c.who (cpyTok c))
      (fun c => tokcNames k c.who (glzTok c.par)) (fun c => tokcNames k c.who (rtcTok c)) s (applyCancels s)
    ∧ ((s.mex.map (·.1)).Nodup → (s.cpy.map (·.1)).Nodup → (s.glz.map (·.1)).Nodup → (s.rtc.map (·.1)).Nodup →
      CancelActs k (((List.range 8).filter (bit (k.t % 256))).map (queuedOn s k.who)).sum (tokcKeys k s) s (applyCancels s)) := by
  obtain ⟨n, l, hacts, hcut, hkeys⟩ := applyCancels_tokc hs hu
  simp only [mexTok_eq] at hcut
  refine ⟨hcut, fun h1 h2 h3 h4 => ?_⟩
  obtain ⟨hn, hl⟩ := hkeys h1 h2 h3 h4
  rw [← length_tokcKeys, ← hl, ← hn]
  exact hacts

/-- `queuedOn` with the token of a matrix command written out. -/
theorem queuedOn_eq (s : State) (w : CtxId) (tok : Nat) : queuedOn s w tok
    = (s.mex.map fun x => (x.2.queue.filter fun c => c.who == w && param c.par 0x18 % 8 == tok).length).sum
      + (s.cpy.map fun x => (x.2.queue.filter fun c => c.who == w && cpyTok c == tok).length).sum
      + (s.glz.map fun x => (x.2.queue.filter fun c => c.who == w && glzTok c.par == tok).length).sum
      + (s.rtc.map fun x => (x.2.queue.filter fun c => c.who == w && rtcTok c == tok).length).sum := by
  simp only [queuedOn, mexTok_eq]

end

/-- GCAN pays blocks and tells contributors; it completes no command. -/
theorem serves_cancelGlz (e : DieEng) (target a n : Nat) (s : State) : Serves [] s (cancelGlz e target a n s).2 := by
  unfold cancelGlz
  dsimp only
  split
  · exact (completes_cancelBlocks ..).after_set rfl rfl rfl
  · split
    · exact .refl s
    · split
      · exact .refl s
      · split
        · exact (completes_tellMembers ..).after_set rfl rfl rfl
        · exact (completes_cancelBlocks ..).after_set rfl rfl rfl

/-- Whatever cancel acts, it completes commands and does no more to contexts and nodes. -/
theorem serves_cancelRun (k : Cancel) (s : State) : ∃ l, Serves l s (cancelRun k s).2 := by
  unfold cancelRun
  dsimp only
  split
  · obtain ⟨l, -, hserves, -, -⟩ := removeQueued_spec (fun c => tokcNames k c.who (mexTok c)) (fun c => tokcNames k c.who (cpyTok c))
      (fun c => tokcNames k c.who (glzTok c.par)) (fun c => tokcNames k c.who (rtcTok c)) s
    exact ⟨l, hserves⟩
  · split
    · exact ⟨_, (completes_removeMex ..).after_set rfl rfl rfl⟩
    · split
      · rw [cancelCpy_eq]
        have hremove (e : DieEng) (sel : CpyCmd → Bool) : Serves _ s (removeCpy e sel s).2 := (completes_removeCpy e sel s).after_set rfl rfl rfl
        exact ⟨_, (hremove _ _).trans (serves_of_same rfl rfl rfl)⟩
      · split
        · exact ⟨[], serves_cancelGlz ..⟩
        · exact ⟨[], .refl s⟩

/-- A cancel that has acted leaves none noted. -/
theorem cancels_applyCancels {s : State} {k : Cancel} (hs : s.cancels = [k]) : (applyCancels s).cancels = [] := by
  obtain ⟨l, h⟩ := serves_cancelRun k (uncancelled s)
  rw [applyCancels_one hs]
  exact (landCount_cancels k _).trans h.cancels

end Sys2Proof.Machine

namespace Sys2Proof
open Machine

/-- Settles O36: the cancels as noted and as carried out, one lemma for each scope, and the reports as results two bundles later. -/
theorem engineReports : Obligations.EngineReports := by
  unfold Obligations.EngineReports
  refine ⟨fun s g src hq hb hr => ⟨⟨_, exec_tokc hq hb hr, noted_afterNote ..⟩,
    fun hp => ⟨fun ht => ⟨_, exec_mcan hq hb hr hp ht, noted_afterNote ..⟩,
    fun h1 h2 h3 => ⟨_, exec_ccan hq hb hr hp h1 h2 h3, noted_afterNote ..⟩,
    fun ha h1 h2 h3 => ⟨_, exec_gcan hq hb hr hp ha h1 h2 h3, noted_afterNote ..⟩⟩⟩, fun s g src hq hb hr hp => ?_, fun s k hs => ?_⟩
  · refine ⟨fun ht => ?_, fun ht => ?_, fun ht => exec_cstat hq hb hr hp ht, fun ht hn => ?_, fun ht w hw => ?_,
      fun h1 h2 f hf => exec_twear hq hb hr hp h1 h2 hf, fun ht => exec_tmap hq hb hr hp ht, fun ha h1 h2 h3 => ⟨fun hn => ?_, fun r hn hpast => ?_⟩⟩
    · have h := exec_mstat hq hb hr hp (by omega)
      rwa [if_pos ht] at h
    · have h := exec_mstat hq hb hr hp (by omega)
      rwa [if_neg (by omega)] at h
    · have h := exec_tstat hq hb hr hp ht
      rwa [hn] at h
    · have h := exec_tstat hq hb hr hp ht
      rw [hw] at h
      simpa [reportWord] using h
    · have h := exec_gprec hq hb hr hp ha h1 h2 h3 fun hsome => by rw [hn] at hsome; cases hsome
      rwa [hn] at h
    · have h := exec_gprec hq hb hr hp ha h1 h2 h3 fun _ => hpast
      rwa [hn] at h
  · dsimp only
    refine ⟨cancels_applyCancels hs, fun hu => ?_, fun hu => ⟨mcan_own hs hu, mcan_all hs hu, mcan_newest_none hs hu,
      fun c hc ht hw hmax hone => mcan_newest_one hs hu ht hc hw hmax hone⟩, fun hu => ⟨ccan_own hs hu, ccan_token hs hu, fun _ => ccan_newest_none hs hu,
      fun c hc ht hw hmax => ccan_newest hs hu ht hc hw hmax⟩, fun hu => ⟨fun ht => ?_, fun seq c ht hc => ?_, fun seq r ht hq hr => ?_⟩⟩
    · obtain ⟨⟨hm, hc, hg, hr⟩, hkeys⟩ := tokc_acts hs hu
      refine ⟨hm, hc, hg, hr, fun h1 h2 h3 h4 => ?_⟩
      have hacts := hkeys h1 h2 h3 h4
      have hon : queuedOn s k.who = _ := funext fun tok => by rw [queuedOn_eq]
      refine ⟨fun q hq => ?_, fun w tok hw htok => ?_⟩
      · have h := hacts.counts q hq
        rwa [hon] at h
      · have h := hacts.falls w tok hw htok
        rwa [falls_tokcKeys, queuedOn_eq] at h
    · obtain ⟨hacts, hglz⟩ := gcan_none hs hu ht
      exact ⟨hacts.counts, hglz⟩
    · obtain ⟨hacts, hglz⟩ := gcan_queued hs hu ht hc rfl
      exact ⟨hacts.counts, (congrArg Glz.runs hglz :), (congrArg Glz.queue hglz :)⟩
    · by_cases hks : freeBlocks k r = []
      · obtain ⟨hacts, hglz⟩ := gcan_started_nil hs hu ht hq hr hks
        exact ⟨hacts.counts, (congrArg Glz.queue hglz :), fun _ => (congrArg Glz.runs hglz :), fun hne => absurd hks hne⟩
      · obtain ⟨hacts, hglz⟩ := gcan_started hs hu ht hq hr hks
        exact ⟨hacts.counts, (congrArg Glz.queue hglz :), fun hnil => absurd hnil hks, fun _ => (congrArg Glz.runs hglz :)⟩

end Sys2Proof
end

section
/-! SUPPORT. What ends a wait (R127, R133, R172, R196, R198, R246): bytes after writes, the context that a replay leaves, and the tick in
which a pour lands. -/

namespace Sys2Proof.Machine

section
variable {s t : State} {c : CtxId} {x : Ctx} {m : List Host.Cell}

/-! ## Bytes -/

theorem ofBytes_toBytes (k v : Nat) : ofBytes (toBytes k v) = v % 256 ^ k := by
  induction k generalizing v with
  | zero => simp [toBytes, ofBytes, Nat.mod_one]
  | succ k ih =>
    rw [toBytes, ofBytes, ih, pow_succ', Nat.mod_mul]
    rfl

/-- A byte of a stored list. -/
theorem Memory.get_sets_inside (a : Nat) (bs : List Byte) (h : Memory.wf m = true) {i : Nat} (hi : i < bs.length) :
    Memory.get (Memory.sets m a bs) (a + i) = bs.getD i 0 := by
  induction bs generalizing m a i with
  | nil => simp at hi
  | cons b bs ih =>
    rw [Memory.sets]
    cases i with
    | zero => rw [Memory.get_sets_outside _ _ (by omega), Nat.add_zero, Memory.get_set_same _ _ h, List.getD_cons_zero]
    | succ i =>
      rw [← Nat.add_assoc, Nat.add_right_comm, ih (a + 1) (Memory.set_wf a b h) (by simpa using hi), List.getD_cons_succ]

/-- A stored list, read back in part. -/
theorem Memory.gets_sets (a j n : Nat) (bs : List Byte) (h : Memory.wf m = true) (hj : j + n ≤ bs.length) :
    Memory.gets (Memory.sets m a bs) (a + j) n = (bs.drop j).take n := by
  refine List.ext_getElem (by simp [Memory.gets]; omega) fun i h1 _ => ?_
  have hi : i < n := by simpa [Memory.gets] using h1
  simp only [Memory.gets, List.getElem_map, List.getElem_range, List.getElem_take, List.getElem_drop]
  rw [Nat.add_assoc, Memory.get_sets_inside a bs h (by omega), List.getD_eq_getElem _ _ (by omega)]

/-- A written byte, where every write to its place writes the same. -/
theorem get_writeCells {ws : List WByte} {a : Nat} {v : Byte} (h : Memory.wf m = true) (hmem : (a, v) ∈ ws) (hsame : ∀ w ∈ ws, w.1 = a → w.2 = v) :
    Memory.get (writeCells ws m) a = v := by
  induction ws generalizing m with
  | nil => cases hmem
  | cons w ws ih =>
    have hws : ∀ y ∈ ws, y.1 = a → y.2 = v := fun y hy => hsame y (List.mem_cons_of_mem _ hy)
    have hstep : writeCells (w :: ws) m = writeCells ws (Memory.set m w.1 w.2) := rfl
    rw [hstep]
    by_cases hin : (a, v) ∈ ws
    · exact ih (Memory.set_wf _ _ h) hin hws
    · have hw : w = (a, v) := ((List.mem_cons.1 hmem).resolve_right hin).symm
      have hnot : ∀ y ∈ ws, y.1 ≠ a := fun y hy hya => hin (by rw [← hya, ← hws y hy hya]; exact hy)
      rw [writeCells_outside ws hnot, hw, Memory.get_set_same _ _ h]

/-! ## The tick in which a pour lands (R172) -/

/-- Memory, clock and pours of a state. -/
def looks (s : State) : List Host.Cell × Nat × List Pour := (s.mem, s.cycle, s.pours)

theorem looks_coreWrite (who : CtxId) (ws : List WByte) (s : State) : looks (coreWrite who none ws s) = (writeCells ws s.mem, s.cycle, s.pours) :=
  foldl_kept looks (fun s w => signalWord w .byStore s) (fun _ _ => rfl) _ _

theorem looks_engineReadAs (later : Sight) (src : Writer) (n : Option Nat) (as : List Nat) (s : State) :
    looks (engineReadAs later src n as s).2 = looks s := by
  rw [engineReadAs, readGranules]
  rfl

theorem looks_rtcLook (r : RtcCmd) (j : Nat) (s : State) : looks (rtcLook r j s).2 = looks s := by
  unfold rtcLook
  dsimp only
  split
  · exact looks_engineReadAs ..
  · rw [looks_engineReadAs, looks_engineReadAs]

theorem looks_captureTick (n0 : Nat) (e : DieEng) (r : RtcRun) (u : RowRun) (s : State) : looks (captureTick n0 e r u s) = looks s := by
  have h := looks_rtcLook r.cmd r.next s
  unfold captureTick
  dsimp only
  split
  · rfl
  · split
    · exact h
    · split
      · exact h
      · split
        · exact h
        · split <;> exact h

theorem looks_captureReads (n0 : Nat) (s : State) : looks (captureReads n0 s) = looks s := by
  unfold captureReads
  generalize s.rtc = xs
  induction xs generalizing s with
  | nil => rfl
  | cons y xs ih =>
    rw [List.foldl_cons, ih]
    split
    · split
      · exact looks_captureTick ..
      · rfl
    · rfl

theorem looks_tick (s : State) : looks (tick s)
    = ((landPours (2 ^ 24 + 1) (applyCancels s)).mem, (landPours (2 ^ 24 + 1) (applyCancels s)).cycle + 1,
      (landPours (2 ^ 24 + 1) (applyCancels s)).pours) := looks_captureReads ..

/-- A pour whose landing cycle is over with this tick lands in it. -/
theorem pourEnd_le {p : Pour} (h : p.due < clk (runClocks s) p.who.clId) : pourEnd s p ≤ 2 ^ 24 := by
  rw [pourEnd, cycleEnd]
  rw [clk, getIsland, runClocks] at h
  dsimp only at h ⊢
  refine Nat.div_le_of_le_mul (Nat.mul_le_mul_right _ ?_)
  rw [getIsland]
  rcases Nat.lt_or_ge (p.who.clId.die * 8 + islandOf p.who.clId) s.islands.length with hlt | hge
  · rw [List.getD_eq_getElem _ _ (by simpa using hlt), List.getElem_map, Island.tick] at h
    rw [List.getD_eq_getElem _ _ hlt]
    dsimp only at h
    omega
  · rw [List.getD_eq_default _ _ (by simpa using hge)] at h
    exact absurd h (Nat.not_lt_zero _)

/-- The only pour lands alone. -/
theorem landPours_one {p : Pour} (hp : s.pours = [p]) (h : pourEnd s p ≤ 2 ^ 24) : landPours (2 ^ 24 + 1) s = landPour p { s with pours := [] } := by
  have hlt : pourEnd s p < 2 ^ 24 + 1 := by omega
  rw [landPours, hp]
  simp only [List.filter_cons, hlt, decide_true, if_true, List.filter_nil]
  rfl

theorem physSpad_inj {a b : ClId} {i j : Nat} (ha : a.wf = true) (hb : b.wf = true) (hi : i < 2 ^ 40) (hj : j < 2 ^ 40) (h : physSpad a i = physSpad b j) :
    a = b ∧ i = j := by
  simp only [ClId.wf, Bool.and_eq_true, decide_eq_true_eq] at ha hb
  obtain ⟨ad, ac⟩ := a
  obtain ⟨bd, bc⟩ := b
  simp only [physSpad] at h ha hb
  have h1 : ad = bd := by omega
  have h2 : ac = bc := by omega
  exact ⟨by rw [h1, h2], by omega⟩

/-- The cells of a pour. -/
def pourCells (p : Pour) : List WByte := p.targets.flatMap fun c => p.data.zipIdx.map fun (b, i) => (physSpad c (p.off + i), b)

theorem mem_pourCells {p : Pour} {w : WByte} : w ∈ pourCells p
    ↔ ∃ k ∈ p.targets, ∃ i, i < p.data.length ∧ w = (physSpad k (p.off + i), p.data.getD i 0) := by
  simp only [pourCells, List.mem_flatMap, List.mem_map, Prod.exists, List.mem_zipIdx_iff_getElem?]
  refine exists_congr fun k => and_congr_right fun _ => ⟨fun ⟨b, i, hb, hw⟩ => ?_, fun ⟨i, hi, hw⟩ => ?_⟩
  · obtain ⟨hi, hget⟩ := List.getElem?_eq_some_iff.1 hb
    exact ⟨i, hi, by rw [← hw, List.getD_eq_getElem _ _ hi, hget]⟩
  · exact ⟨p.data.getD i 0, i, by rw [List.getD_eq_getElem _ _ hi, List.getElem?_eq_getElem hi], hw.symm⟩

theorem get_pourCells {p : Pour} (h : Memory.wf m = true) (hoff : p.off + p.data.length ≤ 0x300000) (hwf : ∀ j ∈ p.targets, j.wf = true) {k : ClId}
    (hk : k ∈ p.targets) {i : Nat} (hi : i < p.data.length) : Memory.get (writeCells (pourCells p) m) (physSpad k (p.off + i)) = p.data.getD i 0 := by
  refine get_writeCells h (mem_pourCells.2 ⟨k, hk, i, hi, rfl⟩) fun w hw hwa => ?_
  obtain ⟨j, hj, l, hl, rfl⟩ := mem_pourCells.1 hw
  obtain ⟨-, hil⟩ := physSpad_inj (hwf j hj) (hwf k hk) (by omega) (by omega) hwa
  have : l = i := by omega
  rw [this]

/-- A pour lands in every cluster it names and takes the cycle with it. -/
theorem exec_pourLanding {p : Pour} (hp : s.pours = [p]) (hdue : p.due < clk (runClocks s) p.who.clId) (hc : s.cancels = []) :
    ∃ t, exec .pourLanding s = .next t ∧ t.cycle = s.cycle + 1 ∧ t.pours = [] ∧ t.mem = writeCells (pourCells p) s.mem := by
  have hend := pourEnd_le hdue
  have hany : s.pours.any (fun p => decide (pourEnd s p ≤ 2 ^ 24)) = true := by
    rw [hp, List.any_cons, List.any_nil, Bool.or_false, decide_eq_true_eq]
    exact hend
  have hnone : applyCancels s = s := by rw [applyCancels, hc, List.foldl_nil, ← hc]
  have htick := looks_tick s
  rw [hnone, landPours_one hp hend] at htick
  have hland := looks_coreWrite p.who (pourCells p) { s with pours := [] }
  simp only [looks, Prod.mk.injEq] at htick hland
  obtain ⟨hmem, hcycle, hpours⟩ := htick
  obtain ⟨hmem', hcycle', hpours'⟩ := hland
  have hfire : firePourLanding s = some (tick s) := if_pos hany
  refine ⟨tick s, ?_, hcycle.trans (congrArg (· + 1) hcycle'), hpours.trans hpours', hmem.trans hmem'⟩
  have hexec : exec .pourLanding s = eventStep true (firePourLanding s) s := rfl
  rw [hexec, hfire]
  rfl

end
end Sys2Proof.Machine
end

section
/-! SUPPORT. The ends of a sleep, a wait, a fence, a replay and a call (R127, R133, R196, R198, R246). -/

namespace Sys2Proof.Machine

section
variable {s t : State} {c : CtxId} {x d : Ctx}

/-- An event of a context of the package is its function, where that fires. -/
theorem eventStep_some {r : Option State} (hc : c.wf = true) (hr : r = some t) : eventStep c.wf r s = .next t := by rw [eventStep, hc, hr]; rfl

/-! ## Sleeps and barrier words -/

theorem exec_sleepTimeout {n : Nat} (hc : c.wf = true) (hn : (getCtx s c).nap = .till n) (hlt : n < clk s c.clId) (hs : (getCtx s c).stopped = false) :
    exec (.sleepTimeout c) s = .next (setCtx c { getCtx s c with nap := .awake } s) := by
  refine eventStep_some hc ?_
  simp only [fireSleepTimeout, hn]
  rw [if_pos ⟨hlt, hs⟩]
  rfl

/-- The state in which a waiting context goes on. -/
def wakened (c : CtxId) (s : State) : State := setCtx c { getCtx s c with run := .runnable } (nodeEvent c s)

theorem getCtx_wakened (c : CtxId) (s : State) : getCtx (wakened c s) c = { getCtx s c with run := .runnable } := getCtx_setCtx_same ..

theorem exec_bwaitWake_store {w : Nat} {ph : Bool} {a n : Nat} (hc : c.wf = true) (hr : (getCtx s c).run = .bwait w ph a n .byStore)
    (hs : (getCtx s c).stopped = false) : exec (.bwaitWake c) s = .next (wakened c s) := by
  refine eventStep_some hc ?_
  simp only [fireBwaitWake, hr, hs, Bool.false_eq_true, if_false]
  rfl

theorem exec_bwaitWake_flip {w : Nat} {ph : Bool} {a n k : Nat} (hc : c.wf = true) (hr : (getCtx s c).run = .bwait w ph a n (.byFlip k))
    (hs : (getCtx s c).stopped = false) : exec (.bwaitWake c) s = .next (observeFlips c w k (wakened c s)) := by
  refine eventStep_some hc ?_
  simp only [fireBwaitWake, hr, hs, Bool.false_eq_true, if_false]
  rfl

/-- Observing a flip acquires the engine writes counted to an earlier phase. -/
theorem observeFlips_acquires {w k j : Nat} {q : Past} (hq : q ∈ s.past) (he : q.engine = true) (hb : q.bar = some (w, j)) (hj : j < k) :
    ∃ q' ∈ (observeFlips c w k s).past, q'.addr = q.addr ∧ (assoc c q'.acq).isSome := by
  refine ⟨_, List.mem_map_of_mem hq, ?_⟩
  simp only [he, hb, hj, beq_self_eq_true, decide_true, Bool.true_and]
  cases h : assoc c q.acq with
  | none => exact ⟨rfl, by simp [assoc]⟩
  | some y => exact ⟨rfl, by simp [h]⟩

/-! ## Fences -/

theorem mem_of_mem_prune {ps : List Past} {q : Past} (h : q ∈ prune ps) : q ∈ ps := by
  have hfold : ∀ (l acc : List Past), q ∈ l.foldl (fun acc p => if p.all && !overrules ps p && !(acc.any fun q => q.addr == p.addr && q.stage == p.stage)
      then acc else acc ++ [p]) acc → q ∈ acc ∨ q ∈ l := by
    intro l
    induction l with
    | nil => exact fun acc h => .inl h
    | cons p l ih =>
      intro acc h
      rcases ih _ h with hacc | hl
      · dsimp only at hacc
        split at hacc
        · exact .inl hacc
        · rcases List.mem_append.1 hacc with hold | hnew
          · exact .inl hold
          · exact .inr (List.mem_cons.2 (.inl (List.mem_singleton.1 hnew)))
      · exact .inr (List.mem_cons_of_mem _ hl)
  exact (hfold ps [] h).resolve_left (by simp)

/-- A write that stands after a publication and that it names is seen by all. -/
theorem publish_all {sel : Past → Bool} {q : Past} (hq : q ∈ (publish sel s).past) (h : sel q = true) :
    q.all = true := by
  obtain ⟨p, -, hp⟩ := List.mem_map.1 (mem_of_mem_prune hq)
  split at hp
  · rw [← hp]
  · next hno =>
    rw [hp] at hno
    exact absurd h hno

theorem fenceHolds_of {k : Nat} (hp : ∀ p ∈ s.pours, p.who ≠ c)
    (h1 : 1 ≤ k → (∀ l ∈ allLandings (getCtx s c), l.arrived = true) ∧ storesWait c s = false)
    (h2 : 2 ≤ k → hasCommands (fun w => w == c) s = false ∧ ∀ y ∈ (getCtx s c).tokens, y.count = 0) : fenceHolds c k s = true := by
  have hpours : (s.pours.any fun p => p.who == c) = false := List.any_eq_false.2 fun p hm => by simpa using hp p hm
  simp only [fenceHolds, hpours, Bool.not_false, Bool.true_and, Bool.or_eq_true, Bool.and_eq_true, beq_iff_eq, Bool.not_eq_true', List.all_eq_true]
  by_cases hk0 : k = 0
  · exact .inl hk0
  · obtain ⟨harr, hst⟩ := h1 (by omega)
    refine .inr ⟨⟨harr, hst⟩, ?_⟩
    by_cases hk1 : k = 1
    · exact .inl hk1
    · exact .inr (h2 (by omega))

/-- The state that the end of a fence leaves. -/
def fenced (c : CtxId) (k : Nat) (s : State) : State :=
  publish (fun p => p.who == c && (k == 2 || !p.engine)) (acquireAll (fun p => p.who == c && k == 2) (wakened c s))

theorem exec_fenceComplete {k : Nat} (hc : c.wf = true) (hr : (getCtx s c).run = .fence k) (h : fenceHolds c k s = true) :
    exec (.fenceComplete c) s = .next (fenced c k s) := by
  refine eventStep_some hc ?_
  simp only [fireFenceComplete, hr, h, if_true]
  rfl

theorem fenced_past {k : Nat} {q : Past} (hq : q ∈ (fenced c k s).past) (hw : q.who = c) : q.all = true ∨ (q.engine = true ∧ k ≠ 2) := by
  by_cases h : q.engine = true ∧ k ≠ 2
  · exact .inr h
  · refine .inl (publish_all hq ?_)
    simp only [hw, beq_self_eq_true, Bool.true_and, Bool.or_eq_true, beq_iff_eq, Bool.not_eq_true']
    by_cases hk : k = 2
    · exact .inl hk
    · exact .inr (by simpa using fun he => h ⟨he, hk⟩)

/-! ## Replays -/

/-- A fold that stops at its first error keeps what each step keeps. -/
theorem foldl_ok {α ε σ : Type} {P : σ → Prop} {f : Except ε σ → α → Except ε σ} (herr : ∀ e a, f (.error e) a = .error e)
    (hok : ∀ y a z, P y → f (.ok y) a = .ok z → P z) {l : List α} {y z : σ} (hy : P y) (h : l.foldl f (.ok y) = .ok z) : P z := by
  induction l generalizing y with
  | nil => exact Except.ok.inj h ▸ hy
  | cons a l ih =>
    rw [List.foldl_cons] at h
    cases ha : f (.ok y) a with
    | ok z' =>
      rw [ha] at h
      exact ih (hok y a z' hy ha) h
    | error e =>
      have hstay : ∀ l : List α, l.foldl f (.error e) = .error e := fun l => by
        induction l with
        | nil => rfl
        | cons b l ih => rw [List.foldl_cons, herr, ih]
      rw [ha, hstay] at h
      cases h

theorem takeStorage_length {busy : List Nat} {n : Nat} (h : takeStorage busy n x = some d) : d.v.length = x.v.length := by
  unfold takeStorage at h
  split at h
  · rw [← Option.some.inj h]
  · split at h
    · rw [← Option.some.inj h]
    · split at h
      · rw [← Option.some.inj h]
        exact List.length_set
      · cases h

/-- A replay keeps the register file's size and leaves its name resident. -/
theorem replayName_ok {busy : List Nat} {k n : Nat} (h : replayName c busy k n x = .ok d) :
    d.v.length = x.v.length ∧ (n < x.v.length → (getV d n).st = .resident) := by
  induction k generalizing n x d with
  | zero => cases h
  | succ k ih =>
    unfold replayName at h
    split at h
    · cases h
    · next e _ =>
      dsimp only at h
      split at h
      · cases h
      · next c1 rs hran =>
        have hlen : c1.v.length = x.v.length := by
          refine foldl_ok (P := fun y : Ctx × List (List Lane) => y.1.v.length = x.v.length) (fun _ _ => rfl) (fun y i z hy hz => ?_) rfl hran
          dsimp only at hz
          split at hz
          · cases hz
          · next c2 hinner =>
            have h2 : c2.v.length = x.v.length := by
              refine foldl_ok (P := fun y : Ctx => y.v.length = x.v.length) (fun _ _ => rfl) (fun y m z hy hz => ?_) hy hinner
              dsimp only at hz
              split at hz
              · exact (ih hz).1.trans hy
              · exact Except.ok.inj hz ▸ hy
            split at hz
            · cases hz
            · rw [← Except.ok.inj hz]
              exact h2
        split at h
        · cases h
        · next c2 hstore =>
          have hlen2 := takeStorage_length hstore
          rw [← Except.ok.inj h]
          refine ⟨List.length_set.trans (hlen2.trans hlen), fun hn => ?_⟩
          rw [getV_setV_same (by rw [hlen2, hlen]; exact hn)]

/-- Without fixed-latency results in flight nothing that lands touches the vector names. -/
theorem landAt_v {q : Nat} (h : x.flight = []) : (landAt q x).v = x.v ∧ (landAt q x).flight = [] := by
  refine ⟨landed_kept Ctx.v fun y hy b => ?_, by rw [landAt_flight, h, List.filter_nil]⟩
  rcases mem_dueAt.1 hy with ⟨l, -, rfl⟩ | ⟨f, hf, -⟩
  · exact (landTimed_arrives l b).v_eq
  · rw [h] at hf
    cases hf

theorem seen_v (h : x.flight = []) : (seen x).v = x.v := by
  have hfold : ∀ (qs : List Nat) (y : Ctx), y.flight = [] → (qs.foldl (fun c q => landAt q c) y).v = y.v := by
    intro qs
    induction qs with
    | nil => exact fun _ _ => rfl
    | cons q qs ih =>
      intro y hy
      obtain ⟨hv, hf⟩ := landAt_v (q := q) hy
      exact (ih _ hf).trans hv
  rw [seen, landDue_eq]
  exact hfold _ x h

theorem exec_replayComplete {n began : Nat} {b : Bundle} (hc : c.wf = true) (hr : (getCtx s c).run = .replay n began)
    (hb : fetchBundle opOfField s c = .got b) (hs : (getCtx s c).stopped = false) (hle : began + replayCycles (seen (getCtx s c)) n ≤ clk s c.clId) :
    exec (.sketchReplayComplete c) s = .next (setCtx c (afterReplay c n b (getCtx s c)) s) := by
  refine eventStep_some hc ?_
  simp only [fireSketchReplayComplete, hr, hb, hs, Bool.false_eq_true, false_or, Nat.not_lt.2 hle, if_false]

theorem afterReplay_kept (n : Nat) (b : Bundle) (x : Ctx) :
    (afterReplay c n b x).run = .runnable ∧ (afterReplay c n b x).bclk = x.bclk ∧ (afterReplay c n b x).flight = x.flight := by
  unfold afterReplay
  dsimp only
  split <;> exact ⟨rfl, rfl, rfl⟩

/-- The replayed name as the replay leaves it, where no result is in flight. -/
theorem getV_afterReplay {n : Nat} {b : Bundle}
    (h : replayName c (vReads (passing (seen x) b) ++ (n :: replayReads (seen x) 3 n)) 3 n (seen x) = .ok d) (hf : x.flight = []) (hn : n < 32) :
    getV (afterReplay c n b x) n = getV d n := by
  simp only [afterReplay, h, hf, List.any_nil, Bool.false_eq_true, if_false]
  rw [getV, List.getD_eq_getElem _ _ (by simpa using hn), List.getElem_map, List.getElem_range]

/-! ## Calls -/

/-- The end of a command as its token shows it. -/
theorem tokenEnds_completeToken (w : CtxId) (tok : Nat) (failed : Bool) (st : Nat) (s : State) :
    TokenEnds w tok failed st s (completeToken w tok failed (BitVec.ofNat 64 st) s) := by
  intro ha hlt
  rw [completeToken, if_pos ha, updCtx, getCtx_setCtx_same]
  simp [tokenDown, setTok, getTok, hlt]

theorem spill_completeToken (w : CtxId) (tok : Nat) (failed : Bool) (st : Dword) (s : State) :
    (getCtx (completeToken w tok failed st s) w).spill = (getCtx s w).spill := by
  rw [completeToken]
  split
  · rw [updCtx, getCtx_setCtx_same]
    rfl
  · rfl

theorem getDie_completeToken (w : CtxId) (tok : Nat) (failed : Bool) (st : Dword) (s : State) (die : Nat) :
    getDie (completeToken w tok failed st s) die = getDie s die := by
  rw [completeToken]
  split <;> rfl

/-- The reply as it lies in the window of the place that called. -/
def replied (k : SysCall) (s : State) : State :=
  updCtx k.who (fun c => { c with
    spill := Memory.sets c.spill k.off (toBytes 8 (sysReply s k).1 ++ toBytes 8 (sysReply s k).2),
    spillPoison := c.spillPoison.filter fun o => o != k.off && o != k.off + 8 }) s

theorem alive_replied {k : SysCall} (h : alive s k.who = true) : alive (replied k s) k.who = true := by
  rw [alive_iff] at h ⊢
  obtain ⟨-, hnode⟩ := h
  refine ⟨Option.isSome_of_mem (assoc_assocSet_same ..), ?_⟩
  rw [replied, updCtx, getCtx_setCtx_same]
  exact hnode

theorem spill_replied (k : SysCall) (s : State) : (getCtx (replied k s) k.who).spill
    = Memory.sets (getCtx s k.who).spill k.off (toBytes 8 (sysReply s k).1 ++ toBytes 8 (sysReply s k).2) := by
  rw [replied, updCtx, getCtx_setCtx_same]

/-- A call's status is 0 or 1. -/
theorem sysReply_status (s : State) (k : SysCall) : (sysReply s k).2 < 256 ^ 8 := by
  have hzero : 0 < 256 ^ 8 := by decide
  have hone : 1 < 256 ^ 8 := by decide
  unfold sysReply
  split
  · exact hzero
  · exact hzero
  · exact hzero
  · exact hone

/-- The state after the reply to a call. -/
def answered (k : SysCall) (s : State) : State :=
  completeToken k.who k.tok (decide ((sysReply s k).2 ≠ 0)) (BitVec.ofNat 64 (sysReply s k).2) (replied k s)

theorem answered_value {k : SysCall} (h : Memory.wf (getCtx s k.who).spill = true) :
    ofBytes (Memory.gets (getCtx (answered k s) k.who).spill k.off 8) = (sysReply s k).1 % 2 ^ 64
      ∧ ofBytes (Memory.gets (getCtx (answered k s) k.who).spill (k.off + 8) 8) = (sysReply s k).2 := by
  rw [answered, spill_completeToken, spill_replied]
  have hlen := Crypto.toBytes_length
  have h0 := Memory.gets_sets k.off 0 8 (toBytes 8 (sysReply s k).1 ++ toBytes 8 (sysReply s k).2) h (by simp [hlen])
  rw [Nat.add_zero, List.drop_zero] at h0
  rw [h0, Memory.gets_sets k.off 8 8 _ h (by simp [hlen]), List.take_left' (hlen ..), List.drop_left' (hlen ..),
    List.take_of_length_le (hlen ..).le, ofBytes_toBytes, ofBytes_toBytes, Nat.mod_eq_of_lt (sysReply_status s k)]
  exact ⟨rfl, rfl⟩

theorem tokenEnds_answered (k : SysCall) (s : State) : TokenEnds k.who k.tok (decide ((sysReply s k).2 ≠ 0)) (sysReply s k).2 s (answered k s) := by
  intro ha hlt
  have htok : (getCtx (replied k s) k.who).tokens = (getCtx s k.who).tokens := by rw [replied, updCtx, getCtx_setCtx_same]
  have h := tokenEnds_completeToken k.who k.tok (decide ((sysReply s k).2 ≠ 0)) (sysReply s k).2 (replied k s) (alive_replied ha) (by rwa [htok])
  have hget : getTok (getCtx (replied k s) k.who) k.tok = getTok (getCtx s k.who) k.tok := by rw [getTok, getTok, htok]
  rw [hget] at h
  exact h

theorem exec_syscReply {die : Nat} {k : SysCall} {ks : List SysCall} (hd : Config.hasDie die = true) (hc : (getDie s die).calls = k :: ks) :
    exec (.syscReply die) s = .next (answered k (setDie die { getDie s die with calls := ks } s)) := by
  have hfire : fireSyscReply die s = some (answered k (setDie die { getDie s die with calls := ks } s)) := by
    simp only [fireSyscReply, hc]
    rfl
  have hexec : exec (.syscReply die) s = eventStep (Config.hasDie die) (fireSyscReply die s) s := rfl
  rw [hexec, hfire, eventStep, hd]
  rfl

end
end Sys2Proof.Machine

namespace Sys2Proof
open Machine

/-- Settles O46: each wait's event fires under its condition, and a lemma for each says what it leaves. -/
theorem wakeEvents : Obligations.WakeEvents := by
  unfold Obligations.WakeEvents
  refine fun s c hc => ⟨fun n hn hlt hs => exec_sleepTimeout hc hn hlt hs,
    fun w ph a n hr hs => ⟨_, exec_bwaitWake_store hc hr hs, rfl, rfl, getCtx_wakened c s⟩,
    fun w ph a n k hr hs => ⟨_, exec_bwaitWake_flip hc hr hs, rfl, rfl, getCtx_wakened c s,
      fun q hq he ⟨j, hb, hj⟩ => observeFlips_acquires hq he hb hj⟩,
    fun k hr hp h1 h2 => ⟨_, exec_fenceComplete hc hr (fenceHolds_of hp h1 h2), getCtx_wakened c s, rfl, fun q hq hw => fenced_past hq hw⟩,
    fun n b began hr hb hs hle => ⟨_, exec_replayComplete hc hr hb hs hle, ⟨rfl, fun k hk => getCtx_setCtx_ne _ _ hk⟩, ?_⟩,
    fun p hp hdue hnone _ hm hoff => ?_, fun die k ks hd hcalls hm => ⟨_, exec_syscReply hd hcalls, fun hlt => ?_, ?_⟩⟩
  · obtain ⟨hrun, hbclk, hflight⟩ := afterReplay_kept (c := c) n b (getCtx s c)
    rw [getCtx_setCtx_same]
    refine ⟨hrun, hbclk, hflight, fun d hd hf hlen hn => ?_⟩
    have hlt : n < (seen (getCtx s c)).v.length := by rw [seen_v hf, hlen]; exact hn
    rw [getV_afterReplay hd hf hn]
    exact ⟨(replayName_ok hd).2 hlt, rfl⟩
  · obtain ⟨t, hexec, hcycle, hpours, hmem⟩ := exec_pourLanding hp hdue hnone
    refine ⟨t, hexec, hcycle, hpours, fun k hk _ hwf i hi => ?_⟩
    rw [hmem]
    exact get_pourCells hm hoff hwf hk hi
  · rw [answered, getDie_completeToken]
    exact congrArg Die.calls (getDie_setDie_same _ hlt)
  · obtain ⟨hval, hst⟩ := answered_value (s := setDie die { getDie s die with calls := ks } s) (k := k) hm
    exact ⟨hval, hst, tokenEnds_answered k (setDie die { getDie s die with calls := ks } s)⟩

end Sys2Proof
end

section
/-! SUPPORT. Nodes through the barista's work (R284 to R296): what it does to images, reservations, clusters and outputs leaves of each node
all but its image, its laid image and the clusters handed to it. -/

namespace Sys2Proof.Machine

/-- A node without what images and reservations hold for it. -/
def nodeCore (d : Node) : Node := { d with saved := none, laid := none, handed := [] }
/-- The nodes of the package without their images and reservations. -/
def nodeCores (s : State) : List Node := s.nodes.map nodeCore

section
variable {s t : State} {n m : Nat} {d q : Node}

theorem nodeCores_of_nodes (h : t.nodes = s.nodes) : nodeCores t = nodeCores s := congrArg (List.map nodeCore) h

theorem getElem?_nodeCores (s : State) (n : Nat) : (nodeCores s)[n]? = (getNode s n).map nodeCore := List.getElem?_map

theorem lt_of_getNode (h : getNode s n = some d) : n < (nodeCores s).length := by
  obtain ⟨hlt, -⟩ := List.getElem?_eq_some_iff.1 h
  rwa [nodeCores, List.length_map]

theorem getNode_of_nodeCores {y : Node} (h : (nodeCores s)[n]? = some y) : ∃ x, getNode s n = some x ∧ nodeCore x = y := by
  rw [getElem?_nodeCores] at h
  exact Option.map_eq_some_iff.1 h

/-- A property that images and reservations have no part in. -/
theorem nodeIs_of_nodeCores {y : Node} {p : Node → Prop} (h : (nodeCores t)[n]? = some y) (hp : p y)
    (hcore : ∀ x, p (nodeCore x) → p x) : NodeIs t n p := by
  obtain ⟨x, hx, rfl⟩ := getNode_of_nodeCores h
  exact ⟨x, hx, hcore x hp⟩

theorem nodeCores_setNode (n : Nat) (d : Node) (s : State) : nodeCores (setNode n d s) = (nodeCores s).set n (nodeCore d) := List.map_set ..

/-- A node whose image or reservation alone changes. -/
theorem nodeCores_setNode_core (h : (nodeCores s)[n]? = some (nodeCore d)) : nodeCores (setNode n d s) = nodeCores s := by
  obtain ⟨hlt, hget⟩ := List.getElem?_eq_some_iff.1 h
  rw [nodeCores_setNode, ← hget, List.set_getElem_self]

theorem nodeCores_setNode_same (hd : getNode s n = some d) (h : nodeCore q = nodeCore d) : nodeCores (setNode n q s) = nodeCores s :=
  nodeCores_setNode_core (by rw [getElem?_nodeCores, hd, h]; rfl)

theorem nodeCores_foldl {α : Type} {f : State → α → State} (h : ∀ s a, nodeCores (f s a) = nodeCores s) (l : List α) (s : State) :
    nodeCores (l.foldl f s) = nodeCores s := foldl_kept nodeCores f h l s

theorem nodeCores_ite {p : Prop} [Decidable p] (h : nodeCores t = nodeCores s) : nodeCores (if p then t else s) = nodeCores s := by
  split
  · exact h
  · rfl

/-! ## Stores of the barista -/

theorem setState_nodes (n : Nat) (d : Node) (s : State) : (setState n d s).nodes = s.nodes.set n d := (wakesOnly_setState n d s).nodes
theorem nodeCores_setState (n : Nat) (d : Node) (s : State) : nodeCores (setState n d s) = (nodeCores s).set n (nodeCore d) :=
  (nodeCores_of_nodes (s := setNode n d s) (setState_nodes n d s)).trans (nodeCores_setNode n d s)

theorem barUpdate_nodes (w add : Nat) (arrive : Bool) (sub : Nat) (fl : BarFlags) (s : State) : (barUpdate w add arrive sub fl s).nodes = s.nodes := by
  rw [barUpdate]
  split <;> rfl

theorem appendFault_nodes (die : Nat) (part : Option Nat) (mk : Nat → FaultRec) (k : Option Nat) (s : State) :
    (appendFault die part mk k s).nodes = s.nodes := by
  cases part <;> cases k <;> rfl

@[simp] theorem nodeCores_updateOutput (d : Node) (error : Bool) (s : State) : nodeCores (updateOutput d error s) = nodeCores s := by
  rw [updateOutput]
  split
  · rfl
  · split
    · exact nodeCores_of_nodes (barUpdate_nodes ..)
    · exact nodeCores_of_nodes (appendFault_nodes ..)

@[simp] theorem nodeCores_releaseOverlays (n : Nat) (s : State) : nodeCores (releaseOverlays n s) = nodeCores s :=
  nodeCores_foldl (fun _ _ => nodeCores_of_nodes ((wakesOnly_coreWrite _ _ _).nodes.trans (wakesOnly_dirtySectors _ _ _).nodes)) _ s
@[simp] theorem nodeCores_discardOverlays (n : Nat) (s : State) : nodeCores (discardOverlays n s) = nodeCores s := rfl
@[simp] theorem nodeCores_settleNode (n : Nat) (s : State) : nodeCores (settleNode n s) = nodeCores s := rfl

/-! ## Clusters -/

@[simp] theorem nodeCores_setCl (c : ClId) (x : Cluster) (s : State) : nodeCores (setCl c x s) = nodeCores s := rfl

theorem closeWindow_nodes (part : Nat) (cs : List ClId) (s : State) : (closeWindow part cs s).nodes = s.nodes := by
  rw [closeWindow]
  split <;> rfl

@[simp] theorem nodeCores_freeClusters (n : Nat) (held : Option Nat) (s : State) : nodeCores (freeClusters n held s) = nodeCores s := by
  rw [freeClusters]
  split
  · rfl
  · exact (nodeCores_foldl (fun _ _ => nodeCores_setCl _ _ _) _ _).trans (nodeCores_of_nodes (closeWindow_nodes ..))

/-! ## Images -/

@[simp] theorem nodeCores_dropImages (v : Saved) (s : State) : nodeCores (dropImages v s) = nodeCores s :=
  nodeCores_foldl (f := fun s (x : ClId × Nat) => eraseRange (imageBase x.1 x.2) imageBytes s) (fun _ _ => rfl) _ s

@[simp] theorem nodeCores_setSaved (n : Nat) (v : Saved) (s : State) : nodeCores (setSaved n v s) = nodeCores s := by
  rw [setSaved]
  split
  · next h => exact nodeCores_setNode_same h rfl
  · rfl

@[simp] theorem nodeCores_swapLaid (n : Nat) (s : State) : nodeCores (swapLaid n s) = nodeCores s := by
  rw [swapLaid]
  split
  · next h => exact nodeCores_setNode_same h rfl
  · rfl

@[simp] theorem nodeCores_displace (c : ClId) (s : State) : nodeCores (displace c s) = nodeCores s := by
  unfold displace
  split
  · rfl
  · dsimp only
    split
    · rfl
    · split <;> rfl

@[simp] theorem nodeCores_reclaim (n : Nat) (v : Saved) (s : State) : nodeCores (reclaim n v s) = nodeCores s :=
  nodeCores_foldl (fun s c => nodeCores_ite (nodeCores_displace c s)) _ s

@[simp] theorem nodeCores_keepImage (n : Nat) (cs : List ClId) (s : State) : nodeCores (keepImage n cs s) = nodeCores s :=
  nodeCores_foldl (f := fun s c => setCl c { getCl s c with keeps := some n } s) (fun _ _ => rfl) _ s

@[simp] theorem nodeCores_sealImage (n i : Nat) (s : State) : nodeCores (sealImage n i s) = nodeCores s := by
  unfold sealImage
  split
  · rfl
  · next h =>
    split
    · rfl
    · exact nodeCores_setNode_same h rfl

@[simp] theorem nodeCores_moveImage (n i slot : Nat) (s : State) : nodeCores (moveImage n i slot s) = nodeCores s := by
  unfold moveImage
  split
  · rfl
  · rw [nodeCores_sealImage, nodeCores_setSaved]
    exact nodeCores_ite (nodeCores_displace ..)

@[simp] theorem nodeCores_moveOut (n i : Nat) (laid : Bool) (s : State) : nodeCores (moveOut n i laid s) = nodeCores s := by
  rw [moveOut]
  split <;> simp

theorem nodeCores_takeSlot (c : ClId) (s : State) : nodeCores (takeSlot c s).2 = nodeCores s := by
  unfold takeSlot
  dsimp only
  split
  · rfl
  · split
    · exact nodeCores_moveOut ..
    · rfl

@[simp] theorem nodeCores_takeSlots (n : Nat) (cs : List ClId) (s : State) : nodeCores (takeSlots n cs s) = nodeCores s := by
  refine nodeCores_foldl (fun s c => ?_) _ s
  dsimp only
  split
  · exact (nodeCores_setSaved ..).trans (nodeCores_takeSlot c s)
  · exact nodeCores_takeSlot c s

/-! ## Reservations (R295) -/

/-- An image that goes, where there is one. -/
theorem nodeCores_dropSome (o : Option Saved) (s : State) :
    nodeCores (match o with | some v => dropImages v s | none => s) = nodeCores s := by
  cases o with
  | none => rfl
  | some v => exact nodeCores_dropImages v s

@[simp] theorem nodeCores_dropReservation (n : Nat) (s : State) : nodeCores (dropReservation n s) = nodeCores s := by
  unfold dropReservation
  dsimp only
  split
  · rfl
  · next d h =>
    have hcore {u : State} (hu : nodeCores u = nodeCores s) : (nodeCores u)[n]? = some (nodeCore d) := by
      have hn : getNode s n = some d := h
      rw [hu, getElem?_nodeCores, hn]
      rfl
    have hlaid (u : State) (hu : nodeCores u = nodeCores s) : nodeCores (setNode n { d with handed := [], laid := none }
        (match d.laid with | some v => dropImages v u | none => u)) = nodeCores s :=
      (nodeCores_setNode_core (d := { d with handed := [], laid := none }) (hcore ((nodeCores_dropSome d.laid u).trans hu))).trans
        ((nodeCores_dropSome d.laid u).trans hu)
    split
    · split
      · rw [nodeCores_dropImages]
        refine (nodeCores_setNode_core (d := { d with handed := [], laid := none, saved := none }) (hcore ?_)).trans ?_ <;> exact hlaid _ rfl
      · exact hlaid _ rfl
    · exact hlaid _ rfl

@[simp] theorem nodeCores_withdrawHandoff (d : Node) (s : State) : nodeCores (withdrawHandoff d s) = nodeCores s := by
  unfold withdrawHandoff
  split
  · rfl
  · split
    · rfl
    · exact nodeCores_ite (nodeCores_dropReservation ..)

@[simp] theorem nodeCores_handOver (d : Node) (m : Nat) (s : State) : nodeCores (handOver d m s) = nodeCores s := by
  unfold handOver
  dsimp only
  split
  · exact nodeCores_dropReservation ..
  · next q h => exact (nodeCores_setNode_same (q := { q with handed := d.clusters }) h rfl).trans (nodeCores_dropReservation ..)

theorem nodeCores_layImage (cs : List ClId) (h : (nodeCores s)[n]? = some (nodeCore d)) : nodeCores (layImage n d cs s) = nodeCores s := by
  have hset (v : Saved) : nodeCores (setNode n { d with saved := some v, handed := [] } { s with stamp := s.stamp + 1 }) = nodeCores s :=
    nodeCores_setNode_core (s := { s with stamp := s.stamp + 1 }) (d := { d with saved := some v, handed := [] }) h
  have hcl (u : State) : nodeCores (cs.foldl (fun s c => setCl c { getCl s c with heldFor := none, freeSince := s.cycle } s) u) = nodeCores u :=
    nodeCores_foldl (f := fun s c => setCl c { getCl s c with heldFor := none, freeSince := s.cycle } s) (fun _ _ => rfl) _ _
  have hall := (hcl _).trans ((nodeCores_keepImage n cs _).trans ((nodeCores_takeSlots n cs _).trans
    (hset ⟨cs, [], [], [], [], [], [], [], [], true, s.stamp⟩)))
  unfold layImage
  dsimp only
  split
  · split <;> exact hall
  · exact hall

@[simp] theorem nodeCores_saveReserved (m : Nat) (s : State) : nodeCores (saveReserved m s) = nodeCores s := by
  unfold saveReserved
  split
  · rfl
  · next d h =>
    dsimp only
    split
    · exact nodeCores_dropReservation ..
    · split
      · exact nodeCores_layImage _ (by rw [getElem?_nodeCores, h]; rfl)
      · split
        · exact nodeCores_swapLaid ..
        · next d1 h1 =>
          have hlay {cs : List ClId} := nodeCores_layImage cs (by rw [getElem?_nodeCores, h1]; rfl : (nodeCores (swapLaid m s))[m]? = some (nodeCore d1))
          rw [nodeCores_swapLaid]
          split
          · rw [nodeCores_reclaim, hlay, nodeCores_swapLaid]
          · rw [hlay, nodeCores_swapLaid]

end
end Sys2Proof.Machine
end

section
/-! SUPPORT. The events of nodes (R121, R284, R289 to R293) but for starts, by what each makes of the nodes. -/

namespace Sys2Proof.Machine

section
variable {s t : State} {n m : Nat} {d q : Node}

/-- The core of a node that has just been set. -/
theorem core_set_same {l : List Node} {y : Node} (h : n < l.length) : (l.set n y)[n]? = some y := by rw [List.getElem?_set_self h]

/-- A node as its state change leaves it. -/
theorem nodeIs_of_set {y : Node} {p : Node → Prop} {u : State} (hlt : n < (nodeCores u).length) (h : nodeCores t = (nodeCores u).set n (nodeCore y))
    (hp : p y) (hcore : ∀ x, p (nodeCore x) ↔ p x) : NodeIs t n p :=
  nodeIs_of_nodeCores (by rw [h, core_set_same hlt]) ((hcore y).2 hp) fun x => (hcore x).1

theorem nodeIs_setState {p : Node → Prop} (hlt : n < (nodeCores s).length) (hp : p d) (hcore : ∀ x, p (nodeCore x) ↔ p x) :
    NodeIs (setState n d s) n p := nodeIs_of_set hlt (nodeCores_setState n d s) hp hcore

/-! ## Failing and arming -/

/-- A node that fails with a reason. -/
def failedNode (r : Nat) (d : Node) : Node := { d with
  st := .failed, reason := r, stop := .no, saved := none, laid := none, inherits := false, handed := [],
  clusters := if d.st = .placed ∨ d.st = .running ∨ d.st = .killed then [] else d.clusters }

theorem nodeCores_failNode (r : Nat) (hd : getNode s n = some d) : nodeCores (failNode n r s) = (nodeCores s).set n (nodeCore (failedNode r d)) := by
  simp only [failNode, hd, nodeCores_updateOutput, nodeCores_setState, nodeCores_withdrawHandoff, nodeCores_dropReservation]
  exact congrArg (List.set · n _) ((nodeCores_dropSome d.saved _).trans (by simp))

theorem nodeIs_failNode {r : Nat} {p : Node → Prop} (hd : getNode s n = some d) (hp : p (failedNode r d)) (hcore : ∀ x, p (nodeCore x) ↔ p x) :
    NodeIs (failNode n r s) n p := nodeIs_of_set (lt_of_getNode hd) (nodeCores_failNode r hd) hp hcore

/-- A node after arming, or its failure. -/
def armedNode (expected ok : Bool) (d : Node) : Node := if ok then { d with st := .armed, expected := expected } else failedNode 4 d

theorem getNode_setNode_same (h : n < s.nodes.length) : getNode (setNode n d s) n = some d := by simp [getNode, setNode, h]

theorem nodeCores_armNode (expected ok : Bool) (h : n < s.nodes.length) :
    nodeCores (armNode n d expected ok s) = (nodeCores s).set n (nodeCore (armedNode expected ok d)) := by
  cases ok with
  | true => exact nodeCores_setState ..
  | false =>
    refine (nodeCores_failNode 4 (getNode_setNode_same h)).trans ?_
    rw [nodeCores_setNode, List.set_set]
    rfl

/-! ## A node becomes ready, commits, fails or is released -/

theorem exec_nodeReady {w : Nat} (hd : getNode s n = some d) (hst : d.st = .armed) (hw : inputWord s d = some w) (hp : phaseAt s w = d.expected) :
    exec (.nodeReady n) s = .next (setState n { d with
      st := .ready, attempts := 1, reason := 0, exitSt := 0, noRetry := false, freed := false, faulted := false, kill2 := false,
      durable := false, readyAt := s.stamp } { s with stamp := s.stamp + 1 }) := by
  have hexec : exec (.nodeReady n) s = eventStep true (fireNodeReady n s) s := rfl
  rw [hexec]
  simp only [fireNodeReady, hd, hst, hw, hp, if_true]
  rfl

theorem exec_nodeFail (hd : getNode s n = some d) (hst : d.st = .running) (hstop : d.stop = .exit) (hc : hasCommands (nodeCtx s n) s = false) :
    exec (.nodeFail n) s = .next (failNode n 1 s) := by
  have hexec : exec (.nodeFail n) s = eventStep true (fireNodeFail n s) s := rfl
  rw [hexec]
  simp only [fireNodeFail, hd]
  rw [if_pos ⟨hst, hstop, by rw [hc]; rfl⟩]
  rfl

theorem exec_killedNodeRelease (hd : getNode s n = some d) (hst : d.st = .killed) (hc : hasCommands (nodeCtx s n) s = false) :
    exec (.killedNodeRelease n) s = .next (releaseKilled n d s) := by
  have hexec : exec (.killedNodeRelease n) s = eventStep true (fireKilledNodeRelease n s) s := rfl
  rw [hexec]
  simp only [fireKilledNodeRelease, hd]
  rw [if_pos ⟨hst, by rw [hc]; rfl⟩]
  rfl

theorem releaseKilled_fails {r : Nat} (h : killVerdict s d = some r) : releaseKilled n d s = failNode n r s := by rw [releaseKilled, h]

theorem releaseKilled_requeues (hd : getNode s n = some d) (h : killVerdict s d = none) :
    NodeIs (releaseKilled n d s) n fun x => x.st = .ready ∧ x.attempts = d.attempts + 1 := by
  simp only [releaseKilled, h]
  refine nodeIs_setState (lt_of_lt_of_eq (lt_of_getNode hd) (congrArg List.length ?_)) ⟨rfl, rfl⟩ fun _ => Iff.rfl
  exact (nodeCores_freeClusters n _ (discardOverlays n s)).symm

theorem exec_nodeCommit (hd : getNode s n = some d) (hst : d.st = .running) (hsaved : d.saved = none) (hstop : d.stop = .no)
    (hr : allRetired s n = true) (hc : hasCommands (nodeCtx s n) s = false) (hv : s.viral = false) :
    exec (.nodeCommit n) s = .next (commitNode n d s) := by
  have hexec : exec (.nodeCommit n) s = eventStep true (fireNodeCommit n s) s := rfl
  rw [hexec]
  simp only [fireNodeCommit, hd]
  rw [if_pos ⟨hst, by rw [hsaved]; rfl, .inl hstop, hr, by rw [hc]; rfl, by rw [hv]; rfl⟩]
  rfl

/-- A node that has committed: armed for the other phase, or failed. -/
theorem nodeIs_commitNode (hd : getNode s n = some d) : NodeIs (commitNode n d s) n fun x =>
    x.firings = (d.firings + 1) % 256 ∧ ((x.st = .armed ∧ x.expected = !d.expected) ∨ (x.st = .failed ∧ x.reason = 4)) := by
  have hlt := lt_of_getNode hd
  have harm (u : State) (d1 : Node) (ok : Bool) (hlen : (nodeCores u).length = (nodeCores s).length) (hf : d1.firings = (d.firings + 1) % 256) :
      NodeIs (armNode n d1 (!d.expected) ok u) n fun x =>
        x.firings = (d.firings + 1) % 256 ∧ ((x.st = .armed ∧ x.expected = !d.expected) ∨ (x.st = .failed ∧ x.reason = 4)) := by
    have hltu : n < (nodeCores u).length := hlen ▸ hlt
    refine nodeIs_of_set hltu (nodeCores_armNode _ _ (by rwa [nodeCores, List.length_map] at hltu)) ?_ (fun _ => Iff.rfl)
    cases ok with
    | true => exact ⟨hf, .inl ⟨rfl, rfl⟩⟩
    | false => exact ⟨hf, .inr ⟨rfl, rfl⟩⟩
  refine harm _ _ _ ?_ rfl
  rw [nodeCores_setState, List.length_set]
  split <;> simp [nodeCores_setState]

/-! ## Registration and unregistration (R284) -/

/-- Whether a node is the one of a graph with a number. -/
def named (part graph i : Nat) (d : Node) : Bool := d.part == part && d.graph == graph && d.idx == i

theorem findNode_eq (s : State) (part graph i : Nat) : findNode s part graph i = (nodeCores s).findIdx? (named part graph i) := by
  rw [nodeCores, List.findIdx?_map]
  rfl

/-- The node of a graph with a number is there and has a property. -/
def NamedAt (part graph : Nat) (p : Node → Prop) (l : List Node) (i : Nat) : Prop :=
  ∃ k y, l.findIdx? (named part graph i) = some k ∧ l[k]? = some y ∧ p y

section
variable {part graph i j k : Nat} {p : Node → Prop} {l : List Node} {y z : Node}

theorem named_of_findIdx? (hk : l.findIdx? (named part graph i) = some k) (hz : l[k]? = some z) : named part graph i z = true := by
  obtain ⟨hlt, hp, -⟩ := List.findIdx?_eq_some_iff_getElem.1 hk
  obtain ⟨_, hget⟩ := List.getElem?_eq_some_iff.1 hz
  rwa [hget] at hp

/-- A node that keeps its name is found where it was. -/
theorem findIdx?_set_named (hz : l[k]? = some z) (hy : named part graph i y = named part graph i z) :
    (l.set k y).findIdx? (named part graph i) = l.findIdx? (named part graph i) := by
  have hid (l : List Node) : l.findIdx? (named part graph i) = (l.map (named part graph i)).findIdx? id := by
    rw [List.findIdx?_map]
    rfl
  obtain ⟨hlt, hget⟩ := List.getElem?_eq_some_iff.1 hz
  have hsame : (l.map (named part graph i)).set k (named part graph i y) = l.map (named part graph i) := by
    have hlt' : k < (l.map (named part graph i)).length := by rwa [List.length_map]
    have hk : (l.map (named part graph i))[k] = named part graph i y := by rw [List.getElem_map, hget, hy]
    rw [← hk, List.set_getElem_self]
  rw [hid, hid, List.map_set, hsame]

theorem named_congr (hp : y.part = z.part) (hg : y.graph = z.graph) (hi : y.idx = z.idx) (i : Nat) : named part graph i y = named part graph i z := by
  rw [named, named, hp, hg, hi]

theorem namedAt_set_same (hk : l.findIdx? (named part graph i) = some k) (hz : l[k]? = some z) (hn : ∀ i, named part graph i y = named part graph i z)
    (hp : p y) : NamedAt part graph p (l.set k y) i := by
  obtain ⟨hlt, -⟩ := List.getElem?_eq_some_iff.1 hz
  exact ⟨k, y, by rw [findIdx?_set_named hz (hn i), hk], core_set_same hlt, hp⟩

theorem namedAt_set_ne (hij : i ≠ j) (hk : l.findIdx? (named part graph j) = some k) (hz : l[k]? = some z)
    (hn : ∀ i, named part graph i y = named part graph i z) (h : NamedAt part graph p l i) : NamedAt part graph p (l.set k y) i := by
  obtain ⟨m, x, hm, hx, hp⟩ := h
  have hne : k ≠ m := by
    rintro rfl
    have h1 := named_of_findIdx? hk hz
    have h2 := named_of_findIdx? hm hx
    have hxz : x = z := Option.some.inj (hx.symm.trans hz)
    simp only [named, Bool.and_eq_true, beq_iff_eq, hxz] at h1 h2
    exact hij (h2.2.symm.trans h1.2)
  exact ⟨m, x, by rw [findIdx?_set_named hz (hn i), hm], by rw [List.getElem?_set_ne hne, hx], hp⟩

end

/-! ### Records taken up -/

theorem nodeCores_enrol {part graph i : Nat} (r : List Nat) (h : ∀ q ∈ nodeCores s, q.part = part → q.graph = graph → q.idx ≠ i) :
    nodeCores (enrol part graph i r s) = nodeCores s ++ [nodeCore (freshNode part graph i r)] := by
  have hnone : findNode s part graph i = none := by
    rw [findNode_eq, List.findIdx?_eq_none_iff]
    intro q hq
    by_contra hnot
    simp only [named, Bool.and_eq_true, beq_iff_eq, Bool.not_eq_false] at hnot
    exact h q hq hnot.1.1 hnot.1.2 hnot.2
  rw [enrol, hnone]
  exact List.map_append

theorem nodeCores_enrolAll {part graph j : Nat} (rs : List (List Nat)) (h : ∀ q ∈ nodeCores s, q.part = part → q.graph = graph → q.idx < j) :
    nodeCores ((rs.zipIdx j).foldl (fun s x => enrol part graph x.2 x.1 s) s)
      = nodeCores s ++ (rs.zipIdx j).map fun x => nodeCore (freshNode part graph x.2 x.1) := by
  induction rs generalizing s j with
  | nil => exact (List.append_nil _).symm
  | cons r rs ih =>
    have hone := nodeCores_enrol r (i := j) fun q hq h1 h2 => (h q hq h1 h2).ne
    rw [List.zipIdx_cons, List.foldl_cons, ih, hone, List.append_assoc]
    · rfl
    · intro q hq h1 h2
      rw [hone] at hq
      rcases List.mem_append.1 hq with hold | hnew
      · exact Nat.lt_succ_of_lt (h q hold h1 h2)
      · rw [List.mem_singleton.1 hnew]
        exact Nat.lt_succ_self j

theorem length_allRecords {part addr count : Nat} {rs : List (List Nat)} (h : allRecords s part addr count = some rs) : rs.length = count := by
  have hfold : ∀ (is : List Nat) (rs : List (List Nat)), is.foldr (fun i acc => match acc, readRecord s part (addr + 64 * i) with
      | some l, some r => some (r :: l)
      | _, _ => none) (some []) = some rs → rs.length = is.length := by
    intro is
    induction is with
    | nil =>
      intro rs h
      rw [← Option.some.inj h]
      rfl
    | cons i is ih =>
      intro rs h
      rw [List.foldr_cons] at h
      split at h
      · next l r hl hr =>
        rw [← Option.some.inj h, List.length_cons, List.length_cons, ih l hl]
      · cases h
  exact (hfold _ _ h).trans List.length_range

/-- Every number of a graph that is taken up anew names a dormant node. -/
theorem namedAt_enrolled {part graph i : Nat} {rs : List (List Nat)} (h : ∀ q ∈ nodeCores s, q.part ≠ part ∨ q.graph ≠ graph) (hi : i < rs.length) :
    NamedAt part graph (fun y => y.st = .dormant) (nodeCores (rs.zipIdx.foldl (fun s x => enrol part graph x.2 x.1 s) s)) i := by
  rw [nodeCores_enrolAll rs fun q hq h1 h2 => ((h q hq).elim (· h1) (· h2)).elim]
  generalize hl : nodeCores s ++ rs.zipIdx.map (fun x => nodeCore (freshNode part graph x.2 x.1)) = l
  have hmem : nodeCore (freshNode part graph i rs[i]) ∈ l := by
    rw [← hl]
    refine List.mem_append_right _ (List.mem_map.2 ⟨(rs[i], i), ?_, rfl⟩)
    exact List.mem_zipIdx_iff_getElem?.2 (List.getElem?_eq_getElem hi)
  have hsome : (l.findIdx? (named part graph i)).isSome := by
    rw [List.findIdx?_isSome, List.any_eq_true]
    exact ⟨_, hmem, by simp [named, nodeCore, freshNode]⟩
  obtain ⟨k, hk⟩ := Option.isSome_iff_exists.1 hsome
  obtain ⟨hlt, hnamed, -⟩ := List.findIdx?_eq_some_iff_getElem.1 hk
  refine ⟨k, l[k], hk, List.getElem?_eq_getElem hlt, ?_⟩
  have hin : l[k] ∈ nodeCores s ++ rs.zipIdx.map (fun x => nodeCore (freshNode part graph x.2 x.1)) := hl ▸ List.getElem_mem hlt
  simp only [named, Bool.and_eq_true, beq_iff_eq] at hnamed
  rcases List.mem_append.1 hin with hold | hnew
  · exact ((h _ hold).elim (· hnamed.1.1) (· hnamed.1.2)).elim
  · obtain ⟨x, -, hx⟩ := List.mem_map.1 hnew
    rw [← hx]
    rfl

/-! ### Nodes armed in turn -/

/-- A node that has been armed, or has failed for its record. -/
def ArmedOrFailed (y : Node) : Prop := y.st = .armed ∨ (y.st = .failed ∧ y.reason = 4)

/-- The barista's visit to one number of a graph. -/
def armOne (part graph : Nat) (s : State) (i : Nat) : State :=
  match findNode s part graph i with
  | none => s
  | some n => match getNode s n with
    | some d => if d.st = .dormant then armNode n d (recField d 2 56 56 == 1) (recordOk s d) s else s
    | none => s

theorem armOne_of_found {part graph i k : Nat} (hk : (nodeCores s).findIdx? (named part graph i) = some k) (hd : getNode s k = some d) :
    nodeCores (armOne part graph s i) = if d.st = .dormant
      then (nodeCores s).set k (nodeCore (armedNode (recField d 2 56 56 == 1) (recordOk s d) d)) else nodeCores s := by
  have hf : findNode s part graph i = some k := (findNode_eq ..).trans hk
  obtain ⟨hlt, -⟩ := List.getElem?_eq_some_iff.1 hd
  simp only [armOne, hf, hd]
  split
  · exact nodeCores_armNode _ _ hlt
  · rfl

theorem named_armedNode {part graph : Nat} (e ok : Bool) (d : Node) (i : Nat) :
    named part graph i (nodeCore (armedNode e ok d)) = named part graph i (nodeCore d) := by
  cases ok <;> exact named_congr rfl rfl rfl i

theorem armedOrFailed_armedNode (e ok : Bool) (d : Node) : ArmedOrFailed (nodeCore (armedNode e ok d)) := by
  cases ok with
  | true => exact .inl rfl
  | false => exact .inr ⟨rfl, rfl⟩

section
variable {part graph i j : Nat} {p : Node → Prop}

theorem getNode_of_namedAt (h : NamedAt part graph p (nodeCores s) i) :
    ∃ k d, (nodeCores s).findIdx? (named part graph i) = some k ∧ getNode s k = some d ∧ p (nodeCore d) := by
  obtain ⟨k, y, hk, hy, hp⟩ := h
  obtain ⟨d, hd, rfl⟩ := getNode_of_nodeCores hy
  exact ⟨k, d, hk, hd, hp⟩

theorem armOne_settles (h : NamedAt part graph (fun y => y.st = .dormant) (nodeCores s) i) :
    NamedAt part graph ArmedOrFailed (nodeCores (armOne part graph s i)) i := by
  obtain ⟨k, d, hk, hd, hst⟩ := getNode_of_namedAt h
  have hdorm : d.st = .dormant := hst
  rw [armOne_of_found hk hd, if_pos hdorm]
  exact namedAt_set_same hk (by rw [getElem?_nodeCores, hd]; rfl) (named_armedNode _ _ d) (armedOrFailed_armedNode ..)

/-- Where a number names no dormant node the visit does nothing. -/
theorem armOne_keeps (h : NamedAt part graph ArmedOrFailed (nodeCores s) i) : NamedAt part graph ArmedOrFailed (nodeCores (armOne part graph s i)) i := by
  obtain ⟨k, d, hk, hd, hst⟩ := getNode_of_namedAt h
  have hnot : d.st ≠ .dormant := by
    rcases hst with harm | ⟨hfail, -⟩
    · exact fun hdorm => by cases harm.symm.trans hdorm
    · exact fun hdorm => by cases hfail.symm.trans hdorm
  rw [armOne_of_found hk hd, if_neg hnot]
  exact h

theorem armOne_other (hij : i ≠ j) (h : NamedAt part graph p (nodeCores s) i) : NamedAt part graph p (nodeCores (armOne part graph s j)) i := by
  cases hk : (nodeCores s).findIdx? (named part graph j) with
  | none =>
    have hf : findNode s part graph j = none := (findNode_eq ..).trans hk
    rw [armOne, hf]
    exact h
  | some k =>
    obtain ⟨hlt, -, -⟩ := List.findIdx?_eq_some_iff_getElem.1 hk
    obtain ⟨d, hd, hcore⟩ := getNode_of_nodeCores (List.getElem?_eq_getElem hlt)
    rw [armOne_of_found hk hd]
    split
    · exact namedAt_set_ne hij hk (by rw [getElem?_nodeCores, hd]; rfl) (named_armedNode _ _ d) h
    · exact h

theorem armAll_settles (is : List Nat) (h : NamedAt part graph (fun y => y.st = .dormant) (nodeCores s) i ∧ i ∈ is
    ∨ NamedAt part graph ArmedOrFailed (nodeCores s) i) : NamedAt part graph ArmedOrFailed (nodeCores (is.foldl (armOne part graph) s)) i := by
  induction is generalizing s with
  | nil => exact h.resolve_left fun h => by cases h.2
  | cons j is ih =>
    refine ih ?_
    by_cases hij : i = j
    · subst hij
      exact .inr (h.elim (fun h => armOne_settles h.1) armOne_keeps)
    · exact h.imp (fun h => ⟨armOne_other hij h.1, (List.mem_cons.1 h.2).resolve_left hij⟩) (armOne_other hij)

end

/-- A graph registered anew: every number of it names a node that is armed or has failed. -/
theorem exec_graphRegistration {part addr count : Nat} {rs : List (List Nat)} (hp : part < 64) (hpart : (assoc part s.parts).isSome) (h1 : 1 ≤ count)
    (h2 : count ≤ 4096) (ha : addr % 64 = 0) (hrs : allRecords s part addr count = some rs) (hnew : ∀ q ∈ s.nodes, q.part ≠ part ∨ q.graph ≠ addr) :
    ∃ t, exec (.graphRegistration part addr count) s = .next t
      ∧ ∀ i, i < count → ∃ k, findNode t part addr i = some k ∧ NodeIs t k fun x => x.st = .armed ∨ (x.st = .failed ∧ x.reason = 4) := by
  have hexec : exec (.graphRegistration part addr count) s = eventStep (decide (part < 64)) (fireGraphRegistration part addr count s) s := rfl
  have hguard : ¬((assoc part s.parts).isNone ∨ count = 0 ∨ 4096 < count ∨ addr % 64 ≠ 0) := by
    rintro (hnone | hrest)
    · rw [Option.isNone_iff_eq_none] at hnone
      rw [hnone] at hpart
      cases hpart
    · omega
  have hfire : fireGraphRegistration part addr count s
      = some ((List.range count).foldl (armOne part addr) (rs.zipIdx.foldl (fun s x => enrol part addr x.2 x.1 s) s)) := by
    rw [fireGraphRegistration, if_neg hguard, hrs]
    rfl
  refine ⟨_, by rw [hexec, hfire, eventStep, decide_eq_true hp]; rfl, fun i hi => ?_⟩
  have hold : ∀ q ∈ nodeCores s, q.part ≠ part ∨ q.graph ≠ addr := fun q hq => by
    obtain ⟨d, hd, rfl⟩ := List.mem_map.1 hq
    exact hnew d hd
  have hdorm := namedAt_enrolled (rs := rs) hold (by rwa [length_allRecords hrs])
  obtain ⟨k, d, hk, hd, hst⟩ := getNode_of_namedAt (armAll_settles (List.range count) (.inl ⟨hdorm, List.mem_range.2 hi⟩))
  exact ⟨k, (findNode_eq ..).trans hk, d, hd, hst⟩

/-! ### A graph given up -/

/-- A node whose graph is given up. -/
def dormantNode (d : Node) : Node := { d with st := .dormant, clusters := [], handed := [], saved := none, laid := none }
/-- The barista's part in giving up one node. -/
def giveUp (s : State) (x : Node × Nat) : State :=
  setState x.2 (dormantNode x.1) (dropReservation x.2 (match x.1.saved with | some v => dropImages v s | none => s))

theorem nodeCores_giveUp (s : State) (x : Node × Nat) : nodeCores (giveUp s x) = (nodeCores s).set x.2 (nodeCore (dormantNode x.1)) := by
  rw [giveUp, nodeCores_setState, nodeCores_dropReservation]
  exact congrArg (List.set · x.2 _) (nodeCores_dropSome x.1.saved s)

theorem giveUp_all {part graph : Nat} (xs : List (Node × Nat)) (h : ∀ k y, (nodeCores s)[k]? = some y → y.part = part → y.graph = graph →
    y.st = .dormant ∨ ∃ x ∈ xs, x.2 = k) : ∀ y ∈ nodeCores (xs.foldl giveUp s), y.part = part → y.graph = graph → y.st = .dormant := by
  induction xs generalizing s with
  | nil =>
    intro y hy hp hg
    obtain ⟨k, hk⟩ := List.mem_iff_getElem?.1 hy
    exact (h k y hk hp hg).resolve_right (by simp)
  | cons x xs ih =>
    refine ih fun k y hk hp hg => ?_
    rw [nodeCores_giveUp, List.getElem?_set] at hk
    split at hk
    · split at hk
      · rw [← Option.some.inj hk]
        exact .inl rfl
      · cases hk
    · next hne =>
      refine (h k y hk hp hg).imp_right fun ⟨z, hz, hzk⟩ => ⟨z, (List.mem_cons.1 hz).resolve_left ?_, hzk⟩
      rintro rfl
      exact hne hzk

/-- The nodes of a graph that are to be given up. -/
def graphNodes (part graph : Nat) (s : State) : List (Node × Nat) :=
  s.nodes.zipIdx.filter fun (d, _) => d.part == part && d.graph == graph && d.st != .dormant

theorem mem_graphNodes {part graph k : Nat} : (q, k) ∈ graphNodes part graph s
    ↔ getNode s k = some q ∧ q.part = part ∧ q.graph = graph ∧ q.st ≠ .dormant := by
  simp [graphNodes, List.mem_filter, List.mem_zipIdx_iff_getElem?, getNode, and_assoc]

theorem exec_graphUnregistration (hd : getNode s n = some d) (hp : d.part < 64) (hst : d.st ≠ .dormant)
    (hall : ∀ q ∈ s.nodes, q.part = d.part → q.graph = d.graph → q.st ≠ .dormant →
      q.saved = none ∧ (q.st = .armed ∨ q.st = .ready ∨ q.st = .failed)) :
    ∃ t, exec (.graphUnregistration d.part d.graph) s = .next t ∧ ∀ q ∈ t.nodes, q.part = d.part → q.graph = d.graph → q.st = .dormant := by
  have hexec : exec (.graphUnregistration d.part d.graph) s = eventStep (decide (d.part < 64)) (fireGraphUnregistration d.part d.graph s) s := rfl
  have hmine : (d, n) ∈ graphNodes d.part d.graph s := mem_graphNodes.2 ⟨hd, rfl, rfl, hst⟩
  have hempty : (graphNodes d.part d.graph s).isEmpty = false := by
    rw [List.isEmpty_eq_false_iff]
    exact List.ne_nil_of_mem hmine
  have hready : (graphNodes d.part d.graph s).all
      (fun (d, _) => d.saved.all (·.handoffOnly) && (d.st == .armed || d.st == .ready || d.st == .failed)) = true := by
    rw [List.all_eq_true]
    rintro ⟨q, k⟩ hq
    obtain ⟨hget, hqp, hqg, hqs⟩ := mem_graphNodes.1 hq
    obtain ⟨hsaved, hsts⟩ := hall q (List.mem_of_getElem? hget) hqp hqg hqs
    simpa [hsaved, or_assoc] using hsts
  have hguard : ¬((graphNodes d.part d.graph s).isEmpty || !(graphNodes d.part d.graph s).all
      (fun (d, _) => d.saved.all (·.handoffOnly) && (d.st == .armed || d.st == .ready || d.st == .failed))) = true := by
    rw [hempty, hready]
    decide
  have hfire : fireGraphUnregistration d.part d.graph s = some ((graphNodes d.part d.graph s).foldl giveUp s) := if_neg hguard
  refine ⟨_, by rw [hexec, hfire, eventStep, decide_eq_true hp]; rfl, fun q hq => ?_⟩
  refine giveUp_all (graphNodes d.part d.graph s) (fun k y hk hyp hyg => ?_) (nodeCore q) (List.mem_map_of_mem hq)
  obtain ⟨x, hx, rfl⟩ := getNode_of_nodeCores hk
  by_cases hxs : x.st = .dormant
  · exact .inl hxs
  · exact .inr ⟨(x, k), mem_graphNodes.2 ⟨hx, hyp, hyg, hxs⟩, rfl⟩

end
end Sys2Proof.Machine
end

section
/-! SUPPORT. Placement and start of a node (R290, R292, R293). -/

namespace Sys2Proof.Machine

section
variable {s t : State} {n m : Nat} {d q : Node}

/-! ## Placement (R292, R293) -/

theorem dirtySectors_clusters (own : Owner) (bs : List (GByte × Byte)) (s : State) : (dirtySectors own bs s).clusters = s.clusters := by
  refine foldl_kept State.clusters _ (fun s sec => ?_) _ s
  dsimp only
  split
  · rfl
  · split <;> rfl

theorem coreWrite_clusters (who : CtxId) (ws : List WByte) (s : State) : (coreWrite who none ws s).clusters = s.clusters :=
  foldl_kept State.clusters (fun s w => signalWord w .byStore s) (fun _ _ => rfl) _ _

theorem setState_clusters (n : Nat) (d : Node) (s : State) : (setState n d s).clusters = s.clusters := by
  unfold setState baristaStore
  split
  · rfl
  · exact (coreWrite_clusters ..).trans (dirtySectors_clusters ..)

/-- A cluster as a node takes it: the node's, and of its world. -/
def TakenBy (n : Nat) (w : Bool) (x : Cluster) : Prop := x.node = some n ∧ x.world = w

/-- A node's clusters, with their logical numbers, become its own. -/
def takeClusters (n : Nat) (d : Node) (xs : List (ClId × Nat)) (s : State) : State :=
  xs.foldl (fun s x => setCl x.1 { getCl s x.1 with
    node := some n, logical := x.2, part := some d.part, world := nodeWorld d, heldFor := none } s) s

theorem takenBy_takeClusters {c : ClId} (xs : List (ClId × Nat)) (h : c ∈ xs.map (·.1) ∨ TakenBy n (nodeWorld d) (getCl s c)) :
    TakenBy n (nodeWorld d) (getCl (takeClusters n d xs s) c) := by
  induction xs generalizing s with
  | nil => exact h.resolve_left (by simp)
  | cons x xs ih =>
    refine ih ?_
    by_cases hx : c = x.1
    · right
      rw [hx, getCl_setCl_same]
      exact ⟨rfl, rfl⟩
    · rw [getCl_setCl_ne _ _ hx]
      exact h.imp_left fun h => (List.mem_cons.1 h).resolve_left hx

theorem nodeCores_takeClusters (xs : List (ClId × Nat)) (s : State) : nodeCores (takeClusters n d xs s) = nodeCores s :=
  nodeCores_foldl (f := fun s (x : ClId × Nat) => setCl x.1 { getCl s x.1 with
    node := some n, logical := x.2, part := some d.part, world := nodeWorld d, heldFor := none } s) (fun _ _ => rfl) _ _

/-- Gated islands of a node's clusters start to wake. -/
def wakeIslands (cs : List ClId) (s : State) : State :=
  cs.foldl (fun s c =>
    let x := getIsland s c.die (islandOf c)
    if x.gated then setIsland c.die (islandOf c) { x with waking := true } s else s) s

theorem wakeIslands_clusters (cs : List ClId) (s : State) : (wakeIslands cs s).clusters = s.clusters := by
  refine foldl_kept State.clusters _ (fun s c => ?_) _ s
  dsimp only
  split <;> rfl

theorem nodeCores_wakeIslands (cs : List ClId) (s : State) : nodeCores (wakeIslands cs s) = nodeCores s := by
  refine nodeCores_foldl (fun s c => ?_) _ s
  dsimp only
  split <;> rfl

theorem placeNode_clusters (cs : List ClId) (handoff : Bool) (s : State) :
    ∃ u, (placeNode n d cs handoff s).clusters = (takeClusters n d cs.zipIdx u).clusters := ⟨_, (setState_clusters ..).trans (wakeIslands_clusters ..)⟩

/-- Placement gives a node its clusters. -/
theorem placeNode_places {cs : List ClId} (handoff : Bool) (hd : getNode s n = some d) :
    NodeIs (placeNode n d cs handoff s) n (fun x => x.st = .placed ∧ x.clusters = cs)
      ∧ ∀ c ∈ cs, TakenBy n (nodeWorld d) (getCl (placeNode n d cs handoff s) c) := by
  have hdisplace (own : ClId → Bool) : nodeCores (cs.foldl (fun s c => if own c then s else displace c s) s) = nodeCores s :=
    nodeCores_foldl (fun s c => by
      split
      · rfl
      · exact nodeCores_displace c s) _ s
  refine ⟨nodeIs_setState ?_ ⟨rfl, rfl⟩ fun _ => Iff.rfl, fun c hc => ?_⟩
  · refine lt_of_lt_of_eq (lt_of_getNode hd) (congrArg List.length ?_)
    exact ((nodeCores_wakeIslands cs _).trans ((nodeCores_takeClusters cs.zipIdx _).trans (hdisplace _))).symm
  · have hin : c ∈ (cs.zipIdx).map (·.1) := by
      rw [List.zipIdx_map_fst]
      exact hc
    obtain ⟨u, hu⟩ := placeNode_clusters (n := n) (d := d) cs handoff s
    rw [getCl, hu]
    exact takenBy_takeClusters cs.zipIdx (.inl hin)

theorem exec_placement (hd : getNode s n = some d) (ha : actable s n d = true) (hnext : isNext s n d = true) :
    exec (.placement n) s = .next ((match decideNode s n d with
      | some (.place cs handoff) => some (placeNode n d cs handoff s)
      | some (.stopFor ns ms) => some (ms.foldl (fun s m => saveReserved m s) (ns.foldl (fun s m => preemptNode m s) s))
      | none => none).getD s) := by
  have hexec : exec (.placement n) s = eventStep true (firePlacement n s) s := rfl
  rw [hexec]
  simp only [firePlacement, hd, ha, hnext, Bool.not_true, Bool.or_self, Bool.false_eq_true, if_false]
  rfl

/-! ## Nodes told to stop (R311) -/

/-- A node that is told to stop; a placed one goes back to ready. -/
def preempted (d : Node) : Node :=
  if d.st = .running ∧ d.stop = .no then { d with stop := .preempt }
  else if d.st = .placed then { d with st := .ready, clusters := [] } else d

theorem nodeCores_preemptNode (hd : getNode s n = some d) : nodeCores (preemptNode n s) = (nodeCores s).set n (preempted (nodeCore d)) := by
  have hself : (nodeCores s).set n (nodeCore d) = nodeCores s := by
    rw [← nodeCores_setNode]
    exact nodeCores_setNode_same hd rfl
  have hst : (nodeCore d).st = d.st := rfl
  have hstop : (nodeCore d).stop = d.stop := rfl
  simp only [preemptNode, hd, preempted, hst, hstop]
  split
  · exact nodeCores_setNode ..
  · split
    · rw [nodeCores_setState, nodeCores_freeClusters]
      rfl
    · exact hself.symm

/-- A running node that has been told to stop at most for this. -/
def RunsOn (stop : Stop) (y : Node) : Prop := y.st = .running ∧ y.stop = stop

theorem preempted_of_preempt {y : Node} (h : RunsOn .preempt y) : preempted y = y := by
  obtain ⟨hst, hstop⟩ := h
  rw [preempted, if_neg (by simp [hstop]), if_neg (by simp [hst])]

theorem runsOn_preempted {y : Node} (h : RunsOn .no y) : RunsOn .preempt (preempted y) := by
  rw [preempted, if_pos ⟨h.1, h.2⟩]
  exact ⟨h.1, rfl⟩

/-- The nodes of a list that run are told to stop; no other running one is. -/
theorem preemptAll {k : Nat} (ns : List Nat) (h : (∃ y, (nodeCores s)[k]? = some y ∧ RunsOn .no y) ∧ k ∈ ns
    ∨ ∃ y, (nodeCores s)[k]? = some y ∧ RunsOn .preempt y) :
    ∃ y, (nodeCores (ns.foldl (fun s m => preemptNode m s) s))[k]? = some y ∧ RunsOn .preempt y := by
  induction ns generalizing s with
  | nil => exact h.resolve_left fun h => by cases h.2
  | cons m ns ih =>
    refine ih ?_
    dsimp only
    cases hm : getNode s m with
    | none =>
      have hsame : preemptNode m s = s := by rw [preemptNode, hm]
      rw [hsame]
      refine h.imp_left fun ⟨⟨y, hy, hrun⟩, hk⟩ => ⟨⟨y, hy, hrun⟩, (List.mem_cons.1 hk).resolve_left ?_⟩
      rintro rfl
      rw [getElem?_nodeCores, hm] at hy
      cases hy
    | some d =>
      rw [nodeCores_preemptNode hm]
      by_cases hkm : k = m
      · subst hkm
        have hy {y : Node} (hy : (nodeCores s)[k]? = some y) : nodeCore d = y := by
          rw [getElem?_nodeCores, hm] at hy
          exact Option.some.inj hy
        right
        refine ⟨preempted (nodeCore d), core_set_same (lt_of_getNode hm), ?_⟩
        rcases h with ⟨⟨y, hget, hrun⟩, -⟩ | ⟨y, hget, hrun⟩
        · rw [hy hget]
          exact runsOn_preempted hrun
        · rw [hy hget, preempted_of_preempt hrun]
          exact hrun
      · rw [List.getElem?_set_ne (Ne.symm hkm)]
        exact h.imp_left fun ⟨hy, hk⟩ => ⟨hy, (List.mem_cons.1 hk).resolve_left hkm⟩

/-- Stopping for a node: every running one that is named has been told to stop. -/
theorem stopFor_stops {k : Nat} (ns ms : List Nat) (hk : k ∈ ns) (hq : getNode s k = some q) (hst : q.st = .running) (hstop : q.stop = .no) :
    NodeIs (ms.foldl (fun s m => saveReserved m s) (ns.foldl (fun s m => preemptNode m s) s)) k fun x => x.st = .running ∧ x.stop = .preempt := by
  obtain ⟨y, hy, hrun⟩ := preemptAll (s := s) ns (.inl ⟨⟨nodeCore q, by rw [getElem?_nodeCores, hq]; rfl, hst, hstop⟩, hk⟩)
  refine nodeIs_of_nodeCores (y := y) ?_ hrun fun _ => id
  rw [nodeCores_foldl fun s m => nodeCores_saveReserved m s]
  exact hy

/-! ## Starts (R290) -/

/-- A store wakes only contexts that wait. -/
theorem getCtx_coreWrite_runnable {w : CtxId} (who : CtxId) (ws : List WByte) (h : (getCtx s w).run = .runnable) :
    getCtx (coreWrite who none ws s) w = getCtx s w := by
  have hfold : ∀ (l : List Nat) (u : State), (getCtx u w).run = .runnable → getCtx (l.foldl (fun s x => signalWord x .byStore s) u) w = getCtx u w := by
    intro l
    induction l with
    | nil => exact fun _ _ => rfl
    | cons x l ih =>
      intro u hu
      have hone : getCtx (signalWord x .byStore u) w = getCtx u w := by rw [getCtx_signalWord, signalled, hu]
      rw [List.foldl_cons, ih _ (by rw [hone]; exact hu), hone]
  exact hfold _ { nodeEvent who s with mem := writeCells ws (nodeEvent who s).mem } h

theorem dirtySectors_ctxs (own : Owner) (bs : List (GByte × Byte)) (s : State) : (dirtySectors own bs s).ctxs = s.ctxs := by
  refine foldl_kept State.ctxs _ (fun s sec => ?_) _ s
  dsimp only
  split
  · rfl
  · split <;> rfl

theorem getCtx_setState_runnable {w : CtxId} (n : Nat) (d : Node) (h : (getCtx s w).run = .runnable) : getCtx (setState n d s) w = getCtx s w := by
  unfold setState baristaStore
  split
  · rfl
  · have hdirty (own : Owner) (bs : List (GByte × Byte)) : getCtx (dirtySectors own bs (setNode n d s)) w = getCtx s w := by
      rw [getCtx, dirtySectors_ctxs]
      rfl
    rw [getCtx_coreWrite_runnable, hdirty]
    rw [hdirty]
    exact h

theorem getCtx_foldl_setCtx {w : CtxId} (f : CtxId → Ctx) (ks : List CtxId) (s : State) :
    getCtx (ks.foldl (fun s k => setCtx k (f k) s) s) w = if w ∈ ks then f w else getCtx s w := by
  induction ks generalizing s with
  | nil => rfl
  | cons k ks ih =>
    rw [List.foldl_cons, ih]
    by_cases hks : w ∈ ks
    · rw [if_pos hks, if_pos (List.mem_cons_of_mem _ hks)]
    · rw [if_neg hks]
      by_cases hk : w = k
      · rw [if_pos (hk ▸ List.mem_cons_self), hk, getCtx_setCtx_same]
      · rw [if_neg (by simp [hk, hks]), getCtx_setCtx_ne _ _ hk]

theorem mem_clusterCtxs {c : ClId} {core k : Nat} (hc : core < 4) (hk : k < 4) : (⟨c.die, c.cl, core, k⟩ : CtxId) ∈ clusterCtxs c :=
  List.mem_map.2 ⟨4 * core + k, List.mem_range.2 (by omega), by
    rw [show (4 * core + k) / 4 = core by omega, show (4 * core + k) % 4 = k by omega]⟩

theorem clId_of_mem_clusterCtxs {c : ClId} {w : CtxId} (h : w ∈ clusterCtxs c) : w.clId = c := by
  obtain ⟨k, -, rfl⟩ := List.mem_map.1 h
  rfl

section
variable {im : Image} {gs : List Segment} {tbl : List Byte} {table : Nat}

theorem loadText_kept (c : ClId) (i : Nat) (s : State) : (loadText im gs c i s).ctxs = s.ctxs ∧ (loadText im gs c i s).nodes = s.nodes := by
  unfold loadText
  dsimp only
  split <;> exact ⟨rfl, rfl⟩

/-- The scratchpad image of a starting cluster, where it inherits none. -/
def loadSpad (d : Node) (im : Image) (gs : List Segment) (table : Nat) (x : ClId × Nat) (s : State) : State :=
  if d.inherits then s else
    { s with mem := (clusterData gs 2 table x.2).foldl (fun m g => Memory.sets m (physSpad x.1 g.start) ((openSegment im.key g).getD [])) s.mem }

theorem loadSpad_kept (x : ClId × Nat) (s : State) : (loadSpad d im gs table x s).ctxs = s.ctxs ∧ (loadSpad d im gs table x s).nodes = s.nodes := by
  unfold loadSpad
  split <;> exact ⟨rfl, rfl⟩

/-- A starting cluster before its contexts are set. -/
def loadedCluster (d : Node) (im : Image) (gs : List Segment) (table : Nat) (s : State) (x : ClId × Nat) : State :=
  (List.range 4).foldl (fun s e => setMex ⟨x.1.die, x.1.cl, e⟩ Mex.start s) (loadText im gs x.1 x.2 (loadSpad d im gs table x s))

theorem startCluster_eq (s : State) (x : ClId × Nat) : startCluster n d im gs tbl table s x
    = (clusterCtxs x.1).foldl (fun s who => setCtx who (startCtx n d gs im.key tbl table x.2 who) s) (loadedCluster d im gs table s x) := rfl

theorem loadedCluster_kept (s : State) (x : ClId × Nat) :
    (loadedCluster d im gs table s x).ctxs = s.ctxs ∧ (loadedCluster d im gs table s x).nodes = s.nodes := by
  obtain ⟨hctxs, hnodes⟩ := loadText_kept (im := im) (gs := gs) x.1 x.2 (loadSpad d im gs table x s)
  obtain ⟨hctxs', hnodes'⟩ := loadSpad_kept (d := d) (im := im) (gs := gs) (table := table) x s
  have hmex (u : State) : ((List.range 4).foldl (fun s e => setMex ⟨x.1.die, x.1.cl, e⟩ Mex.start s) u).ctxs = u.ctxs :=
    foldl_kept State.ctxs (fun s e => setMex ⟨x.1.die, x.1.cl, e⟩ Mex.start s) (fun _ _ => rfl) _ u
  have hmex' (u : State) : ((List.range 4).foldl (fun s e => setMex ⟨x.1.die, x.1.cl, e⟩ Mex.start s) u).nodes = u.nodes :=
    foldl_kept State.nodes (fun s e => setMex ⟨x.1.die, x.1.cl, e⟩ Mex.start s) (fun _ _ => rfl) _ u
  exact ⟨(hmex _).trans (hctxs.trans hctxs'), (hmex' _).trans (hnodes.trans hnodes')⟩

theorem getCtx_startCluster (s : State) (x : ClId × Nat) (w : CtxId) : getCtx (startCluster n d im gs tbl table s x) w
    = if w ∈ clusterCtxs x.1 then startCtx n d gs im.key tbl table x.2 w else getCtx s w := by
  rw [startCluster_eq, getCtx_foldl_setCtx]
  have hsame : getCtx (loadedCluster d im gs table s x) w = getCtx s w := by rw [getCtx, (loadedCluster_kept s x).1, getCtx]
  rw [hsame]

theorem foldl_setCtx_nodes (f : CtxId → Ctx) (ks : List CtxId) (s : State) : (ks.foldl (fun s k => setCtx k (f k) s) s).nodes = s.nodes :=
  foldl_kept State.nodes (fun s k => setCtx k (f k) s) (fun _ _ => rfl) ks s

theorem nodeCores_startCluster (s : State) (x : ClId × Nat) : nodeCores (startCluster n d im gs tbl table s x) = nodeCores s :=
  nodeCores_of_nodes ((foldl_setCtx_nodes _ _ _).trans (loadedCluster_kept s x).2)

/-- The contexts of each of a node's clusters start, where no cluster occurs twice. -/
theorem getCtx_startClusters {w : CtxId} {i : Nat} (xs : List (ClId × Nat)) (hnd : (xs.map (·.1)).Nodup) (hx : (w.clId, i) ∈ xs)
    (hw : w ∈ clusterCtxs w.clId) (s : State) : getCtx (xs.foldl (startCluster n d im gs tbl table) s) w = startCtx n d gs im.key tbl table i w := by
  have hother : ∀ (ys : List (ClId × Nat)) (u : State), w.clId ∉ ys.map (·.1) →
      getCtx (ys.foldl (startCluster n d im gs tbl table) u) w = getCtx u w := by
    intro ys
    induction ys with
    | nil => exact fun _ _ => rfl
    | cons y ys ih =>
      intro u hnot
      rw [List.map_cons, List.mem_cons, not_or] at hnot
      rw [List.foldl_cons, ih _ hnot.2, getCtx_startCluster, if_neg fun hmem => hnot.1 (clId_of_mem_clusterCtxs hmem)]
  induction xs generalizing s with
  | nil => cases hx
  | cons x xs ih =>
    rw [List.map_cons, List.nodup_cons] at hnd
    rw [List.foldl_cons]
    rcases List.mem_cons.1 hx with hhead | htail
    · subst hhead
      rw [hother _ _ hnd.1, getCtx_startCluster, if_pos hw]
    · exact ih hnd.2 htail _

end

/-- A context that has an entry starts there. -/
theorem startCtx_of_entry {gs : List Segment} {key tbl : List Byte} {table i pc : Nat} {w : CtxId} (he : entryOf tbl i w.core w.ctx = some pc)
    (hl : nodeLockstep d = false) : (startCtx n d gs key tbl table i w).run = .runnable ∧ (startCtx n d gs key tbl table i w).pc = pc
      ∧ (startCtx n d gs key tbl table i w).node = some n ∧ (startCtx n d gs key tbl table i w).bclk = 0 := by
  simp only [startCtx, hl, he, Bool.false_and, Bool.false_eq_true, if_false, Option.isSome_some, if_true, Option.getD_some, Ctx.start, and_self]

/-- A running node as its start leaves it. -/
def startedNode (pal : List Byte) (d : Node) : Node := { d with st := .running, palettes := pal, saved := none, stop := .no, durable := false }
/-- The clusters of a node as its start finds them. -/
def readied (d : Node) (s : State) : State := wipeLocal (d.inherits && d.saved.isNone) d.clusters (clearCores d.clusters s)
/-- A node without an image, started. -/
def startedState (n : Nat) (d : Node) (im : Image) (gs : List Segment) (tbl pal : List Byte) (s : State) : State :=
  let s3 := d.clusters.zipIdx.foldl (startCluster n d im gs tbl (recField d 0 47 32)) (readied d s)
  setState n (startedNode pal d) { s3 with tally := assocDrop n s3.tally }

section
variable {im : Image} {gs : List Segment} {tbl pal : List Byte}

theorem startNode_starts (hsaved : d.saved = none) (him : nodeImage s d = some (im, gs, tbl)) (hres : hitsResident s d gs = false)
    (hpal : nodePalettes s d = some pal) : startNode n d s = startedState n d im gs tbl pal s := by
  have hplace : placement s d = .ok (im, gs, tbl, pal) := by simp only [placement, him, hres, hpal, Bool.false_eq_true, if_false]
  have hopen : openSaved n d s = .ok s := by rw [openSaved, hsaved]
  have htake (u : State) : takeBack d u = u := by rw [takeBack, hsaved]
  simp only [startNode, hplace, hsaved, hopen, htake]
  rw [startedState, readied, hsaved]
  rfl

theorem nodeIs_startedState (hd : getNode s n = some d) :
    NodeIs (startedState n d im gs tbl pal s) n fun x => x.st = .running ∧ x.palettes = pal := by
  refine nodeIs_setState (lt_of_lt_of_eq (lt_of_getNode hd) (congrArg List.length ?_)) ⟨rfl, rfl⟩ fun _ => Iff.rfl
  exact (nodeCores_foldl (fun s x => nodeCores_startCluster s x) d.clusters.zipIdx (readied d s)).symm

theorem getCtx_startedState {i core k pc : Nat} {c : ClId} (hnd : d.clusters.Nodup) (hi : d.clusters[i]? = some c) (hcore : core < 4) (hk : k < 4)
    (he : entryOf tbl i core k = some pc) (hl : nodeLockstep d = false) :
    (getCtx (startedState n d im gs tbl pal s) ⟨c.die, c.cl, core, k⟩).run = .runnable
      ∧ (getCtx (startedState n d im gs tbl pal s) ⟨c.die, c.cl, core, k⟩).pc = pc
      ∧ (getCtx (startedState n d im gs tbl pal s) ⟨c.die, c.cl, core, k⟩).node = some n
      ∧ (getCtx (startedState n d im gs tbl pal s) ⟨c.die, c.cl, core, k⟩).bclk = 0 := by
  have hstart := getCtx_startClusters (n := n) (d := d) (im := im) (gs := gs) (tbl := tbl) (table := recField d 0 47 32) (w := ⟨c.die, c.cl, core, k⟩)
    d.clusters.zipIdx (by rwa [List.zipIdx_map_fst]) (List.mem_zipIdx_iff_getElem?.2 hi) (mem_clusterCtxs hcore hk) (readied d s)
  have hctx := startCtx_of_entry (n := n) (gs := gs) (key := im.key) (table := recField d 0 47 32) (w := ⟨c.die, c.cl, core, k⟩) he hl
  rw [← hstart] at hctx
  have hsame : getCtx (startedState n d im gs tbl pal s) ⟨c.die, c.cl, core, k⟩ = _ := getCtx_setState_runnable n (startedNode pal d) hctx.1
  rw [hsame]
  exact hctx

end

theorem exec_nodeStart (hd : getNode s n = some d) (hst : d.st = .placed) (hsaved : d.saved = none) (ha : d.clusters.all (clusterAwake s) = true)
    (hv : s.viral = false) : exec (.nodeStart n) s = .next (startNode n d s) := by
  have hexec : exec (.nodeStart n) s = eventStep true (fireNodeStart n s) s := rfl
  rw [hexec]
  simp only [fireNodeStart, hd, hst, hsaved, ha, hv, and_self, if_true, Bool.not_false]
  rfl

theorem startNode_lacks_image (h : nodeImage s d = none) : startNode n d s = failNode n 5 s := by
  have hplace : placement s d = .error 5 := by simp only [placement, h]
  rw [startNode, hplace]

end
end Sys2Proof.Machine

namespace Sys2Proof
open Machine

/-- Settles O51: each event fires under its condition, and the nodes' cores, which images and reservations leave alone, give the state it
enters. -/
theorem nodeEvents : Obligations.NodeEvents := by
  unfold Obligations.NodeEvents
  refine fun s n d hd => ⟨fun hst w hw hp => ⟨_, exec_nodeReady hd hst hw hp, ?_⟩, fun ha hnext => ⟨fun cs h hdec => ?_, fun ns ms hdec => ?_⟩,
    fun hst hsaved haw hv => ⟨fun him => ⟨_, exec_nodeStart hd hst hsaved haw hv, ?_⟩,
      fun im gs tbl pal him hres hpal => ⟨_, exec_nodeStart hd hst hsaved haw hv, ?_⟩⟩,
    fun hst hsaved hstop hr hc hv => ⟨_, exec_nodeCommit hd hst hsaved hstop hr hc hv, nodeIs_commitNode hd⟩,
    fun hst hstop hc => ⟨_, exec_nodeFail hd hst hstop hc, nodeIs_failNode hd ⟨rfl, rfl, ?_⟩ fun _ => Iff.rfl⟩,
    fun hst hc => ⟨_, exec_killedNodeRelease hd hst hc, ?_⟩,
    fun part addr count rs hp hpart h1 h2 ha hrs hnew => exec_graphRegistration hp hpart h1 h2 ha hrs hnew, fun hp hst hall => ?_⟩
  · exact nodeIs_setState (s := { s with stamp := s.stamp + 1 }) (lt_of_getNode hd) ⟨rfl, rfl, rfl, rfl, rfl, rfl⟩ fun _ => Iff.rfl
  · have hexec := exec_placement hd ha hnext
    rw [hdec] at hexec
    obtain ⟨hnode, htaken⟩ := placeNode_places (cs := cs) h hd
    exact ⟨_, hexec, hnode, htaken⟩
  · have hexec := exec_placement hd ha hnext
    rw [hdec] at hexec
    exact ⟨_, hexec, fun k hk q hq hst hstop => stopFor_stops ns ms hk hq hst hstop⟩
  · rw [startNode_lacks_image him]
    exact nodeIs_failNode hd ⟨rfl, rfl⟩ fun _ => Iff.rfl
  · rw [startNode_starts hsaved him hres hpal]
    exact ⟨nodeIs_startedState hd, fun hnd i c core k pc hi hcore hk he hl => getCtx_startedState hnd hi hcore hk he hl⟩
  · rw [failedNode, if_pos (.inr (.inl hst))]
  · cases hv : killVerdict s d with
    | none => exact releaseKilled_requeues hd hv
    | some r =>
      rw [releaseKilled_fails hv]
      exact nodeIs_failNode hd ⟨rfl, rfl⟩ fun _ => Iff.rfl
  · exact exec_graphUnregistration hd hp hst hall

end Sys2Proof
end

section
/-! SUPPORT. Vector results (R135 to R137): an operation that only lands results puts them in flight, lane by lane where it is lane-wise. -/

namespace Sys2Proof.Machine

section
variable {s : State} {g : Guard} {src : Source} {field unit lat : Nat}

/-! ## What a vector operation is given -/

@[simp] theorem given_aN (ty : Ty) : (given s field ty src).aN = (portSc s (field / 32) 0).v.toNat := rfl
@[simp] theorem given_aV (ty : Ty) : (given s field ty src).aV = portVec s (field / 32) 0 := rfl
@[simp] theorem given_bV (ty : Ty) : (given s field ty src).bV = portVec s (field / 32) 1 := rfl
@[simp] theorem given_cV (ty : Ty) : (given s field ty src).cV = portVec s (field / 32) 2 := rfl
@[simp] theorem given_dV (ty : Ty) : (given s field ty src).dV = portVec s (field / 32) 3 := rfl
@[simp] theorem given_cM (ty : Ty) : (given s field ty src).cM = portMask s (field / 32) 2 := rfl
@[simp] theorem given_tV : (given s field .v src).tV = trigVec s src := rfl
@[simp] theorem given_tM : (given s field .m src).tM = trigMask s src := rfl

/-! ## Results in flight -/

/-- The instruction runs an operation that has no queue, raises no token and settles no LINK. -/
structure Performs (i : Guard → Source → Instr) (op : OpDef) (field : Nat) : Prop where
  exec : ∀ g src s, exec (i g src) s = .next (issueOne op field g src s) := by intros; rfl
  full : op.full = fun _ _ => false := by rfl
  tok : op.tok = fun _ => none := by rfl
  link : field ∉ [104, 106, 107, 165] := by decide

/-- It does so in a unit. -/
def PerformsIn (unit : Nat) (i : Guard → Source → Instr) (op : OpDef) : Prop := ∃ field, Performs i op field ∧ field / 32 = unit

variable {i : Guard → Source → Instr} {op : OpDef} {fs : List Flight} {v w : Val} {fl : BitVec 5}

theorem Performs.flights (h : Performs i op field) (hq : Quiet s) (hb : Brings s g src op.ty) (hr : Room s op.land op.vecs op.scs)
    (hrun : op.run (given s field op.ty src) (started s src) = .ok (updCtx s.sel.who (inFlight fs) (started s src))) :
    Machine.exec (i g src) s = .next (after s src (inFlight fs)) :=
  (h.exec g src s).trans (congrArg _ (issueOne_flights op field g src s fs hq hb hr (by rw [h.full]) (by simp [h.tok]) hrun h.link))

/-- One result, in latch x. -/
theorem Performs.landsX (h : Performs i op field) (hq : Quiet s) (hb : Brings s g src op.ty) (hr : Room s op.land op.vecs op.scs)
    (hrun : op.run (given s field op.ty src) (started s src) = .ok (landX (given s field op.ty src) unit lat v fl (started s src))) :
    Machine.exec (i g src) s = .next (after s src (inFlight [latchVal s unit lat false v fl])) :=
  h.flights hq hb hr hrun

/-- Two results, in latches x and y. -/
theorem Performs.landsXY (h : Performs i op field) (hq : Quiet s) (hb : Brings s g src op.ty) (hr : Room s op.land op.vecs op.scs)
    (hrun : op.run (given s field op.ty src) (started s src)
      = .ok (landY (given s field op.ty src) unit lat w (landX (given s field op.ty src) unit lat v fl (started s src)))) :
    Machine.exec (i g src) s = .next (after s src (inFlight [latchVal s unit lat false v fl, latchVal s unit lat true w 0])) :=
  h.flights hq hb hr (hrun.trans (congrArg _ (pushFlight_pushFlight ..)))

/-! ## Lanes and masks -/

/-- Lanes that raise no flag. -/
theorem orFlags_zero (n : Nat) : orFlags ((List.range n).map fun _ => 0) = 0 := by
  induction n with
  | zero => rfl
  | succ n ih => simpa [List.range_succ, orFlags] using ih

theorem fVal_lanes (lane : Nat → FLane) : fVal ((List.range 128).map lane) = .vec (vecOf fun l => (lane l).lane) :=
  congrArg Val.vec List.map_map
theorem fFlags_lanes (lane : Nat → FLane) : fFlags ((List.range 128).map lane) = orFlags ((List.range 128).map fun l => (lane l).fl) :=
  congrArg orFlags List.map_map

variable {ty : Ty} {bad : OpIn → Bool} {f : OpIn → List FLane} {lane : Nat → FLane}

/-- The lanes of a lane operation whose operands are legal, with the OR of their flags. -/
theorem Performs.lanes (h : Performs i (laneOp unit lat ty bad f) field) (hq : Quiet s) (hb : Brings s g src ty) (hr : Room s 0 1 0)
    (hbad : bad (given s field ty src) = false) (hf : f (given s field ty src) = (List.range 128).map lane) :
    Machine.exec (i g src) s = .next (after s src (inFlight [latchVal s unit lat false (.vec (vecOf fun l => (lane l).lane))
      (orFlags ((List.range 128).map fun l => (lane l).fl))])) := by
  refine h.landsX hq hb hr ?_
  rw [← fVal_lanes, ← fFlags_lanes, ← hf]
  exact if_neg (Bool.eq_false_iff.1 hbad)

theorem Performs.plainLanes {x : Nat → Word32} {p : Nat → Bool} (h : Performs i (laneOp unit lat ty bad f) field) (hq : Quiet s)
    (hb : Brings s g src ty) (hr : Room s 0 1 0) (hbad : bad (given s field ty src) = false)
    (hf : f (given s field ty src) = (List.range 128).map fun l => plain (x l) (p l)) :
    Machine.exec (i g src) s = .next (after s src (inFlight [latchVal s unit lat false (.vec (vecOf fun l => ⟨x l, p l⟩)) 0])) :=
  (h.lanes hq hb hr hbad hf).trans (by rw [← orFlags_zero 128]; rfl)

theorem Performs.masks {f : OpIn → List MLane} (h : Performs i (maskOp unit lat ty f) field) (hq : Quiet s) (hb : Brings s g src ty)
    (hr : Room s 0 1 0) : Machine.exec (i g src) s = .next (after s src (inFlight [latchVal s unit lat false (.mask (f (given s field ty src))) 0])) :=
  h.landsX hq hb hr rfl

/-- A comparison of a and t. -/
theorem cmp_next {f : Word32 → Word32 → Bool} (h : PerformsIn unit i (maskOp unit lat .v (cmpAT f))) (hq : Quiet s) (hb : Brings s g src .v)
    (hr : Room s 0 1 0) : exec (i g src) s = .next (after s src (inFlight [latchVal s unit lat false (.mask (maskOf fun l =>
      ⟨f (laneAt (portVec s unit 0) l).v (laneAt (trigVec s src) l).v, (laneAt (portVec s unit 0) l).p || (laneAt (trigVec s src) l).p⟩)) 0])) := by
  obtain ⟨field, h, rfl⟩ := h
  exact h.masks hq hb hr

end
end Sys2Proof.Machine
end

section
/-! SUPPORT. The integer, logic and mask instructions of val (R138). -/

namespace Sys2Proof.Machine

/-! ## Lane functions -/

theorem viShl_eq (a t : Word32) : viShl a t = BitVec.ofNat 32 (a.toNat * 2 ^ (t.toNat % 32)) := by
  apply BitVec.eq_of_toNat_eq
  simp [viShl, Nat.shiftLeft_eq]

theorem viShr_eq (a t : Word32) : viShr a t = BitVec.ofNat 32 (a.toNat / 2 ^ (t.toNat % 32)) := by
  apply BitVec.eq_of_toNat_eq
  rw [viShr, BitVec.toNat_ushiftRight, Nat.shiftRight_eq_div_pow, BitVec.toNat_ofNat,
    Nat.mod_eq_of_lt ((Nat.div_le_self _ _).trans_lt a.isLt)]

theorem viSar_eq (a t : Word32) : viSar a t = BitVec.ofInt 32 (a.toInt / (2 ^ (t.toNat % 32) : Nat)) := by
  rw [viSar, BitVec.sshiftRight, Int.shiftRight_eq_div_pow]

theorem sat32_eq (z : Int) : sat32 z = max (-2 ^ 31) (min (2 ^ 31 - 1) z) := by
  unfold sat32
  split_ifs <;> omega

theorem viAdds_eq (a t : Word32) : viAdds a t = BitVec.ofInt 32 (max (-2 ^ 31) (min (2 ^ 31 - 1) (a.toInt + t.toInt))) := by
  rw [viAdds, sat32_eq]

theorem byte_eq_iff (a t : Word32) (j : Nat) : a.toNat / 2 ^ (8 * j) % 256 = t.toNat / 2 ^ (8 * j) % 256
    ↔ a.extractLsb' (8 * j) 8 = t.extractLsb' (8 * j) 8 := by
  rw [← BitVec.toNat_inj, BitVec.extractLsb'_toNat, BitVec.extractLsb'_toNat, Nat.shiftRight_eq_div_pow, Nat.shiftRight_eq_div_pow]

theorem viBeq8_eq (a t : Word32) : viBeq8 a t = (if a.extractLsb' 24 8 = t.extractLsb' 24 8 then 0xFF#8 else 0#8)
    ++ (if a.extractLsb' 16 8 = t.extractLsb' 16 8 then 0xFF#8 else 0#8) ++ (if a.extractLsb' 8 8 = t.extractLsb' 8 8 then 0xFF#8 else 0#8)
    ++ (if a.extractLsb' 0 8 = t.extractLsb' 0 8 then 0xFF#8 else 0#8) := by
  have four : List.range 4 = [0, 1, 2, 3] := rfl
  simp only [viBeq8, byte_eq_iff, four, List.map, Nat.reduceMul]
  split_ifs <;> rfl

/-- A list read by position. -/
theorem map_getD_range {α : Type} (d : α) (xs : List α) : (List.range xs.length).map (fun l => xs.getD l d) = xs := by
  refine List.ext_getElem (by simp) fun i _ hi => ?_
  simp [hi]

/-! ## Instructions -/

section
variable {s : State} {g : Guard} {src : Source} {field : Nat} {i : Guard → Source → Instr}

theorem valRow {f v : Word32 → Word32 → Word32} (hv : ∀ a t, f a t = v a t) (h : Performs i (valOp f) field) (hu : field / 32 = 7 := by decide) :
    PerformsIn 7 i (valOp v) := by
  obtain rfl : f = v := funext₂ hv
  exact ⟨field, h, hu⟩

theorem val_next {f : Word32 → Word32 → Word32} (h : PerformsIn 7 i (valOp f)) (hq : Quiet s) (hb : Brings s g src .v) (hr : Room s 0 1 0) :
    exec (i g src) s = .next (after s src (inFlight [latchVal s 7 2 false (.vec (vecOf fun l =>
      ⟨f (laneAt (portVec s 7 0) l).v (laneAt (trigVec s src) l).v, (laneAt (portVec s 7 0) l).p || (laneAt (trigVec s src) l).p⟩)) 0])) := by
  obtain ⟨field, h, hu⟩ := h
  simpa only [given_aV, given_tV, hu] using h.plainLanes hq hb hr rfl rfl

theorem zipMask_next {f : Bool → Bool → Bool} (h : PerformsIn 7 i (maskOp 7 2 .m (zipMask f))) (hq : Quiet s) (hb : Brings s g src .m)
    (hr : Room s 0 1 0) : exec (i g src) s = .next (after s src (inFlight [latchVal s 7 2 false (.mask (maskOf fun l =>
      ⟨f (maskAt (portMask s 7 2) l).v (maskAt (trigMask s src) l).v, (maskAt (portMask s 7 2) l).p || (maskAt (trigMask s src) l).p⟩)) 0])) := by
  obtain ⟨field, h, hu⟩ := h
  simpa only [zipMask, given_cM, given_tM, hu] using h.masks hq hb hr

theorem exec_vpopm (hq : Quiet s) (hb : Brings s g src .m) (hr : Room s 0 0 1) (hlen : (trigMask s src).length = 128) :
    exec (.vpopm g src) s = .next (after s src (inFlight [latchSc s 7 2
      (BitVec.ofNat 64 ((List.range 128).filter fun l => (maskAt (trigMask s src) l).v).length)
      ((List.range 128).any fun l => (maskAt (trigMask s src) l).p)])) := by
  have hperf : Performs Instr.vpopm defVpopm 247 := {}
  have hlanes : (List.range 128).map (maskAt (trigMask s src)) = trigMask s src := hlen ▸ map_getD_range ..
  have hcount : ((List.range 128).filter fun l => (maskAt (trigMask s src) l).v).length = ((trigMask s src).filter (·.v)).length := by
    rw [← hlanes, List.filter_map, List.length_map, hlanes]; rfl
  have hany : ((List.range 128).any fun l => (maskAt (trigMask s src) l).p) = (trigMask s src).any (·.p) := by
    rw [← hlanes, List.any_map, hlanes]; rfl
  rw [hcount, hany]
  exact hperf.landsX hq hb hr rfl

theorem exec_viota (hq : Quiet s) (hb : Brings s g src .s) (hr : Room s 0 1 0) :
    exec (.viota g src) s = .next (after s src (inFlight [latchVal s 7 2 false
      (.vec (vecOf fun l => ⟨(trigSc s src).v.setWidth 32 + BitVec.ofNat 32 l, (trigSc s src).p⟩)) 0])) := by
  have hperf : Performs Instr.viota defViota 246 := {}
  refine hperf.plainLanes hq hb hr rfl (List.map_congr_left fun l _ => ?_)
  rw [given_tN, BitVec.ofNat_add]; rfl

end
end Sys2Proof.Machine

namespace Sys2Proof
open Machine

/-- Settles O27: row by row, the lane function of the model is the rule's. -/
theorem vectorIntegerResults : Obligations.VectorIntegerResults := by
  refine ⟨fun s g src hq hb hr => ⟨fun r hm => ?_, fun r hm => ?_⟩, fun s g src hq => ⟨fun hb hr => ⟨fun r hm => ?_, ?_, ?_⟩, fun hb hr hlen => ?_,
    fun hb hr => exec_viota hq hb hr⟩⟩
  · refine val_next (f := r.2) ?_ hq hb hr
    revert r hm
    simp only [List.forall_mem_cons, List.not_mem_nil, false_implies, implies_true, and_true]
    have same : ∀ {f : Word32 → Word32 → Word32} (a t : Word32), f a t = f a t := fun _ _ => rfl
    exact ⟨valRow same {}, valRow same {}, valRow same {}, valRow same {}, valRow same {}, valRow same {}, valRow same {}, valRow same {},
      valRow same {}, valRow same {}, valRow same {}, valRow viShl_eq {}, valRow viShr_eq {}, valRow viSar_eq {}, valRow viAdds_eq {},
      valRow viBeq8_eq {}⟩
  · refine cmp_next (f := r.2) ?_ hq hb hr
    revert r hm
    simp only [List.forall_mem_cons, List.not_mem_nil, false_implies, implies_true, and_true]
    exact ⟨⟨_, {}, rfl⟩, ⟨_, {}, rfl⟩, ⟨_, {}, rfl⟩⟩
  · refine zipMask_next (f := r.2) ?_ hq hb hr
    revert r hm
    simp only [List.forall_mem_cons, List.not_mem_nil, false_implies, implies_true, and_true]
    exact ⟨⟨_, {}, rfl⟩, ⟨_, {}, rfl⟩, ⟨_, {}, rfl⟩⟩
  · exact Performs.masks (field := 251) (f := fun x => maskOf fun l => ⟨!(maskAt x.tM l).v, (maskAt x.tM l).p⟩) {} hq hb hr
  · exact Performs.landsX (op := defVsel) (field := 245) {} hq hb hr rfl
  · exact exec_vpopm hq hb hr hlen

end Sys2Proof
end

section
/-! SUPPORT. Lane functions of a, b and t under the rounding mode, the shape of the float instructions of vfa, vfb and xfu (R139 to R142, R146). -/

namespace Sys2Proof.Machine

section
variable {s : State} {g : Guard} {src : Source} {field unit lat : Nat} {i : Guard → Source → Instr}

/-! ## Lane functions of a, b and t -/

/-- Under a rounding mode the instruction computes each lane, in a unit at a latency, from the lanes of a, b and t, and its tag from theirs. -/
def LaneRow (rm : Fp.Rm) (i : Guard → Source → Instr) (unit lat : Nat) (tag : Bool → Bool → Bool → Bool)
    (v : Word32 → Word32 → Word32 → Fp.R32) : Prop :=
  ∃ f, PerformsIn unit i (laneOp unit lat .v never f) ∧ ∀ x : OpIn, frmOf x.c0 = rm → f x = (List.range 128).map fun l =>
    flane (v (laneAt x.aV l).v (laneAt x.bV l).v (laneAt x.tV l).v) (tag (laneAt x.aV l).p (laneAt x.bV l).p (laneAt x.tV l).p)

variable {rm : Fp.Rm} {tag : Bool → Bool → Bool → Bool}

theorem LaneRow.next {v : Word32 → Word32 → Word32 → Fp.R32} (h : LaneRow (frmOf (view s)) i unit lat tag v) (hq : Quiet s) (hb : Brings s g src .v)
    (hr : Room s 0 1 0) : exec (i g src) s = .next (after s src (inFlight [latchVal s unit lat false
      (.vec (vecOf fun l => ⟨(v (laneAt (portVec s unit 0) l).v (laneAt (portVec s unit 1) l).v (laneAt (trigVec s src) l).v).v,
        tag (laneAt (portVec s unit 0) l).p (laneAt (portVec s unit 1) l).p (laneAt (trigVec s src) l).p⟩))
      (orFlags ((List.range 128).map fun l =>
        (v (laneAt (portVec s unit 0) l).v (laneAt (portVec s unit 1) l).v (laneAt (trigVec s src) l).v).fl))])) := by
  obtain ⟨f, ⟨field, h, rfl⟩, hf⟩ := h
  exact h.lanes hq hb hr rfl (hf _ rfl)

theorem laneRow_t (f : Fp.Rm → Word32 → Fp.R32) (h : Performs i (laneOp unit lat .v never fun x => (List.range 128).map fun l =>
      flane (f (frmOf x.c0) (laneAt x.tV l).v) (laneAt x.tV l).p) field)
    (hu : field / 32 = unit := by decide) (htag : ∀ a b t, tag a b t = t := by decide) :
    LaneRow rm i unit lat tag fun _ _ t => f rm t :=
  ⟨_, ⟨field, h, hu⟩, fun x hx => by simp only [htag, hx]⟩

theorem laneRow_at (f : Fp.Rm → Word32 → Word32 → Fp.R32) (h : Performs i (laneOp unit lat .v never fun x => (List.range 128).map fun l =>
      flane (f (frmOf x.c0) (laneAt x.aV l).v (laneAt x.tV l).v) ((laneAt x.aV l).p || (laneAt x.tV l).p)) field)
    (hu : field / 32 = unit := by decide) (htag : ∀ a b t, tag a b t = (a || t) := by decide) :
    LaneRow rm i unit lat tag fun a _ t => f rm a t :=
  ⟨_, ⟨field, h, hu⟩, fun x hx => by simp only [htag, hx]⟩

theorem laneRow_abt (f : Fp.Rm → Word32 → Word32 → Word32 → Fp.R32) (h : Performs i (laneOp unit lat .v never fun x => (List.range 128).map fun l =>
      flane (f (frmOf x.c0) (laneAt x.aV l).v (laneAt x.bV l).v (laneAt x.tV l).v)
        ((laneAt x.aV l).p || (laneAt x.bV l).p || (laneAt x.tV l).p)) field)
    (hu : field / 32 = unit := by decide) (htag : ∀ a b t, tag a b t = (a || b || t) := by decide) :
    LaneRow rm i unit lat tag fun a b t => f rm a b t :=
  ⟨_, ⟨field, h, hu⟩, fun x hx => by simp only [htag, hx]⟩

end
end Sys2Proof.Machine

namespace Sys2Proof
open Machine

/-- Settles O28: each row is a lane function that its operation applies to the lanes it reads. -/
theorem vectorFloatResults : Obligations.VectorFloatResults := by
  refine ⟨fun s g src hq hb hr => ⟨fun r hm => ?_, fun r hm => ?_⟩, fun s g src hq hb hr r hm => ?_⟩
  · refine LaneRow.next (v := r.2.2.2) (tag := fun a b t => (r.2.1 && a) || (r.2.2.1 && b) || t) ?_ hq hb hr
    revert r hm
    simp only [List.forall_mem_cons, List.not_mem_nil, false_implies, implies_true, and_true]
    exact ⟨laneRow_at Fp.add32 {}, laneRow_at Fp.sub32 {}, laneRow_at Fp.mul32 {}, laneRow_abt Fp.fma32 {}, laneRow_abt Fp.fms32 {},
      laneRow_abt Fp.fnma32 {}, laneRow_at (fun _ a t => ⟨Fp.max32 a t, 0⟩) {}, laneRow_at (fun _ a t => ⟨Fp.min32 a t, 0⟩) {},
      laneRow_t (fun _ t => ⟨Fp.abs32 t, 0⟩) {}, laneRow_t (fun _ t => ⟨Fp.neg32 t, 0⟩) {},
      laneRow_abt (fun _ a b t => ⟨Fp.fclmp32 t a b, 0⟩) {}, laneRow_at Fp.subx32 {},
      laneRow_at (fun rm a t => packH (Fp.addB rm (half a 0) (half t 0)) (Fp.addB rm (half a 1) (half t 1))) {},
      laneRow_at (fun rm a t => packH (Fp.mulB rm (half a 0) (half t 0)) (Fp.mulB rm (half a 1) (half t 1))) {},
      laneRow_abt (fun rm a b t => packH (Fp.fmaB rm (half a 0) (half b 0) (half t 0)) (Fp.fmaB rm (half a 1) (half b 1) (half t 1))) {},
      laneRow_at (fun _ a t => packH ⟨Fp.maxB (half a 0) (half t 0), 0⟩ ⟨Fp.maxB (half a 1) (half t 1), 0⟩) {}⟩
  · refine cmp_next (f := r.2) ?_ hq hb hr
    revert r hm
    simp only [List.forall_mem_cons, List.not_mem_nil, false_implies, implies_true, and_true]
    exact ⟨⟨_, {}, rfl⟩, ⟨_, {}, rfl⟩, ⟨_, {}, rfl⟩, ⟨_, {}, rfl⟩⟩
  · refine LaneRow.next (v := fun _ _ t => r.2.2 t) (tag := fun _ _ t => t) ?_ hq hb hr
    revert r hm
    simp only [List.forall_mem_cons, List.not_mem_nil, false_implies, implies_true, and_true]
    exact ⟨laneRow_t (fun _ => Fp.exp2F Config.exp2Err) {}, laneRow_t (fun _ => Fp.log2F Config.log2Err) {},
      laneRow_t (fun _ => Fp.rcpF Config.rcpErr) {}, laneRow_t (fun _ => Fp.rsqrtF Config.rsqrtErr) {}, laneRow_t Fp.sqrt32 {},
      laneRow_t (fun _ => Fp.tanhF Config.tanhErr) {}, laneRow_t (fun _ => Fp.sigmF Config.sigmErr) {}⟩

end Sys2Proof
end

section
/-! SUPPORT. The conversions of vfb (R142, R143), and P4 blocks packed and unpacked (R144, R145). -/

namespace Sys2Proof.Machine

section
variable {s : State} {g : Guard} {src : Source} {field : Nat} {i : Guard → Source → Instr} {fmt : Fp.Fmt}

/-! ## Conversions (R142, R143) -/

theorem widenPair_next (h : PerformsIn 9 i (widenPair fmt)) (hq : Quiet s) (hb : Brings s g src .v) (hr : Room s 0 2 0) :
    exec (i g src) s = .next (after s src (inFlight
      [latchVal s 9 3 false (.vec (vecOf fun l => ⟨Fp.widen fmt (half (laneAt (trigVec s src) l).v 0), (laneAt (trigVec s src) l).p⟩)) 0,
       latchVal s 9 3 true (.vec (vecOf fun l => ⟨Fp.widen fmt (half (laneAt (trigVec s src) l).v 1), (laneAt (trigVec s src) l).p⟩)) 0])) := by
  obtain ⟨field, h, -⟩ := h
  exact h.landsXY hq hb hr rfl

/-- One byte of every lane from a times the multiplier, the rest from c. -/
theorem toByte_next (h : PerformsIn 9 i (toByteOp fmt)) (hq : Quiet s) (hb : Brings s g src .s) (hr : Room s 0 1 0)
    (hn : (trigSc s src).v.toNat < 8) :
    let res : Nat → Fp.Res := fun l =>
      Fp.toFp8 fmt (bit (trigSc s src).v.toNat 2) (laneAt (portVec s 9 0) l).v ((portSc s 9 1).v.setWidth 32)
    exec (i g src) s = .next (after s src (inFlight [latchVal s 9 3 false
      (.vec (vecOf fun l => ⟨putByte (laneAt (portVec s 9 2) l).v ((trigSc s src).v.toNat % 4) (res l).bits,
        (laneAt (portVec s 9 0) l).p || (portSc s 9 1).p || (laneAt (portVec s 9 2) l).p || (trigSc s src).p⟩))
      (orFlags ((List.range 128).map fun l => (res l).flags))])) := by
  obtain ⟨field, h, hu⟩ := h
  have hbD : (given s field .s src).bD = (portSc s (field / 32) 1).v := rfl
  have hlegal : decide (8 ≤ (given s field .s src).tN) = false := decide_eq_false (Nat.not_le.2 hn)
  simpa only [given_aV, given_bP, given_cV, given_tN, given_tP, hbD, hu] using h.lanes hq hb hr hlegal rfl

/-- One byte of every lane of a, widened. -/
theorem ofByte_next (h : PerformsIn 9 i (ofByteOp fmt)) (hq : Quiet s) (hb : Brings s g src .s) (hr : Room s 0 1 0)
    (hn : (trigSc s src).v.toNat < 4) :
    exec (i g src) s = .next (after s src (inFlight [latchVal s 9 3 false (.vec (vecOf fun l =>
      ⟨Fp.widen fmt ((laneAt (portVec s 9 0) l).v.toNat / 2 ^ (8 * (trigSc s src).v.toNat) % 256),
        (laneAt (portVec s 9 0) l).p || (trigSc s src).p⟩)) 0])) := by
  obtain ⟨field, h, hu⟩ := h
  have hlegal : decide (4 ≤ (given s field .s src).tN) = false := decide_eq_false (Nat.not_le.2 hn)
  simpa only [given_aV, given_tN, given_tP, hu, Nat.mod_eq_of_lt hn] using h.plainLanes hq hb hr hlegal rfl

/-! ## P4 blocks (R144, R145) -/

/-- The blocks QPAL packs, and which of them a lane or the mask poisons. -/
def packedBlock (s : State) (src : Source) (k : Nat) : P4.Block :=
  P4.quantise (palettesOf (given s 302 .s src) s) (if (trigSc s src).v.toNat % 256 = 0 then 1 else (trigSc s src).v.toNat % 256)
    ((((portVec s 9 0).drop (32 * k)).take 32).map (·.v))
def packedBad (s : State) (src : Source) (k : Nat) : Bool := (trigSc s src).p || (((portVec s 9 0).drop (32 * k)).take 32).any (·.p)

theorem exec_qpal (hq : Quiet s) (hb : Brings s g src .s) (hr : Room s 0 2 0) :
    exec (.qpal g src) s = .next (after s src (inFlight
      [latchVal s 9 6 false (.vec (lanesFrom ((List.range 4).flatMap fun k => (packedBlock s src k).data)
          fun l => decide (l < 16) && packedBad s src (l / 4))) (orFlags ((List.range 4).map fun k => (packedBlock s src k).flags)),
       latchVal s 9 6 true (.vec (lanesFrom ((List.range 4).flatMap fun k => toBytes 2 (packedBlock s src k).side)
          fun l => decide (l < 2) && (packedBad s src (2 * l) || packedBad s src (2 * l + 1)))) 0])) := by
  have hperf : Performs Instr.qpal defQpal 302 := {}
  have hdata : ((List.range 4).flatMap fun k => (packedBlock s src k).data) = ((List.range 4).map (packedBlock s src)).flatMap P4.Block.data :=
    (List.flatMap_map ..).symm
  have hside : ((List.range 4).flatMap fun k => toBytes 2 (packedBlock s src k).side)
      = ((List.range 4).map (packedBlock s src)).flatMap fun b => toBytes 2 b.side := (List.flatMap_map ..).symm
  have hflags : ((List.range 4).map fun k => (packedBlock s src k).flags) = ((List.range 4).map (packedBlock s src)).map (·.flags) :=
    (List.map_map ..).symm
  rw [hdata, hside, hflags]
  exact hperf.landsXY hq hb hr rfl

/-- The parity record of an unpacking in which these blocks fail: that of the lowest. -/
def parityRecord : List Nat → Dword
  | [] => 0
  | k :: _ => BitVec.ofNat 64 (0x8000000000000000 + k)

theorem parityRecord_filter (p : Nat → Bool) (l : List Nat) :
    parityRecord (l.filter p) = match l.find? p with | some k => BitVec.ofNat 64 (2 ^ 63 + k) | none => 0 := by
  rw [← List.head?_filter]
  cases l.filter p <;> rfl

/-- The sidecar DQPAL reads for a block, and which blocks it poisons. -/
def sideIn (s : State) (src : Source) (k : Nat) : Nat := half (laneAt (trigVec s src) (k / 2)).v (k % 2)
def unpackedBad (s : State) (src : Source) (k : Nat) : Bool :=
  !P4.sidecarOk (sideIn s src k) || (laneAt (trigVec s src) (k / 2)).p || (((portVec s 9 0).drop (4 * k)).take 4).any (·.p)
def unpackedLane (s : State) (src : Source) (l : Nat) : Fp.R32 :=
  P4.elem32 (palettesOf (given s 302 .s src) s) ((vecBytes (portVec s 9 0)).drop (16 * (l / 32)) |>.take 16) (sideIn s src (l / 32)) (l % 32)

theorem exec_dqpal (hq : Quiet s) (hb : Brings s g src .v) (hr : Room s 0 1 0) :
    exec (.dqpal g src) s = .next (after s src (inFlight [⟨(view s).bclk + 3, .latch 9 false,
      .vec (vecOf fun l => ⟨(unpackedLane s src l).v, unpackedBad s src (l / 32)⟩),
      orFlags ((List.range 128).map fun l => (unpackedLane s src l).fl),
      parityRecord ((List.range 4).filter fun k => !P4.sidecarOk (sideIn s src k)), (view s).bclk⟩])) := by
  have hperf : Performs Instr.dqpal defDqpal 303 := {}
  refine hperf.flights hq hb hr ?_
  have hval := fVal_lanes fun l => flane (unpackedLane s src l) (unpackedBad s src (l / 32))
  have hflags := fFlags_lanes fun l => flane (unpackedLane s src l) (unpackedBad s src (l / 32))
  dsimp only [flane] at hval hflags
  rw [← hval, ← hflags, parityRecord_filter]
  rfl

end
end Sys2Proof.Machine

namespace Sys2Proof
open Machine

/-- Settles O29: conversions lane by lane, blocks through what QPAL and DQPAL make of each. -/
theorem conversionResults : Obligations.ConversionResults := by
  refine ⟨fun s g src hq => ⟨fun hb hr r hm => ?_, fun hb hr r hm => ?_, fun hb hr r hm => ?_⟩,
    fun s g src hq => ⟨fun hb hr => exec_qpal hq hb hr, fun hb hr => exec_dqpal hq hb hr⟩⟩
  · refine LaneRow.next (v := fun a _ t => r.2.2 a t) (tag := fun a _ t => (r.2.1 && a) || t) ?_ hq hb hr
    revert r hm
    simp only [List.forall_mem_cons, List.not_mem_nil, false_implies, implies_true, and_true]
    exact ⟨laneRow_t Fp.toI32 {}, laneRow_t (fun rm t => Fp.ofI32 rm t.toInt) {},
      laneRow_at (fun rm a t => packH (Fp.narrow Fp.bf16 rm a) (Fp.narrow Fp.bf16 rm t)) {},
      laneRow_at (fun rm a t => packH (Fp.narrow Fp.fp16 rm a) (Fp.narrow Fp.fp16 rm t)) {}, laneRow_t Fp.rnd32 {},
      laneRow_at (fun rm a t => Fp.scale32 rm a t.toInt) {}, laneRow_t (fun _ t => ⟨Fp.fxpn32 t, 0⟩) {}⟩
  · refine widenPair_next (fmt := r.2) ?_ hq hb hr
    revert r hm
    simp only [List.forall_mem_cons, List.not_mem_nil, false_implies, implies_true, and_true]
    exact ⟨⟨_, {}, rfl⟩, ⟨_, {}, rfl⟩⟩
  · have hrow : PerformsIn 9 r.1 (toByteOp r.2.2) ∧ PerformsIn 9 r.2.1 (ofByteOp r.2.2) := by
      revert r hm
      simp only [List.forall_mem_cons, List.not_mem_nil, false_implies, implies_true, and_true]
      exact ⟨⟨⟨_, {}, rfl⟩, ⟨_, {}, rfl⟩⟩, ⟨⟨_, {}, rfl⟩, ⟨_, {}, rfl⟩⟩⟩
    obtain ⟨hto, hof⟩ := hrow
    exact ⟨toByte_next hto hq hb hr, ofByte_next hof hq hb hr⟩

end Sys2Proof
end

section
/-! SUPPORT. The reduction and permute unit vrd (R147 to R152): sums, the greatest lane, the running sum, and lanes moved by index or mask. -/

namespace Sys2Proof.Machine

/-! ## The greatest lane (R148) -/

section
variable {x : OpIn} {k : Nat}

theorem argMax_none (h : ∀ l, l < 128 → (maskAt x.cM l).v = false) : argMax x = (0xFF800000#32, 128) := by
  have hnil : (List.range 128).filter (fun l => (maskAt x.cM l).v) = [] := List.filter_eq_nil_iff.2 fun l hl => by simp [h l (List.mem_range.1 hl)]
  simp only [argMax, hnil]

theorem argMax_nan (hk : k < 128) (hon : (maskAt x.cM k).v = true) (hnan : Fp.isNan32 (laneAt x.tV k).v = true)
    (hlow : ∀ l, l < k → (maskAt x.cM l).v = true → Fp.isNan32 (laneAt x.tV l).v = false) : argMax x = (Fp.nan32, k) := by
  have hfind : ((List.range 128).filter fun l => (maskAt x.cM l).v).find? (fun l => Fp.isNan32 (laneAt x.tV l).v) = some k := by
    rw [List.find?_filter, List.find?_range_eq_some]
    refine ⟨by simp [hon, hnan], List.mem_range.2 hk, fun l hl => ?_⟩
    cases h : (maskAt x.cM l).v <;> simp [hlow l hl, h]
  unfold argMax
  generalize (List.range 128).filter (fun l => (maskAt x.cM l).v) = en at hfind
  cases en with
  | nil => cases hfind
  | cons e r => simp only [hfind]

/-- The better of the lane so far and the next. -/
def better (x : OpIn) (b : Word32 × Nat) (l : Nat) : Word32 × Nat :=
  if Fp.key32 b.1 < Fp.key32 (laneAt x.tV l).v then ((laneAt x.tV l).v, l) else b

/-- Lane `k` stands before lane `l`: it is greater, or as great and not higher. -/
def Leads (x : OpIn) (k l : Nat) : Prop := Fp.key32 (laneAt x.tV l).v < Fp.key32 (laneAt x.tV k).v
  ∨ (Fp.key32 (laneAt x.tV l).v = Fp.key32 (laneAt x.tV k).v ∧ k ≤ l)

/-- Of ascending lanes the fold keeps the one that leads the others. -/
theorem foldl_better {e : Nat} {r : List Nat} (hsort : (e :: r).Pairwise (· < ·)) (hk : k ∈ e :: r) (hlead : ∀ l ∈ e :: r, Leads x k l) :
    r.foldl (better x) ((laneAt x.tV e).v, e) = ((laneAt x.tV k).v, k) := by
  induction r generalizing e with
  | nil => rw [List.mem_singleton.1 hk]; rfl
  | cons a r ih =>
    obtain ⟨hlt, hrest⟩ := List.pairwise_cons.1 hsort
    have hea : e < a := hlt a (by simp)
    have hle : Leads x k e := hlead e (by simp)
    have hla : Leads x k a := hlead a (by simp)
    simp only [List.foldl_cons, better]
    split
    next h =>
      have hne : k ≠ e := by
        rintro rfl
        rcases hla with hla | ⟨hla, -⟩ <;> omega
      exact ih hrest ((List.mem_cons.1 hk).resolve_left hne) fun l hl => hlead l (List.mem_cons_of_mem _ hl)
    next h =>
      have hne : k ≠ a := by
        rintro rfl
        rcases hle with hle | ⟨-, hle⟩ <;> omega
      have hk' : k ∈ e :: r := by
        simpa [hne] using hk
      refine ih (List.pairwise_cons.2 ⟨fun l hl => hlt l (by simp [hl]), (List.pairwise_cons.1 hrest).2⟩) hk' fun l hl => hlead l ?_
      rcases List.mem_cons.1 hl with rfl | hl <;> simp [*]

theorem argMax_max (hk : k < 128) (hon : (maskAt x.cM k).v = true) (hnan : ∀ l, (maskAt x.cM l).v = true → Fp.isNan32 (laneAt x.tV l).v = false)
    (hlead : ∀ l, l < 128 → (maskAt x.cM l).v = true → Leads x k l) : argMax x = ((laneAt x.tV k).v, k) := by
  have hmem : ∀ l, l ∈ (List.range 128).filter (fun l => (maskAt x.cM l).v) ↔ l < 128 ∧ (maskAt x.cM l).v = true := by simp
  have hsort : ((List.range 128).filter fun l => (maskAt x.cM l).v).Pairwise (· < ·) := List.pairwise_lt_range.filter _
  unfold argMax
  generalize (List.range 128).filter (fun l => (maskAt x.cM l).v) = en at hmem hsort
  have hfind : en.find? (fun l => Fp.isNan32 (laneAt x.tV l).v) = none :=
    List.find?_eq_none.2 fun l hl => by simp [hnan l ((hmem l).1 hl).2]
  cases en with
  | nil => exact absurd ((hmem k).2 ⟨hk, hon⟩) List.not_mem_nil
  | cons e r =>
    simp only [hfind]
    exact foldl_better hsort ((hmem k).2 ⟨hk, hon⟩) fun l hl => hlead l ((hmem l).1 hl).1 ((hmem l).1 hl).2

end

/-! ## The running sum (R149) -/

section
variable (x : OpIn)

/-- The sum over the enabled lanes below `l`, and whether one of these, or its mask, is poisoned. -/
def sumBelow (l : Nat) : Word32 :=
  (List.range l).foldl (fun a j => if (maskAt x.cM j).v then (Fp.add32 .rne a (laneAt x.tV j).v).v else a) 0x80000000#32
def badBelow (l : Nat) : Bool := (List.range l).any fun j => (maskAt x.cM j).p || ((maskAt x.cM j).v && (laneAt x.tV j).p)

theorem sumBelow_succ (l : Nat) :
    sumBelow x (l + 1) = if (maskAt x.cM l).v then (Fp.add32 .rne (sumBelow x l) (laneAt x.tV l).v).v else sumBelow x l := by
  simp [sumBelow, List.range_succ]

theorem badBelow_succ (l : Nat) : badBelow x (l + 1) = (badBelow x l || (maskAt x.cM l).p || ((maskAt x.cM l).v && (laneAt x.tV l).p)) := by
  simp [badBelow, List.range_succ, Bool.or_assoc]

/-- What SCAN gives a lane. -/
def scanLane (l : Nat) : FLane :=
  ⟨⟨sumBelow x (l + 1), badBelow x (l + 1)⟩, if (maskAt x.cM l).v then (Fp.add32 .rne (sumBelow x l) (laneAt x.tV l).v).fl else 0⟩

theorem scanFrom_cons (l : Nat) (r : List Nat) :
    scanFrom x (l :: r) (sumBelow x l) (badBelow x l) = scanLane x l :: scanFrom x r (sumBelow x (l + 1)) (badBelow x (l + 1)) := by
  rw [scanFrom, scanLane, sumBelow_succ, badBelow_succ]
  split <;> rfl

theorem scanFrom_eq (m n : Nat) : scanFrom x (List.range' m n) (sumBelow x m) (badBelow x m) = (List.range' m n).map (scanLane x) := by
  induction n generalizing m with
  | zero => rfl
  | succ n ih => rw [List.range'_succ, scanFrom_cons, ih, List.map_cons]

end

section
variable {s : State} {g : Guard} {src : Source} {i : Guard → Source → Instr}

/-! ## Reductions and scans -/

/-- The lanes of t that the mask enables, in place of the others an identity, and whether what is reduced is poisoned. -/
def reducedLanes (s : State) (src : Source) (idv : Word32) : List Fp.R32 :=
  (List.range 128).map fun l => ⟨if (maskAt (portMask s 11 2) l).v then (laneAt (trigVec s src) l).v else idv, 0⟩
def reducedBad (s : State) (src : Source) : Bool :=
  (portMask s 11 2).any (·.p) || (List.range 128).any fun l => (maskAt (portMask s 11 2) l).v && (laneAt (trigVec s src) l).p

theorem red_next {idv : Word32} {f : Fp.R32 → Fp.R32 → Fp.R32} (h : PerformsIn 11 i (redOp idv f)) (hq : Quiet s) (hb : Brings s g src .v)
    (hr : Room s 0 0 1) : exec (i g src) s = .next (after s src (inFlight [latchVal s 11 6 false
      (.sc ⟨(treeReduce f (reducedLanes s src idv)).v.setWidth 64, reducedBad s src⟩) (treeReduce f (reducedLanes s src idv)).fl])) := by
  obtain ⟨field, h, hu⟩ := h
  have hlanes : enabledOr (given s field .v src) idv = reducedLanes s src idv := by simp only [enabledOr, reducedLanes, given_cM, given_tV, hu]
  have hbad : redPoison (given s field .v src) = reducedBad s src := by simp only [redPoison, reducedBad, given_cM, given_tV, hu]
  rw [← hlanes, ← hbad]
  exact h.landsX hq hb hr rfl

theorem exec_rsumi (hq : Quiet s) (hb : Brings s g src .v) (hr : Room s 0 0 1) :
    exec (.rsumi g src) s = .next (after s src (inFlight [latchSc s 11 6 (BitVec.ofInt 64 (((List.range 128).map fun l =>
      if (maskAt (portMask s 11 2) l).v then (laneAt (trigVec s src) l).v.toInt else 0).sum)) (reducedBad s src)])) := by
  have hperf : Performs Instr.rsumi defRsumi 359 := {}
  rw [List.sum_eq_foldl]
  exact hperf.landsX hq hb hr rfl

/-- RAMAX lands the value and the number that the comparison of the lanes comes to. -/
theorem exec_ramax {w : Word32} {k : Nat} (hq : Quiet s) (hb : Brings s g src .v) (hr : Room s 0 0 2)
    (hmax : argMax (given s 360 .v src) = (w, k)) :
    exec (.ramax g src) s = .next (after s src (inFlight [latchSc s 11 6 (w.setWidth 64) (reducedBad s src),
      latchVal s 11 6 true (.sc ⟨BitVec.ofNat 64 k, reducedBad s src⟩) 0])) := by
  have hperf : Performs Instr.ramax defRamax 360 := {}
  obtain rfl : (argMax (given s 360 .v src)).1 = w := by rw [hmax]
  obtain rfl : (argMax (given s 360 .v src)).2 = k := by rw [hmax]
  exact hperf.landsXY hq hb hr rfl

theorem exec_scan (hq : Quiet s) (hb : Brings s g src .v) (hr : Room s 0 1 0) :
    exec (.scan g src) s = .next (after s src (inFlight [latchVal s 11 8 false
      (.vec (vecOf fun l => (scanLane (given s 361 .v src) l).lane))
      (orFlags ((List.range 128).map fun l => (scanLane (given s 361 .v src) l).fl))])) := by
  have hperf : Performs Instr.scan defScan 361 := {}
  have hscan : scanFrom (given s 361 .v src) (List.range 128) 0x80000000#32 false = (List.range 128).map (scanLane (given s 361 .v src)) := by
    rw [List.range_eq_range']
    exact scanFrom_eq _ 0 128
  rw [← fVal_lanes, ← fFlags_lanes, ← hscan]
  exact hperf.landsX hq hb hr rfl

/-! ## Permutes, lane moves and tests (R150 to R152) -/

theorem bit_word (w : Word32) (n : Nat) : bit w.toNat n = w.getLsbD n := by
  rw [bit, BitVec.getLsbD, Nat.testBit_eq_decide_div_mod_eq, beq_eq_decide]

theorem exec_perm (hq : Quiet s) (hb : Brings s g src .v) (hr : Room s 0 1 0) :
    exec (.perm g src) s = .next (after s src (inFlight [latchVal s 11 4 false (.vec (vecOf fun l =>
      if (laneAt (trigVec s src) l).v.msb then ⟨0, (laneAt (trigVec s src) l).p⟩
      else ⟨(laneAt (portVec s 11 0) ((laneAt (trigVec s src) l).v.toNat % 128)).v,
        (laneAt (portVec s 11 0) ((laneAt (trigVec s src) l).v.toNat % 128)).p || (laneAt (trigVec s src) l).p⟩)) 0])) := by
  have hperf : Performs Instr.perm defPerm 362 := {}
  simp only [BitVec.msb_eq_getLsbD_last, ← bit_word]
  exact hperf.landsX hq hb hr rfl

theorem exec_vbit (hq : Quiet s) (hb : Brings s g src .v) (hr : Room s 0 1 0) :
    exec (.vbit g src) s = .next (after s src (inFlight [latchVal s 11 6 false (.mask (maskOf fun l =>
      if 4096 ≤ (laneAt (trigVec s src) l).v.toNat then ⟨false, (laneAt (trigVec s src) l).p⟩
      else ⟨(laneAt (portVec s 11 0) ((laneAt (trigVec s src) l).v.toNat / 32)).v.getLsbD ((laneAt (trigVec s src) l).v.toNat % 32),
        (laneAt (trigVec s src) l).p || (laneAt (portVec s 11 0) ((laneAt (trigVec s src) l).v.toNat / 32)).p⟩)) 0])) := by
  have hperf : Performs Instr.vbit defVbit 370 := {}
  simp only [← bit_word]
  exact hperf.landsX hq hb hr rfl

theorem exec_vrot (hq : Quiet s) (hb : Brings s g src .s) (hr : Room s 0 1 0) :
    exec (.vrot g src) s = .next (after s src (inFlight [latchVal s 11 6 false (.vec (vecOf fun l =>
      ⟨(laneAt (portVec s 11 0) ((l + (trigSc s src).v.toNat) % 128)).v,
        (laneAt (portVec s 11 0) ((l + (trigSc s src).v.toNat) % 128)).p || (trigSc s src).p⟩)) 0])) := by
  have hperf : Performs Instr.vrot defVrot 363 := {}
  simp only [← Nat.add_mod_mod _ (trigSc s src).v.toNat]
  exact hperf.landsX hq hb hr rfl

theorem exec_vext (hq : Quiet s) (hb : Brings s g src .s) (hr : Room s 0 0 1) (hn : (trigSc s src).v.toNat < 128) :
    exec (.vext g src) s = .next (after s src (inFlight [latchSc s 11 6 ((laneAt (portVec s 11 0) (trigSc s src).v.toNat).v.setWidth 64)
      ((laneAt (portVec s 11 0) (trigSc s src).v.toNat).p || (trigSc s src).p)])) :=
  Performs.landsX (op := defVext) (field := 364) {} hq hb hr (if_neg (Nat.not_lt.2 (Nat.le_of_lt_succ hn)))

theorem exec_vins (hq : Quiet s) (hb : Brings s g src .s) (hr : Room s 0 1 0) (hn : (trigSc s src).v.toNat < 128) :
    exec (.vins g src) s = .next (after s src (inFlight [latchVal s 11 6 false (.vec (vecOf fun l =>
      if l = (trigSc s src).v.toNat then ⟨(portSc s 11 1).v.setWidth 32, (portSc s 11 1).p || (trigSc s src).p⟩
      else ⟨(laneAt (portVec s 11 0) l).v, (laneAt (portVec s 11 0) l).p || (trigSc s src).p⟩)) 0])) :=
  Performs.landsX (op := defVins) (field := 365) {} hq hb hr (if_neg (Nat.not_lt.2 (Nat.le_of_lt_succ hn)))

theorem exec_zip (hq : Quiet s) (hb : Brings s g src .v) (hr : Room s 0 2 0) :
    exec (.zip g src) s = .next (after s src (inFlight
      [latchVal s 11 6 false (.vec (vecOf fun l => if l % 2 = 0 then laneAt (portVec s 11 0) (l / 2) else laneAt (trigVec s src) (l / 2))) 0,
       latchVal s 11 6 true (.vec (vecOf fun l =>
         if l % 2 = 0 then laneAt (portVec s 11 0) (64 + l / 2) else laneAt (trigVec s src) (64 + l / 2))) 0])) := by
  have hperf : Performs Instr.zip defZip 368 := {}
  have hlow : ∀ l, l / 2 = 0 + l / 2 := fun _ => (Nat.zero_add _).symm
  refine hperf.landsXY hq hb hr ?_
  rw [funext fun l => show (if l % 2 = 0 then laneAt (portVec s 11 0) (l / 2) else laneAt (trigVec s src) (l / 2)) = _ by rw [hlow l]]
  rfl

theorem exec_unzip (hq : Quiet s) (hb : Brings s g src .v) (hr : Room s 0 2 0) :
    exec (.unzip g src) s = .next (after s src (inFlight
      [latchVal s 11 6 false (.vec (vecOf fun l => if l < 64 then laneAt (portVec s 11 0) (2 * l) else laneAt (trigVec s src) (2 * (l - 64)))) 0,
       latchVal s 11 6 true (.vec (vecOf fun l =>
         if l < 64 then laneAt (portVec s 11 0) (2 * l + 1) else laneAt (trigVec s src) (2 * (l - 64) + 1))) 0])) :=
  Performs.landsXY (op := defUnzip) (field := 369) {} hq hb hr rfl

end

end Sys2Proof.Machine

namespace Sys2Proof
open Machine

/-- Settles O30: reductions through what the mask enables, the greatest lane as the one that leads the enabled ones, the running sum by
induction over the lanes, and each lane moved as its rule says. -/
theorem laneResults : Obligations.LaneResults := by
  refine ⟨fun s g src hq hb => ⟨fun hr => ⟨fun r hm => ?_, exec_rsumi hq hb hr⟩, fun hr hnan k hk hon hlead => ?_,
    fun hr k hk hon hnan hlow => ?_, fun hr hoff => ?_, fun hr => exec_scan hq hb hr⟩,
    fun s g src hq => ⟨fun hb hr => ⟨exec_perm hq hb hr, exec_vbit hq hb hr⟩, fun hb hr => ⟨exec_zip hq hb hr, exec_unzip hq hb hr⟩,
    fun hb hr => ?_, fun hb hr => ?_⟩⟩
  · revert r hm
    simp only [List.forall_mem_cons, List.not_mem_nil, false_implies, implies_true, and_true]
    exact ⟨red_next ⟨_, {}, rfl⟩ hq hb hr, red_next ⟨_, {}, rfl⟩ hq hb hr, red_next ⟨_, {}, rfl⟩ hq hb hr⟩
  · exact exec_ramax hq hb hr (argMax_max hk hon hnan hlead)
  · exact exec_ramax (w := Fp.nan32) hq hb hr (argMax_nan hk hon hnan hlow)
  · exact exec_ramax (w := 0xFF800000#32) hq hb hr (argMax_none hoff)
  · have hvec : Room s 0 1 0 := hr.mono le_rfl le_rfl (Nat.zero_le _)
    have hsc : Room s 0 0 1 := hr.mono le_rfl (Nat.zero_le _) le_rfl
    exact ⟨exec_vrot hq hb hvec, fun hn => ⟨exec_vext hq hb hsc hn, exec_vins hq hb hvec hn⟩⟩
  · have hvec : Room s 0 1 0 := hr.mono le_rfl le_rfl (Nat.zero_le _)
    exact ⟨Performs.landsXY (op := defVcmp) (field := 366) {} hq hb hr rfl, Performs.landsX (op := defVxpd) (field := 367) {} hq hb hvec rfl⟩

end Sys2Proof
end

section
/-! SUPPORT. Reads of local memory in a settled state (R163, R178, R201, R354): nothing hides a byte, and the load's entry is in its landing
buffer. -/

namespace Sys2Proof.Machine

section
variable {s : State} {sights : Sights} {misses : Nat → Bool}

/-! ## Granules -/

theorem layerAt_settled (hs : s.past = []) (hnil : sights [] = []) (stage : Option Nat) (a k : Nat) :
    layerAt s sights misses stage a k = ((List.range 16).map fun i => layerByte s stage (a + i), k) := by
  simp only [layerAt, hs, List.filter_nil, hnil, redo, List.reverse_nil, rewind]

theorem granuleAt_settled (hs : Settled s) (hnil : sights [] = []) (n : Option Nat) (a k : Nat) :
    granuleAt s sights misses n a k = (Memory.gets s.mem a 16, k) := by
  obtain ⟨hpast, hover⟩ := hs
  have hmap : ((List.range 16).map fun i => layerByte s none (a + i)).map (·.getD Memory.unlisted) = Memory.gets s.mem a 16 := List.map_map
  cases n with
  | none => simp only [granuleAt, layerAt_settled hpast hnil, hmap]
  | some n =>
    have hown : ∀ i, layerByte s (some n) (a + i) = none := fun i => by simp only [layerByte, hover, assoc]
    simp only [granuleAt, layerAt_settled hpast hnil, hown]
    rw [List.zip_map', List.map_map]
    exact congrArg (·, k) (List.map_congr_left fun _ _ => rfl)

theorem assoc_map_self {β : Type} (f : Nat → β) {a : Nat} {as : List Nat} (h : a ∈ as) : assoc a (as.map fun k => (k, f k)) = some (f a) := by
  induction as with
  | nil => cases h
  | cons b as ih =>
    rw [List.map_cons, assoc]
    split
    next hb => rw [hb]
    next hb => exact ih ((List.mem_cons.1 h).resolve_left (Ne.symm hb))

theorem mem_granules {a : Nat} {as : List Nat} (h : a ∈ as) : a / 16 * 16 ∈ granules as :=
  mem_sortBy.2 (List.mem_eraseDups.2 (List.mem_map_of_mem h))

theorem readGranules_settled (hs : Settled s) (hnil : sights [] = []) (n : Option Nat) (as : List Nat) :
    readGranules sights misses n as s = (as.map (Memory.get s.mem), s) := by
  have hfold : ∀ (as : List Nat) (acc : List (Nat × List Byte)), as.foldl (fun (acc : List (Nat × List Byte) × Nat) a =>
      let o := granuleAt s sights misses n a acc.2
      (acc.1 ++ [(a, o.1)], o.2)) (acc, s.free) = (acc ++ as.map fun a => (a, Memory.gets s.mem a 16), s.free) := by
    intro as
    induction as with
    | nil => simp
    | cons a as ih =>
      intro acc
      simp only [List.foldl_cons, granuleAt_settled hs hnil, List.map_cons]
      simpa only [granuleAt_settled hs hnil, List.append_assoc, List.singleton_append] using ih (acc ++ [(a, Memory.gets s.mem a 16)])
  simp only [readGranules, hfold, List.nil_append]
  refine congrArg (·, s) (List.map_congr_left fun a ha => ?_)
  have hlt : a % 16 < 16 := Nat.mod_lt _ (by decide)
  simp only [assoc_map_self _ (mem_granules ha), Option.getD_some, Memory.gets]
  simp [hlt, Nat.div_add_mod']

/-! ## Local bytes -/

variable {c : ClId} {a n : Nat}

theorem physLocal_add {i : Nat} (h : InLocal a n) (hi : i < n) : physLocal c (a + i) = physLocal c a + i := by
  simp only [physLocal, physSpad, physAcc]
  rcases h with h | h
  · rw [if_pos (by omega), if_pos (by omega)]
    omega
  · rw [if_neg (by omega), if_neg (by omega)]
    omega

theorem isLpddr_physLocal (hc : c.die < 8 ∧ c.cl < 32) (h : InLocal a n) (hn : 0 < n) : isLpddr (physLocal c a) = false := by
  have hkind : physKind (physLocal c a) ≠ 0 := by
    simp only [physKind, bits, physLocal, physSpad, physAcc]
    rcases h with h | h
    · rw [if_pos (by omega)]
      omega
    · rw [if_neg (by omega)]
      omega
  simp [isLpddr, hkind]

theorem ctxRead_settled {x : OpIn} {bs : List GByte} (hs : Settled s) (hbs : ∀ b ∈ bs, isLpddr b.pa = false) :
    ctxRead x bs s = (bs.map fun b => Memory.get s.mem b.pa, nodeEvent x.who s) := by
  have hlines : ∀ l : List (Nat × Nat), bs.foldl (fun l b =>
      if isLpddr b.pa && decide (pteCache b.pte ≠ 2) && !(true && pteNoFill b.pte) then assocSet (b.pa / 512) (aliasPair b.pte) l else l) l = l := by
    intro l
    induction bs with
    | nil => rfl
    | cons b bs ih =>
      rw [List.foldl_cons, hbs b (by simp)]
      exact ih (fun b hb => hbs b (List.mem_cons_of_mem _ hb))
  have hlook : coreRead x.who (nodeOf s x.who) (bs.map (·.pa)) s = ((bs.map (·.pa)).map (Memory.get s.mem), nodeEvent x.who s) :=
    readGranules_settled (s := nodeEvent x.who s) hs rfl _ _
  simp only [ctxRead, hlook, fillLines, hlines, List.map_map]
  rfl

theorem ctxRead_local {x : OpIn} (hs : Settled s) (hw : x.who.wf = true) (h : InLocal a n) :
    ctxRead x (localBytes x.who.clId a n) s = (Memory.gets s.mem (physLocal x.who.clId a) n, nodeEvent x.who s) := by
  have hc : x.who.clId.die < 8 ∧ x.who.clId.cl < 32 := by
    simp only [CtxId.wf, Bool.and_eq_true, decide_eq_true_eq] at hw
    obtain ⟨⟨hc, -⟩, -⟩ := hw
    exact hc
  have hadd : ∀ i ∈ List.range n, physLocal x.who.clId (a + i) = physLocal x.who.clId a + i := fun i hi => physLocal_add h (List.mem_range.1 hi)
  rw [ctxRead_settled hs, localBytes, List.map_map, Memory.gets]
  · exact congrArg (·, _) (List.map_congr_left fun i hi => congrArg (Memory.get s.mem) (hadd i hi))
  · intro b hb
    obtain ⟨i, hi, rfl⟩ := List.mem_map.1 hb
    have hi := List.mem_range.1 hi
    have hat : InLocal (a + i) 1 := by
      unfold InLocal at h ⊢
      omega
    exact isLpddr_physLocal hc hat (by decide)

theorem anyBad_local (hs : Settled s) (who : CtxId) (h : InLocal a n) : anyBad s who (localBytes c a n) = badBytes s (physLocal c a) n := by
  obtain ⟨-, hover⟩ := hs
  have hview : ∀ o b, viewBad s o b = byteBad s b := by
    intro o b
    cases o with
    | none => rfl
    | some k => simp only [viewBad, hover, assoc, Option.isNone_none, Bool.true_and]
  rw [anyBad, localBytes, List.any_map, badBytes, Bool.eq_iff_iff, List.any_eq_true, List.any_eq_true]
  refine exists_congr fun i => and_congr_right fun hi => ?_
  rw [Function.comp, hview, physLocal_add h (List.mem_range.1 hi)]

end

/-! ## Loads -/

section
variable {s : State} {g : Guard} {src : Source} {field : Nat} {i : Guard → Source → Instr} {op : OpDef}

/-- One read event, and one entry of the landing buffer. -/
theorem Performs.loads {delta : Nat} {dst : LandDst} {data : LandData} (h : Performs i op field) (hq : Quiet s) (hb : Brings s g src op.ty)
    (hr : Room s op.land op.vecs op.scs) (hrun : op.run (given s field op.ty src) (started s src)
      = .ok (takeEntry (given s field op.ty src) delta dst data (nodeEvent s.sel.who (started s src)))) :
    ∃ u, Machine.exec (i g src) s = .next u ∧ OneEvent s u ∧ getCtx u s.sel.who = advance s (lands s delta dst data (entry s src)) := by
  have hctx : getCtx (takeEntry (given s field op.ty src) delta dst data (nodeEvent s.sel.who (started s src))) s.sel.who
      = lands s delta dst data (entry s src) := by
    have hstart : getCtx (nodeEvent s.sel.who (started s src)) s.sel.who = entry s src := getCtx_setCtx_same ..
    refine (getCtx_updCtx_same ..).trans ?_
    rw [hstart]
    rfl
  refine ⟨_, (h.exec g src s).trans (congrArg _ (issueOne_run op field g src s _ hq hb hr (by rw [h.full]) (by simp [h.tok]) hrun)), ?_⟩
  have hrunnable : (lands s delta dst data (entry s src)).run = .runnable := entry_run src hq
  rw [finish_on _ _ _ _ _ _ (quiet_slot hq) (by rw [hctx, hrunnable]; decide) (by rw [hctx, hrunnable]; decide)
    (by rw [hctx]; exact entry_rft src hq) (linkReach_none _ _ h.link), goOn, hctx]
  refine ⟨⟨rfl, fun k hk => ?_⟩, getCtx_setCtx_same ..⟩
  rw [getCtx_setCtx_ne _ _ hk, takeEntry, enterBuffer, given_who, updCtx, getCtx_setCtx_ne _ _ hk]
  exact getCtx_setCtx_ne _ _ hk

end
end Sys2Proof.Machine
end

section
/-! SUPPORT. The transform unit trn (R154 to R159): descriptors, words of a pattern register, and which lanes a header or a mask examines. -/

namespace Sys2Proof.Machine

/-! ## Examined lanes -/

theorem any_take_lanes (v : List Lane) (n : Nat) : (v.take n).any (·.p) = (List.range n).any fun l => (laneAt v l).p := by
  induction n generalizing v with
  | zero => rfl
  | succ n ih =>
    rw [List.range_succ_eq_map, List.any_cons, List.any_map]
    cases v with
    | nil => exact (List.any_eq_false.2 (by simp [laneAt, Lane.zero])).symm
    | cons a v => exact congrArg (a.p || ·) (ih v)

/-- Items `d` to a group: some item's group meets a condition when some group does. -/
theorem any_range_div (f : Nat → Bool) {d m n : Nat} (hd : 0 < d) (hn : n = (m + d - 1) / d) :
    (List.range n).any f = (List.range m).any fun j => f (j / d) := by
  subst hn
  rw [Bool.eq_iff_iff, List.any_eq_true, List.any_eq_true]
  simp only [List.mem_range]
  constructor
  · rintro ⟨l, hl, hf⟩
    refine ⟨l * d, ?_, by rwa [Nat.mul_div_cancel _ hd]⟩
    have := (Nat.lt_div_iff_mul_lt hd).1 hl
    omega
  · rintro ⟨j, hj, hf⟩
    refine ⟨j / d, (Nat.lt_div_iff_mul_lt hd).2 ?_, hf⟩
    have := Nat.div_mul_le_self j d
    omega

/-- A mask of bits is poisoned by a lane that holds one of them. -/
theorem maskPoison_eq (v : List Lane) (n : Nat) : maskPoison v n = (List.range n).any fun i => (laneAt v (i / 32)).p := by
  rw [maskPoison, any_take_lanes]
  exact any_range_div (fun l => (laneAt v l).p) (by decide) rfl

/-- Read as bytes, whole bytes of it count. -/
theorem maskPoison_bytes (v : List Lane) (n : Nat) :
    maskPoison v (if 4096 < n then 0 else (n + 7) / 8 * 8)
      = (decide (n ≤ 4096) && (List.range ((n + 7) / 8)).any fun j => (laneAt v (j / 4)).p) := by
  split
  next h => rw [decide_eq_false (Nat.not_le.2 h)]; rfl
  next h =>
    rw [decide_eq_true (Nat.not_lt.1 h), Bool.true_and, maskPoison, any_take_lanes]
    exact any_range_div (fun l => (laneAt v l).p) (by decide) (by omega)

/-! ## Instructions -/

section
variable {s : State} {g : Guard} {src : Source} {i : Guard → Source → Instr}

/-- PSET, where its operands are legal and its descriptor has been read. -/
theorem psetOp_run {x : OpIn} {t : State} {bs : List Byte} (ha : x.aP = false) (ht : x.tP = false) (hn : x.aN < 8) (halign : x.tN % 8 = 0)
    (hfit : x.tN + 72 ≤ 0x300000) (hread : ctxRead x (localBytes x.who.clId x.tN 72) s = (bs, t)) :
    let k := 8 + 2 * min (patCount bs) 32
    psetOp.run x s = .ok (takeEntry x 4 (.pattern x.aN) (.desc (bs.take k) (anyBad s x.who ((localBytes x.who.clId x.tN 72).take k))) t) := by
  have hpoison : ¬(x.aP || x.tP) = true := by simp [ha, ht]
  simp only [psetOp, if_neg hpoison, if_neg (Nat.not_lt.2 (Nat.le_of_lt_succ hn)), if_neg (not_not.2 halign), if_neg (Nat.not_lt.2 hfit), hread]

theorem exec_pset (hq : Quiet s) (hb : Brings s g src .s) (hr : Room s 1 0 0) (hs : Settled s) (hw : s.sel.who.wf = true)
    (ha : (portSc s 12 0).p = false) (ht : (trigSc s src).p = false) (hn : (portSc s 12 0).v.toNat < 8) (halign : (trigSc s src).v.toNat % 8 = 0)
    (hfit : (trigSc s src).v.toNat + 72 ≤ 0x300000) :
    let at0 := localAt s (trigSc s src).v.toNat
    let bs := Memory.gets s.mem at0 72
    let k := 8 + 2 * min (patCount bs) 32
    ∃ u, exec (.pset g src) s = .next u ∧ OneEvent s u ∧ getCtx u s.sel.who
      = advance s (lands s 4 (.pattern (portSc s 12 0).v.toNat) (.desc (bs.take k) (badBytes s at0 k)) (entry s src)) := by
  intro at0 bs k
  have hperf : Performs Instr.pset defPset 388 := {}
  have hk : k ≤ 72 := by omega
  have hread : ctxRead (given s 388 .s src) (localBytes s.sel.who.clId (trigSc s src).v.toNat 72) (started s src)
      = (bs, nodeEvent s.sel.who (started s src)) := ctxRead_local (s := started s src) hs hw (.inl hfit)
  have htake : (localBytes s.sel.who.clId (trigSc s src).v.toNat 72).take k = localBytes s.sel.who.clId (trigSc s src).v.toNat k := by
    rw [localBytes, ← List.map_take, List.take_range, Nat.min_eq_left hk, localBytes]
  have hbad : anyBad (started s src) s.sel.who ((localBytes s.sel.who.clId (trigSc s src).v.toNat 72).take k) = badBytes s at0 k := by
    rw [htake]
    exact anyBad_local (s := started s src) hs _ (.inl (by omega))
  rw [← hbad]
  exact hperf.loads hq hb hr (psetOp_run ha ht hn halign hfit hread)

theorem exec_pget (hq : Quiet s) (hb : Brings s g src .s) (hr : Room s 0 0 1) (hn : (portSc s 12 0).v.toNat < 8)
    (ht : (trigSc s src).v.toNat ≤ 8) :
    exec (.pget g src) s = .next (after s src (inFlight [latchSc s 12 4
      (BitVec.ofNat 64 (patWord (getPat (view s) (portSc s 12 0).v.toNat) (trigSc s src).v.toNat))
      ((portSc s 12 0).p || (trigSc s src).p || (getPat (view s) (portSc s 12 0).v.toNat).poisoned)])) :=
  Performs.landsX (op := defPget) (field := 389) {} hq hb hr
    (if_neg (not_or.2 ⟨Nat.not_lt.2 (Nat.le_of_lt_succ hn), Nat.not_lt.2 ht⟩))

/-- PUNPK and PPACK through a valid pattern. -/
theorem pat_next {f : Pattern → List Lane → List Lane} (h : PerformsIn 12 i (patOp f)) (hq : Quiet s) (hb : Brings s g src .v) (hr : Room s 0 1 0)
    (hn : (portSc s 12 0).v.toNat < 8) (hvalid : (getPat (view s) (portSc s 12 0).v.toNat).valid = true) :
    exec (i g src) s = .next (after s src (inFlight [latchVal s 12 4 false (.vec
      ((f (getPat (view s) (portSc s 12 0).v.toNat) (trigVec s src)).map fun l => ⟨l.v, l.p || (portSc s 12 0).p⟩)) 0])) := by
  obtain ⟨field, h, hu⟩ := h
  have hlegal : ¬(7 < (given s field .v src).aN ∨ (getPat (view s) (given s field .v src).aN).valid = false) := by
    rw [given_aN, hu, hvalid]
    exact not_or.2 ⟨Nat.not_lt.2 (Nat.le_of_lt_succ hn), nofun⟩
  have hrun : exec (i g src) s = .next (after s src (inFlight [latchVal s 12 4 false (.vec
      ((f (getPat (view s) (given s field .v src).aN) (trigVec s src)).map fun l => ⟨l.v, l.p || (given s field .v src).aP⟩)) 0])) :=
    h.landsX hq hb hr (if_neg hlegal)
  simpa only [given_aN, given_aP, hu] using hrun

theorem exec_sphdr (hq : Quiet s) (hb : Brings s g src .v) (hr : Room s 0 1 0) (hn : (portSc s 12 0).v.toNat ≤ 4096)
    (h1 : 1 ≤ (portSc s 12 1).v.toNat) (h9 : (portSc s 12 1).v.toNat ≤ 9) (hc : (portSc s 12 2).v.toNat < 2 ^ 32) :
    let n := (portSc s 12 0).v.toNat
    let h := toBytes 2 n ++ toBytes 2 (bitsBelow (trigVec s src) n) ++ [BitVec.ofNat 8 (portSc s 12 1).v.toNat]
    let crc := P4.crc8 (h ++ maskBytesBelow (trigVec s src) n)
    let bad := (portSc s 12 0).p || (portSc s 12 1).p || (portSc s 12 2).p || (List.range n).any fun i => (laneAt (trigVec s src) (i / 32)).p
    exec (.sphdr g src) s = .next (after s src (inFlight [latchVal s 12 4 false (.vec (lanesFrom
      (h ++ [BitVec.ofNat 8 crc] ++ [0, 0] ++ toBytes 4 (portSc s 12 2).v.toNat ++ [0, 0, 0, 0]) fun l => decide (l < 4) && bad)) 0])) := by
  intro n h crc bad
  have hperf : Performs Instr.sphdr defSphdr 393 := {}
  have hlegal : ¬(4096 < n ∨ (portSc s 12 1).v.toNat = 0 ∨ 9 < (portSc s 12 1).v.toNat ∨ 0xFFFFFFFF < (portSc s 12 2).v.toNat) := by omega
  have hbad : bad = ((portSc s 12 0).p || (portSc s 12 1).p || (portSc s 12 2).p || maskPoison (trigVec s src) n) := by rw [maskPoison_eq]
  rw [hbad]
  exact hperf.landsX hq hb hr (if_neg hlegal)

theorem exec_chk16 (hq : Quiet s) (hb : Brings s g src .v) (hr : Room s 0 0 1) :
    let count := vecByte (trigVec s src) 0 + 256 * vecByte (trigVec s src) 1
    exec (.chk16 g src) s = .next (after s src (inFlight [latchSc s 12 4 (BitVec.ofNat 64 (chkWord (trigVec s src) (portVec s 12 3)))
      ((List.range 4).any (fun l => (laneAt (trigVec s src) l).p)
        || (decide (count ≤ 4096) && (List.range ((count + 7) / 8)).any fun j => (laneAt (portVec s 12 3) (j / 4)).p))])) := by
  intro count
  have hperf : Performs Instr.chk16 defChk16 392 := {}
  rw [← maskPoison_bytes, ← any_take_lanes]
  exact hperf.landsX hq hb hr rfl

end
end Sys2Proof.Machine

namespace Sys2Proof
open Machine

/-- Settles O31: PSET through the bytes that a settled state reads, the others by their one result. -/
theorem transformResults : Obligations.TransformResults := by
  refine fun s g src hq => ⟨fun hb hr hs hw ha ht hn halign hfit => exec_pset hq hb hr hs hw ha ht hn halign hfit,
    fun hb hr hn ht => exec_pget hq hb hr hn ht, fun hb hr => ?_⟩
  have hvec : Room s 0 1 0 := hr.mono le_rfl le_rfl (Nat.zero_le _)
  have hsc : Room s 0 0 1 := hr.mono le_rfl (Nat.zero_le _) le_rfl
  refine ⟨fun hn hvalid r hm => ?_, fun hn h1 h9 hc => exec_sphdr hq hb hvec hn h1 h9 hc, exec_chk16 hq hb hsc⟩
  refine pat_next (f := r.2) ?_ hq hb hvec hn hvalid
  revert r hm
  simp only [List.forall_mem_cons, List.not_mem_nil, false_implies, implies_true, and_true]
  exact ⟨⟨_, {}, rfl⟩, ⟨_, {}, rfl⟩⟩

end Sys2Proof
end

section
/-! SUPPORT. Memory and the fresco tier keep their canonical form (R161, R171): what that says of a state, of an event that may fire and of an
operation that may trap, with the rules for a choice, for a match and for a loop. -/

namespace Sys2Proof.Machine

section
variable {α β ε : Type} {P : β → Prop} {p : Prop} [Decidable p]

/-! ## Choices and matches, with a match as the recursor that it unfolds to -/

theorem of_ite {a b : β} (ha : P a) (hb : P b) : P (if p then a else b) := by
  split
  · exact ha
  · exact hb

theorem of_option {o : Option α} {a : β} {b : α → β} (hn : P a) (hs : ∀ x, P (b x)) : P (Option.rec (motive := fun _ => β) a b o) := by
  cases o with
  | none => exact hn
  | some x => exact hs x

theorem none_hasNotBit : Nat.hasNotBit 2 (none : Option α).ctorIdx := show Nat.land 1 (Nat.shiftRight 2 0) ≠ 1 by decide

/-- The same where the match names `some` alone, and unfolds to the sparse recursor. -/
theorem of_some {o : Option α} {a : β} {b : α → β} (hn : P a) (hs : ∀ x, P (b x)) :
    P (Option.rec (motive := fun t => (Nat.hasNotBit 2 t.ctorIdx → β) → β) (fun e => e none_hasNotBit)
      (fun x _ => b x) o fun _ => a) := by
  cases o with
  | none => exact hn
  | some x => exact hs x

theorem of_except {r : Except ε α} {a : ε → β} {b : α → β} (he : ∀ e, r = .error e → P (a e)) (hk : ∀ x, r = .ok x → P (b x)) :
    P (Except.rec (motive := fun _ => β) a b r) := by
  cases r with
  | error e => exact he e rfl
  | ok x => exact hk x rfl

theorem of_list {l : List α} {a : β} {b : α → List α → β} (hn : P a) (hc : ∀ x r, P (b x r)) :
    P (List.rec (motive := fun _ => β) a (fun x r _ => b x r) l) := by
  cases l with
  | nil => exact hn
  | cons x r => exact hc x r

/-! ## Results that may be missing -/

/-- What the option holds has the property. -/
inductive Gives (P : β → Prop) : Option β → Prop
  | none : Gives P .none
  | some {x : β} (h : P x) : Gives P (.some x)
/-- What is returned without an error has the property. -/
inductive Returns (P : β → Prop) : Except ε β → Prop
  | error {e : ε} : Returns P (.error e)
  | ok {x : β} (h : P x) : Returns P (.ok x)

theorem Gives.holds {r : Option β} {x : β} (h : Gives P r) (hr : r = .some x) : P x := by
  subst hr
  cases h with
  | some hx => exact hx

theorem Returns.holds {r : Except ε β} {x : β} (h : Returns P r) (hr : r = .ok x) : P x := by
  subst hr
  cases h with
  | ok hx => exact hx

protected theorem Returns.ite {a b : Except ε β} (ha : Returns P a) (hb : Returns P b) : Returns P (if p then a else b) := of_ite ha hb

protected theorem Returns.option {o : Option α} {a : Except ε β} {b : α → Except ε β} (hn : Returns P a) (hs : ∀ x, Returns P (b x)) :
    Returns P (Option.rec (motive := fun _ => Except ε β) a b o) := of_option hn hs

/-- A check whose error is passed on. -/
protected theorem Returns.check {r : Except ε α} {b : α → Except ε β} (hk : ∀ x, Returns P (b x)) :
    Returns P (Except.rec (motive := fun _ => Except ε β) (fun e => .error e) b r) := of_except (fun _ _ => .error) fun x _ => hk x

/-- A call whose error is passed on. -/
protected theorem Returns.call {Q : α → Prop} {r : Except ε α} {b : α → Except ε β} (hr : Returns Q r) (hk : ∀ x, Q x → Returns P (b x)) :
    Returns P (Except.rec (motive := fun _ => Except ε β) (fun e => .error e) b r) := of_except (fun _ _ => .error) fun x hx => hk x (hr.holds hx)

/-- A row of a table by number, before the rows that follow. -/
protected theorem Gives.row {k n : Nat} {r : Option β} {f : ¬ k = n → Option β} (hr : Gives P r) (hf : ∀ h, Gives P (f h)) :
    Gives P (dite (k = n) (Eq.ndrec_symm (motive := fun _ => Option β) r) f) := by
  split
  · next h =>
    subst h
    exact hr
  · next h => exact hf h

end

section
variable {α β ε : Type} {s t : State} {p : Prop} [Decidable p]

/-! ## States -/

protected theorem Canonical.of_eq (h : Canonical s) (hmem : t.mem = s.mem) (hfresco : t.fresco = s.fresco) : Canonical t := by
  unfold Canonical
  rw [hmem, hfresco]
  exact h

theorem Canonical.of_wf (hm : Memory.wf s.mem = true) (hf : Memory.wf s.fresco = true) : Canonical s := ⟨hm, hf⟩

theorem Canonical.of_filter {keep : Host.Cell → Bool} (h : Canonical s) (hmem : t.mem = s.mem.filter keep)
    (hfresco : t.fresco = s.fresco) : Canonical t := by
  unfold Canonical
  rw [hmem, hfresco]
  exact ⟨Memory.filter_wf keep h.1, h.2⟩

protected theorem Canonical.ite {a b : State} (ha : Canonical a) (hb : Canonical b) : Canonical (if p then a else b) := of_ite ha hb

/-- A step that is taken or not, after what comes before it. -/
protected theorem Canonical.ite_of_left {a b : State} (ha : Canonical a) (hb : Canonical a → Canonical b) : Canonical (if p then a else b) :=
  ha.ite (hb ha)

protected theorem Canonical.ite_of_right {a b : State} (hb : Canonical b) (ha : Canonical b → Canonical a) : Canonical (if p then a else b) :=
  (ha hb).ite hb

protected theorem Canonical.ite_snd {a b : β × State} (ha : Canonical a.2) (hb : Canonical b.2) : Canonical (if p then a else b).2 :=
  of_ite (P := fun x : β × State => Canonical x.2) ha hb

protected theorem Canonical.ite_thd {a b : α × β × State} (ha : Canonical a.2.2) (hb : Canonical b.2.2) : Canonical (if p then a else b).2.2 :=
  of_ite (P := fun x : α × β × State => Canonical x.2.2) ha hb

protected theorem Canonical.option {o : Option α} {a : State} {b : α → State} (hn : Canonical a) (hs : ∀ x, Canonical (b x)) :
    Canonical (Option.rec (motive := fun _ => State) a b o) := of_option hn hs

protected theorem Canonical.option_of_none {o : Option α} {a : State} {b : α → State} (hn : Canonical a)
    (hs : ∀ x, Canonical a → Canonical (b x)) : Canonical (Option.rec (motive := fun _ => State) a b o) := .option hn fun x => hs x hn

protected theorem Canonical.of_some {o : Option α} {a : State} {b : α → State} (hn : Canonical a) (hs : ∀ x, Canonical (b x)) :
    Canonical (Option.rec (motive := fun t => (Nat.hasNotBit 2 t.ctorIdx → State) → State)
      (fun e => e none_hasNotBit) (fun x _ => b x) o fun _ => a) := Machine.of_some hn hs

protected theorem Canonical.option_snd {o : Option α} {a : β × State} {b : α → β × State} (hn : Canonical a.2) (hs : ∀ x, Canonical (b x).2) :
    Canonical (Option.rec (motive := fun _ => β × State) a b o).2 := of_option (P := fun x : β × State => Canonical x.2) hn hs

protected theorem Canonical.except {r : Except ε α} {a : ε → State} {b : α → State} (he : ∀ e, Canonical (a e)) (hk : ∀ x, Canonical (b x)) :
    Canonical (Except.rec (motive := fun _ => State) a b r) := of_except (fun e _ => he e) fun x _ => hk x

protected theorem Canonical.list {l : List α} {a : State} {b : α → List α → State} (hn : Canonical a) (hc : ∀ x r, Canonical (b x r)) :
    Canonical (List.rec (motive := fun _ => State) a (fun x r _ => b x r) l) := of_list hn hc

/-- A call that may return an error. -/
protected theorem Canonical.call {Q : α → Prop} {r : Except ε α} {a : ε → State} {b : α → State} (hr : Returns Q r) (he : ∀ e, Canonical (a e))
    (hk : ∀ x, Q x → Canonical (b x)) : Canonical (Except.rec (motive := fun _ => State) a b r) :=
  of_except (fun e _ => he e) fun x hx => hk x (hr.holds hx)

theorem Memory.foldl_wf {f : List Host.Cell → α → List Host.Cell} {l : List α} {m : List Host.Cell} (h : Memory.wf m = true)
    (hf : ∀ m x, Memory.wf m = true → Memory.wf (f m x) = true) : Memory.wf (l.foldl f m) = true :=
  List.foldlRecOn (motive := fun m => Memory.wf m = true) l f h fun m hm x _ => hf m x hm

protected theorem Canonical.foldl {f : State → α → State} {l : List α} (h : Canonical s) (hf : ∀ t x, Canonical t → Canonical (f t x)) :
    Canonical (l.foldl f s) :=
  List.foldlRecOn l f h fun t ht x _ => hf t x ht

protected theorem Canonical.foldl_snd {f : β × State → α → β × State} {l : List α} {a : β × State} (h : Canonical a.2)
    (hf : ∀ a x, Canonical a.2 → Canonical (f a x).2) : Canonical (l.foldl f a).2 :=
  List.foldlRecOn (motive := fun a : β × State => Canonical a.2) l f h fun t ht x _ => hf t x ht

/-! ## Events and operations -/

/-- An event that waits, or fires into a canonical state. -/
def Fires (r : Option State) : Prop := Gives Canonical r

theorem Fires.waits : Fires none := Gives.none
theorem Fires.fires (h : Canonical t) : Fires (some t) := Gives.some h

protected theorem Fires.ite {a b : Option State} (ha : Fires a) (hb : Fires b) : Fires (if p then a else b) := of_ite ha hb

protected theorem Fires.option {o : Option α} {a : Option State} {b : α → Option State} (hn : Fires a) (hs : ∀ x, Fires (b x)) :
    Fires (Option.rec (motive := fun _ => Option State) a b o) := of_option hn hs

protected theorem Fires.of_some {o : Option α} {a : Option State} {b : α → Option State} (hn : Fires a) (hs : ∀ x, Fires (b x)) :
    Fires (Option.rec (motive := fun t => (Nat.hasNotBit 2 t.ctorIdx → Option State) → Option State)
      (fun e => e none_hasNotBit) (fun x _ => b x) o fun _ => a) := Machine.of_some hn hs

protected theorem Fires.except {r : Except ε α} {a : ε → Option State} {b : α → Option State} (he : ∀ e, Fires (a e)) (hk : ∀ x, Fires (b x)) :
    Fires (Except.rec (motive := fun _ => Option State) a b r) := of_except (fun e _ => he e) fun x _ => hk x

protected theorem Fires.list {l : List α} {a : Option State} {b : α → List α → Option State} (hn : Fires a) (hc : ∀ x r, Fires (b x r)) :
    Fires (List.rec (motive := fun _ => Option State) a (fun x r _ => b x r) l) := of_list hn hc

theorem Fires.getD {r : Option State} (h : Fires r) (hs : Canonical s) : Canonical (r.getD s) := by
  cases r with
  | none => exact hs
  | some t => exact h.holds rfl

protected theorem Fires.bind {r : Option State} {f : State → Option State} (h : Fires r) (hf : ∀ t, Canonical t → Fires (f t)) :
    Fires (r.bind f) := by
  cases r with
  | none => exact .waits
  | some t => exact hf t (h.holds rfl)

/-- A step after an event that may have fired. -/
protected theorem Returns.given {P : β → Prop} {o : Option State} {a : Except ε β} {b : State → Except ε β} (ho : Fires o) (hn : Returns P a)
    (hs : ∀ t, Canonical t → Returns P (b t)) : Returns P (Option.rec (motive := fun _ => Except ε β) a b o) := by
  cases o with
  | none => exact hn
  | some t => exact hs t (ho.holds rfl)

protected theorem Canonical.given {o : Option State} {a : State} {b : State → State} (ho : Fires o) (hn : Canonical a)
    (hs : ∀ t, Canonical t → Canonical (b t)) : Canonical (Option.rec (motive := fun _ => State) a b o) := by
  cases o with
  | none => exact hn
  | some t => exact hs t (ho.holds rfl)

/-- An operation's result: a trap, or a canonical state. -/
def Leaves (r : Except Trap State) : Prop := Returns Canonical r

theorem Leaves.trap {e : Trap} : Leaves (.error e) := Returns.error
theorem Leaves.ok (h : Canonical t) : Leaves (.ok t) := Returns.ok h

protected theorem Leaves.ite {a b : Except Trap State} (ha : Leaves a) (hb : Leaves b) : Leaves (if p then a else b) := of_ite ha hb

protected theorem Leaves.option {o : Option α} {a : Except Trap State} {b : α → Except Trap State} (hn : Leaves a) (hs : ∀ x, Leaves (b x)) :
    Leaves (Option.rec (motive := fun _ => Except Trap State) a b o) := of_option hn hs

protected theorem Leaves.check {r : Except Trap α} {b : α → Except Trap State} (hk : ∀ x, Leaves (b x)) :
    Leaves (Except.rec (motive := fun _ => Except Trap State) (fun e => .error e) b r) := Returns.check hk

protected theorem Leaves.call {r : Except Trap State} {b : State → Except Trap State} (hr : Leaves r) (hk : ∀ t, Canonical t → Leaves (b t)) :
    Leaves (Except.rec (motive := fun _ => Except Trap State) (fun e => .error e) b r) := Returns.call hr hk

/-- An operation keeps the canonical form. -/
def OpDef.Keeps (o : OpDef) : Prop := ∀ x s, Canonical s → Leaves (o.run x s)

/-- The operations of a bundle's moves keep the canonical form. -/
def Bundle.Keeps (b : Bundle) : Prop := ∀ m ∈ b.moves, ∀ o, m.op = some o → o.Keeps
/-- So do those of the bundle that fetch found, if it found one. -/
def Fetched.Keeps (f : Fetched) : Prop := ∀ b, f = .got b → b.Keeps

end

end Sys2Proof.Machine
end

section
/-! SUPPORT. The writes and the reads of memory keep the canonical form (R161, R171). -/

namespace Sys2Proof.Machine
section
variable {s t : State}

/-! ## What leaves memory and the fresco tier alone -/

protected theorem Canonical.updCtx {who f} (h : Canonical s) : Canonical (Machine.updCtx who f s) := h

protected theorem Canonical.setMex {e x} (h : Canonical s) : Canonical (Machine.setMex e x s) := h

protected theorem Canonical.setNode {n d} (h : Canonical s) : Canonical (Machine.setNode n d s) := h

protected theorem Canonical.setPart {p x} (h : Canonical s) : Canonical (Machine.setPart p x s) := h

protected theorem Canonical.setIsland {die isl x} (h : Canonical s) : Canonical (Machine.setIsland die isl x s) := h

protected theorem Canonical.setPort18 {k p} (h : Canonical s) : Canonical (Machine.setPort18 k p s) := h

protected theorem Canonical.sendKind {kind nack k ps} (h : Canonical s) : Canonical (Machine.sendKind kind nack k ps s) := h

protected theorem Canonical.logEvent {kind part detail} (h : Canonical s) : Canonical (Machine.logEvent kind part detail s) := h

protected theorem Canonical.addCorrected {die src} (h : Canonical s) : Canonical (Machine.addCorrected die src s) := h

protected theorem Canonical.countEvent {who} (h : Canonical s) : Canonical (Machine.countEvent who s) := h

protected theorem Canonical.countTo {sel w} (h : Canonical s) : Canonical (Machine.countTo sel w s) := h

protected theorem Canonical.settlePast {cmd} (h : Canonical s) : Canonical (Machine.settlePast cmd s) := h

protected theorem Canonical.observeFlips {who w n} (h : Canonical s) : Canonical (Machine.observeFlips who w n s) := h

protected theorem Canonical.updGlz {r} (h : Canonical s) : Canonical (Machine.updGlz r s) := h

protected theorem Canonical.mapGlzRuns {f} (h : Canonical s) : Canonical (Machine.mapGlzRuns f s) := h

protected theorem Canonical.mapNodeCtxs {n f} (h : Canonical s) : Canonical (Machine.mapNodeCtxs n f s) := h

protected theorem Canonical.renameCtxs {f} (h : Canonical s) : Canonical (Machine.renameCtxs f s) := h

protected theorem Canonical.discardOverlays {n} (h : Canonical s) : Canonical (Machine.discardOverlays n s) := h

protected theorem Canonical.settleNode {n} (h : Canonical s) : Canonical (Machine.settleNode n s) := h

protected theorem Canonical.clearCores {cs} (h : Canonical s) : Canonical (Machine.clearCores cs s) := h

protected theorem Canonical.departNode {n} (h : Canonical s) : Canonical (Machine.departNode n s) := h

protected theorem Canonical.mapTiles {part world im slots} (h : Canonical s) : Canonical (Machine.mapTiles part world im slots s) := h

protected theorem Canonical.noteCycle {c ks l m} (h : Canonical s) : Canonical (Machine.noteCycle c ks l m s) := h

protected theorem Canonical.takeEntry {x delta dst data} (h : Canonical s) : Canonical (Machine.takeEntry x delta dst data s) := h

protected theorem Canonical.vecEntry {x v} (h : Canonical s) : Canonical (Machine.vecEntry x v s) := h

protected theorem Canonical.synStatus {x} (h : Canonical s) : Canonical (Machine.synStatus x s) := h

protected theorem Canonical.signalWord {w : Nat} {by_ : Wake} (h : Canonical s) : Canonical (Machine.signalWord w by_ s) := h

protected theorem Canonical.barUpdate {w add sub : Nat} {arrive : Bool} {fl : BarFlags} (h : Canonical s) :
    Canonical (Machine.barUpdate w add arrive sub fl s) := by
  have hw : ∀ ws, Memory.wf (writeCells ws s.mem) = true := fun ws => writeCells_wf ws h.1
  exact .ite (Canonical.signalWord ⟨hw _, h.2⟩) ⟨hw _, h.2⟩

/-! ## Writes and reads -/

/- Without it a match does not unfold to the recursor that the rules for matches speak of. -/
set_option smartUnfolding false

protected theorem Canonical.unmark {stage as} (h : Canonical s) : Canonical (Machine.unmark stage as s) := by
  cases stage <;> exact h

protected theorem Canonical.putBytes {stage : Option Nat} {ws : List WByte} (h : Canonical s) : Canonical (Machine.putBytes stage ws s) := by
  cases stage with
  | some => exact h
  | none => exact .foldl ⟨writeCells_wf ws h.1, h.2⟩ fun _ _ ht => ht.signalWord

protected theorem Canonical.coreWrite {who stage ws} (h : Canonical s) : Canonical (Machine.coreWrite who stage ws s) :=
  .unmark (.putBytes h)

protected theorem Canonical.engineWrite {src stage ws} (h : Canonical s) : Canonical (Machine.engineWrite src stage ws s) :=
  .unmark (.putBytes h)

protected theorem Canonical.markAll {as} (h : Canonical s) : Canonical (Machine.markAll as s) :=
  .foldl h fun _ _ ht => ht

protected theorem Canonical.readGranules {sights misses n as} (h : Canonical s) : Canonical (Machine.readGranules sights misses n as s).2 :=
  h

protected theorem Canonical.coreRead {who n as} (h : Canonical s) : Canonical (Machine.coreRead who n as s).2 := h

protected theorem Canonical.engineReadAs {later src n as} (h : Canonical s) : Canonical (Machine.engineReadAs later src n as s).2 :=
  .readGranules h

protected theorem Canonical.engineRead {src n as} (h : Canonical s) : Canonical (Machine.engineRead src n as s).2 :=
  .engineReadAs h

protected theorem Canonical.completeToken {who t failed status} (h : Canonical s) : Canonical (Machine.completeToken who t failed status s) :=
  .ite h h

protected theorem Canonical.sendMessage {kind fields k} (h : Canonical s) : Canonical (Machine.sendMessage kind fields k s) :=
  .ite h h

protected theorem Canonical.noteDurable {node pas} (h : Canonical s) : Canonical (Machine.noteDurable node pas s) := by
  cases node with
  | none => exact h
  | some => exact .option h fun _ => .ite h h

protected theorem Canonical.dirtySectors {own bs} (h : Canonical s) : Canonical (Machine.dirtySectors own bs s) :=
  .foldl h fun _ _ ht => .ite ht (.option ht fun _ => ht)

protected theorem Canonical.releaseOverlays {n} (h : Canonical s) : Canonical (Machine.releaseOverlays n s) :=
  .foldl h fun _ _ ht => .coreWrite (.dirtySectors ht)

protected theorem Canonical.appendFault {die part mk logKind} (h : Canonical s) : Canonical (Machine.appendFault die part mk logKind s) := by
  cases part with
  | none => cases logKind <;> exact h
  | some => cases logKind <;> exact h

protected theorem Canonical.overflowStaging {n die ctxid} (h : Canonical s) : Canonical (Machine.overflowStaging n die ctxid s) :=
  .option h fun _ => .appendFault (.setNode (.releaseOverlays h))

protected theorem Canonical.noteStaged {own node pas} (h : Canonical s) : Canonical (Machine.noteStaged own node pas s) := by
  cases own with
  | host => exact h
  | node => cases node <;> exact h

protected theorem Canonical.storeBytes {write : Option Nat → List WByte → State → State} {own : Owner} {node : Option Nat} {part : Nat}
    {bs : List (GByte × Byte)} (h : Canonical s) (hw : ∀ n ws t, Canonical t → Canonical (write n ws t)) :
    Canonical (Machine.storeBytes write own node part bs s) :=
  .ite_of_left (.ite_of_left (.option h fun _ => .option h fun _ => .overflowStaging h) fun h0 => hw _ _ _ h0.dirtySectors.noteDurable)
    fun h1 => hw _ _ _ h1.noteStaged

protected theorem Canonical.askBucket {part k r} (h : Canonical s) : Canonical (Machine.askBucket part k r s).2 :=
  .ite_snd h (.ite_snd h (.ite_snd h (.ite_snd h (.ite h h))))

protected theorem Fires.meteredRead {part port : Nat} {node : Option Nat} {acc : Access} {n : Nat} {perform : State → State}
    (h : Canonical s) (hp : ∀ t, Canonical t → Canonical (perform t)) : Fires (Machine.meteredRead part port node acc n perform s) := by
  have hq : ∀ r, Canonical (Machine.askBucket part (18 + port) r (bumpSeq s)).2 := fun r => Canonical.askBucket (s := bumpSeq s) h
  exact .option (.fires (.ite (hp _ (hq _)) (hq _))) fun _ => .ite (.fires (hp _ h.askBucket)) .waits

protected theorem Canonical.meterStore {who was} (h : Canonical s) : Canonical (Machine.meterStore who was s) :=
  .foldl h fun _ _ ht => .ite ht (.askBucket ht)

protected theorem Canonical.dropStores {part : Nat} (h : Canonical s) : Canonical (Machine.dropStores part s) :=
  ⟨Memory.foldl_wf h.1 fun _ r hm => writeCells_wf r.was hm, h.2⟩

protected theorem Canonical.ctxStore {who bs} (h : Canonical s) : Canonical (Machine.ctxStore who bs s) :=
  .meterStore (.storeBytes h fun _ _ _ ht => .coreWrite ht)

protected theorem Canonical.engineStore {src bs} (h : Canonical s) : Canonical (Machine.engineStore src bs s) :=
  .storeBytes h fun _ _ _ ht => .engineWrite ht

end
end Sys2Proof.Machine
end

section
/-! SUPPORT. A core keeps the canonical form: completions, cancels and kills, traps, and the bundles of a cycle. -/

namespace Sys2Proof.Machine
section
/- Without it a match does not unfold to the recursor that the rules for matches speak of. -/
set_option smartUnfolding false
variable {s t : State}

protected theorem Canonical.payFor {who bar sel bytes fl} (h : Canonical s) : Canonical (Machine.payFor who bar sel bytes fl s) := by
  cases bar with
  | none => exact h
  | some => exact .countEvent (.barUpdate (.countTo (.noteDurable h)))

protected theorem Canonical.pay {who bar cmd bytes fl} (h : Canonical s) : Canonical (Machine.pay who bar cmd bytes fl s) :=
  .payFor h

protected theorem Canonical.setDurable {who} (h : Canonical s) : Canonical (Machine.setDurable who s) :=
  .option h fun _ => .option h fun _ => h

protected theorem Canonical.completeMex {e c err detail cancelled} (h : Canonical s) : Canonical (Machine.completeMex e c err detail cancelled s) :=
  .ite_of_right (.completeToken (.settlePast (.pay h))) fun ht => .updCtx ht

protected theorem Canonical.removeMex {e sel} (h : Canonical s) : Canonical (Machine.removeMex e sel s).2 :=
  .foldl h fun _ _ ht => .completeMex ht

protected theorem Canonical.completeCpy {e c bar chunk written err detail failedChunk cancelled} (h : Canonical s) :
    Canonical (Machine.completeCpy e c bar chunk written err detail failedChunk cancelled s) :=
  .ite_of_right (.completeToken (.settlePast (.ite h (.pay h)))) fun ht => .updCtx ht

protected theorem Canonical.removeCpy {e sel} (h : Canonical s) : Canonical (Machine.removeCpy e sel s).2 :=
  .foldl h fun _ _ ht => .completeCpy ht

protected theorem Canonical.writeCounter {c k v} (h : Canonical s) : Canonical (Machine.writeCounter c k v s) :=
  .ite (.engineStore h) h

protected theorem Canonical.payBlock {c k fl} (h : Canonical s) : Canonical (Machine.payBlock c k fl s) :=
  .payFor h

protected theorem Canonical.completeGlz {e c err detail cancelled aborted poison} (h : Canonical s) :
    Canonical (Machine.completeGlz e c err detail cancelled aborted poison s) :=
  .ite_of_right (.completeToken h) fun ht => ht

protected theorem Canonical.keepCounters {c ks} (h : Canonical s) : Canonical (Machine.keepCounters c ks s) :=
  .ite h h

protected theorem Canonical.cancelBlock {c k} (h : Canonical s) : Canonical (Machine.cancelBlock c k s) :=
  .payBlock (.writeCounter h)

protected theorem Canonical.removeGlz {e sel} (h : Canonical s) : Canonical (Machine.removeGlz e sel s).2 :=
  .foldl h fun _ _ ht => .keepCounters (.completeGlz (.ite (.foldl ht fun _ _ hu => .cancelBlock hu) ht))

protected theorem Canonical.tellMembers {kind part group tag fields} (h : Canonical s) :
    Canonical (Machine.tellMembers kind part group tag fields s) :=
  .foldl h fun _ _ ht => .sendMessage ht

protected theorem Canonical.abortColl {cmd err detail} (h : Canonical s) : Canonical (Machine.abortColl cmd err detail s) :=
  .option h fun _ => .ite (.tellMembers h) h

protected theorem Canonical.abortPeers {c} (h : Canonical s) : Canonical (Machine.abortPeers c s) :=
  .foldl (.tellMembers h) fun _ _ ht => ht

protected theorem Canonical.cancelGlz {e target a n} (h : Canonical s) : Canonical (Machine.cancelGlz e target a n s).2 :=
  .option_snd (.option_snd h fun _ => .ite_snd h (.ite_snd (.tellMembers h) (.foldl h fun _ _ ht => .cancelBlock ht)))
    fun _ => .foldl h fun _ _ ht => .cancelBlock ht

protected theorem Canonical.completeRtc {e c rows remapped iters err detail cancelled digests} (h : Canonical s) :
    Canonical (Machine.completeRtc e c rows remapped iters err detail cancelled digests s) :=
  .logEvent (.ite_of_right (.completeToken (.settlePast (.ite h (.pay h)))) fun ht => .updCtx ht)

protected theorem Canonical.removeRtc {e sel} (h : Canonical s) : Canonical (Machine.removeRtc e sel s).2 :=
  .foldl h fun _ _ ht => .completeRtc ht

protected theorem Canonical.cancelMex {e who t} (h : Canonical s) : Canonical (Machine.cancelMex e who t s).2 :=
  .removeMex h

protected theorem Canonical.cancelCpy {e who t} (h : Canonical s) : Canonical (Machine.cancelCpy e who t s).2 :=
  .removeCpy h

protected theorem Canonical.killCommands {sel} (h : Canonical s) : Canonical (Machine.killCommands sel s) := by
  refine .foldl (.foldl (.foldl (.foldl h fun _ _ ht => .removeMex ht) fun _ _ ht => .removeCpy ht) fun _ _ ht => ?_) fun _ _ ht => .removeRtc ht
  exact .foldl (.foldl (.removeGlz ht) fun _ _ hu => .abortPeers hu) fun _ _ hu => .abortColl hu

protected theorem Canonical.removeQueued {selM selC selG selR} (h : Canonical s) :
    Canonical (Machine.removeQueued selM selC selG selR s).2 :=
  .foldl_snd (.foldl_snd (.foldl_snd (.foldl_snd h fun _ _ ht => .removeMex ht) fun _ _ ht => .removeCpy ht) fun _ _ ht => .removeGlz ht)
    fun _ _ ht => .removeRtc ht

protected theorem Canonical.cancelRun {k} (h : Canonical s) : Canonical (Machine.cancelRun k s).2 :=
  .ite_snd (.removeQueued h) (.ite_snd (.cancelMex h) (.ite_snd (.cancelCpy h) (.option_snd h fun _ => .cancelGlz h)))

protected theorem Canonical.applyCancel {k} (h : Canonical s) : Canonical (Machine.applyCancel s k) :=
  .option h.cancelRun fun _ => h.cancelRun

protected theorem Canonical.applyCancels (h : Canonical s) : Canonical (Machine.applyCancels s) :=
  .foldl h fun _ _ ht => .applyCancel ht

protected theorem Canonical.rtcLook {c j} (h : Canonical s) : Canonical (Machine.rtcLook c j s).2 := by
  delta Machine.rtcLook
  split
  · exact .engineReadAs h
  · exact .engineReadAs (.engineReadAs h)

protected theorem Canonical.captureTick {n0 e r u} (h : Canonical s) : Canonical (Machine.captureTick n0 e r u s) := by
  delta Machine.captureTick
  refine .ite h (.ite_of_left (.rtcLook h) fun ht => .ite ht (.ite ht ?_))
  cases freeSpare _ _ <;> exact ht

protected theorem Canonical.captureReads {n0} (h : Canonical s) : Canonical (Machine.captureReads n0 s) :=
  .foldl h fun _ _ ht => .option ht fun _ => .option ht fun _ => .captureTick ht

protected theorem Canonical.baristaStore {d va v} (h : Canonical s) : Canonical (Machine.baristaStore d va v s) :=
  .option h fun _ => .coreWrite (.dirtySectors h)

protected theorem Canonical.setState {n d} (h : Canonical s) : Canonical (Machine.setState n d s) :=
  .baristaStore h

protected theorem Canonical.eraseRange {lo n : Nat} (h : Canonical s) : Canonical (Machine.eraseRange lo n s) :=
  ⟨Memory.clear_wf _ _ h.1, h.2⟩

protected theorem Canonical.dropImages {v} (h : Canonical s) : Canonical (Machine.dropImages v s) :=
  .foldl h fun _ _ ht => .eraseRange ht

protected theorem Canonical.dropSaved {n d} (h : Canonical s) : Canonical (Machine.dropSaved n d s) := by
  refine .option h fun _ => .ite_of_left ?_ fun ht => .dropImages ht
  exact .foldl (.foldl (.foldl (.foldl h fun _ _ ht => .completeCpy ht) fun _ _ ht => .abortPeers ht) fun _ _ ht => .abortColl ht)
    fun _ _ ht => .completeRtc ht

protected theorem Canonical.killNode {n double} (h : Canonical s) : Canonical (Machine.killNode n double s) :=
  .option h fun _ => .ite (.killCommands (.discardOverlays (.mapNodeCtxs (.setState (.dropSaved h))))) h

protected theorem Canonical.plainRecord {die source cls action low addr ecc mac loc part logKind} (h : Canonical s) :
    Canonical (Machine.plainRecord die source cls action low addr ecc mac loc part logKind s) :=
  .appendFault h

protected theorem Canonical.killFor {n die source cls low addr ecc ctxid loc frame mac logKind} (h : Canonical s) :
    Canonical (Machine.killFor n die source cls low addr ecc ctxid loc frame s mac logKind) :=
  .option h fun _ => .appendFault (.killNode h)

protected theorem Canonical.killImage {n tag} (h : Canonical s) : Canonical (Machine.killImage n tag s) :=
  .ite (.killFor h) (.killFor h)

protected theorem Canonical.doubleFault {who} (h : Canonical s) : Canonical (Machine.doubleFault who s) :=
  .option h fun _ => .killNode h

protected theorem Canonical.trapEnter {who t} (h : Canonical s) : Canonical (Machine.trapEnter who t s) :=
  .ite (.doubleFault h) h

protected theorem Canonical.finishRft {who} (h : Canonical s) : Canonical (Machine.finishRft who s) :=
  .of_some h fun _ => .of_some h fun _ => h

protected theorem Canonical.retire {who status} (h : Canonical s) : Canonical (Machine.retire who status s) :=
  .ite h (.option h fun _ => .option h fun _ => .removeQueued h)

protected theorem Canonical.landPour {p} (h : Canonical s) : Canonical (Machine.landPour p s) :=
  .coreWrite h

protected theorem Canonical.landPours {upto} (h : Canonical s) : Canonical (Machine.landPours upto s) :=
  .foldl h fun _ _ ht => .landPour ht

protected theorem Canonical.tick (h : Canonical s) : Canonical (Machine.tick s) :=
  .captureReads (.landPours (.applyCancels h))

protected theorem Canonical.runOps {os : List (OpDef × OpIn)} {ts : List (Nat × Trap)} (h : Canonical s) (hk : ∀ y ∈ os, y.1.Keeps) :
    Canonical (Machine.runOps os s ts).1 := by
  induction os generalizing s ts with
  | nil => exact h
  | cons y r ih =>
    have hr : ∀ z ∈ r, z.1.Keeps := fun z hz => hk z (List.mem_cons_of_mem y hz)
    show Canonical (Except.rec (motive := fun _ => _) (fun t => Machine.runOps r s (ts ++ [(y.2.slot, t)]))
      (fun u => Machine.runOps r u ts) (y.1.run y.2 s)).1
    have hrun := hk y List.mem_cons_self y.2 s h
    cases he : y.1.run y.2 s with
    | error => exact ih h hr
    | ok u => exact ih (hrun.holds he) hr

protected theorem Canonical.settleLink {who q k fields c} (h : Canonical s) : Canonical (Machine.settleLink who q k fields c s).2 :=
  .option_snd h fun _ => h

protected theorem Canonical.endHandler {who} (h : Canonical s) : Canonical (Machine.endHandler who s) :=
  have ht : Canonical (Machine.finishRft who s) := .finishRft h
  .of_some ht fun _ => .of_some ht fun _ => .option ht fun _ => .ite_of_left ht fun _ => .settleLink ht

protected theorem Canonical.finish {who b cs fields} (h : Canonical s) : Canonical (Machine.finish who b cs fields s) :=
  .ite h (.option (.option_snd h fun _ => .settleLink h) fun _ => .ite_of_right (.option_snd h fun _ => .settleLink h) fun ht => .endHandler ht)

theorem SlotMove.live_op {x : SlotMove} {m : Live} (h : x.live = some m) : m.op = x.op := by
  obtain ⟨slot, g, src, dst, field, op⟩ := x
  cases g with
  | none => cases h
  | some =>
    cases src with
    | error => cases h
    | ok =>
      cases dst with
      | error => cases h
      | ok => exact Option.some.inj h ▸ rfl

theorem Bundle.Keeps.triggers {b : Bundle} {who : CtxId} {c : Ctx} (hb : b.Keeps) : ∀ y ∈ triggers who b c (passing c b), y.1.Keeps := by
  intro y hy
  obtain ⟨m, hm, ho⟩ := List.mem_filterMap.1 hy
  obtain ⟨x, hx, hlive⟩ := List.mem_filterMap.1 (List.mem_filter.1 (mem_sortBy.1 hm)).1
  cases hop : m.op with
  | none =>
    rw [hop] at ho
    cases ho
  | some o =>
    rw [hop] at ho
    cases ho
    exact hb x hx o (SlotMove.live_op hlive ▸ hop)

protected theorem Canonical.performed {who b} (h : Canonical s) (hb : b.Keeps) : Canonical (Machine.performed who b s).2 :=
  Canonical.runOps (s := acquire who _ (setCtx who _ s)) h hb.triggers

protected theorem Canonical.perform {who b} (h : Canonical s) (hb : b.Keeps) : Canonical (Machine.perform who b s) :=
  .option (.finish (h.performed hb)) fun _ => .trapEnter h

protected theorem Canonical.attempt {who f} (h : Canonical s) (hf : f.Keeps) : Canonical (Machine.attempt who f s) := by
  delta Machine.attempt
  cases judge s who f with
  | wait => exact h
  | stall => exact h
  | trap => exact Canonical.trapEnter (s := setCtx who _ s) h
  | go =>
    cases f with
    | missing => exact h
    | failed => exact h
    | got b => exact h.perform (hf _ rfl)

protected theorem Canonical.issueOne {op field g src} (h : Canonical s) (ho : op.Keeps) : Canonical (Machine.issueOne op field g src s) :=
  .attempt h fun _ hb m hm o hop => by
    cases hb
    rw [List.mem_singleton.1 hm] at hop
    exact Option.some.inj hop ▸ ho

protected theorem Canonical.issueMove {g src d} (h : Canonical s) : Canonical (Machine.issueMove g src d s) :=
  .attempt h fun _ hb m hm o hop => by
    cases hb
    rw [List.mem_singleton.1 hm] at hop
    cases hop

protected theorem Leaves.takeTransfer {x target} (h : Canonical s) : Leaves (Machine.takeTransfer x target s) :=
  .ite .trap (.ok h)

protected theorem Canonical.selectField {x i v} (h : Canonical s) : Canonical (Machine.selectField x i v s) :=
  .ite (.ite h h) h

protected theorem Canonical.beginStalls {ops c} (h : Canonical s) : Canonical (Machine.beginStalls ops c s) :=
  .foldl h fun t k ht => by
    cases judge t (c.ctxId k) (fetchBundle ops t (c.ctxId k)) <;> exact ht

protected theorem Canonical.openCycle {c} (h : Canonical s) : Canonical (Machine.openCycle c s) :=
  .landPours (.ite_of_right (.ite_of_right (.ite (.tick h) h) fun ht => .tick ht) fun ht => .tick ht)

protected theorem Canonical.selected {k f} (h : Canonical s) : Canonical (Machine.selected k f s) := by
  cases f <;> exact h

theorem Fetched.Keeps.missing {l : Nat} : (Fetched.missing l).Keeps := fun _ h => nomatch h
theorem Fetched.Keeps.failed {l : Nat} : (Fetched.failed l).Keeps := fun _ h => nomatch h

theorem fetchAll_error {c : CoreId} {as : List Nat} {e : Fetched} (h : fetchAll s c as = .error e) : e.Keeps := by
  induction as generalizing e with
  | nil => cases h
  | cons a r ih =>
    rw [fetchAll] at h
    cases hs : fetchSyl s c a with
    | none =>
      rw [hs] at h
      exact Except.error.inj h ▸ .missing
    | some w =>
      rw [hs] at h
      cases hr : fetchAll s c r with
      | ok =>
        rw [hr] at h
        cases w with
        | none => exact Except.error.inj h ▸ .failed
        | some => cases h
      | error d =>
        rw [hr] at h
        cases d with
        | missing => exact Except.error.inj h ▸ .missing
        | failed =>
          cases w with
          | none => exact Except.error.inj h ▸ .failed
          | some => exact Except.error.inj h ▸ .failed
        | got =>
          cases w with
          | none => exact Except.error.inj h ▸ .failed
          | some => exact Except.error.inj h ▸ ih hr

theorem fetchBundle_keeps {ops : Nat → Option OpDef} {who : CtxId} (hops : ∀ f o, ops f = some o → o.Keeps) :
    (fetchBundle ops s who).Keeps := by
  have hop : ∀ d f o, opOf ops d f = some o → o.Keeps := fun d f o h => by
    cases d with
    | error => cases h
    | ok x =>
      cases x with
      | reg => cases h
      | trig => exact hops f o h
  refine of_option (P := Fetched.Keeps) .missing fun _ => of_option (P := Fetched.Keeps) .failed fun _ => of_ite (P := Fetched.Keeps) ?_
    (of_except (P := Fetched.Keeps) (fun _ he => fetchAll_error he) fun _ _ => ?_)
  · intro b hb m hm
    cases hb
    cases hm
  · intro b hb m hm o ho
    cases hb
    obtain ⟨x, -, rfl⟩ := List.mem_map.1 hm
    exact hop _ _ o ho

set_option smartUnfolding true in
protected theorem Canonical.coreCycle {ops c} (h : Canonical s) (hops : ∀ f o, ops f = some o → o.Keeps) :
    Canonical (Machine.coreCycle ops c s) :=
  .foldl (.noteCycle (.beginStalls (.openCycle h))) fun _ _ ht => .attempt (.selected ht) (fetchBundle_keeps hops)

end
end Sys2Proof.Machine
end

section
/-! SUPPORT. The accesses of an operation keep the canonical form, and every operation of the table does. -/

namespace Sys2Proof.Machine
section
/- Without it a match does not unfold to the recursor that the rules for matches speak of. -/
set_option smartUnfolding false
variable {s t : State}

protected theorem Canonical.enterGlz {x kind} (h : Canonical s) : Canonical (Machine.enterGlz x kind s) :=
  .ite h h

protected theorem Canonical.ctxRead {x bs} (h : Canonical s) : Canonical (Machine.ctxRead x bs s).2 := h

protected theorem Canonical.ctxReads {x : OpIn} {bss : List (List GByte)} (h : Canonical s) : Canonical (Machine.ctxReads x bss s).2 := by
  induction bss generalizing s with
  | nil => exact h
  | cons bs r ih => exact ih h.ctxRead

protected theorem Canonical.storeAt {x bs data} (h : Canonical s) : Canonical (Machine.storeAt x bs data s) :=
  .ctxStore h

protected theorem Canonical.pour {x off data} (h : Canonical s) : Canonical (Machine.pour x off data s) := by
  delta Machine.pour
  cases pourTargets x s with
  | nil => exact h
  | cons => exact .noteDurable h

protected theorem Canonical.globalStore {x bs data} (h : Canonical s) : Canonical (Machine.globalStore x bs data s) :=
  .list h fun _ _ => .ite (.pour h) (.storeAt h)

protected theorem Canonical.readRun {x t n} (h : Canonical s) : Canonical (Machine.readRun x t n s).2.2 := h

protected theorem Leaves.laneLoad {x as} (h : Canonical s) : Leaves (Machine.laneLoad x as s) :=
  .check fun _ => .ok (.ctxReads h)

protected theorem Leaves.convLoad {x n widen} (h : Canonical s) : Leaves (Machine.convLoad x n widen s) :=
  .check fun _ => .ok h

protected theorem Leaves.runStore {x ls n data} (h : Canonical s) : Leaves (Machine.runStore x ls n data s) :=
  .check fun _ => .ite .trap (.ok (.storeAt h))

protected theorem Leaves.laneStore {x as} (h : Canonical s) : Leaves (Machine.laneStore x as s) :=
  .check fun _ => .ite .trap (.ok (.foldl h fun _ _ ht => .storeAt ht))

/-! ## Families of operations -/

theorem scalarOp_keeps {unit lat f bad} : (scalarOp unit lat f bad).Keeps := fun _ _ h => .ok h

theorem laneOp_keeps {unit lat ty bad f} : (laneOp unit lat ty bad f).Keeps := fun _ _ h => .ite .trap (.ok h)

theorem maskOp_keeps {unit lat ty f} : (maskOp unit lat ty f).Keeps := fun _ _ h => .ok h

theorem widenPair_keeps {f} : (widenPair f).Keeps := fun _ _ h => .ok h

theorem redOp_keeps {idv f} : (redOp idv f).Keeps := fun _ _ h => .ok h

theorem jumpOp_keeps {target} : (jumpOp target).Keeps := fun _ _ h => .ite .trap (.takeTransfer h)

theorem branchOp_keeps {test} : (branchOp test).Keeps := fun _ _ h => .ite .trap (.ite (.takeTransfer h) (.ok h))

theorem localLoad_keeps {n signed} : (localLoad n signed).Keeps := fun _ _ h => .ite .trap (.check fun _ => .ok (.takeEntry (.ctxRead h)))

theorem localStore_keeps {n} : (localStore n).Keeps :=
  fun _ _ h => .ite .trap (.check fun _ => .ite .trap (.ite (.ok (.pour h)) (.ok (.storeAt h))))

theorem atomicOp_keeps {keeps usesB f} : (atomicOp keeps usesB f).Keeps :=
  fun _ _ h => .ite .trap (.check fun _ => .ok (.option h fun _ => .ite_of_right (.storeAt h) fun ht => ht))

theorem patOp_keeps {f} : (patOp f).Keeps := fun _ _ h => .ite .trap (.ok h)

theorem mexCommand_keeps {kind usesA bad ctl row} : (mexCommand kind usesA bad ctl row).Keeps := fun _ _ h => .ite .trap (.ite .trap (.ok h))

theorem glzCommand_keeps {kind} : (glzCommand kind).Keeps := fun _ _ h => .ite .trap (.ite .trap (.ok (.enterGlz h)))

theorem arriveOp_keeps {bytes} : (arriveOp bytes).Keeps :=
  fun _ _ h => .ite .trap (.ite .trap (.check fun _ => .ok (.synStatus (.countEvent (.barUpdate (.noteDurable h))))))

/-! ## The table: the rows of each unit in their order -/

variable {k : Nat}

theorem opsAlu0_keeps : Gives OpDef.Keeps (opsAlu0 k) := by
  iterate 28 refine .row (.some scalarOp_keeps) fun _ => ?_
  exact .none

theorem opsAlu1_keeps : Gives OpDef.Keeps (opsAlu1 k) := by
  iterate 28 refine .row (.some scalarOp_keeps) fun _ => ?_
  exact .none

theorem opsMul_keeps : Gives OpDef.Keeps (opsMul k) := by
  iterate 9 refine .row (.some scalarOp_keeps) fun _ => ?_
  exact .none

theorem opsBr_keeps : Gives OpDef.Keeps (opsBr k) := by
  iterate 2 refine .row (.some jumpOp_keeps) fun _ => ?_
  iterate 2 refine .row (.some branchOp_keeps) fun _ => ?_
  refine .row (.some jumpOp_keeps) fun _ => ?_
  refine .row (.some fun _ _ h => .takeTransfer h) fun _ => ?_
  refine .row (.some fun _ _ h => .ite .trap (.ok h)) fun _ => ?_
  refine .row (.some fun _ _ h => .ite .trap (.ite (.takeTransfer h) (.ok h))) fun _ => ?_
  refine .row (.some fun _ _ _ => .trap) fun _ => ?_
  refine .row (.some fun _ _ h => .ok (.retire h)) fun _ => ?_
  exact .none

theorem opsLsu_keeps : Gives OpDef.Keeps (opsLsu k) := by
  iterate 2 refine .row (.some fun _ _ h => .ite .trap (.ite .trap (.ok h))) fun _ => ?_
  iterate 7 refine .row (.some localLoad_keeps) fun _ => ?_
  iterate 4 refine .row (.some localStore_keeps) fun _ => ?_
  refine .row (.some fun _ _ h => .ite .trap (.ite .trap (.option (.ok (.ite h h)) fun _ => .ok h))) fun _ => ?_
  refine .row (.some fun _ _ h => .ite .trap (.ite .trap (.check fun _ => .ok (.takeEntry (.ctxRead h))))) fun _ => ?_
  refine .row (.some fun _ _ h => .ite .trap (.ite .trap (.check fun _ => .ite .trap (.ok (.globalStore h))))) fun _ => ?_
  iterate 5 refine .row (.some atomicOp_keeps) fun _ => ?_
  exact .none

theorem opsSys_keeps : Gives OpDef.Keeps (opsSys k) := by
  refine .row (.some fun _ _ h => .ite .trap (.ok h)) fun _ => ?_
  refine .row (.some fun _ _ h => .ite .trap (.ite .trap (.ite .trap (.ite (.ok h) (.ite (.ok (.ite h h)) (.ok h)))))) fun _ => ?_
  refine .row (.some fun _ _ h => .ok h) fun _ => ?_
  refine .row (.some fun _ _ h => .ite .trap (.ite .trap (.ok h))) fun _ => ?_
  refine .row (.some fun _ _ h => .ite .trap (.ite .trap (.ite .trap (.ok h)))) fun _ => ?_
  refine .row (.some fun _ _ h => .ite .trap (.ite .trap (.ok h))) fun _ => ?_
  refine .row (.some fun _ _ h => .ite .trap (.ok h)) fun _ => ?_
  iterate 3 refine .row (.some fun _ _ h => .ok h) fun _ => ?_
  iterate 2 refine .row (.some fun _ _ h => .ite .trap (.ok h)) fun _ => ?_
  refine .row (.some fun _ _ h => .ite .trap (.ite .trap (.ite .trap (.ite .trap (.ok (.takeEntry (.updCtx (.coreRead h)))))))) fun _ => ?_
  refine .row (.some fun _ _ h => .ite .trap (.ite .trap (.ite .trap (.ok h)))) fun _ => ?_
  iterate 2 refine .row (.some fun _ _ h => .ite .trap (.ite .trap (.ok h))) fun _ => ?_
  exact .none

theorem opsVls_keeps : Gives OpDef.Keeps (opsVls k) := by
  refine .row (.some fun _ _ h => .ite .trap (.check fun _ => .ok (.vecEntry (.readRun h)))) fun _ => ?_
  iterate 2 refine .row (.some fun _ _ h => .ite .trap (.laneLoad h)) fun _ => ?_
  refine .row (.some fun _ _ h => .ite .trap (.runStore h)) fun _ => ?_
  refine .row (.some fun _ _ h => .ite .trap (.laneStore h)) fun _ => ?_
  refine .row (.some fun _ _ h => .ite .trap (.runStore h)) fun _ => ?_
  refine .row (.some fun _ _ h => .ite .trap (.laneStore h)) fun _ => ?_
  refine .row (.some fun _ _ h => .ite .trap (.convLoad h)) fun _ => ?_
  refine .row (.some fun _ _ h => .ite .trap (.call (.runStore h) fun _ ht => .ok ht)) fun _ => ?_
  refine .row (.some fun _ _ h => .ite .trap (.ite .trap (.convLoad h))) fun _ => ?_
  iterate 2 refine .row (.some fun _ _ h => .ite .trap (.convLoad h)) fun _ => ?_
  refine .row (.some fun _ _ h => .ite .trap (.ite .trap (.check fun _ => .ok (.vecEntry (.readRun h))))) fun _ => ?_
  refine .row (.some fun _ _ h => .ite .trap (.ite .trap (.check fun _ => .ok (.vecEntry h)))) fun _ => ?_
  refine .row (.some fun _ _ h => .ite .trap (.ite .trap (.ite .trap (.ite .trap (.ite .trap (.ite .trap
    (.ok (.storeAt (.ite_thd h h))))))))) fun _ => ?_
  refine .row (.some fun _ _ h => .ite .trap (.check fun _ => .ok (.takeEntry (.ctxReads h)))) fun _ => ?_
  refine .row (.some fun _ _ h => .ite .trap (.check fun _ => .ite .trap (.ok (.foldl_snd h fun _ _ ht => .globalStore ht)))) fun _ => ?_
  refine .row (.some fun _ _ h => .ite .trap (.check fun _ => .ite .trap (.ok (.pour h)))) fun _ => ?_
  exact .none

theorem opsVal_keeps : Gives OpDef.Keeps (opsVal k) := by
  iterate 14 refine .row (.some laneOp_keeps) fun _ => ?_
  iterate 3 refine .row (.some maskOp_keeps) fun _ => ?_
  refine .row (.some fun _ _ h => .ok h) fun _ => ?_
  refine .row (.some laneOp_keeps) fun _ => ?_
  refine .row (.some fun _ _ h => .ok h) fun _ => ?_
  iterate 4 refine .row (.some maskOp_keeps) fun _ => ?_
  iterate 2 refine .row (.some laneOp_keeps) fun _ => ?_
  exact .none

theorem opsVfa_keeps : Gives OpDef.Keeps (opsVfa k) := by
  iterate 10 refine .row (.some laneOp_keeps) fun _ => ?_
  iterate 4 refine .row (.some maskOp_keeps) fun _ => ?_
  iterate 6 refine .row (.some laneOp_keeps) fun _ => ?_
  exact .none

theorem opsVfb_keeps : Gives OpDef.Keeps (opsVfb k) := by
  iterate 3 refine .row (.some laneOp_keeps) fun _ => ?_
  refine .row (.some widenPair_keeps) fun _ => ?_
  iterate 5 refine .row (.some laneOp_keeps) fun _ => ?_
  refine .row (.some widenPair_keeps) fun _ => ?_
  iterate 2 refine .row (.some fun _ _ h => .ok h) fun _ => ?_
  iterate 3 refine .row (.some laneOp_keeps) fun _ => ?_
  exact .none

theorem opsXfu_keeps : Gives OpDef.Keeps (opsXfu k) := by
  iterate 7 refine .row (.some laneOp_keeps) fun _ => ?_
  exact .none

theorem opsVrd_keeps : Gives OpDef.Keeps (opsVrd k) := by
  iterate 3 refine .row (.some redOp_keeps) fun _ => ?_
  iterate 5 refine .row (.some fun _ _ h => .ok h) fun _ => ?_
  iterate 2 refine .row (.some fun _ _ h => .ite .trap (.ok h)) fun _ => ?_
  iterate 5 refine .row (.some fun _ _ h => .ok h) fun _ => ?_
  exact .none

theorem opsTrn_keeps : Gives OpDef.Keeps (opsTrn k) := by
  refine .row (.some fun _ _ h => .ite .trap (.ite .trap (.ite .trap (.ite .trap (.ok (.takeEntry (.ctxRead h))))))) fun _ => ?_
  refine .row (.some fun _ _ h => .ite .trap (.ok h)) fun _ => ?_
  iterate 2 refine .row (.some patOp_keeps) fun _ => ?_
  refine .row (.some fun _ _ h => .ok h) fun _ => ?_
  refine .row (.some fun _ _ h => .ite .trap (.ok h)) fun _ => ?_
  exact .none

theorem opsMex_keeps : Gives OpDef.Keeps (opsMex k) := by
  refine .row (.some fun _ _ h => .ite .trap (.ite .trap (.ok (.selectField h)))) fun _ => ?_
  refine .row (.some fun _ _ h => .ite .trap (.ite .trap (.ok h))) fun _ => ?_
  iterate 4 refine .row (.some mexCommand_keeps) fun _ => ?_
  iterate 2 refine .row (.some fun _ _ h => .ite .trap (.ite .trap (.ok h))) fun _ => ?_
  exact .none

theorem opsCpy_keeps : Gives OpDef.Keeps (opsCpy k) := by
  iterate 4 refine .row (.some fun _ _ h => .ite .trap (.ite .trap (.ok h))) fun _ => ?_
  refine .row (.some fun _ _ h => .ite .trap (.ite .trap (.ok (.selectField h)))) fun _ => ?_
  exact .none

theorem opsGlz_keeps : Gives OpDef.Keeps (opsGlz k) := by
  refine .row (.some fun _ _ h => .ite .trap (.ite .trap (.ok h))) fun _ => ?_
  iterate 3 refine .row (.some glzCommand_keeps) fun _ => ?_
  refine .row (.some fun _ _ h => .ite .trap (.ite .trap (.ok h))) fun _ => ?_
  refine .row (.some fun _ _ h => .ite .trap (.ite .trap (.option (.ok h) fun _ => .ok h))) fun _ => ?_
  exact .none

theorem opsRtc_keeps : Gives OpDef.Keeps (opsRtc k) := by
  iterate 3 refine .row (.some fun _ _ h => .ite .trap (.ite .trap (.ok h))) fun _ => ?_
  refine .row (.some fun _ _ h => .ite .trap (.ite .trap (.option .trap fun _ => .ite .trap (.ok h)))) fun _ => ?_
  refine .row (.some fun _ _ h => .ite .trap (.ite .trap (.ok h))) fun _ => ?_
  exact .none

theorem opsSyn_keeps : Gives OpDef.Keeps (opsSyn k) := by
  refine .row (.some fun _ _ h => .ite .trap (.ite .trap (.check fun _ => .ok (.synStatus (.coreWrite (.noteDurable h)))))) fun _ => ?_
  iterate 2 refine .row (.some arriveOp_keeps) fun _ => ?_
  refine .row (.some fun _ _ h => .ite .trap (.check fun _ => .ok (.takeEntry (.observeFlips (.ctxRead h))))) fun _ => ?_
  refine .row (.some fun _ _ h => .ite .trap (.ite .trap (.check fun _ => .ok (.ite h h)))) fun _ => ?_
  refine .row (.some fun _ _ h => .ite .trap (.ite .trap (.ok h))) fun _ => ?_
  refine .row (.some fun _ _ h => .ite .trap (.ok h)) fun _ => ?_
  exact .none

theorem opOfField_keeps {f : Nat} : Gives OpDef.Keeps (opOfField f) := by
  refine .row opsAlu0_keeps fun _ => ?_
  refine .row opsAlu1_keeps fun _ => ?_
  refine .row opsMul_keeps fun _ => ?_
  refine .row opsBr_keeps fun _ => ?_
  refine .row opsLsu_keeps fun _ => ?_
  refine .row opsSys_keeps fun _ => ?_
  refine .row opsVls_keeps fun _ => ?_
  refine .row opsVal_keeps fun _ => ?_
  refine .row opsVfa_keeps fun _ => ?_
  refine .row opsVfb_keeps fun _ => ?_
  refine .row opsXfu_keeps fun _ => ?_
  refine .row opsVrd_keeps fun _ => ?_
  refine .row opsTrn_keeps fun _ => ?_
  refine .row opsMex_keeps fun _ => ?_
  refine .row opsCpy_keeps fun _ => ?_
  refine .row opsGlz_keeps fun _ => ?_
  refine .row opsRtc_keeps fun _ => ?_
  refine .row opsSyn_keeps fun _ => ?_
  exact .none

end
end Sys2Proof.Machine
end

section
/-! SUPPORT. The events of the contexts and of the engines keep the canonical form. -/

namespace Sys2Proof.Machine
section
/- Without it a match does not unfold to the recursor that the rules for matches speak of. -/
set_option smartUnfolding false
variable {s t : State}

protected theorem Canonical.endWalk {who l va} (h : Canonical s) : Canonical (Machine.endWalk who l va s) := by
  delta Machine.endWalk
  cases walk _ _ _ _ _ <;> exact h

protected theorem Canonical.answerCall {k} (h : Canonical s) : Canonical (Machine.answerCall k s) :=
  .completeToken h

protected theorem Canonical.lineRecord {c line} (h : Canonical s) : Canonical (Machine.lineRecord c line s) :=
  .ite h (.plainRecord h)

protected theorem Fires.fireLineFetch {c line} (h : Canonical s) : Fires (Machine.fireLineFetch c line s) :=
  .ite .waits (.fires (.ite (.lineRecord h) h))

protected theorem Fires.fireLatchLanding {c} (h : Canonical s) : Fires (Machine.fireLatchLanding c s) :=
  .ite .waits (.fires h)

protected theorem Fires.fireTimedDataArrival {c k} (h : Canonical s) : Fires (Machine.fireTimedDataArrival c k s) :=
  .option .waits fun _ => .ite .waits (.fires h)

protected theorem Fires.fireTimedLanding {c} (h : Canonical s) : Fires (Machine.fireTimedLanding c s) := by
  refine .ite .waits ?_
  cases verdictOf c s with
  | go => exact .ite .waits (.fires h)
  | trap => exact .ite (.fires (.trapEnter h)) .waits
  | wait => exact .waits
  | stall => exact .waits

protected theorem Fires.fireSketchReplayComplete {c} (h : Canonical s) : Fires (Machine.fireSketchReplayComplete c s) := by
  delta Machine.fireSketchReplayComplete
  dsimp only
  cases (getCtx s c).run with
  | replay =>
    cases fetchBundle opOfField s c with
    | got => exact .ite .waits (.fires h)
    | _ => exact .waits
  | _ => exact .waits

protected theorem Fires.fireSleepTimeout {c} (h : Canonical s) : Fires (Machine.fireSleepTimeout c s) := by
  delta Machine.fireSleepTimeout
  cases (getCtx s c).nap with
  | till => exact .ite (.fires h) .waits
  | _ => exact .waits

protected theorem Fires.firePourLanding (h : Canonical s) : Fires (Machine.firePourLanding s) :=
  .ite (.fires (.tick h)) .waits

protected theorem Fires.fireBwaitWake {c} (h : Canonical s) : Fires (Machine.fireBwaitWake c s) := by
  delta Machine.fireBwaitWake
  cases (getCtx s c).run with
  | bwait w p n k wake =>
    refine .ite .waits ?_
    cases wake with
    | waiting => exact .waits
    | byStore => exact .fires h
    | byFlip => exact .fires h
  | _ => exact .waits

protected theorem Fires.fireFenceComplete {c} (h : Canonical s) : Fires (Machine.fireFenceComplete c s) := by
  delta Machine.fireFenceComplete
  cases (getCtx s c).run with
  | fence => exact .ite (.fires h) .waits
  | _ => exact .waits

protected theorem Fires.firePinExpiry {c} (h : Canonical s) : Fires (Machine.firePinExpiry c s) :=
  .ite (.fires h) .waits

protected theorem Fires.firePageWalkComplete {c k} (h : Canonical s) : Fires (Machine.firePageWalkComplete c k s) :=
  .option .waits fun l => by
    dsimp only
    cases l.data with
    | walk => exact .ite .waits (.fires (.endWalk h))
    | _ => exact .waits

protected theorem Fires.fireSyscReply {die} (h : Canonical s) : Fires (Machine.fireSyscReply die s) :=
  .list .waits fun _ _ => .fires (.answerCall h)

protected theorem Canonical.mexKind {k : MexKind} {load stream drain clear : State} (hload : Canonical load) (hstream : Canonical stream)
    (hdrain : Canonical drain) (hclear : Canonical clear) : Canonical (MexKind.rec (motive := fun _ => State) load stream drain clear k) := by
  cases k with
  | mldw => exact hload
  | mstr => exact hstream
  | mdrn => exact hdrain
  | mzero => exact hclear

protected theorem Canonical.startMex {e c} (h : Canonical s) : Canonical (Machine.startMex e c s) :=
  .option (.mexKind (.option (.except (fun _ => .completeMex h) fun _ => h) fun _ => .completeMex h)
    (.option h fun _ => .completeMex h) (.option h fun _ => .completeMex h) h) fun _ => .completeMex h

protected theorem Canonical.mexRead {e c a n} (h : Canonical s) : Canonical (Machine.mexRead e c a n s).2.2 :=
  .engineRead h

protected theorem Canonical.writeRow {e c row ws bad} (h : Canonical s) : Canonical (Machine.writeRow e c row ws bad s) :=
  .markAll (.engineWrite h)

protected theorem Canonical.endRun {e r} (h : Canonical s) : Canonical (Machine.endRun e r s) :=
  .completeMex h

set_option smartUnfolding true in
protected theorem Canonical.promoteVector {e r} (h : Canonical s) : Canonical (Machine.promoteVector e r s) :=
  have hd {a n} : Canonical (Machine.mexRead e r.cmd a n s).2.2 := .mexRead h
  .writeRow (.ite_thd (.ite_thd (.mexRead hd) hd) (.mexRead (.ite_thd (.mexRead hd) hd)))

protected theorem Canonical.drainInput {e c a} (h : Canonical s) : Canonical (Machine.drainInput e c a s).2.2 := by
  refine .ite_thd h ?_
  dsimp only
  exact .mexRead h

protected theorem Canonical.drainOne {e r} (h : Canonical s) : Canonical (Machine.drainOne e r s) :=
  have ht : Canonical _ := .drainInput (.drainInput h)
  .option ht fun _ => .ite_of_right (.markAll (.engineStore ht)) fun hu => .writeRow hu

protected theorem Canonical.zeroRows {e c} (h : Canonical s) : Canonical (Machine.zeroRows e c s) :=
  .foldl h fun _ _ ht => .setMex (.writeRow ht)

protected theorem Fires.fireMexCommandStart {e} (h : Canonical s) : Fires (Machine.fireMexCommandStart e s) :=
  .list .waits fun _ _ => .ite (.fires (.startMex h)) .waits

protected theorem Fires.fireMldwComplete {e} (h : Canonical s) : Fires (Machine.fireMldwComplete e s) :=
  .option .waits fun _ => .fires (.endRun (.ite (.plainRecord h) h))

protected theorem Fires.fireStreamPromotion {e} (h : Canonical s) : Fires (Machine.fireStreamPromotion e s) :=
  .option .waits fun _ => .fires (.promoteVector h)

protected theorem Fires.fireMstrComplete {e} (h : Canonical s) : Fires (Machine.fireMstrComplete e s) :=
  .option .waits fun _ => .fires (.endRun h)

protected theorem Fires.fireMzeroComplete {e} (h : Canonical s) : Fires (Machine.fireMzeroComplete e s) :=
  .option .waits fun _ => .fires (.endRun (.zeroRows h))

protected theorem Fires.fireDrainRow {e} (h : Canonical s) : Fires (Machine.fireDrainRow e s) :=
  .option .waits fun _ => .fires (.drainOne h)

protected theorem Fires.fireMdrnComplete {e} (h : Canonical s) : Fires (Machine.fireMdrnComplete e s) :=
  .option .waits fun _ => .fires (.endRun h)

protected theorem Canonical.startCpy {e c} (h : Canonical s) : Canonical (Machine.startCpy e c s) :=
  .except (fun _ => .ite (.completeCpy h) (.completeCpy h)) fun _ => h

protected theorem Returns.cpyRead {src bs} (h : Canonical s) : Returns (fun x => Canonical x.2.2) (Machine.cpyRead src bs s) :=
  .ite .error (.ok h)

protected theorem Returns.expandAt {c w} (h : Canonical s) : Returns (fun x => Canonical x.2.2.2) (Machine.expandAt c w s) :=
  .ite (.ok h) (.check fun _ => .call (.cpyRead h) fun _ ht => .ite (.ok ht) (.ite (.ok ht) (.ite (.ok ht)
    (.check fun _ => .call (.cpyRead ht) fun _ hu => .ite (.ok hu) (.option (.ok hu) fun _ => .ok hu)))))

protected theorem Canonical.fetchOnce {c base j} (h : Canonical s) : Returns (fun x => Canonical x.2.2.2) (Machine.fetchOnce c base j s) :=
  .ite (.expandAt h) (.check fun _ => .call (.cpyRead h) fun _ ht => .ok ht)

protected theorem Canonical.recordFetch {c replica bs} (h : Canonical s) : Canonical (Machine.recordFetch c replica bs s) :=
  .option h fun _ => .appendFault h

protected theorem Canonical.fetchChunk {e r transient} (h : Canonical s) : Canonical (Machine.fetchChunk e r transient s) :=
  .call h.fetchOnce (fun _ => h) fun _ ht => .ite (.ite (.option ht.recordFetch fun _ => ht.recordFetch) (.option ht fun _ => ht))
    (.ite ht (.call ht.fetchOnce (fun _ => ht) fun _ hu =>
      .ite (.option (.ite hu.recordFetch hu) fun _ => .ite hu.recordFetch hu) hu))

protected theorem Canonical.addElement {src fmt b d} (h : Canonical s) : Canonical (Machine.addElement src fmt b d s) :=
  .ite_of_right (.engineStore h) fun ht => ht

protected theorem Canonical.writeChunk {c bs d} (h : Canonical s) : Canonical (Machine.writeChunk c bs d s) :=
  .ite (.foldl h fun _ _ ht => .option ht fun _ => .addElement ht) (.engineStore h)

protected theorem Canonical.askBuckets {part id who stays xs} (h : Canonical s) : Canonical (Machine.askBuckets part id who stays xs s).2 :=
  .ite_of_left (List.foldlRecOn (motive := fun a : List Nat × Bool × State => Canonical a.2.2) _ _ h fun _ ha _ _ => ha.askBucket)
    fun ht => ht.foldl fun _ _ hu => hu

protected theorem Canonical.settleChunk {e r n} (h : Canonical s) : Canonical (Machine.settleChunk e r n s) :=
  .pay h

protected theorem Canonical.performChunk {e r ch bs} (h : Canonical s) : Canonical (Machine.performChunk e r ch bs s) :=
  .option (.ite h (.settleChunk (.writeChunk h))) fun _ => .ite (.settleChunk (.setDurable h)) (.setDurable h)

protected theorem Fires.writeOut {e r ch} (h : Canonical s) : Fires (Machine.writeOut e r ch s) :=
  .except (fun _ => .fires h) fun _ => .ite (.fires (.performChunk h)) (.ite (.fires h)
    (.option (.ite .waits (.fires (.ite_of_right (.askBuckets h) fun ht => .performChunk ht))) fun _ => .fires h))

protected theorem Canonical.finishCpy {e r failed cancelled} (h : Canonical s) : Canonical (Machine.finishCpy e r failed cancelled s) :=
  .completeCpy h

protected theorem Fires.fireCopyStart {e} (h : Canonical s) : Fires (Machine.fireCopyStart e s) :=
  .option .waits fun _ => .ite (.fires (.startCpy h)) .waits

protected theorem Fires.fireChunkFetch {e id transient} (h : Canonical s) : Fires (Machine.fireChunkFetch e id transient s) :=
  .option .waits fun _ => .ite (.fires (.fetchChunk h)) .waits

protected theorem Fires.fireChunkWrite {e id} (h : Canonical s) : Fires (Machine.fireChunkWrite e id s) :=
  .option .waits fun _ => .option .waits fun _ => .ite (.writeOut h) .waits

protected theorem Fires.fireCopyComplete {e id} (h : Canonical s) : Fires (Machine.fireCopyComplete e id s) :=
  .option .waits fun _ => .ite (.fires (.finishCpy h)) (.ite .waits (.ite (.fires (.finishCpy h)) (.ite (.fires (.finishCpy h)) .waits)))

protected theorem Canonical.payRest {c bs fl} (h : Canonical s) : Canonical (Machine.payRest c bs fl s) :=
  .foldl h fun _ _ ht => .payBlock ht

protected theorem Canonical.registerColl {c} (h : Canonical s) : Canonical (Machine.registerColl c s) :=
  .option h fun _ => h

protected theorem Canonical.startGlz {e c} (h : Canonical s) : Canonical (Machine.startGlz e c s) :=
  .except (fun _ => .keepCounters (.completeGlz (.ite (.payRest h) h))) fun _ => .registerColl h

protected theorem Canonical.endGlz {e r} (h : Canonical s) : Canonical (Machine.endGlz e r s) :=
  .keepCounters (.completeGlz h)

protected theorem Canonical.disagree {err x} (h : Canonical s) : Canonical (Machine.disagree err s x) :=
  .endGlz (.payRest h)

protected theorem Canonical.matchColl {i k} (h : Canonical s) : Canonical (Machine.matchColl i k s) :=
  .list h fun _ _ => h

protected theorem Canonical.encodeAll {c} (h : Canonical s) : Canonical (Machine.encodeAll c s).2 :=
  .foldl_snd h fun _ _ ht => .engineRead ht

protected theorem Canonical.sendRound {r k} (h : Canonical s) : Canonical (Machine.sendRound r k s) :=
  .foldl (.option_snd h.encodeAll fun _ => h) fun _ _ ht => .setDurable ht

protected theorem Canonical.askPorts {r k q} {ps : List Nat} (h : Canonical s) : Canonical (Machine.askPorts r k q ps s).2 := by
  induction ps generalizing s with
  | nil => exact h
  | cons p ps ih => exact .ite_snd (.ite_snd (ih h.askBucket) (ih h.askBucket)) h.askBucket

protected theorem Canonical.writeBlock {c k b blk} (h : Canonical s) : Canonical (Machine.writeBlock c k b blk s) :=
  .ite_of_right (.engineStore h) fun ht => .markAll ht

protected theorem Canonical.changeBlock {c k b blk owes fl} (h : Canonical s) : Canonical (Machine.changeBlock c k b blk owes fl s) :=
  .ite_of_right (.writeCounter (.option h fun _ => .ite (.writeBlock h) h)) fun ht => .payBlock ht

protected theorem Canonical.flagBlocks {r k sel flag fl} (h : Canonical s) : Canonical (Machine.flagBlocks r k sel flag fl s).2 :=
  .foldl_snd h fun _ _ ht => .option_snd ht fun _ => .ite_snd (.changeBlock ht) ht

protected theorem Canonical.receivePlane {r k b con x} (h : Canonical s) : Canonical (Machine.receivePlane r k b con x s) :=
  .ite (.changeBlock h) h

protected theorem Fires.fireGlazeStart {e} (h : Canonical s) : Fires (Machine.fireGlazeStart e s) :=
  .option (.option .waits fun _ => .ite (.fires (.startGlz h)) .waits) fun _ => .ite (.fires h) .waits

protected theorem Fires.fireGlazeMatch {k} (h : Canonical s) : Fires (Machine.fireGlazeMatch k s) :=
  .option .waits fun _ =>
    have hs {p : Prop} [Decidable p] : Canonical (if p then { s with free := s.free + 1 } else s) := .ite h h
    .ite .waits (.fires (.ite (.foldl hs fun _ _ ht => .disagree ht) (.ite (.foldl hs fun _ _ ht => .disagree ht) (.matchColl hs))))

protected theorem Fires.fireGlazeTimeout {e id} (h : Canonical s) : Fires (Machine.fireGlazeTimeout e id s) :=
  .option .waits fun _ => .ite (.fires (.abortColl h)) .waits

protected theorem Fires.fireGlazeRoundSend {e id} (h : Canonical s) : Fires (Machine.fireGlazeRoundSend e id s) :=
  .option .waits fun _ => .option .waits fun _ =>
    .ite .waits (.ite .waits (.fires (.ite_of_right (.askPorts h) fun ht => .sendRound ht)))

protected theorem Fires.fireGlazePlaneReceive {e id blk con} (h : Canonical s) : Fires (Machine.fireGlazePlaneReceive e id blk con s) :=
  .option .waits fun _ => .of_some .waits fun _ => .of_some .waits fun _ =>
    .ite (.fires (.option (.receivePlane h) fun _ => .abortColl h)) .waits

protected theorem Fires.fireGlazeCancelAck {e id} (h : Canonical s) : Fires (Machine.fireGlazeCancelAck e id s) :=
  .option .waits fun _ => .option .waits fun _ => .ite .waits (.fires (.mapGlzRuns (.updGlz (.flagBlocks h))))

protected theorem Fires.fireGlazeAbort {e id} (h : Canonical s) : Fires (Machine.fireGlazeAbort e id s) :=
  .option .waits fun _ => .ite (.fires (.endGlz (.flagBlocks (.abortColl h)))) .waits

protected theorem Fires.fireGlazeComplete {e id} (h : Canonical s) : Fires (Machine.fireGlazeComplete e id s) :=
  .option .waits fun _ => .option .waits fun _ => .ite (.fires (.endGlz h)) .waits

protected theorem Canonical.startRtc {e c} (h : Canonical s) : Canonical (Machine.startRtc e c s) :=
  .except (fun _ => .completeRtc h) fun _ => h

protected theorem Canonical.captureRow {e r} (h : Canonical s) : Canonical (Machine.captureRow e r s) :=
  .rtcLook h

protected theorem Canonical.placeRow {row target took src} (h : Canonical s) : Canonical (Machine.placeRow row target took src s) := by
  have ht : Canonical { addWear target s with fresco := Memory.sets (addWear target s).fresco (64 * row) src } := ⟨h.1, Memory.sets_wf _ _ h.2⟩
  delta Machine.placeRow
  cases target with
  | own => exact ht
  | spare =>
    cases took with
    | false => exact ht
    | true => exact .ite ht ht

protected theorem Canonical.commitRow {e r u c} (h : Canonical s) : Canonical (Machine.commitRow e r u c s) :=
  .pay (.setDurable (.placeRow h))

protected theorem Canonical.failIter {e r u c} (h : Canonical s) : Canonical (Machine.failIter e r u c s) := by
  refine .ite h (.ite h ?_)
  cases freeSpare _ _ <;> exact h

protected theorem Canonical.finishRtc {e r} (h : Canonical s) : Canonical (Machine.finishRtc e r s) :=
  .completeRtc h

protected theorem Fires.fireRetouchCommandStart {e} (h : Canonical s) : Fires (Machine.fireRetouchCommandStart e s) := by
  delta Machine.fireRetouchCommandStart
  dsimp only
  cases (getRtc s e).run with
  | none => exact .of_some .waits fun _ => .ite (.fires (.startRtc h)) .waits
  | some => exact .waits

protected theorem Fires.fireRetouchRowStart {e} (h : Canonical s) : Fires (Machine.fireRetouchRowStart e s) :=
  .option .waits fun _ => .ite (.fires (.captureRow h)) .waits

protected theorem Fires.fireWriteAndCheckLoop {e verified} (h : Canonical s) : Fires (Machine.fireWriteAndCheckLoop e verified s) :=
  .option .waits fun _ => .option .waits fun _ => .ite (.ite (.fires (.commitRow h)) .waits) (.ite (.fires (.failIter h)) .waits)

protected theorem Fires.fireTwrtComplete {e} (h : Canonical s) : Fires (Machine.fireTwrtComplete e s) :=
  .option .waits fun _ => .ite (.fires (.finishRtc h)) .waits

end
end Sys2Proof.Machine
end

section
/-! SUPPORT. The events of the nodes keep the canonical form. -/

namespace Sys2Proof.Machine
section
/- Without it a match does not unfold to the recursor that the rules for matches speak of. -/
set_option smartUnfolding false
variable {s t : State}

protected theorem Canonical.loadText {im gs c i} (h : Canonical s) : Canonical (Machine.loadText im gs c i s) :=
  .ite h ⟨Memory.foldl_wf (Memory.clear_wf _ _ h.1) fun _ _ hm => Memory.sets_wf _ _ hm, h.2⟩

protected theorem Canonical.writeRecords {s0 d v} (h : Canonical s) : Canonical (Machine.writeRecords s0 d v s) :=
  ⟨Memory.foldl_wf h.1 fun _ _ hm => Memory.foldl_wf hm fun _ _ hm => Memory.sets_wf _ _ hm, h.2⟩

protected theorem Canonical.moveBytes {f} (h : Canonical s) : Canonical (Machine.moveBytes f s) :=
  ⟨Memory.foldl_wf (Memory.filter_wf _ h.1) fun _ _ hm => Memory.set_wf _ _ hm, h.2⟩

protected theorem Canonical.wipeLocal {keepSpad cs} (h : Canonical s) : Canonical (Machine.wipeLocal keepSpad cs s) :=
  ⟨Memory.filter_wf _ h.1, h.2⟩

theorem putBit_wf {v base off} {m : List Host.Cell} (h : Memory.wf m = true) : Memory.wf (putBit v base off m) = true :=
  Memory.set_wf _ _ h

protected theorem Canonical.lift {acc c base} (h : Canonical s) : Canonical (Machine.lift acc c base s) := by
  obtain ⟨hm, hf⟩ := Canonical.moveBytes (f := fun a => if inLocal s acc c a then base + imageOff a else a)
    (s := { s with marks := s.marks.filter fun x => !inLocal s acc c x.1 }) h
  exact ⟨Memory.foldl_wf hm fun _ _ hm => putBit_wf hm, hf⟩

protected theorem Canonical.lower {base c} (h : Canonical s) : Canonical (Machine.lower base c s) :=
  .foldl (.eraseRange (.moveBytes h)) fun _ _ ht => ht

protected theorem Canonical.setSaved {n v} (h : Canonical s) : Canonical (Machine.setSaved n v s) :=
  .option h fun _ => h

protected theorem Canonical.swapLaid {n} (h : Canonical s) : Canonical (Machine.swapLaid n s) :=
  .option h fun _ => h

protected theorem Canonical.displace {c} (h : Canonical s) : Canonical (Machine.displace c s) :=
  .option h fun _ => .option h fun _ => .option h fun _ => .lift h

protected theorem Canonical.reclaim {n v} (h : Canonical s) : Canonical (Machine.reclaim n v s) :=
  .foldl h fun _ _ ht => .ite (.displace ht) ht

protected theorem Canonical.keepImage {n cs} (h : Canonical s) : Canonical (Machine.keepImage n cs s) :=
  .foldl h fun _ _ ht => ht

protected theorem Canonical.sealImage {n i} (h : Canonical s) : Canonical (Machine.sealImage n i s) :=
  .option h fun _ => .option h fun _ => ⟨Memory.clear_wf _ _ h.1, h.2⟩

protected theorem Fires.openImage {n i} (h : Canonical s) : Fires (Machine.openImage n i s) :=
  .option .waits fun _ => .option .waits fun _ => .option (.fires h) fun _ => .option .waits fun _ => .fires ⟨Memory.sets_wf _ _ h.1, h.2⟩

protected theorem Canonical.moveImage {n i slot} (h : Canonical s) : Canonical (Machine.moveImage n i slot s) :=
  .option h fun _ => .sealImage (.setSaved (.moveBytes (.ite (.displace h) h)))

protected theorem Canonical.moveOut {n i laid} (h : Canonical s) : Canonical (Machine.moveOut n i laid s) :=
  .ite (.swapLaid (.moveImage (.swapLaid h))) (.moveImage h)

protected theorem Canonical.takeSlot {c} (h : Canonical s) : Canonical (Machine.takeSlot c s).2 :=
  .option_snd (.option_snd h fun _ => .moveOut h) fun _ => h

protected theorem Canonical.takeSlots {n cs} (h : Canonical s) : Canonical (Machine.takeSlots n cs s) :=
  .foldl h fun _ _ ht => .option (.takeSlot ht) fun _ => .setSaved (.eraseRange (.takeSlot ht))

protected theorem Canonical.updateOutput {d error} (h : Canonical s) : Canonical (Machine.updateOutput d error s) :=
  .ite h (.option (.appendFault h) fun _ => .barUpdate h)

protected theorem Canonical.closeWindow {part cs} (h : Canonical s) : Canonical (Machine.closeWindow part cs s) :=
  .ite h h

protected theorem Canonical.freeClusters {n held} (h : Canonical s) : Canonical (Machine.freeClusters n held s) :=
  .option h fun _ => .foldl (.clearCores (.departNode (.closeWindow h))) fun _ _ ht => ht

protected theorem Canonical.dropReservation {n} (h : Canonical s) : Canonical (Machine.dropReservation n s) :=
  .option h fun _ => .option_of_none (.setNode (.option h fun _ => .dropImages h)) fun _ ht => .ite_of_right ht fun hu => .dropImages hu

protected theorem Canonical.withdrawHandoff {d} (h : Canonical s) : Canonical (Machine.withdrawHandoff d s) :=
  .option h fun _ => .option h fun _ => .ite (.dropReservation h) h

protected theorem Canonical.handOver {d m} (h : Canonical s) : Canonical (Machine.handOver d m s) :=
  .option (.dropReservation h) fun _ => .dropReservation h

protected theorem Canonical.failNode {n reason} (h : Canonical s) : Canonical (Machine.failNode n reason s) :=
  .option h fun _ => .updateOutput (.setState (.withdrawHandoff (.dropReservation
    (.option_of_none (.freeClusters h) fun _ ht => .dropImages ht))))

protected theorem Canonical.armNode {n d expected ok} (h : Canonical s) : Canonical (Machine.armNode n d expected ok s) :=
  .ite (.setState h) (.failNode h)

protected theorem Canonical.recheckInputs {part} (h : Canonical s) : Canonical (Machine.recheckInputs part s) :=
  .foldl h fun _ _ ht => .option ht fun _ => .ite (.failNode ht) ht

protected theorem Canonical.preemptNode {n} (h : Canonical s) : Canonical (Machine.preemptNode n s) :=
  .option h fun _ => .ite h (.ite (.setState (.freeClusters h)) h)

protected theorem Canonical.layImage {m d cs} (h : Canonical s) : Canonical (Machine.layImage m d cs s) :=
  .option_of_none (.foldl (.keepImage (.takeSlots h)) fun _ _ ht => ht) fun _ ht => .option ht fun _ => .writeRecords ht

protected theorem Canonical.saveReserved {m} (h : Canonical s) : Canonical (Machine.saveReserved m s) :=
  .option h fun _ => .ite (.dropReservation h) (.ite (.layImage h) (.option_of_none (.swapLaid h) fun _ ht =>
    .swapLaid (.option_of_none (.layImage ht) fun _ hu => .reclaim hu)))

protected theorem Canonical.placeNode {n d cs handoff} (h : Canonical s) : Canonical (Machine.placeNode n d cs handoff s) :=
  .setState (.foldl (.foldl (.foldl h fun _ _ ht => .ite ht (.displace ht)) fun _ _ ht => ht) fun _ _ ht => .ite ht ht)

set_option smartUnfolding true in
protected theorem Canonical.startCluster {n d im gs tbl table x} (h : Canonical s) :
    Canonical (Machine.startCluster n d im gs tbl table s x) := by
  refine .foldl (.foldl (.loadText (.ite h ?_)) fun _ _ ht => ht) fun _ _ ht => ht
  exact .of_wf (Memory.foldl_wf h.1 fun _ _ hm => Memory.sets_wf _ _ hm) h.2

protected theorem Fires.openImages {n} {l : List Nat} (h : Canonical s) : Fires (l.foldl (fun a i => a.bind (Machine.openImage n i)) (some s)) :=
  List.foldlRecOn l _ (.fires h) fun _ ha _ _ => ha.bind fun _ ht => .openImage ht

protected theorem Returns.openSaved {n d} (h : Canonical s) : Returns Canonical (Machine.openSaved n d s) :=
  .option (.ok h) fun _ => .given (.openImages h) .error fun _ ht => .ite (.ok ht) .error

protected theorem Canonical.takeBack {d} (h : Canonical s) : Canonical (Machine.takeBack d s) :=
  .option h fun _ => .foldl h fun _ _ ht => .lower ht

protected theorem Canonical.startNode {n d} (h : Canonical s) : Canonical (Machine.startNode n d s) :=
  .except (fun _ => .failNode h) fun _ => .call (.openSaved (.option h fun _ => .reclaim h)) (fun _ => .killImage h) fun _ ht =>
    .setState (.foldl (.takeBack (.wipeLocal (.clearCores ht))) fun _ _ hu => .startCluster hu)

protected theorem Canonical.commitNode {n d} (h : Canonical s) : Canonical (Machine.commitNode n d s) :=
  have ht : Canonical _ := .updateOutput (.settleNode (.releaseOverlays (.setState h)))
  .armNode (.setState (.option (.freeClusters ht) fun _ => .freeClusters (.handOver ht)))

protected theorem Canonical.releaseKilled {n d} (h : Canonical s) : Canonical (Machine.releaseKilled n d s) :=
  .option (.setState (.freeClusters h)) fun _ => .failNode h

protected theorem Canonical.takeCommands {n} (h : Canonical s) : Canonical (Machine.takeCommands n s).2 :=
  .foldl h fun _ _ ht => ht

protected theorem Canonical.swapOut {n d v} (h : Canonical s) : Canonical (Machine.swapOut n d v s) :=
  .setState (.keepImage (.freeClusters (.option_of_none (.takeSlots (.setSaved h)) fun _ ht => .writeRecords ht)))

protected theorem Canonical.drainCluster {area c} (h : Canonical s) : Canonical (Machine.drainCluster area c s) :=
  .ite_of_left h.displace.wipeLocal fun ht => ⟨Memory.filter_wf _ ht.1, ht.2⟩

protected theorem Canonical.coverBits {base off n} (h : Canonical s) : Canonical (Machine.coverBits base off n s) :=
  ⟨Memory.foldl_wf h.1 fun _ _ hm => putBit_wf hm, h.2⟩

protected theorem Canonical.deliver {who bytes bad} (h : Canonical s) : Canonical (Machine.deliver who bytes bad s) := by
  cases who <;> exact h

protected theorem Canonical.savedWrite {n v i off data} (h : Canonical s) : Canonical (Machine.savedWrite n v i off data s) :=
  .ite_of_right (.coreWrite h) fun ht => .coverBits ht

protected theorem Canonical.savedAtomic {n v i off op a b} (h : Canonical s) : Canonical (Machine.savedAtomic n v i off op a b s) :=
  .option h fun _ => .ite_of_right (.savedWrite h) fun ht => .ite (.of_wf (putBit_wf ht.1) ht.2) ht

protected theorem Canonical.savedAccess {n v acc} (h : Canonical s) : Canonical (Machine.savedAccess n v acc s) := by
  cases acc with
  | plain who a =>
    cases a with
    | read => cases who <;> exact h
    | write => exact .savedWrite h
    | status => exact h
  | atomic => exact .deliver (.savedAtomic h)
  | update => exact .barUpdate h

protected theorem Canonical.rewalkCtx {who} (h : Canonical s) : Canonical (Machine.rewalkCtx who s) :=
  .foldl h fun _ l ht => by
    cases l.data with
    | walk => exact .ite ht (.endWalk ht)
    | _ => exact ht

protected theorem Canonical.restorePlane {d e p} (h : Canonical s) : Canonical (Machine.restorePlane d e p s).2 :=
  .ite (.plainRecord h) h

protected theorem Canonical.putCommands {n d v} (h : Canonical s) : Canonical (Machine.putCommands n d v s) :=
  .foldl (.foldl (.foldl (.foldl (.foldl h fun _ _ ht => .restorePlane (.restorePlane ht)) fun _ _ ht => ht) fun _ _ ht => ht) fun _ _ ht => ht)
    fun _ _ ht => ht

protected theorem Canonical.announceGlazes {n d v} (h : Canonical s) : Canonical (Machine.announceGlazes n d v s) :=
  .foldl h fun _ _ ht => .tellMembers ht

protected theorem Canonical.restoreNode {n d v} (h : Canonical s) : Canonical (Machine.restoreNode n d v s) :=
  .except (fun _ => .failNode h) fun _ => .call (.openSaved (.reclaim h)) (fun _ => .killImage h) fun _ ht =>
    .setState (.announceGlazes (.foldl (.putCommands (.renameCtxs (.foldl (.foldl (.takeBack (.wipeLocal (.clearCores ht)))
      fun _ _ hu => .loadText hu) fun _ _ hu => hu))) fun _ _ hu => .rewalkCtx hu))

protected theorem Canonical.enrol {part graph idx record} (h : Canonical s) : Canonical (Machine.enrol part graph idx record s) :=
  .option h fun _ => .option h fun _ => .ite (.setState h) (.ite h h)

protected theorem Canonical.armGraph {part graph count} (h : Canonical s) : Canonical (Machine.armGraph part graph count s) :=
  .foldl h fun _ _ ht => .option ht fun _ => .option ht fun _ => .ite (.armNode ht) ht

protected theorem Fires.fireGraphRegistration {part addr count} (h : Canonical s) : Fires (Machine.fireGraphRegistration part addr count s) :=
  .ite .waits (.option .waits fun _ => .fires (.armGraph (.foldl h fun _ _ ht => .enrol ht)))

protected theorem Fires.fireNodeReady {n} (h : Canonical s) : Fires (Machine.fireNodeReady n s) :=
  .option .waits fun d => by
    dsimp only
    cases d.st with
    | armed => exact .of_some .waits fun _ => .ite (.fires (.setState h)) .waits
    | _ => exact .waits

protected theorem Fires.firePlacement {n} (h : Canonical s) : Fires (Machine.firePlacement n s) :=
  .option .waits fun _ => .ite .waits (.option .waits fun x => by
    cases x with
    | place => exact .fires (.placeNode h)
    | stopFor => exact .fires (.foldl (.foldl h fun _ _ ht => .preemptNode ht) fun _ _ ht => .saveReserved ht))

protected theorem Fires.fireNodeStart {n} (h : Canonical s) : Fires (Machine.fireNodeStart n s) :=
  .option .waits fun _ => .ite (.fires (.startNode h)) .waits

protected theorem Fires.fireNodeCommit {n} (h : Canonical s) : Fires (Machine.fireNodeCommit n s) :=
  .option .waits fun _ => .ite (.fires (.commitNode h)) .waits

protected theorem Fires.fireNodeFail {n} (h : Canonical s) : Fires (Machine.fireNodeFail n s) :=
  .option .waits fun _ => .ite (.fires (.failNode h)) .waits

protected theorem Fires.fireKilledNodeRelease {n} (h : Canonical s) : Fires (Machine.fireKilledNodeRelease n s) :=
  .option .waits fun _ => .ite (.fires (.releaseKilled h)) .waits

protected theorem Fires.fireQuiesceComplete {n} (h : Canonical s) : Fires (Machine.fireQuiesceComplete n s) :=
  .option .waits fun _ => .ite (.fires (.setNode (.takeCommands h))) .waits

protected theorem Fires.fireSwapSaveComplete {n} (h : Canonical s) : Fires (Machine.fireSwapSaveComplete n s) :=
  .option .waits fun d => by
    dsimp only
    cases d.st with
    | running => exact .of_some .waits fun _ => .fires (.swapOut h)
    | _ => exact .waits

protected theorem Fires.fireRestoreComplete {n} (h : Canonical s) : Fires (Machine.fireRestoreComplete n s) :=
  .option .waits fun d => by
    dsimp only
    cases d.st with
    | placed => exact .of_some .waits fun _ => .ite .waits (.fires (.restoreNode h))
    | _ => exact .waits

protected theorem Canonical.reachImage {n v acc} (h : Canonical s) : Canonical (Machine.reachImage n v acc s) :=
  .ite (.savedAccess h) (.given (.openImage h) (.killImage h) fun _ ht => .sealImage (.savedAccess ht))

protected theorem Fires.fireSavedNodeAccess {n acc} (h : Canonical s) : Fires (Machine.fireSavedNodeAccess n acc s) :=
  .option .waits fun _ => .option .waits fun _ => .ite (by
    cases acc with
    | plain who a =>
      cases who with
      | host =>
        refine .ite .waits ?_
        cases a with
        | read => exact .meteredRead h fun _ ht => .reachImage ht
        | _ => exact .fires (.reachImage h)
      | _ => exact .fires (.reachImage h)
    | _ => exact .fires (.reachImage h)) .waits

protected theorem Fires.fireIslandWake {die isl} (h : Canonical s) : Fires (Machine.fireIslandWake die isl s) :=
  .ite (.fires h) .waits

protected theorem Fires.fireIslandGate {die isl} (h : Canonical s) : Fires (Machine.fireIslandGate die isl s) :=
  .ite (.fires (.setIsland (.foldl h fun _ _ ht => .drainCluster ht))) .waits

protected theorem Fires.fireGraphUnregistration {part addr} (h : Canonical s) : Fires (Machine.fireGraphUnregistration part addr s) :=
  .ite .waits (.fires (.foldl h fun _ _ ht => .setState (.dropReservation (.option ht fun _ => .dropImages ht))))

end
end Sys2Proof.Machine
end

section
/-! SUPPORT. The events of partitions and pages, of errors, ports and the host keep the canonical form. -/

namespace Sys2Proof.Machine
section
/- Without it a match does not unfold to the recursor that the rules for matches speak of. -/
set_option smartUnfolding false
variable {s t : State}

protected theorem Canonical.tell {p r} (h : Canonical s) : Canonical (Machine.tell p r s) :=
  .option h fun _ => h

protected theorem Fires.request {p r} (h : Canonical s) (hr : Fires r) : Fires (Machine.request p r s) :=
  .ite (.fires (hr.getD h)) .waits

protected theorem Canonical.beginShoot {part world lo hi writes before} (h : Canonical s) :
    Canonical (Machine.beginShoot part world lo hi writes before s) :=
  .recheckInputs h

protected theorem Canonical.moveFrame {r frame} (h : Canonical s) : Canonical (Machine.moveFrame r frame s) := by
  refine .foldl (.of_wf ?_ h.2) fun _ _ ht => .ite (.coreWrite ht) ht
  dsimp only
  exact Memory.sets_wf _ _ h.1

protected theorem Canonical.dropKept {part sel} (h : Canonical s) : Canonical (Machine.dropKept part sel s) :=
  ⟨Memory.filter_wf _ h.1, h.2⟩

protected theorem Canonical.readdress {f} (h : Canonical s) : Canonical (Machine.readdress f s) :=
  .moveBytes h

protected theorem Canonical.newRoot {p world root} (h : Canonical s) : Canonical (Machine.newRoot p world root s) :=
  .beginShoot h

protected theorem Canonical.makeChange {c} (h : Canonical s) : Canonical (Machine.makeChange c s) := by
  cases c with
  | create | region | fresco | share | group | peer | staging | hostClasses | window => exact h
  | destroy p =>
    delta Machine.makeChange
    dsimp only
    refine .of_eq (s := dropKept p (fun _ => true) _) (.dropKept ?_) rfl rfl
    exact .foldl (.foldl h fun _ _ ht => .option ht fun _ => .ite (.dropReservation (.option ht fun _ => .dropImages ht)) ht)
      fun _ _ ht => .drainCluster ht
  | addCluster =>
    delta Machine.makeChange
    dsimp only
    exact .option (.drainCluster h) fun _ => .readdress (.drainCluster h)
  | dropCluster => exact .drainCluster (.ite h (.readdress (.setPart (.dropKept h))))
  | resident => exact .displace h
  | tables => exact .newRoot h

protected theorem Canonical.measurePart {p} (h : Canonical s) : Canonical (Machine.measurePart p s) :=
  .ite h h

protected theorem Canonical.writeEntries {part world lo hi writes} (h : Canonical s) : Canonical (Machine.writeEntries part world lo hi writes s) :=
  .foldl h fun _ _ ht => .coreWrite ht

protected theorem Fires.fireShootdown {part world lo hi writes} (h : Canonical s) : Fires (Machine.fireShootdown part world lo hi writes s) :=
  .ite .waits (.ite (.fires (.beginShoot (.writeEntries h))) .waits)

protected theorem Fires.fireShootdownComplete {k} (h : Canonical s) : Fires (Machine.fireShootdownComplete k s) :=
  .option .waits fun _ => .ite (.fires h) .waits

protected theorem Fires.fireShootdownTimeout {k} (h : Canonical s) : Fires (Machine.fireShootdownTimeout k s) :=
  .option .waits fun _ => .ite (.fires (.foldl h fun _ _ ht => .preemptNode ht)) .waits

protected theorem Fires.fireFrescoMapChange {part world vtile entry} (h : Canonical s) :
    Fires (Machine.fireFrescoMapChange part world vtile entry s) :=
  .ite (.fires h) .waits

protected theorem Fires.firePartitionChange {chg} (h : Canonical s) : Fires (Machine.firePartitionChange chg s) :=
  .request h (.ite (.fires (.measurePart (.makeChange h))) .waits)

protected theorem Fires.firePartitionSwap {part} (h : Canonical s) : Fires (Machine.firePartitionSwap part s) :=
  .ite .waits (.fires (.foldl h fun _ _ ht => .preemptNode ht))

protected theorem Fires.fireImageLoadRequest {part bytes key} (h : Canonical s) : Fires (Machine.fireImageLoadRequest part bytes key s) :=
  .request h (.ite .waits (.ite (.fires (.tell (.measurePart h))) (.fires (.tell h))))

protected theorem Fires.firePageRetirementComplete {k frame} (h : Canonical s) :
    Fires (Machine.firePageRetirementComplete k frame s) :=
  .option .waits fun _ => .ite (.fires (.foldl (.moveFrame (s := { s with retires := _ }) h) fun _ _ ht => .recheckInputs ht)) .waits

protected theorem Fires.fireImageRemoval {part id} (h : Canonical s) : Fires (Machine.fireImageRemoval part id s) :=
  .request h (.ite (.fires (.measurePart h)) .waits)

protected theorem Canonical.beginRetire {frame} (h : Canonical s) : Canonical (Machine.beginRetire frame s) :=
  .ite h h

protected theorem Canonical.revertSector {sec} (h : Canonical s) : Canonical (Machine.revertSector sec s) :=
  .option (.coreWrite h) fun _ => .coreWrite h

protected theorem Canonical.retireSector {sec} (h : Canonical s) : Canonical (Machine.retireSector sec s) :=
  .beginRetire h

protected theorem Canonical.resolveSector {sec o} (h : Canonical s) : Canonical (Machine.resolveSector sec o s) := by
  cases o with
  | host => exact .retireSector (.appendFault h)
  | node => exact .ite (.retireSector (.killFor (.revertSector h))) (.retireSector (.appendFault h))

protected theorem Canonical.goViral {die src addr ecc loc} (h : Canonical s) : Canonical (Machine.goViral die src addr ecc loc s) :=
  .ite h (.foldl h fun _ _ ht => ht)

protected theorem Fires.fireLpddrSectorRead {addr r} (h : Canonical s) : Fires (Machine.fireLpddrSectorRead addr r s) := by
  cases r with
  | good => exact .fires (.ite h h)
  | corrected => exact .fires (.ite h h)
  | media => exact .ite .waits (.ite (.fires (.plainRecord h)) (.fires (.plainRecord h)))
  | integrity => exact .ite .waits (.fires (.plainRecord h))

protected theorem Fires.fireUncorrectableDirtySector {addr stager} (h : Canonical s) :
    Fires (Machine.fireUncorrectableDirtySector addr stager s) :=
  .option (.option (.fires (.plainRecord h)) fun _ => .fires (.resolveSector h)) fun _ => .ite (.fires (.retireSector (.killFor h))) .waits

protected theorem Fires.fireSramUncorrectable {p} (h : Canonical s) : Fires (Machine.fireSramUncorrectable p s) := by
  cases p with
  | fresco => exact .ite (.fires h) .waits
  | text => exact .ite (.fires ⟨Memory.set_wf _ _ h.1, h.2⟩) .waits
  | core => exact .option .waits fun _ => .ite (.fires (.killFor h)) .waits
  | textTag => exact .option .waits fun _ => .ite (.fires h) .waits
  | shadow => exact .option .waits fun _ => .ite (.fires (.killFor h)) .waits
  | management => exact .ite (.fires (.goViral h)) .waits
  | _ => exact .ite (.fires (.plainRecord h)) .waits

protected theorem Fires.fireCorrectedErrorRecord {die src more} (h : Canonical s) : Fires (Machine.fireCorrectedErrorRecord die src more s) :=
  .ite .waits (.fires (.appendFault h))

protected theorem Fires.fireLockstepMismatch {c hdr} (h : Canonical s) : Fires (Machine.fireLockstepMismatch c hdr s) :=
  .option .waits fun _ => .fires (.killFor h)

protected theorem Fires.fireViral {die src addr ecc loc} (h : Canonical s) : Fires (Machine.fireViral die src addr ecc loc s) :=
  .ite .waits (.fires (.ite_of_right (.goViral h) fun ht => ht))

protected theorem Canonical.fenceLink {port} (h : Canonical s) : Canonical (Machine.fenceLink port s) :=
  .plainRecord (.foldl h fun _ _ ht => .abortColl ht)

protected theorem Canonical.resynced {port} (h : Canonical s) : Canonical (Machine.resynced port s) :=
  .plainRecord h

protected theorem Canonical.peerWrite {port id w} (h : Canonical s) : Canonical (Machine.peerWrite port id w s) :=
  .ite (.sendMessage h) (.except (fun _ => .sendMessage h) fun _ => .option (.storeBytes h fun _ _ _ ht => .engineWrite ht) fun _ =>
    .ite (.sendMessage h) (.foldl h fun _ _ ht => .option ht fun _ => .addElement ht))

protected theorem Canonical.takeMessage {port id a} (h : Canonical s) : Canonical (Machine.takeMessage port id s a) := by
  cases a with
  | write => exact .peerWrite h
  | abort => exact .ite (.foldl h fun _ _ ht => ht) h
  | cancel => exact .ite (.sendMessage h) h
  | resync => exact h

protected theorem Canonical.acceptFlit {port f d} (h : Canonical s) : Canonical (Machine.acceptFlit port f d s) :=
  .ite (.fenceLink h) (.ite (.resynced h) (.option h fun _ => .ite (.takeMessage h) h))

protected theorem Canonical.rejectFlit {port} (h : Canonical s) : Canonical (Machine.rejectFlit port s) :=
  .ite (.sendKind (.addCorrected (.setPort18 h))) (.sendKind (.sendKind (.setPort18 h)))

protected theorem Fires.fireViralFlitReceived {port} (h : Canonical s) : Fires (Machine.fireViralFlitReceived port s) :=
  .ite (.fires (.fenceLink h)) .waits

protected theorem Fires.fireLinkSilenceTimeout {port} (h : Canonical s) : Fires (Machine.fireLinkSilenceTimeout port s) :=
  .ite (.fires (.fenceLink h)) .waits

protected theorem Fires.fireFlitReceive {port f} (h : Canonical s) : Fires (Machine.fireFlitReceive port f s) :=
  .ite .waits (.option (.ite .waits (.fires (.rejectFlit h))) fun _ =>
    .ite .waits (.ite (.ite (.fires (.resynced h)) .waits) (.fires (.acceptFlit h))))

protected theorem Fires.fireFlitResend {port upto} (h : Canonical s) : Fires (Machine.fireFlitResend port upto s) :=
  .ite (.fires h) .waits

protected theorem Fires.fireResyncTimeout {port} (h : Canonical s) : Fires (Machine.fireResyncTimeout port s) :=
  .option .waits fun _ => .ite (.fires (.fenceLink h)) .waits

protected theorem Fires.fireKeepalive {port} (h : Canonical s) : Fires (Machine.fireKeepalive port s) :=
  .ite (.fires h) .waits

protected theorem Fires.fireRoutineKeyUpdate {port} (h : Canonical s) : Fires (Machine.fireRoutineKeyUpdate port s) :=
  .ite (.fires h) .waits

protected theorem Fires.firePeerSession {port peer challenge} (h : Canonical s) : Fires (Machine.firePeerSession port peer challenge s) :=
  .ite (.fires h) .waits

protected theorem Fires.firePortReset {port} (h : Canonical s) : Fires (Machine.firePortReset port s) :=
  .request h (.ite (.fires h) .waits)

set_option smartUnfolding true in
protected theorem Canonical.programRow {own spare row src} (h : Canonical s) : Canonical (Machine.programRow own spare row src s).2 := by
  have ht : Canonical (addWear (servingRow s row) s) := h
  delta Machine.programRow
  dsimp only
  refine .ite_snd ?_ (.ite_snd (.placeRow h) ?_)
  · cases freeSpare s (bankOf row) with
    | none => exact h
    | some n => exact .ite_snd (.placeRow (s := useSpare _ n s) h) h
  · generalize addWear (servingRow s row) s = t at ht ⊢
    cases freeSpare t (bankOf row) with
    | none => exact ht
    | some n => exact .ite_snd (.placeRow (s := useSpare _ n t) ht) ht

protected theorem Canonical.resetPackage {fw} (h : Canonical s) : Canonical (Machine.resetPackage fw s) :=
  .option ⟨rfl, h.2⟩ fun _ => ⟨rfl, h.2⟩

protected theorem Canonical.bringUp (h : Canonical s) : Canonical (Machine.bringUp s) :=
  .ite h h

protected theorem Canonical.scanDie {die bad weak} (h : Canonical s) : Canonical (Machine.scanDie die bad weak s) :=
  .bringUp (.foldl (.foldl h fun _ _ ht => .plainRecord ht) fun _ _ ht => .programRow ht)

protected theorem Canonical.programRows {aid xs} (h : Canonical s) : Canonical (Machine.programRows aid xs s).2 := by
  induction xs generalizing s with
  | nil => exact h
  | cons x r ih => exact .ite_snd (ih (.programRow h)) (.programRow h)

protected theorem Canonical.installTiles {image im aid slots} (h : Canonical s) : Canonical (Machine.installTiles image im aid slots s).2 := by
  induction slots generalizing s with
  | nil => exact h
  | cons x r ih => exact .ite_snd h (.option_snd h fun _ => .ite_snd (ih (.programRows h)) (.programRows h))

protected theorem Fires.firePackageReset {firmware} (h : Canonical s) : Fires (Machine.firePackageReset firmware s) :=
  .fires (.resetPackage h)

protected theorem Fires.fireFrescoScan {die bad weak} (h : Canonical s) : Fires (Machine.fireFrescoScan die bad weak s) :=
  .ite (.fires (.scanDie h)) .waits

protected theorem Fires.fireInstallRequest {part world image slots aid} (h : Canonical s) :
    Fires (Machine.fireInstallRequest part world image slots aid s) :=
  have hu : Canonical (Machine.unmapSlots part slots s) := h
  .request h (.ite (.fires (.ite_of_right (.ite_snd hu (.installTiles hu)) fun ht => .logEvent (.mapTiles ht))) .waits)

protected theorem Fires.respond {port req} {r : State → State} (h : Canonical s) (hr : Canonical (r s)) : Fires (Machine.respond port req r s) :=
  .ite .waits (.ite (.fires h) (.fires hr))

protected theorem Canonical.inSession {port req} {r : State → State} (h : Canonical s) (hr : ∀ t, Canonical t → Canonical (r t)) :
    Canonical (Machine.inSession port req r s) :=
  .option h fun _ => .ite (hr _ h) h

protected theorem Canonical.zeroise {part} (h : Canonical s) : Canonical (Machine.zeroise part s) := by
  refine .setPart (.of_filter ?_ rfl rfl)
  exact .foldl (.foldl (.dropKept (.dropStores h)) fun _ _ ht => .option ht fun _ =>
    .ite (.dropReservation (.option ht fun _ => .dropImages ht)) ht) fun _ _ ht => .drainCluster ht

protected theorem Canonical.hostRead {port a n p} (h : Canonical s) : Canonical (Machine.hostRead port a n p s) := h

protected theorem Fires.fireGetVersion {port} (h : Canonical s) : Fires (Machine.fireGetVersion port s) :=
  .ite (.fires h) .waits

protected theorem Fires.fireGetCapabilities {port req} (h : Canonical s) : Fires (Machine.fireGetCapabilities port req s) :=
  .respond h h

protected theorem Fires.fireNegotiateAlgorithms {port req} (h : Canonical s) : Fires (Machine.fireNegotiateAlgorithms port req s) :=
  .respond h h

protected theorem Fires.fireGetDigests {port req} (h : Canonical s) : Fires (Machine.fireGetDigests port req s) :=
  .respond h h

protected theorem Fires.fireGetCertificate {port req} (h : Canonical s) : Fires (Machine.fireGetCertificate port req s) :=
  .respond h h

protected theorem Fires.fireChallenge {port req} (h : Canonical s) : Fires (Machine.fireChallenge port req s) :=
  .respond h (.ite h h)

protected theorem Fires.fireGetMeasurements {port req} (h : Canonical s) : Fires (Machine.fireGetMeasurements port req s) :=
  .respond h h

protected theorem Fires.fireKeyExchange {port req} (h : Canonical s) : Fires (Machine.fireKeyExchange port req s) := by
  delta Machine.fireKeyExchange
  exact .respond h (.ite h h)

protected theorem Fires.fireFinish {port req} (h : Canonical s) : Fires (Machine.fireFinish port req s) :=
  .respond h (.option h fun _ => .ite h (.tell h))

protected theorem Fires.fireHeartbeat {port req} (h : Canonical s) : Fires (Machine.fireHeartbeat port req s) :=
  .respond h (.inSession h fun _ ht => .tell ht)

protected theorem Fires.fireKeyUpdate {port req} (h : Canonical s) : Fires (Machine.fireKeyUpdate port req s) :=
  .respond h (.inSession h fun _ ht => .tell ht)

protected theorem Fires.fireEndSession {port req} (h : Canonical s) : Fires (Machine.fireEndSession port req s) :=
  .respond h (.inSession h fun _ ht => .tell ht)

protected theorem Fires.fireHeartbeatTimeout {part} (h : Canonical s) : Fires (Machine.fireHeartbeatTimeout part s) :=
  .option .waits fun _ => .ite (.fires (.ite h h)) .waits

protected theorem Fires.fireGraceExpiry {part} (h : Canonical s) : Fires (Machine.fireGraceExpiry part s) :=
  .option .waits fun _ => .option .waits fun _ => .ite .waits (.ite (.fires (.logEvent h))
    (.ite (.fires (.foldl (.setPart h) fun _ _ ht => .killNode ht)) (.ite .waits (.fires (.logEvent (.zeroise (.setPart h)))))))

protected theorem Fires.fireBucketConfig {part port rate burst} (h : Canonical s) : Fires (Machine.fireBucketConfig part port rate burst s) :=
  .request h (.ite (.fires h) .waits)

protected theorem Fires.fireEgressBucketRefill {part port ticks} (h : Canonical s) : Fires (Machine.fireEgressBucketRefill part port ticks s) :=
  .ite (.fires h) .waits

protected theorem Fires.fireLogCheckpoint (h : Canonical s) : Fires (Machine.fireLogCheckpoint s) :=
  .option .waits fun _ => .ite (.fires h) .waits

protected theorem Fires.fireLogRead {part what} (h : Canonical s) : Fires (Machine.fireLogRead part what s) := by
  refine .request h ?_
  cases sessionReply s part what with
  | none => exact .waits
  | some => exact .fires (.tell h)

protected theorem Fires.fireHostAccess {acc} (h : Canonical s) : Fires (Machine.fireHostAccess acc s) := by
  cases acc with
  | status => exact .ite (.fires h) .waits
  | write => exact .option .waits fun _ => .ite .waits (.fires (.storeBytes h fun _ _ _ ht => .coreWrite ht))
  | read => exact .option .waits fun _ => .ite .waits (.meteredRead h fun _ ht => .hostRead ht)

protected theorem Fires.fireIslandControlWrite {die isl w} (h : Canonical s) : Fires (Machine.fireIslandControlWrite die isl w s) :=
  .request h (.ite (.fires h) .waits)

protected theorem Fires.fireOperatingPointChange {die isl point} (h : Canonical s) : Fires (Machine.fireOperatingPointChange die isl point s) :=
  .ite .waits (.fires h)

protected theorem Fires.fireThermalStep {die isl temp} (h : Canonical s) : Fires (Machine.fireThermalStep die isl temp s) :=
  .ite .waits (.ite (.fires h) (.ite (.fires h) .waits))

protected theorem Fires.fireOvertemperature {die _isl temp} (h : Canonical s) : Fires (Machine.fireOvertemperature die _isl temp s) :=
  .ite (.fires (.goViral h)) .waits

protected theorem Fires.firePowerLimitExceeded {watts} (h : Canonical s) : Fires (Machine.firePowerLimitExceeded watts s) :=
  .ite .waits (.ite (.fires h) (.ite (.fires h) .waits))

protected theorem Fires.fireCoolantFault {flow inlet} (h : Canonical s) : Fires (Machine.fireCoolantFault flow inlet s) :=
  .ite (.fires h) .waits

protected theorem Fires.fireCoolantRestore {flow inlet} (h : Canonical s) : Fires (Machine.fireCoolantRestore flow inlet s) :=
  .ite (.fires h) .waits

protected theorem Fires.fireWearLimitSet {die limit} (h : Canonical s) : Fires (Machine.fireWearLimitSet die limit s) :=
  .ite (.fires h) .waits

protected theorem Fires.firePowerLimitSet {watts} (h : Canonical s) : Fires (Machine.firePowerLimitSet watts s) :=
  .request h (.ite (.fires h) .waits)

protected theorem Canonical.endCycle (h : Canonical s) : Canonical (Machine.endCycle s) :=
  .tick h

end
end Sys2Proof.Machine
end

section
/-! SUPPORT. Every row keeps the canonical form, so every step does. -/

namespace Sys2Proof.Machine
section
/- Without it a match does not unfold to the recursor that the rules for matches speak of. -/
set_option smartUnfolding false
variable {s t : State}

/-- The turn that an event takes keeps the canonical form, and so does the row itself where it is no bundle of one move. -/
def EventKeeps (i : Instr) (s : State) : Prop :=
  Canonical (afterTurn i s) ∧ (moveParts i = none → ∀ t, exec i s = .next t → Canonical t)

theorem EventKeeps.of_move {i : Instr} {p} (h : Canonical (afterTurn i s)) (hp : moveParts i = some p) : EventKeeps i s := by
  refine ⟨h, fun hm => ?_⟩
  rw [hp] at hm
  cases hm

theorem EventKeeps.of_event {i : Instr} {named : Bool} {r : Option State} (h : Canonical s) (ha : Canonical (afterTurn i s))
    (hr : Fires r) (he : exec i s = Machine.eventStep named r s) : EventKeeps i s := by
  refine ⟨ha, fun _ t ht => ?_⟩
  rw [he] at ht
  unfold Machine.eventStep at ht
  split at ht
  · cases ht
    exact hr.getD h
  · cases ht

theorem EventKeeps.of_cycle {i : Instr} {p : Prop} [Decidable p] {u : State} {f : Fault} (ha : Canonical (afterTurn i s))
    (hu : Canonical u) (he : exec i s = if p then .next u else .fault f) : EventKeeps i s := by
  refine ⟨ha, fun _ t ht => ?_⟩
  rw [he] at ht
  split at ht
  · exact Host.Outcome.next.inj ht ▸ hu
  · cases ht

/-- The rows with a syllable: one attempt at the bundle of one move. -/
theorem exec_move_canonical {i : Instr} {g : Guard} {src : Source} {f : Nat} (h : Canonical s) (hm : moveParts i = some (g, src, f))
    (ht : exec i s = .next t) : Canonical t := by
  rcases exec_of_moveParts hm with ⟨d, rfl, -⟩ | ⟨u, k, op, -, -, hop, he⟩
  · cases ht
    exact .issueMove h
  · rw [he] at ht
    cases ht
    exact .issueOne h (opOfField_keeps.holds hop)

/-- The core cycles and the events; the rows with a syllable are no case of it. -/
theorem exec_event_canonical {i : Instr} (h : Canonical s) : EventKeeps i s := by
  have hc (c t) (ht : Canonical t) : Canonical (coreCycle opOfField c t) := .coreCycle ht fun _ _ => opOfField_keeps.holds
  cases i
  case bundleIssue c => exact .of_cycle h (hc c { s with focus := none } h) rfl
  case starvationLead c => exact .of_cycle h (Canonical.ite (hc c { s with focus := none } h) h) rfl
  case lineFetch => exact .of_event h h (.fireLineFetch h) rfl
  case latchLanding => exact .of_event h h (.fireLatchLanding h) rfl
  case timedDataArrival => exact .of_event h h (.fireTimedDataArrival h) rfl
  case timedLanding => exact .of_event h h (.fireTimedLanding h) rfl
  case sketchReplayComplete => exact .of_event h h (.fireSketchReplayComplete h) rfl
  case sleepTimeout => exact .of_event h h (.fireSleepTimeout h) rfl
  case pourLanding => exact .of_event (named := true) h h (.firePourLanding h) rfl
  case bwaitWake => exact .of_event h h (.fireBwaitWake h) rfl
  case fenceComplete => exact .of_event h h (.fireFenceComplete h) rfl
  case pinExpiry => exact .of_event h h (.firePinExpiry h) rfl
  case pageWalkComplete => exact .of_event h h (.firePageWalkComplete h) rfl
  case syscReply => exact .of_event h h (.fireSyscReply h) rfl
  case mexCommandStart => exact .of_event h h (.fireMexCommandStart h) rfl
  case mldwComplete => exact .of_event h h (.fireMldwComplete h) rfl
  case streamPromotion => exact .of_event h h (.fireStreamPromotion h) rfl
  case mstrComplete => exact .of_event h h (.fireMstrComplete h) rfl
  case mzeroComplete => exact .of_event h h (.fireMzeroComplete h) rfl
  case drainRow => exact .of_event h h (.fireDrainRow h) rfl
  case mdrnComplete => exact .of_event h h (.fireMdrnComplete h) rfl
  case copyStart => exact .of_event h h (.fireCopyStart h) rfl
  case chunkFetch => exact .of_event h h (.fireChunkFetch h) rfl
  case chunkWrite => exact .of_event h h (.fireChunkWrite h) rfl
  case copyComplete => exact .of_event h h (.fireCopyComplete h) rfl
  case glazeStart => exact .of_event h h (.fireGlazeStart h) rfl
  case glazeMatch => exact .of_event (named := true) h h (.fireGlazeMatch h) rfl
  case glazeTimeout => exact .of_event h h (.fireGlazeTimeout h) rfl
  case glazeRoundSend => exact .of_event h h (.fireGlazeRoundSend h) rfl
  case glazePlaneReceive => exact .of_event h h (.fireGlazePlaneReceive h) rfl
  case glazeCancelAck => exact .of_event h h (.fireGlazeCancelAck h) rfl
  case glazeAbort => exact .of_event h h (.fireGlazeAbort h) rfl
  case glazeComplete => exact .of_event h h (.fireGlazeComplete h) rfl
  case retouchCommandStart => exact .of_event h h (.fireRetouchCommandStart h) rfl
  case retouchRowStart => exact .of_event h h (.fireRetouchRowStart h) rfl
  case writeAndCheckLoop => exact .of_event h h (.fireWriteAndCheckLoop h) rfl
  case twrtComplete => exact .of_event h h (.fireTwrtComplete h) rfl
  case graphRegistration => exact .of_event h h (.fireGraphRegistration h) rfl
  case nodeReady => exact .of_event (named := true) h h (.fireNodeReady h) rfl
  case placement => exact .of_event (named := true) h h (.firePlacement h) rfl
  case nodeStart => exact .of_event (named := true) h h (.fireNodeStart h) rfl
  case nodeCommit => exact .of_event (named := true) h h (.fireNodeCommit h) rfl
  case nodeFail => exact .of_event (named := true) h h (.fireNodeFail h) rfl
  case killedNodeRelease => exact .of_event (named := true) h h (.fireKilledNodeRelease h) rfl
  case quiesceComplete => exact .of_event (named := true) h h (.fireQuiesceComplete h) rfl
  case swapSaveComplete => exact .of_event (named := true) h h (.fireSwapSaveComplete h) rfl
  case restoreComplete => exact .of_event (named := true) h h (.fireRestoreComplete h) rfl
  case savedNodeAccess => exact .of_event (named := true) h h (.fireSavedNodeAccess h) rfl
  case islandWake => exact .of_event h h (.fireIslandWake h) rfl
  case islandGate => exact .of_event h h (.fireIslandGate h) rfl
  case shootdown => exact .of_event h h (.fireShootdown h) rfl
  case shootdownComplete => exact .of_event (named := true) h h (.fireShootdownComplete h) rfl
  case shootdownTimeout => exact .of_event (named := true) h h (.fireShootdownTimeout h) rfl
  case frescoMapChange => exact .of_event h h (.fireFrescoMapChange h) rfl
  case partitionChange => exact .of_event h h (.firePartitionChange h) rfl
  case partitionSwap => exact .of_event h h (.firePartitionSwap h) rfl
  case imageLoadRequest => exact .of_event h h (.fireImageLoadRequest h) rfl
  case lpddrSectorRead => exact .of_event h h (.fireLpddrSectorRead h) rfl
  case uncorrectableDirtySector => exact .of_event h h (.fireUncorrectableDirtySector h) rfl
  case pageRetirementComplete => exact .of_event (named := true) h h (.firePageRetirementComplete h) rfl
  case sramUncorrectable => exact .of_event (named := true) h h (.fireSramUncorrectable h) rfl
  case correctedErrorRecord => exact .of_event h h (.fireCorrectedErrorRecord h) rfl
  case lockstepMismatch => exact .of_event h h (.fireLockstepMismatch h) rfl
  case viral => exact .of_event h h (.fireViral h) rfl
  case viralFlitReceived => exact .of_event h h (.fireViralFlitReceived h) rfl
  case linkSilenceTimeout => exact .of_event h h (.fireLinkSilenceTimeout h) rfl
  case flitReceive => exact .of_event h h (.fireFlitReceive h) rfl
  case flitResend => exact .of_event h h (.fireFlitResend h) rfl
  case resyncTimeout => exact .of_event h h (.fireResyncTimeout h) rfl
  case keepalive => exact .of_event h h (.fireKeepalive h) rfl
  case routineKeyUpdate => exact .of_event h h (.fireRoutineKeyUpdate h) rfl
  case packageReset => exact .of_event (named := true) h h (.firePackageReset h) rfl
  case frescoScan => exact .of_event h h (.fireFrescoScan h) rfl
  case peerSession => exact .of_event h h (.firePeerSession h) rfl
  case getVersion => exact .of_event h h (.fireGetVersion h) rfl
  case getCapabilities => exact .of_event h h (.fireGetCapabilities h) rfl
  case negotiateAlgorithms => exact .of_event h h (.fireNegotiateAlgorithms h) rfl
  case getDigests => exact .of_event h h (.fireGetDigests h) rfl
  case getCertificate => exact .of_event h h (.fireGetCertificate h) rfl
  case challenge => exact .of_event h h (.fireChallenge h) rfl
  case getMeasurements => exact .of_event h h (.fireGetMeasurements h) rfl
  case keyExchange => exact .of_event h h (.fireKeyExchange h) rfl
  case finish => exact .of_event h h (.fireFinish h) rfl
  case heartbeat => exact .of_event h h (.fireHeartbeat h) rfl
  case keyUpdate => exact .of_event h h (.fireKeyUpdate h) rfl
  case endSession => exact .of_event h h (.fireEndSession h) rfl
  case heartbeatTimeout => exact .of_event h h (.fireHeartbeatTimeout h) rfl
  case graceExpiry => exact .of_event h h (.fireGraceExpiry h) rfl
  case installRequest => exact .of_event h h (.fireInstallRequest h) rfl
  case bucketConfig => exact .of_event h h (.fireBucketConfig h) rfl
  case egressBucketRefill => exact .of_event h h (.fireEgressBucketRefill h) rfl
  case logCheckpoint => exact .of_event (named := true) h h (.fireLogCheckpoint h) rfl
  case logRead => exact .of_event h h (.fireLogRead h) rfl
  case hostAccess => exact .of_event (named := true) h h (.fireHostAccess h) rfl
  case portReset => exact .of_event h h (.firePortReset h) rfl
  case islandControlWrite => exact .of_event h h (.fireIslandControlWrite h) rfl
  case operatingPointChange => exact .of_event h h (.fireOperatingPointChange h) rfl
  case thermalStep => exact .of_event h h (.fireThermalStep h) rfl
  case overtemperature => exact .of_event h h (.fireOvertemperature h) rfl
  case powerLimitExceeded => exact .of_event (named := true) h h (.firePowerLimitExceeded h) rfl
  case coolantFault => exact .of_event (named := true) h h (.fireCoolantFault h) rfl
  case coolantRestore => exact .of_event (named := true) h h (.fireCoolantRestore h) rfl
  case wearLimitSet => exact .of_event h h (.fireWearLimitSet h) rfl
  case graphUnregistration => exact .of_event h h (.fireGraphUnregistration h) rfl
  case imageRemoval => exact .of_event h h (.fireImageRemoval h) rfl
  case powerLimitSet => exact .of_event (named := true) h h (.firePowerLimitSet h) rfl
  all_goals exact .of_move h rfl

theorem exec_canonical {i : Instr} (h : Canonical s) (ht : exec i s = .next t) : Canonical t := by
  cases hm : moveParts i with
  | none => exact (exec_event_canonical h).2 hm t ht
  | some p => exact exec_move_canonical h hm ht

end
end Sys2Proof.Machine

namespace Sys2Proof
open Machine

/-- Settles O6: every row that a step can run is a bundle, a core cycle or an event, and each of them changes memory and the fresco tier through
the operations that keep the canonical form. -/
theorem stepKeepsCanonical : Obligations.StepKeepsCanonical := by
  intro s t h ht
  unfold step at ht
  split at ht
  · next e r _ => exact exec_canonical (s := { s with agenda := r }) h ht
  · split at ht
    · exact exec_canonical (exec_event_canonical h).1 ht
    · cases ht
      exact .endCycle h

end Sys2Proof
end

section
/-! SUPPORT. A bundle of one trigger move whose operation traps, or changes its own context only; and the spill window (R167, R179). -/

namespace Sys2Proof.Machine

section
variable {s : State} {g : Guard} {src : Source} {field : Nat} {i : Guard → Source → Instr} {op : OpDef} {f : Ctx → Ctx} {e : Trap}

/-- The operation traps, and the snapshot slot is free. -/
theorem Performs.traps (h : Performs i op field) (hq : Quiet s) (hb : Brings s g src op.ty) (hr : Room s op.land op.vecs op.scs)
    (hsnap : (own s).snap = none) (hrun : op.run (given s field op.ty src) (started s src) = .error e) :
    Machine.exec (i g src) s = .next (trapped s e) := by
  rw [h.exec, issueOne_trap op field g src s e hq hb hr (by rw [h.full]) (by simp [h.tok]) hrun, trapEnter_free s e hsnap]

/-- The operation changes its own context, but not whether it runs or ends a handler. -/
theorem Performs.changes (h : Performs i op field) (hq : Quiet s) (hb : Brings s g src op.ty) (hr : Room s op.land op.vecs op.scs)
    (hkeep : ∀ c, (f c).run = c.run ∧ (f c).rft = c.rft)
    (hrun : op.run (given s field op.ty src) (started s src) = .ok (updCtx s.sel.who f (started s src))) :
    Machine.exec (i g src) s = .next (after s src f) := by
  obtain ⟨hkrun, hkrft⟩ := hkeep (entry s src)
  refine (h.exec g src s).trans (congrArg _ (issueOne_after op field g src s f hq hb hr (by rw [h.full]) (by simp [h.tok]) hrun
    (linkReach_none _ _ h.link) ?_ ?_ (hkrft.trans (entry_rft src hq))))
  · rw [hkrun, entry_run src hq]
    exact nofun
  · rw [hkrun, entry_run src hq]
    exact nofun

@[simp] theorem getCtx_after : getCtx (after s src f) s.sel.who = advance s (f (entry s src)) := getCtx_setCtx_same _ _ _

/-! ## The spill window -/

/-- The tags of the spill window after the tag of the dword at `o` is written. -/
def tagged (o : Nat) (p : Bool) (tags : List Nat) : List Nat :=
  if p then (if tags.contains o then tags else o :: tags) else tags.filter (· ≠ o)
/-- The context after a dword is written to its spill window. -/
def spilled (o : Nat) (v : Sc) (c : Ctx) : Ctx :=
  { c with spill := Memory.sets c.spill o (toBytes 8 v.v.toNat), spillPoison := tagged o v.p c.spillPoison }

theorem tagged_same (o : Nat) (p : Bool) (tags : List Nat) : (tagged o p tags).contains o = p := by
  cases p with
  | true =>
    simp only [tagged, if_true]
    split
    · assumption
    · simp
  | false => simp [tagged]

theorem tagged_ne {o x : Nat} (h : x ≠ o) (p : Bool) (tags : List Nat) : (tagged o p tags).contains x = tags.contains x := by
  cases p with
  | true =>
    simp only [tagged, if_true]
    split
    · rfl
    · simp [h]
  | false => simp [tagged, h]

theorem performs_spld : Performs Instr.spld spldOp 132 := {}
theorem performs_spst : Performs Instr.spst spstOp 133 := {}

/-- The offset is no dword of the window. -/
theorem spill_badOffset (ht : (trigSc s src).p = false) (ho : (trigSc s src).v.toNat % 8 ≠ 0 ∨ 0x3FF8 < (trigSc s src).v.toNat) :
    spldOp.run (given s 132 .s src) (started s src) = .error ⟨0x14, (trigSc s src).v.toNat, s.sel.slot⟩
    ∧ spstOp.run (given s 133 .s src) (started s src) = .error ⟨0x14, (trigSc s src).v.toNat, s.sel.slot⟩ := by
  simp [spldOp, spstOp, ht, ho]

theorem spld_window (ht : (trigSc s src).p = false) (ho : ¬ ((trigSc s src).v.toNat % 8 ≠ 0 ∨ 0x3FF8 < (trigSc s src).v.toNat)) :
    spldOp.run (given s 132 .s src) (started s src) = .ok (updCtx s.sel.who (inFlight [latchSc s 4 1
      (BitVec.ofNat 64 (ofBytes (Memory.gets (view s).spill (trigSc s src).v.toNat 8)))
      ((view s).spillPoison.contains (trigSc s src).v.toNat)]) (started s src)) := by
  obtain ⟨-, -, -, -, -, hspill, htags, -⟩ := (began_entry s src).specials
  have hctx : getCtx (started s src) s.sel.who = entry s src := getCtx_setCtx_same _ _ _
  simp only [spldOp, given_tP, given_tN, ht, Bool.false_eq_true, if_false, if_neg ho, given_who, hctx, hspill, htags]
  rfl

theorem spst_window (ht : (trigSc s src).p = false) (ho : ¬ ((trigSc s src).v.toNat % 8 ≠ 0 ∨ 0x3FF8 < (trigSc s src).v.toNat)) :
    spstOp.run (given s 133 .s src) (started s src)
      = .ok (updCtx s.sel.who (spilled (trigSc s src).v.toNat (portSc s 4 0)) (started s src)) := by
  exact (if_neg (Bool.eq_false_iff.1 ht)).trans (if_neg ho)

theorem exec_spst (hq : Quiet s) (hb : Brings s g src .s) (ht : (trigSc s src).p = false)
    (ho : ¬ ((trigSc s src).v.toNat % 8 ≠ 0 ∨ 0x3FF8 < (trigSc s src).v.toNat)) :
    exec (.spst g src) s = .next (after s src (spilled (trigSc s src).v.toNat (portSc s 4 0))) :=
  performs_spst.changes (f := spilled _ _) hq hb (room_none s) (fun _ => ⟨rfl, rfl⟩) (spst_window ht ho)

/-- What SPST leaves of its context. -/
theorem after_spilled (o : Nat) (v : Sc) :
    (getCtx (after s src (spilled o v)) s.sel.who).spill = Memory.sets (view s).spill o (toBytes 8 v.v.toNat)
    ∧ (getCtx (after s src (spilled o v)) s.sel.who).spillPoison = tagged o v.p (view s).spillPoison
    ∧ RegsKept (view s) (getCtx (after s src (spilled o v)) s.sel.who) ∧ (getCtx (after s src (spilled o v)) s.sel.who).sr = (view s).sr := by
  obtain ⟨hregs, ⟨hsr, -, -, -, -, hspill, htags, -⟩, -, -⟩ := began_entry s src
  obtain ⟨p, w, r, he⟩ := advance_eq s (spilled o v (entry s src))
  rw [getCtx_after, he, ← hspill, ← htags]
  exact ⟨rfl, rfl, hregs, hsr⟩

end
end Sys2Proof.Machine

namespace Sys2Proof
open Machine

/-- Settles O18: SPLD by what it puts in flight, SPST by the context it leaves. -/
theorem spillAccesses : Obligations.SpillAccesses := by
  unfold Obligations.SpillAccesses
  intro s g src hq hb ht o
  refine ⟨fun ho hsnap => ?_, fun ho8 hotop => ?_⟩
  · obtain ⟨hld, hst⟩ := spill_badOffset ht ho
    exact ⟨fun hr => performs_spld.traps hq hb hr hsnap hld, performs_spst.traps hq hb (room_none s) hsnap hst⟩
  · have ho : ¬ (o % 8 ≠ 0 ∨ 0x3FF8 < o) := by omega
    refine ⟨fun hr => performs_spld.flights hq hb hr (spld_window ht ho), fun hwf => ⟨_, exec_spst hq hb ht ho, othersKept_setCtx s _, ?_⟩⟩
    obtain ⟨hspill, htags, hregs, hsr⟩ := after_spilled (s := s) (src := src) o (portSc s 4 0)
    have hlen : (toBytes 8 (portSc s 4 0).v.toNat).length = 8 := Crypto.toBytes_length _ _
    dsimp only
    rw [hspill, htags]
    exact ⟨fun k hk => Memory.get_sets_inside o _ hwf (by omega), fun x hx => Memory.get_sets_outside o _ (by omega), tagged_same ..,
      fun x hx => tagged_ne hx .., hregs, hsr, Memory.sets_wf _ _ hwf⟩

end Sys2Proof
end

section
/-! SUPPORT. The checks of local accesses (R176): the first lane that fails one, and the trap of an operation that makes them. -/

namespace Sys2Proof.Machine

/-! ## Lanes in order -/

section
variable {as : List Nat} {at' : Nat → Nat} {ok on : Nat → Bool} {row : Nat → Nat → Bool} {a n align kind l : Nat}

/-- The lanes that are on, each by its address. -/
def lanesOn (on : Nat → Bool) (at' : Nat → Nat) : List Nat := ((List.range 128).filter on).map at'

theorem lanesOn_all (at' : Nat → Nat) : lanesOn (fun _ => true) at' = (List.range 128).map at' :=
  congrArg (List.map at') (List.filter_eq_self.2 fun _ _ => rfl)

theorem forall_mem_lanesOn {p : Nat → Prop} : (∀ a ∈ lanesOn on at', p a) ↔ ∀ l, l < 128 → on l = true → p (at' l) := by
  simp only [lanesOn, List.forall_mem_map, List.mem_filter, List.mem_range, and_imp]

theorem firstFail_lanesOn (hl : l < 128) (hon : on l = true) (hbad : ok (at' l) = false) (hbefore : ∀ k, k < l → on k = true → ok (at' k) = true) :
    firstFail ok (lanesOn on at') = some (at' l) := by
  rw [firstFail, lanesOn, List.find?_map, List.find?_filter, Option.map_eq_some_iff]
  refine ⟨l, List.find?_range_eq_some.2 ⟨by simp [hon, hbad], List.mem_range.2 hl, fun k hk => ?_⟩, rfl⟩
  cases h : on k <;> simp [hbefore k hk, h]

theorem firstFail_single (h : ok a = false) : firstFail ok [a] = some a := by simp [firstFail, h]

theorem firstFail_aligned (h : ∀ a ∈ as, a % align = 0) : firstFail (fun a => a % align == 0) as = none :=
  firstFail_none fun a ha => by simpa using h a ha

theorem localCheck_misaligned (h : firstFail (fun a => a % align == 0) as = some a) : localCheck as n align kind row = .error (misaligned a align) := by
  simp only [localCheck, h]

theorem localCheck_outside (hal : ∀ a ∈ as, a % align = 0) (h : firstFail (fun a => row a n) as = some a) :
    localCheck as n align kind row = .error (noPermit a kind) := by
  simp only [localCheck, firstFail_aligned hal, h]

end

/-- A check that fails, as the recursor that its match unfolds to. -/
theorem check_error {α β ε : Type} {r : Except ε α} {e : ε} {b : α → Except ε β} (h : r = .error e) :
    Except.rec (motive := fun _ => Except ε β) (fun e => .error e) b r = .error e := by rw [h]

/-! ## Rows of the local map -/

theorem loadable_iff {a n : Nat} : loadable a n = true ↔ InLocal a n := by simp [loadable, inSpad, inAcc, InLocal]
theorem inWin_iff {a n : Nat} : inWin a n = true ↔ 0x800000 ≤ a ∧ a + n ≤ 0x900000 := by simp [inWin]

/-! ## The trap of an operation -/

/-- Where a vector access traps: at the first lane that is misaligned, or else outside its rows of the local map. -/
def LaneTraps (s : State) (row : Nat → Nat → Prop) (i : Instr) (at' : Nat → Nat) (n kind : Nat) (on : Nat → Prop) : Prop :=
  ∀ l, l < 128 → on l →
    (at' l % n ≠ 0 → (∀ k, k < l → on k → at' k % n = 0) → exec i s = .next (trapped s ⟨0x12, at' l, n⟩))
    ∧ ((∀ k, k < 128 → on k → at' k % n = 0) → ¬ row (at' l) n → (∀ k, k < l → on k → row (at' k) n) →
      exec i s = .next (trapped s ⟨0x06, at' l, kind⟩))

section
/- Without it a match does not unfold to the recursor that `check_error` speaks of. -/
set_option smartUnfolding false
variable {s : State} {g : Guard} {src : Source} {field n kind : Nat} {i : Guard → Source → Instr} {op : OpDef} {e : Trap}
  {on : Nat → Bool} {at' : Nat → Nat} {row : Nat → Nat → Bool} {inRow : Nat → Nat → Prop}

/-- The state and operand conditions under which an instruction traps by its operation alone. -/
structure Ready (s : State) (g : Guard) (src : Source) (op : OpDef) : Prop where
  quiet : Quiet s
  brings : Brings s g src op.ty
  room : Room s op.land op.vecs op.scs
  free : (own s).snap = none

theorem Performs.exec_error (h : Performs i op field) (hy : Ready s g src op) (hrun : op.run (given s field op.ty src) (started s src) = .error e) :
    Machine.exec (i g src) s = .next (trapped s e) := h.traps hy.quiet hy.brings hy.room hy.free hrun

theorem Performs.laneTraps (h : Performs i op field) (hy : Ready s g src op) (hrow : ∀ a, row a n = true ↔ inRow a n)
    (hrun : ∀ e, localCheck (lanesOn on at') n n kind row = .error e → op.run (given s field op.ty src) (started s src) = .error e) :
    LaneTraps s inRow (i g src) at' n kind fun l => on l = true := by
  refine fun l hl hon => ⟨fun hmis hbefore => ?_, fun hal hout hbefore => ?_⟩
  · exact h.exec_error hy (hrun _ (localCheck_misaligned (firstFail_lanesOn hl hon (by simpa using hmis) fun k hk hkon => by simpa using hbefore k hk hkon)))
  · refine h.exec_error hy (hrun _ (localCheck_outside (forall_mem_lanesOn.2 hal) (firstFail_lanesOn hl hon ?_ fun k hk hkon => ?_)))
    · exact Bool.eq_false_iff.2 fun hin => hout ((hrow _).1 hin)
    · exact (hrow _).2 (hbefore k hk hkon)

/-- The same with every lane on. -/
theorem Performs.allLanesTrap (h : Performs i op field) (hy : Ready s g src op) (hrow : ∀ a, row a n = true ↔ inRow a n)
    (hrun : ∀ e, localCheck ((List.range 128).map at') n n kind row = .error e → op.run (given s field op.ty src) (started s src) = .error e) :
    LaneTraps s inRow (i g src) at' n kind fun _ => True := by
  rw [← lanesOn_all] at hrun
  intro l hl _
  simpa using h.laneTraps hy hrow hrun l hl rfl

/-! ## Local scalars (R180, R181) -/

/-- A scalar access of `n` bytes traps when it is misaligned, or else outside its rows of the local map. -/
theorem Performs.scalarTraps (h : Performs i op field) (hy : Ready s g src op) (a : Nat)
    (hrun : ∀ e, localCheck [a] n n kind row = .error e → op.run (given s field op.ty src) (started s src) = .error e) :
    (a % n ≠ 0 → Machine.exec (i g src) s = .next (trapped s ⟨0x12, a, n⟩))
    ∧ (a % n = 0 → row a n = false → Machine.exec (i g src) s = .next (trapped s ⟨0x06, a, kind⟩)) :=
  ⟨fun hmis => h.exec_error hy (hrun _ (localCheck_misaligned (firstFail_single (by simpa using hmis)))),
    fun hal hout => h.exec_error hy (hrun _ (localCheck_outside (by simpa using hal) (firstFail_single hout)))⟩

/-- Where a scalar access of `r.2.1` bytes at `a` traps, its kind being `r.2.2`: a store of the multicast window does not. -/
def ScalarTraps (s : State) (g : Guard) (src : Source) (a : Nat) (r : (Guard → Source → Instr) × Nat × Nat) : Prop :=
  (a % r.2.1 ≠ 0 → exec (r.1 g src) s = .next (trapped s ⟨0x12, a, r.2.1⟩))
  ∧ (a % r.2.1 = 0 → ¬ InLocal a r.2.1 → (r.2.2 = 1 → ¬ (0x800000 ≤ a ∧ a + r.2.1 ≤ 0x900000)) →
    exec (r.1 g src) s = .next (trapped s ⟨0x06, a, r.2.2⟩))

theorem localLoad_traps {signed : Bool} (h : Performs i (localLoad n signed) field) (hy : Ready s g src (localLoad n signed))
    (ht : (trigSc s src).p = false) : ScalarTraps s g src (trigSc s src).v.toNat (i, n, 0) := by
  obtain ⟨hmis, hout⟩ := h.scalarTraps (kind := 0) (row := loadable) (n := n) hy (trigSc s src).v.toNat fun e he =>
    (if_neg (Bool.eq_false_iff.1 ht)).trans (check_error he)
  exact ⟨hmis, fun hal hin _ => hout hal (Bool.eq_false_iff.2 fun h => hin (loadable_iff.1 h))⟩

theorem localStore_traps (h : Performs i (localStore n) field) (hy : Ready s g src (localStore n)) (ht : (trigSc s src).p = false) :
    ScalarTraps s g src (trigSc s src).v.toNat (i, n, 1) := by
  obtain ⟨hmis, hout⟩ := h.scalarTraps (kind := 1) (row := fun a n => loadable a n || inWin a n) (n := n) hy (trigSc s src).v.toNat fun e he =>
    (if_neg (Bool.eq_false_iff.1 ht)).trans (check_error he)
  refine ⟨hmis, fun hal hin hwin => hout hal ?_⟩
  rw [Bool.or_eq_false_iff, Bool.eq_false_iff, Bool.eq_false_iff, Ne, Ne, loadable_iff, inWin_iff]
  exact ⟨hin, hwin rfl⟩

theorem localScalar_traps (hq : Quiet s) (hb : Brings s g src .s) (hr : Room s 1 0 0) (ht : (trigSc s src).p = false) (hsnap : (own s).snap = none) :
    ∀ r ∈ ([(Instr.ldb, 1, 0), (Instr.ldbs, 1, 0), (Instr.ldh, 2, 0), (Instr.ldhs, 2, 0), (Instr.ldw, 4, 0), (Instr.ldws, 4, 0),
        (Instr.ldd, 8, 0), (Instr.stb, 1, 1), (Instr.sth, 2, 1), (Instr.stw, 4, 1), (Instr.std, 8, 1)]
        : List ((Guard → Source → Instr) × Nat × Nat)), ScalarTraps s g src (trigSc s src).v.toNat r := by
  have load : ∀ {i n signed field}, Performs i (localLoad n signed) field → ScalarTraps s g src (trigSc s src).v.toNat (i, n, 0) :=
    fun h => localLoad_traps h ⟨hq, hb, hr, hsnap⟩ ht
  have store : ∀ {i n field}, Performs i (localStore n) field → ScalarTraps s g src (trigSc s src).v.toNat (i, n, 1) :=
    fun h => localStore_traps h ⟨hq, hb, room_none s, hsnap⟩ ht
  simp only [List.forall_mem_cons, List.not_mem_nil, false_implies, implies_true, and_true]
  exact ⟨load (field := 134) (signed := false) {}, load (field := 135) (signed := true) {}, load (field := 136) (signed := false) {},
    load (field := 137) (signed := true) {}, load (field := 138) (signed := false) {}, load (field := 139) (signed := true) {},
    load (field := 140) (signed := false) {}, store (field := 141) {}, store (field := 142) {}, store (field := 143) {}, store (field := 144) {}⟩

end
end Sys2Proof.Machine
end
section
/-! SUPPORT. Where the vector accesses of the local map trap (R185 to R189, R191). -/

namespace Sys2Proof.Machine

section
/- Without it a match does not unfold to the recursor that `check_error` speaks of. -/
set_option smartUnfolding false
variable {x : OpIn} {s u : State} {e : Trap} {n : Nat} {as ls : List Nat} {w : Nat → Word32} {data : Lane → List Byte}

theorem unitAddrs_one (t : Nat) : unitAddrs t 1 = (List.range 128).map fun l => t + l := by simp [unitAddrs]

theorem laneLoad_error (h : localCheck as 4 4 0 loadable = .error e) : laneLoad x as u = .error e := check_error h
theorem laneStore_error (h : localCheck as 4 4 1 loadable = .error e) : laneStore x as u = .error e := check_error h
theorem convLoad_error (h : localCheck (unitAddrs x.tN n) n n 0 loadable = .error e) : convLoad x n w u = .error e := check_error h
theorem runStore_error (h : localCheck (ls.map fun l => x.tN + n * l) n n 1 loadable = .error e) : runStore x ls n data u = .error e :=
  check_error h

theorem vldOp_error (ht : ¬ x.tP = true) (h : localCheck (unitAddrs x.tN 4) 4 4 0 loadable = .error e) : vldOp.run x u = .error e :=
  (if_neg ht).trans (check_error h)
theorem vstmcOp_error (ht : ¬ x.tP = true) (h : localCheck (unitAddrs x.tN 4) 4 4 1 inWin = .error e) : vstmcOp.run x u = .error e :=
  (if_neg ht).trans (check_error h)
theorem vstbfOp_error (ht : ¬ x.tP = true) (h : localCheck ((List.range 128).map fun l => x.tN + 2 * l) 2 2 1 loadable = .error e) :
    vstbfOp.run x u = .error e :=
  (if_neg ht).trans (check_error (runStore_error h))
theorem vldxOp_error (ht : ¬ (x.bP || x.tP) = true) (hb : ¬ (7 < x.bN || !(getPat x.c0 x.bN).valid) = true)
    (h : localCheck (unitAddrs x.tN 4) 4 4 0 loadable = .error e) : vldxOp.run x u = .error e :=
  (if_neg ht).trans ((if_neg hb).trans (check_error h))
theorem vldeOp_error (ht : ¬ (x.bP || x.tP) = true) (hb : ¬ 0xFFFF < x.bN) (h : localCheck [x.tN] 16 16 0 inSpad = .error e) :
    vldeOp.run x u = .error e :=
  (if_neg ht).trans ((if_neg hb).trans (check_error h))

end

section
variable {s : State} {g : Guard} {src : Source}

/-- What the vector accesses with a scalar trigger start from. -/
structure Vectored (s : State) (g : Guard) (src : Source) : Prop where
  quiet : Quiet s
  room : Room s 1 0 1
  free : (own s).snap = none
  brings : Brings s g src .s
  clean : (trigSc s src).p = false

theorem Vectored.ready {op : OpDef} (h : Vectored s g src) (hty : op.ty = .s := by rfl) (hl : op.land ≤ 1 := by decide)
    (hv : op.vecs ≤ 0 := by decide) (hc : op.scs ≤ 1 := by decide) : Ready s g src op :=
  ⟨h.quiet, hty ▸ h.brings, h.room.mono hl hv hc, h.free⟩

variable (h : Vectored s g src)
include h

theorem Vectored.tP (field : Nat) : ¬ (given s field .s src).tP = true := Bool.eq_false_iff.1 h.clean

/-! ## Unit stride (R185, R186, R191) -/

theorem Vectored.vld : LaneTraps s InLocal (.vld g src) (fun l => (trigSc s src).v.toNat + 4 * l) 4 0 fun _ => True :=
  Performs.allLanesTrap (op := vldOp) (field := 196) {} h.ready (fun _ => loadable_iff) fun _ he => vldOp_error (h.tP 196) he

theorem Vectored.vldbf : LaneTraps s InLocal (.vldbf g src) (fun l => (trigSc s src).v.toNat + 2 * l) 2 0 fun _ => True :=
  Performs.allLanesTrap (op := vldbfOp) (field := 203) {} h.ready (fun _ => loadable_iff) fun _ he => (if_neg (h.tP 203)).trans (convLoad_error he)

theorem Vectored.vldi8 : LaneTraps s InLocal (.vldi8 g src) (fun l => (trigSc s src).v.toNat + l) 1 0 fun _ => True :=
  Performs.allLanesTrap (op := vldi8Op) (field := 206) {} h.ready (fun _ => loadable_iff) fun _ he =>
    (if_neg (h.tP 206)).trans (convLoad_error (by rw [unitAddrs_one]; exact he))

theorem Vectored.vldz8 : LaneTraps s InLocal (.vldz8 g src) (fun l => (trigSc s src).v.toNat + l) 1 0 fun _ => True :=
  Performs.allLanesTrap (op := vldz8Op) (field := 207) {} h.ready (fun _ => loadable_iff) fun _ he =>
    (if_neg (h.tP 207)).trans (convLoad_error (by rw [unitAddrs_one]; exact he))

theorem Vectored.vst : LaneTraps s InLocal (.vst g src) (fun l => (trigSc s src).v.toNat + 4 * l) 4 1 fun _ => True :=
  Performs.allLanesTrap (op := vstOp) (field := 199) {} h.ready (fun _ => loadable_iff) fun _ he => (if_neg (h.tP 199)).trans (runStore_error he)

theorem Vectored.vstbf : LaneTraps s InLocal (.vstbf g src) (fun l => (trigSc s src).v.toNat + 2 * l) 2 1 fun _ => True :=
  Performs.allLanesTrap (op := vstbfOp) (field := 204) {} h.ready (fun _ => loadable_iff) fun _ he => vstbfOp_error (h.tP 204) he

theorem Vectored.vstm (hm : (portMask s 6 3).any (·.p) = false) : LaneTraps s InLocal (.vstm g src) (fun l => (trigSc s src).v.toNat + 4 * l) 4 1
    fun l => (maskAt (portMask s 6 3) l).v = true :=
  Performs.laneTraps (op := vstmOp) (field := 201) {} h.ready (fun _ => loadable_iff) fun _ he =>
    (if_neg (Bool.eq_false_iff.1 (Bool.or_eq_false_iff.2 ⟨h.clean, hm⟩))).trans (runStore_error he)

theorem Vectored.vstmc : LaneTraps s (fun x n => 0x800000 ≤ x ∧ x + n ≤ 0x900000) (.vstmc g src) (fun l => (trigSc s src).v.toNat + 4 * l) 4 1
    fun _ => True :=
  Performs.allLanesTrap (op := vstmcOp) (field := 213) {} h.ready (fun _ => inWin_iff) fun _ he => vstmcOp_error (h.tP 213) he

/-! ## With a clean operand b -/

section
variable (hbP : (portSc s 6 1).p = false)
include hbP

theorem Vectored.btP (field : Nat) (hu : field / 32 = 6 := by decide) : ¬ ((given s field .s src).bP || (given s field .s src).tP) = true := by
  simp [hu, hbP, h.clean]

theorem Vectored.vlds : LaneTraps s InLocal (.vlds g src)
    (fun l => (((trigSc s src).v.toNat + l * (portSc s 6 1).v.toInt) % (2 ^ 64 : Nat)).toNat) 4 0 fun _ => True :=
  Performs.allLanesTrap (op := vldsOp) (field := 197) {} h.ready (fun _ => loadable_iff) fun _ he =>
    (if_neg (h.btP hbP 197)).trans (laneLoad_error he)

theorem Vectored.vsts : LaneTraps s InLocal (.vsts g src)
    (fun l => (((trigSc s src).v.toNat + l * (portSc s 6 1).v.toInt) % (2 ^ 64 : Nat)).toNat) 4 1 fun _ => True :=
  Performs.allLanesTrap (op := vstsOp) (field := 200) {} h.ready (fun _ => loadable_iff) fun _ he =>
    (if_neg (h.btP hbP 200)).trans (laneStore_error he)

theorem Vectored.vldf8 (hn : (portSc s 6 1).v.toNat ≤ 1) :
    LaneTraps s InLocal (.vldf8 g src) (fun l => (trigSc s src).v.toNat + l) 1 0 fun _ => True :=
  Performs.allLanesTrap (op := vldf8Op) (field := 205) {} h.ready (fun _ => loadable_iff) fun _ he =>
    (if_neg (h.btP hbP 205)).trans ((if_neg (Nat.not_lt.2 hn)).trans (convLoad_error (by rw [unitAddrs_one]; exact he)))

theorem Vectored.vldf8_illegal (hn : 1 < (portSc s 6 1).v.toNat) : exec (.vldf8 g src) s = .next (trapped s ⟨0x01, s.sel.slot, 0⟩) :=
  Performs.exec_error (op := vldf8Op) (field := 205) {} h.ready ((if_neg (h.btP hbP 205)).trans (if_pos hn))

theorem Vectored.vldx (hn : (portSc s 6 1).v.toNat < 8) (hv : (getPat (view s) (portSc s 6 1).v.toNat).valid = true) :
    LaneTraps s InLocal (.vldx g src) (fun l => (trigSc s src).v.toNat + 4 * l) 4 0 fun _ => True :=
  have hlegal : ¬ (7 < (portSc s 6 1).v.toNat || !(getPat (view s) (portSc s 6 1).v.toNat).valid) = true := by
    simp [hv]
    exact Nat.le_of_lt_succ hn
  Performs.allLanesTrap (op := vldxOp) (field := 208) {} h.ready (fun _ => loadable_iff) fun _ he => vldxOp_error (h.btP hbP 208) hlegal he

theorem Vectored.vldx_illegal (hn : 8 ≤ (portSc s 6 1).v.toNat ∨ (getPat (view s) (portSc s 6 1).v.toNat).valid = false) :
    exec (.vldx g src) s = .next (trapped s ⟨0x01, s.sel.slot, 0⟩) :=
  have hillegal : (7 < (portSc s 6 1).v.toNat || !(getPat (view s) (portSc s 6 1).v.toNat).valid) = true := by
    rcases hn with hn | hn
    · simp [Nat.lt_of_succ_le hn]
    · simp [hn]
  Performs.exec_error (op := vldxOp) (field := 208) {} h.ready ((if_neg (h.btP hbP 208)).trans (if_pos hillegal))

/-! ## Sparse vectors (R188, R189) -/

theorem Vectored.vlde (hn : (portSc s 6 1).v.toNat < 0x10000) :
    ((trigSc s src).v.toNat % 16 ≠ 0 → exec (.vlde g src) s = .next (trapped s ⟨0x12, (trigSc s src).v.toNat, 16⟩))
    ∧ ((trigSc s src).v.toNat % 16 = 0 → 0x300000 < (trigSc s src).v.toNat + 16 →
      exec (.vlde g src) s = .next (trapped s ⟨0x06, (trigSc s src).v.toNat, 0⟩)) := by
  obtain ⟨hmis, hout⟩ := Performs.scalarTraps (i := Instr.vlde) (op := vldeOp) (field := 209) (row := inSpad) (n := 16) (kind := 0) {} h.ready
    (trigSc s src).v.toNat fun _ he => vldeOp_error (h.btP hbP 209) (Nat.not_lt.2 (Nat.le_of_lt_succ hn)) he
  exact ⟨hmis, fun hal hin => hout hal (decide_eq_false (Nat.not_le.2 hin))⟩

theorem Vectored.vlde_illegal (hn : 0x10000 ≤ (portSc s 6 1).v.toNat) : exec (.vlde g src) s = .next (trapped s ⟨0x01, s.sel.slot, 0⟩) :=
  Performs.exec_error (op := vldeOp) (field := 209) {} h.ready ((if_neg (h.btP hbP 209)).trans (if_pos (Nat.lt_of_succ_le hn)))

end
end

/-- The operands of VSTP that R189 allows. -/
def PackLegal (b c n0 o z0 fmt : Nat) : Prop :=
  b < 2 ^ 32 ∧ c < 2 ^ 56 ∧ 1 ≤ fmt ∧ fmt ≤ 8 ∧ o < n0 ∧ o % 8 = 0 ∧ z0 ≤ o
/-- The elements of a segment that VSTP packs, and the bytes of the sparse vector with it. -/
def packElems (v : List Lane) (n0 o fmt : Nat) : List (List Byte) :=
  (List.range (min (512 / P4.codeSize fmt) (n0 - o))).map (segElem v (P4.codeSize fmt))
def packTotal (v : List Lane) (n0 o z0 fmt : Nat) : Nat :=
  16 + ceilTo 16 ((n0 + 7) / 8) + ceilTo 16 ((z0 + ((packElems v n0 o fmt).filter fun e => !P4.codeZero fmt e).length) * P4.codeSize fmt)
/-- The low field of operand c. -/
theorem bits_low (c : Nat) : bits c 15 0 = c % 2 ^ 16 := by simp [bits]

theorem packLegal_iff (b c n0 o z0 fmt : Nat) : ¬ (2 ^ 32 ≤ b ∨ 2 ^ 56 ≤ c ∨ fmt = 0 ∨ 8 < fmt ∨ n0 = 0 ∨ n0 ≤ o ∨ o % 8 ≠ 0 ∨ o < z0)
    ↔ PackLegal b c n0 o z0 fmt := by
  simp only [not_or, not_le, not_lt, not_not, PackLegal, Nat.one_le_iff_ne_zero]
  constructor
  · rintro ⟨hb, hc, hf, hf8, -, ho⟩
    exact ⟨hb, hc, hf, hf8, ho⟩
  · rintro ⟨hb, hc, hf, hf8, ho, hz⟩
    exact ⟨hb, hc, hf, hf8, Nat.ne_zero_of_lt ho, ho, hz⟩

section
variable {s : State} {g : Guard} {src : Source} (h : Vectored s g src) (hbP : (portSc s 6 1).p = false) (hcP : (portSc s 6 2).p = false)
  {b c : Nat} (hb : b = (portSc s 6 1).v.toNat) (hc : c = (portSc s 6 2).v.toNat)
include h hbP hcP

theorem Vectored.bctP : ¬ ((given s 210 .s src).bP || (given s 210 .s src).cP || (given s 210 .s src).tP) = true := by
  simp [hbP, hcP, h.clean]

include hb hc

theorem Vectored.vstp_illegal (hbad : ¬ PackLegal b c (bits c 15 0) (bits c 31 16) (bits c 47 32) (bits c 55 48)) :
    exec (.vstp g src) s = .next (trapped s ⟨0x01, s.sel.slot, 0⟩) := by
  subst hb hc
  exact Performs.exec_error (op := vstpOp) (field := 210) {} h.ready
    ((if_neg (h.bctP hbP hcP)).trans (if_pos (not_not.1 fun hno => hbad ((packLegal_iff _ _ _ _ _ _).1 hno))))

variable (hlegal : PackLegal b c (bits c 15 0) (bits c 31 16) (bits c 47 32) (bits c 55 48))
include hlegal

theorem Vectored.vstp_misaligned (hmis : (trigSc s src).v.toNat % 16 ≠ 0) :
    exec (.vstp g src) s = .next (trapped s ⟨0x12, (trigSc s src).v.toNat, 16⟩) := by
  subst hb hc
  exact Performs.exec_error (op := vstpOp) (field := 210) {} h.ready
    ((if_neg (h.bctP hbP hcP)).trans ((if_neg ((packLegal_iff _ _ _ _ _ _).2 hlegal)).trans (if_pos hmis)))

variable (hal : (trigSc s src).v.toNat % 16 = 0)
include hal

theorem Vectored.vstp_outside (hout : 0x300000 < (trigSc s src).v.toNat + packTotal (portVec s 6 0) (bits c 15 0) (bits c 31 16) (bits c 47 32) (bits c 55 48)) :
    exec (.vstp g src) s = .next (trapped s ⟨0x06, (trigSc s src).v.toNat, 1⟩) := by
  subst hb hc
  exact Performs.exec_error (op := vstpOp) (field := 210) {} h.ready
    ((if_neg (h.bctP hbP hcP)).trans ((if_neg ((packLegal_iff _ _ _ _ _ _).2 hlegal)).trans ((if_neg (not_not.2 hal)).trans (if_pos hout))))

theorem Vectored.vstp_reserve (hin : (trigSc s src).v.toNat + packTotal (portVec s 6 0) (bits c 15 0) (bits c 31 16) (bits c 47 32) (bits c 55 48) ≤ 0x300000)
    (hover : b < packTotal (portVec s 6 0) (bits c 15 0) (bits c 31 16) (bits c 47 32) (bits c 55 48)) :
    exec (.vstp g src) s = .next (trapped s ⟨0x0A, packTotal (portVec s 6 0) (bits c 15 0) (bits c 31 16) (bits c 47 32) (bits c 55 48), b⟩) := by
  subst hb hc
  exact Performs.exec_error (op := vstpOp) (field := 210) {} h.ready
    ((if_neg (h.bctP hbP hcP)).trans ((if_neg ((packLegal_iff _ _ _ _ _ _).2 hlegal)).trans ((if_neg (not_not.2 hal)).trans
      ((if_neg (Nat.not_lt.2 hin)).trans (if_pos hover)))))

end

/-! ## Gathers and scatters (R185) -/

section
variable {s : State} {g : Guard} {src : Source}

theorem gather_traps (hq : Quiet s) (hr : Room s 1 0 1) (hsnap : (own s).snap = none) (hb : Brings s g src .v) (hbP : (portSc s 6 1).p = false)
    (ht : (trigVec s src).any (·.p) = false) :
    LaneTraps s InLocal (.vldg g src) (fun l => ((portSc s 6 1).v.toNat + (laneAt (trigVec s src) l).v.toNat) % 2 ^ 64) 4 0 (fun _ => True)
    ∧ LaneTraps s InLocal (.vstg g src) (fun l => ((portSc s 6 1).v.toNat + (laneAt (trigVec s src) l).v.toNat) % 2 ^ 64) 4 1 fun _ => True := by
  have hclean : ¬ ((portSc s 6 1).p || (trigVec s src).any (·.p)) = true := Bool.eq_false_iff.1 (Bool.or_eq_false_iff.2 ⟨hbP, ht⟩)
  refine ⟨?_, ?_⟩
  · exact Performs.allLanesTrap (op := vldgOp) (field := 198) {} ⟨hq, hb, hr.mono (le_refl 1) (le_refl 0) (Nat.zero_le 1), hsnap⟩
      (fun _ => loadable_iff) fun _ he => (if_neg hclean).trans (laneLoad_error he)
  · exact Performs.allLanesTrap (op := vstgOp) (field := 202) {} ⟨hq, hb, room_none s, hsnap⟩
      (fun _ => loadable_iff) fun _ he => (if_neg hclean).trans (laneStore_error he)

end
end Sys2Proof.Machine
end
section
/-! SUPPORT. The checks of global accesses (R176): coverage, alignment, permission and aliases, in this order. -/

namespace Sys2Proof.Machine

section
variable {c : Ctx} {pos va n : Nat}

/-! ## Coverage (R169) -/

/-- One byte's part in the coverage of an access. -/
def coverStep (c : Ctx) (pos va i : Nat) (acc : Except Nat (List GByte)) : Except Nat (List GByte) :=
  if 2 ^ 56 ≤ va + i then .error va
  else match pinFor c pos (va + i), acc with
    | some q, .ok r => .ok (⟨pinAt q (va + i), q.pte.toNat⟩ :: r)
    | _, _ => .error va

theorem coverBytes_eq : coverBytes c pos va n = (List.range n).foldr (coverStep c pos va) (.ok []) := rfl

theorem coverStep_pin {i : Nat} {q : Pin} {r : List GByte} (hlt : va + i < 2 ^ 56) (hpin : pinFor c pos (va + i) = some q) :
    coverStep c pos va i (.ok r) = .ok (⟨pinAt q (va + i), q.pte.toNat⟩ :: r) := by
  unfold coverStep
  rw [if_neg (Nat.not_le.2 hlt), hpin]

theorem coverStep_bare {i : Nat} (h : 2 ^ 56 ≤ va + i ∨ pinFor c pos (va + i) = none) (acc : Except Nat (List GByte)) :
    coverStep c pos va i acc = .error va := by
  unfold coverStep
  rcases h with h | h
  · rw [if_pos h]
  · rw [h]
    exact ite_self _

theorem coverStep_error (i : Nat) : coverStep c pos va i (.error va) = .error va := by
  unfold coverStep
  split
  · rfl
  · cases pinFor c pos (va + i) <;> rfl

/-- What the bytes of an access are when each has a pin. -/
def pinBytes (q : Nat → Pin) (va n : Nat) : List GByte := (List.range n).map fun i => ⟨pinAt (q i) (va + i), (q i).pte.toNat⟩

theorem coverBytes_pins {q : Nat → Pin} (h : ∀ i, i < n → va + i < 2 ^ 56 ∧ pinFor c pos (va + i) = some (q i)) :
    coverBytes c pos va n = .ok (pinBytes q va n) := by
  rw [coverBytes_eq, pinBytes]
  have hall : ∀ i ∈ List.range n, va + i < 2 ^ 56 ∧ pinFor c pos (va + i) = some (q i) := fun i hi => h i (List.mem_range.1 hi)
  generalize List.range n = l at hall
  induction l with
  | nil => rfl
  | cons i l ih =>
    obtain ⟨⟨hlt, hpin⟩, hl⟩ := List.forall_mem_cons.1 hall
    rw [List.foldr_cons, ih hl, coverStep_pin hlt hpin, List.map_cons]

theorem coverBytes_bare (h : ∃ i, i < n ∧ (2 ^ 56 ≤ va + i ∨ pinFor c pos (va + i) = none)) : coverBytes c pos va n = .error va := by
  obtain ⟨i, hi, hbare⟩ := h
  have hmem : i ∈ List.range n := List.mem_range.2 hi
  rw [coverBytes_eq]
  generalize List.range n = l at hmem
  induction l with
  | nil => cases hmem
  | cons j l ih =>
    rw [List.foldr_cons]
    rcases List.mem_cons.1 hmem with rfl | hmem
    · exact coverStep_bare hbare _
    · rw [ih hmem]
      exact coverStep_error j

end

section
variable {s u : State} {x : OpIn} {as : List Nat} {va n align kind : Nat} {q : Pin} {bytes : Nat → List GByte} {e : Trap}

/-- The operation reads the pins of the selected context at its own position. -/
def Asks (x : OpIn) (s : State) : Prop := x.c0 = view s ∧ x.pos = (view s).bclk

/-- The bytes of the access at each address have pins. -/
def Touches (s : State) (as : List Nat) (n : Nat) (bytes : Nat → List GByte) : Prop :=
  ∀ a ∈ as, coverBytes (view s) (view s).bclk a n = .ok (bytes a)

theorem reached_bytes (h : Reached s va n q) : coverBytes (view s) (view s).bclk va n = .ok (pinBytes (fun _ => q) va n) := by
  obtain ⟨hlt, hpin⟩ := h
  exact coverBytes_pins fun i hi => ⟨by omega, hpin i hi⟩

/-- An access that is not untouched has a pin for each byte. -/
theorem touched_bytes (h : ¬ Untouched s va n) : ∃ bs, coverBytes (view s) (view s).bclk va n = .ok bs := by
  have hpin : ∀ i, ∃ q, i < n → va + i < 2 ^ 56 ∧ pinFor (view s) (view s).bclk (va + i) = some q := by
    intro i
    by_cases hi : i < n
    · have hbyte : ¬ (2 ^ 56 ≤ va + i ∨ pinFor (view s) (view s).bclk (va + i) = none) := fun hbare => h ⟨i, hi, hbare⟩
      rw [not_or, Nat.not_le] at hbyte
      obtain ⟨q, hq⟩ := Option.ne_none_iff_exists'.1 hbyte.2
      exact ⟨q, fun _ => ⟨hbyte.1, hq⟩⟩
    · exact ⟨⟨0, 0, 0, 0, 0, 0⟩, fun hlt => absurd hlt hi⟩
  choose q hq using hpin
  exact ⟨_, coverBytes_pins hq⟩

theorem coverLanes_bare {pre post : List Nat} {a : Nat} (hx : Asks x s) (hpre : ∀ b ∈ pre, ¬ Untouched s b n) (ha : Untouched s a n) :
    coverLanes x n (pre ++ a :: post) = .error (noTouch x a) := by
  obtain ⟨hc0, hpos⟩ := hx
  induction pre with
  | nil => simp only [List.nil_append, coverLanes, hc0, hpos, coverBytes_bare ha]
  | cons b pre ih =>
    obtain ⟨hb, hpre⟩ := List.forall_mem_cons.1 hpre
    obtain ⟨bs, hbs⟩ := touched_bytes hb
    simp only [List.cons_append, coverLanes, hc0, hpos, hbs, ih hpre]

theorem coverLanes_bytes (hx : Asks x s) (h : Touches s as n bytes) : coverLanes x n as = .ok (as.map bytes) := by
  obtain ⟨hc0, hpos⟩ := hx
  induction as with
  | nil => rfl
  | cons a as ih =>
    obtain ⟨ha, h⟩ := List.forall_mem_cons.1 h
    simp only [coverLanes, hc0, hpos, ha, ih h, List.map_cons]

/-! ## Permission (R303) -/

theorem permitted_pinBytes (hn : 0 < n) : permitted kind (pinBytes (fun _ => q) va n) = false ↔ Denied kind q.pte.toNat := by
  have hall : permitted kind (pinBytes (fun _ => q) va n) = (if kind = 0 then pteRead q.pte.toNat && !pteMulti q.pte.toNat
      else if kind = 1 then pteWrite q.pte.toNat else pteRead q.pte.toNat && pteWrite q.pte.toNat && !pteMulti q.pte.toNat) := by
    have hmem : 0 ∈ List.range n := List.mem_range.2 hn
    simp only [permitted, pinBytes, List.all_map, Function.comp_def]
    generalize (if kind = 0 then pteRead q.pte.toNat && !pteMulti q.pte.toNat
      else if kind = 1 then pteWrite q.pte.toNat else pteRead q.pte.toNat && pteWrite q.pte.toNat && !pteMulti q.pte.toNat) = b
    cases b
    · exact Bool.eq_false_iff.2 fun hall => Bool.false_ne_true (List.all_eq_true.1 hall 0 hmem)
    · exact List.all_eq_true.2 fun _ _ => rfl
  rw [hall, Denied]
  generalize pteRead q.pte.toNat = r, pteWrite q.pte.toNat = w, pteMulti q.pte.toNat = m
  by_cases h0 : kind = 0
  · cases r <;> cases m <;> simp [h0]
  · by_cases h1 : kind = 1
    · simp [h1]
    · cases r <;> cases w <;> cases m <;> simp [h0, h1]

theorem permitted_of_not_denied (hn : 0 < n) (h : ¬ Denied kind q.pte.toNat) : permitted kind (pinBytes (fun _ => q) va n) = true :=
  Bool.eq_true_of_not_eq_false fun hno => h ((permitted_pinBytes hn).1 hno)

/-! ## The checks in order -/

theorem zip_map_self {α β : Type} (f : α → β) (l : List α) : l.zip (l.map f) = l.map fun a => (a, f a) := by
  induction l with
  | nil => rfl
  | cons a l ih => rw [List.map_cons, List.zip_cons_cons, ih, List.map_cons]

theorem globalCheck_bare {pre post : List Nat} {a : Nat} (hx : Asks x s) (hpre : ∀ b ∈ pre, ¬ Untouched s b n) (ha : Untouched s a n) :
    globalCheck x u (pre ++ a :: post) n align kind = .error ⟨0x07, a, x.slot⟩ := by
  simp only [globalCheck, coverLanes_bare hx hpre ha]
  rfl

theorem globalCheck_misaligned {a : Nat} (hx : Asks x s) (h : Touches s as n bytes) (ha : firstFail (fun a => a % align == 0) as = some a) :
    globalCheck x u as n align kind = .error ⟨0x12, a, align⟩ := by
  simp only [globalCheck, coverLanes_bytes hx h, ha]
  rfl

theorem globalCheck_denied {a : Nat} (hx : Asks x s) (h : Touches s as n bytes) (hal : ∀ a ∈ as, a % align = 0)
    (ha : firstFail (fun a => permitted kind (bytes a)) as = some a) : globalCheck x u as n align kind = .error ⟨0x06, a, kind⟩ := by
  have hfind : (as.zip (as.map bytes)).find? (fun l => !permitted kind l.2) = some (a, bytes a) := by
    rw [zip_map_self, List.find?_map]
    exact congrArg (Option.map _) ha
  simp only [globalCheck, coverLanes_bytes hx h, firstFail_aligned hal, hfind]
  rfl

/-- One address that passes coverage, alignment and permission either meets the trap of R304 or passes. -/
theorem globalCheck_permitted (hx : Asks x s) (h : Touches s [va] n bytes) (hal : va % align = 0) (hp : permitted kind (bytes va) = true) :
    globalCheck x u [va] n align kind = match aliasTrap u va (bytes va) with | some e => .error e | none => .ok [bytes va] := by
  have hal : ∀ a ∈ [va], a % align = 0 := by simpa using hal
  simp only [globalCheck, coverLanes_bytes hx h, firstFail_aligned hal, List.map_cons, List.map_nil, List.zip_cons_cons, List.zip_nil_right,
    List.find?_cons, List.find?_nil, hp, Bool.not_true, List.findSome?_cons, List.findSome?_nil]
  cases aliasTrap u va (bytes va) <;> rfl

theorem globalCheck_alias (hx : Asks x s) (h : Touches s [va] n bytes) (hal : va % align = 0) (hp : permitted kind (bytes va) = true)
    (ha : aliasTrap u va (bytes va) = some e) : globalCheck x u [va] n align kind = .error e := by
  rw [globalCheck_permitted hx h hal hp, ha]

theorem globalCheck_passes (hx : Asks x s) (h : Touches s [va] n bytes) (hal : va % align = 0) (hp : permitted kind (bytes va) = true)
    (ha : aliasTrap u va (bytes va) = none) : globalCheck x u [va] n align kind = .ok [bytes va] := by
  rw [globalCheck_permitted hx h hal hp, ha]

end
end Sys2Proof.Machine
end
section
/-! SUPPORT. Where global scalars and vectors, atomics and barrier accesses trap (R183, R184, R190, R194). -/

namespace Sys2Proof.Machine

/-- Where a global access of `n` bytes at `va` traps. -/
def GlobalTraps (s : State) (i : Instr) (va n kind : Nat) : Prop :=
  (Untouched s va n → exec i s = .next (trapped s ⟨0x07, va, s.sel.slot⟩))
  ∧ ∀ q, Reached s va n q → (va % n ≠ 0 → exec i s = .next (trapped s ⟨0x12, va, n⟩))
    ∧ (va % n = 0 → Denied kind q.pte.toNat → exec i s = .next (trapped s ⟨0x06, va, kind⟩))
    ∧ (∀ t, va % n = 0 → ¬ Denied kind q.pte.toNat →
      aliasTrap s va ((List.range n).map fun i => ⟨pinAt q (va + i), q.pte.toNat⟩) = some t → exec i s = .next (trapped s t))

/-- Where a global vector access at `w` traps. -/
def GlobalLanesTrap (s : State) (w : Nat) (i : Instr) (kind : Nat) : Prop :=
  (∀ l, l < 128 → Untouched s (w + 4 * l) 4 → (∀ k, k < l → ¬ Untouched s (w + 4 * k) 4) → exec i s = .next (trapped s ⟨0x07, w + 4 * l, s.sel.slot⟩))
  ∧ ((∀ l, l < 128 → ¬ Untouched s (w + 4 * l) 4) →
    (w % 4 ≠ 0 → exec i s = .next (trapped s ⟨0x12, w, 4⟩))
    ∧ ∀ l q, w % 4 = 0 → l < 128 → Reached s (w + 4 * l) 4 q → Denied kind q.pte.toNat →
      (∀ k, k < l → ∃ r, Reached s (w + 4 * k) 4 r ∧ ¬ Denied kind r.pte.toNat) → exec i s = .next (trapped s ⟨0x06, w + 4 * l, kind⟩))

section
variable {s : State} {g : Guard} {src : Source} {field va w n kind : Nat} {i : Guard → Source → Instr} {op : OpDef}

theorem given_asks (ty : Ty) : Asks (given s field ty src) s := ⟨rfl, rfl⟩

theorem touches_reached {q : Pin} (h : Reached s va n q) : Touches s [va] n fun _ => pinBytes (fun _ => q) va n := by
  intro a ha
  rw [List.mem_singleton.1 ha]
  exact reached_bytes h

theorem Performs.globalTraps (h : Performs i op field) (hy : Ready s g src op) (hn : 0 < n)
    (hrun : ∀ e, globalCheck (given s field op.ty src) (started s src) [va] n n kind = .error e →
      op.run (given s field op.ty src) (started s src) = .error e) : GlobalTraps s (i g src) va n kind := by
  refine ⟨fun hbare => h.exec_error hy (hrun _ (globalCheck_bare (pre := []) (given_asks _) (by simp) hbare)), fun q hq => ?_⟩
  have htouch := touches_reached hq
  refine ⟨fun hmis => ?_, fun hal hden => ?_, fun t hal hden ha => ?_⟩
  · exact h.exec_error hy (hrun _ (globalCheck_misaligned (given_asks _) htouch (firstFail_single (by simpa using hmis))))
  · exact h.exec_error hy (hrun _ (globalCheck_denied (given_asks _) htouch (by simpa using hal)
      (firstFail_single ((permitted_pinBytes hn).2 hden))))
  · exact h.exec_error hy (hrun _ (globalCheck_alias (given_asks _) htouch hal (permitted_of_not_denied hn hden) ha))

/-! ## Lanes -/

theorem lanes_split {l : Nat} (hl : l < 128) : ∃ post, unitAddrs w 4 = (List.range l).map (fun k => w + 4 * k) ++ (w + 4 * l) :: post := by
  obtain ⟨m, hm⟩ := Nat.exists_eq_add_of_lt hl
  refine ⟨(List.range m).map fun k => w + 4 * (l + (k + 1)), ?_⟩
  have hrange : List.range 128 = List.range l ++ l :: (List.range m).map fun k => l + (k + 1) := by
    rw [hm, Nat.add_assoc, List.range_add, List.range_succ_eq_map, List.map_cons, List.map_map]
    rfl
  rw [unitAddrs, hrange, List.map_append, List.map_cons, List.map_map]
  rfl

theorem touches_lanes (h : ∀ l, l < 128 → ¬ Untouched s (w + 4 * l) 4) : ∃ bytes, Touches s (unitAddrs w 4) 4 bytes := by
  have hbytes : ∀ a, ∃ bs, a ∈ unitAddrs w 4 → coverBytes (view s) (view s).bclk a 4 = .ok bs := by
    intro a
    by_cases ha : a ∈ unitAddrs w 4
    · obtain ⟨l, hl, rfl⟩ := List.mem_map.1 ha
      obtain ⟨bs, hbs⟩ := touched_bytes (h l (List.mem_range.1 hl))
      exact ⟨bs, fun _ => hbs⟩
    · exact ⟨[], fun hmem => absurd hmem ha⟩
  choose bytes hb using hbytes
  exact ⟨bytes, hb⟩

theorem Touches.reached {bytes : Nat → List GByte} {q : Pin} {l : Nat} (h : Touches s (unitAddrs w 4) 4 bytes) (hl : l < 128)
    (hq : Reached s (w + 4 * l) 4 q) : bytes (w + 4 * l) = pinBytes (fun _ => q) (w + 4 * l) 4 := by
  have hok := h (w + 4 * l) (List.mem_map.2 ⟨l, List.mem_range.2 hl, rfl⟩)
  rw [reached_bytes hq] at hok
  exact (Except.ok.inj hok).symm

theorem Performs.globalLanesTrap (h : Performs i op field) (hy : Ready s g src op)
    (hrun : ∀ e, globalCheck (given s field op.ty src) (started s src) (unitAddrs w 4) 4 4 kind = .error e →
      op.run (given s field op.ty src) (started s src) = .error e) : GlobalLanesTrap s w (i g src) kind := by
  refine ⟨fun l hl hbare hbefore => ?_, fun hall => ?_⟩
  · obtain ⟨post, hpost⟩ := lanes_split (w := w) hl
    refine h.exec_error hy (hrun _ ?_)
    rw [hpost]
    exact globalCheck_bare (given_asks _) (by simpa using hbefore) hbare
  · obtain ⟨bytes, htouch⟩ := touches_lanes hall
    have hlanes : unitAddrs w 4 = lanesOn (fun _ => true) fun l => w + 4 * l := (lanesOn_all _).symm
    refine ⟨fun hmis => ?_, fun l q hal hl hq hden hbefore => ?_⟩
    · refine h.exec_error hy (hrun _ (globalCheck_misaligned (given_asks _) htouch ?_))
      rw [hlanes]
      exact firstFail_lanesOn (l := 0) (by decide) rfl (by simpa using hmis) fun k hk => absurd hk (Nat.not_lt_zero k)
    · refine h.exec_error hy (hrun _ (globalCheck_denied (given_asks _) htouch (fun a ha => ?_) ?_))
      · obtain ⟨k, -, rfl⟩ := List.mem_map.1 ha
        omega
      · rw [hlanes]
        refine firstFail_lanesOn hl rfl ?_ fun k hk _ => ?_
        · rw [htouch.reached hl hq, permitted_pinBytes (by decide)]
          exact hden
        · obtain ⟨r, hr, hallow⟩ := hbefore k hk
          rw [htouch.reached (hk.trans hl) hr]
          exact permitted_of_not_denied (by decide) hallow

/-! ## An access that a pin covers -/

theorem covered_passes {q : Pin} (hc : Covered s va n q) (hn : 0 < n) (hal : va % n = 0) (hden : ¬ Denied kind q.pte.toNat) (ty : Ty) :
    globalCheck (given s field ty src) (started s src) [va] n n kind = .ok [pinBytes (fun _ => q) va n] := by
  obtain ⟨hlt, hpin, -, hlines⟩ := hc
  exact globalCheck_passes (given_asks _) (touches_reached ⟨hlt, hpin⟩) hal
    (permitted_of_not_denied hn hden) (aliasTrap_noLines hlines _ _)

theorem pinBytes_all {q : Nat → Pin} {p : Nat → Bool} (hn : 0 < n) (h : p (pinAt (q 0) va) = false) :
    (pinBytes q va n).all (fun b => p b.pa) = false :=
  List.all_eq_false.2 ⟨_, List.mem_map.2 ⟨0, List.mem_range.2 hn, rfl⟩, Bool.eq_false_iff.1 h⟩

/-! ## Address words (R177) -/

theorem wordGlobal_local (h : w < 2 ^ 63) : wordGlobal w = none := by
  have hbit : bit w 63 = false := by
    unfold bit
    rw [Nat.div_eq_of_lt h]
    rfl
  rw [wordGlobal, hbit]
  rfl

theorem global_mod (h : 2 ^ 63 ≤ w) (hw : w < 2 ^ 64) : w % 2 ^ 63 = w - 2 ^ 63 :=
  (Nat.mod_eq_sub_mod h).trans (Nat.mod_eq_of_lt (Nat.sub_lt_left_of_lt_add h hw))

theorem wordGlobal_global (h : 2 ^ 63 ≤ w) (hw : w < 2 ^ 64) : wordGlobal w = some (w - 2 ^ 63) := by
  have hbit : bit w 63 = true := by
    rw [bit, Nat.div_eq_of_lt_le (k := 1) h hw]
    rfl
  rw [wordGlobal, hbit, if_pos rfl, global_mod h hw]

/-! ## Global scalars and vectors (R183, R190) -/

section
/- Without it a match does not unfold to the recursor that `check_error` speaks of. -/
set_option smartUnfolding false
variable {x : OpIn} {u : State} {e : Trap}

theorem gldOp_error (ht : ¬ (x.aP || x.cP || x.tP) = true) (ha : ¬ 8 ≤ x.aN)
    (h : globalCheck x u [x.tN] (2 ^ (x.aN % 4)) (2 ^ (x.aN % 4)) 0 = .error e) : gldOp.run x u = .error e :=
  (if_neg ht).trans ((if_neg ha).trans (check_error h))
theorem gstOp_error (ht : ¬ (x.bP || x.tP) = true) (hb : ¬ 4 ≤ x.bN) (h : globalCheck x u [x.tN] (2 ^ x.bN) (2 ^ x.bN) 1 = .error e) :
    gstOp.run x u = .error e :=
  (if_neg ht).trans ((if_neg hb).trans (check_error h))
theorem vgldOp_error (ht : ¬ (x.cP || x.tP) = true) (h : globalCheck x u (unitAddrs x.tN 4) 4 4 0 = .error e) : vgldOp.run x u = .error e :=
  (if_neg ht).trans (check_error h)
theorem vgstOp_error (ht : ¬ x.tP = true) (h : globalCheck x u (unitAddrs x.tN 4) 4 4 1 = .error e) : vgstOp.run x u = .error e :=
  (if_neg ht).trans (check_error h)

variable {keeps usesB : Bool} {f : OpIn → Bool → Word32 → Option Word32} {bs : List GByte}

theorem atomicOp_error (ht : ¬ (x.aP || (usesB && x.bP) || x.cP || x.tP) = true) (h : atomicTarget x u = .error e) :
    (atomicOp keeps usesB f).run x u = .error e :=
  (if_neg ht).trans (check_error h)
theorem atomicTarget_local (hw : wordGlobal x.tN = none) (h : localCheck [x.tN] 4 4 2 inAcc = .error e) : atomicTarget x u = .error e := by
  simp only [atomicTarget, hw, h]
theorem atomicTarget_global (hw : wordGlobal x.tN = some va) (h : globalCheck x u [va] 4 4 2 = .error e) : atomicTarget x u = .error e := by
  simp only [atomicTarget, hw, h]
theorem atomicTarget_elsewhere (hw : wordGlobal x.tN = some va) (h : globalCheck x u [va] 4 4 2 = .ok [bs]) (hacc : bs.all (fun b => isAcc b.pa) = false) :
    atomicTarget x u = .error (noPermit va 2) := by
  simp [atomicTarget, hw, h, hacc]

end

/-- Where an atomic traps, in its local and in its global form. -/
def AtomicTraps (s : State) (src : Source) (i : Instr) : Prop :=
  let w := (trigSc s src).v.toNat
  (w < 2 ^ 63 → (w % 4 ≠ 0 → exec i s = .next (trapped s ⟨0x12, w, 4⟩))
    ∧ (w % 4 = 0 → ¬ (0x400000 ≤ w ∧ w + 4 ≤ 0x500000) → exec i s = .next (trapped s ⟨0x06, w, 2⟩)))
  ∧ (2 ^ 63 ≤ w → GlobalTraps s i (w - 2 ^ 63) 4 2 ∧ ∀ q, Covered s (w - 2 ^ 63) 4 q → w % 4 = 0 → ¬ Denied 2 q.pte.toNat →
    isAcc (pinAt q (w - 2 ^ 63)) = false → exec i s = .next (trapped s ⟨0x06, w - 2 ^ 63, 2⟩))

/-- What a global access starts from. -/
structure Worldly (s : State) (g : Guard) (src : Source) : Prop where
  quiet : Quiet s
  brings : Brings s g src .s
  room : Room s 1 0 1
  free : (own s).snap = none
  clean : (trigSc s src).p = false

theorem Worldly.ready (h : Worldly s g src) (hty : op.ty = .s := by rfl) (hl : op.land ≤ 1 := by decide) (hv : op.vecs ≤ 0 := by decide)
    (hc : op.scs ≤ 1 := by decide) : Ready s g src op :=
  ⟨h.quiet, hty ▸ h.brings, h.room.mono hl hv hc, h.free⟩

section
variable (h : Worldly s g src)
include h

theorem Worldly.gld (ha : (portSc s 4 0).p = false) (hc : (portSc s 4 2).p = false) :
    ((portSc s 4 0).v.toNat < 8 → GlobalTraps s (.gld g src) (trigSc s src).v.toNat (2 ^ ((portSc s 4 0).v.toNat % 4)) 0)
    ∧ (8 ≤ (portSc s 4 0).v.toNat → exec (.gld g src) s = .next (trapped s ⟨0x01, s.sel.slot, 0⟩)) := by
  have hclean : ¬ ((given s 146 .s src).aP || (given s 146 .s src).cP || (given s 146 .s src).tP) = true := by simp [ha, hc, h.clean]
  refine ⟨fun hn => ?_, fun hn => Performs.exec_error (op := gldOp) (field := 146) {} h.ready ((if_neg hclean).trans (if_pos hn))⟩
  exact Performs.globalTraps (op := gldOp) (field := 146) {} h.ready (Nat.two_pow_pos _) fun e he => gldOp_error hclean (Nat.not_le.2 hn) he

theorem Worldly.gst (hb : (portSc s 4 1).p = false) :
    ((portSc s 4 1).v.toNat < 4 → GlobalTraps s (.gst g src) (trigSc s src).v.toNat (2 ^ (portSc s 4 1).v.toNat) 1)
    ∧ (4 ≤ (portSc s 4 1).v.toNat → exec (.gst g src) s = .next (trapped s ⟨0x01, s.sel.slot, 0⟩)) := by
  have hclean : ¬ ((given s 147 .s src).bP || (given s 147 .s src).tP) = true := by simp [hb, h.clean]
  refine ⟨fun hn => ?_, fun hn => Performs.exec_error (op := gstOp) (field := 147) {} h.ready ((if_neg hclean).trans (if_pos hn))⟩
  exact Performs.globalTraps (op := gstOp) (field := 147) {} h.ready (Nat.two_pow_pos _) fun e he => gstOp_error hclean (Nat.not_le.2 hn) he

theorem Worldly.vgld (hc : (portSc s 6 2).p = false) : GlobalLanesTrap s (trigSc s src).v.toNat (.vgld g src) 0 := by
  have hclean : ¬ ((given s 211 .s src).cP || (given s 211 .s src).tP) = true := by simp [hc, h.clean]
  exact Performs.globalLanesTrap (op := vgldOp) (field := 211) {} h.ready fun e he => vgldOp_error hclean he

theorem Worldly.vgst : GlobalLanesTrap s (trigSc s src).v.toNat (.vgst g src) 1 :=
  Performs.globalLanesTrap (op := vgstOp) (field := 212) {} h.ready fun _ he => vgstOp_error (Bool.eq_false_iff.1 h.clean) he

/-! ## Atomics (R184) -/

theorem Worldly.atomic {keeps usesB : Bool} {f : OpIn → Bool → Word32 → Option Word32} (hp : Performs i (atomicOp keeps usesB f) field)
    (hu : field / 32 = 4) (ha : (portSc s 4 0).p = false) (hb : (portSc s 4 1).p = false) (hc : (portSc s 4 2).p = false) :
    AtomicTraps s src (i g src) := by
  have hclean : ¬ ((given s field .s src).aP || (usesB && (given s field .s src).bP) || (given s field .s src).cP || (given s field .s src).tP) = true := by
    simp [hu, ha, hb, hc, h.clean]
  have hrun : ∀ e, atomicTarget (given s field .s src) (started s src) = .error e →
      (atomicOp keeps usesB f).run (given s field .s src) (started s src) = .error e := fun e he => atomicOp_error hclean he
  have hy : Ready s g src (atomicOp keeps usesB f) := h.ready rfl (le_refl 1) (le_refl 0) (Nat.zero_le 1)
  refine ⟨fun hw => ?_, fun hw => ?_⟩
  · obtain ⟨hmis, hout⟩ := hp.scalarTraps (row := inAcc) (n := 4) (kind := 2) hy (trigSc s src).v.toNat fun e he =>
      hrun e (atomicTarget_local (wordGlobal_local hw) he)
    refine ⟨hmis, fun hal hin => hout hal (Bool.eq_false_iff.2 fun hacc => hin ?_)⟩
    simpa [inAcc] using hacc
  · have hword := wordGlobal_global hw (trigSc s src).v.isLt
    refine ⟨hp.globalTraps hy (by decide) fun e he => hrun e (atomicTarget_global hword he), fun q hq hal hden hacc => ?_⟩
    have hal : ((trigSc s src).v.toNat - 2 ^ 63) % 4 = 0 := Nat.sub_mod_eq_zero_of_mod_eq hal
    exact hp.exec_error hy (hrun _ (atomicTarget_elsewhere hword (covered_passes hq (by decide) hal hden .s) (pinBytes_all (by decide) hacc)))

end

end
end Sys2Proof.Machine
end
section
/-! SUPPORT. Where barrier accesses trap (R194), and what a touch takes (R182, R305, R306). -/

namespace Sys2Proof.Machine

/-! ## Barrier words (R194, R195) -/

section
/- Without it a match does not unfold to the recursor that `check_error` speaks of. -/
set_option smartUnfolding false
variable {x : OpIn} {u : State} {e : Trap} {va kind : Nat} {bytes : Bool} {bs : List GByte}

theorem barTarget_local (hw : wordGlobal x.tN = none) : barTarget x u kind = if x.tN % 16 ≠ 0 then .error (misaligned x.tN 16)
    else if inSpad x.tN 16 then .ok (physSpad x.who.clId x.tN) else .error (misuse x 2) := by
  simp only [barTarget, hw]
theorem barTarget_global (hw : wordGlobal x.tN = some va) (h : globalCheck x u [va] 16 16 kind = .error e) : barTarget x u kind = .error e := by
  simp only [barTarget, hw, h]
theorem barTarget_elsewhere (hw : wordGlobal x.tN = some va) (h : globalCheck x u [va] 16 16 kind = .ok [bs])
    (hs : isSpad ((bs.map (·.pa)).headD 0) = false) : barTarget x u kind = .error (misuse x 2) := by
  simp only [barTarget, hw, h, List.flatten_cons, List.flatten_nil, List.append_nil, hs, Bool.false_eq_true, if_false]

theorem binitOp_error (ht : ¬ (x.aP || x.tP) = true) (ha : ¬ (x.aN / 2 ^ 56 ≠ 0 ∨ x.aN = 0)) (h : barTarget x u 2 = .error e) :
    binitOp.run x u = .error e :=
  (if_neg ht).trans ((if_neg ha).trans (check_error h))
theorem arriveOp_error (ht : ¬ ((bytes && x.aP) || x.tP) = true) (ha : ¬ (bytes && decide (2 ^ 40 ≤ x.aN)) = true) (h : barTarget x u 2 = .error e) :
    (arriveOp bytes).run x u = .error e :=
  (if_neg ht).trans ((if_neg ha).trans (check_error h))
theorem btstOp_error (ht : ¬ (x.cP || x.tP) = true) (h : barTarget x u 0 = .error e) : btstOp.run x u = .error e :=
  (if_neg ht).trans (check_error h)
theorem bwaitOp_error (ht : ¬ (x.aP || x.tP) = true) (ha : ¬ 1 < x.aN) (h : barTarget x u 0 = .error e) : bwaitOp.run x u = .error e :=
  (if_neg ht).trans ((if_neg ha).trans (check_error h))

end

theorem pinBytes_headD {q : Nat → Pin} {va n : Nat} (hn : 0 < n) : ((pinBytes q va n).map (·.pa)).headD 0 = pinAt (q 0) va := by
  obtain ⟨m, rfl⟩ := Nat.exists_eq_succ_of_ne_zero hn.ne'
  rw [pinBytes, List.range_succ_eq_map]
  rfl

/-- Where a barrier access of a kind traps, in its local and in its global form. -/
def BarrierTraps (s : State) (src : Source) (i : Instr) (kind : Nat) : Prop :=
  let w := (trigSc s src).v.toNat
  (w < 2 ^ 63 → (w % 16 ≠ 0 → exec i s = .next (trapped s ⟨0x12, w, 16⟩))
    ∧ (w % 16 = 0 → 0x300000 < w + 16 → exec i s = .next (trapped s ⟨0x0D, w, 2⟩)))
  ∧ (2 ^ 63 ≤ w → GlobalTraps s i (w - 2 ^ 63) 16 kind ∧ ∀ q, Covered s (w - 2 ^ 63) 16 q → w % 16 = 0 → ¬ Denied kind q.pte.toNat →
    isSpad (pinAt q (w - 2 ^ 63)) = false → exec i s = .next (trapped s ⟨0x0D, w - 2 ^ 63, 2⟩))

section
variable {s : State} {g : Guard} {src : Source} {field kind : Nat} {i : Guard → Source → Instr} {op : OpDef}

theorem Performs.barrierTraps (hp : Performs i op field) (hy : Ready s g src op) (hty : op.ty = .s)
    (hrun : ∀ e, barTarget (given s field .s src) (started s src) kind = .error e → op.run (given s field .s src) (started s src) = .error e) :
    BarrierTraps s src (i g src) kind := by
  have hrun : ∀ e, barTarget (given s field .s src) (started s src) kind = .error e →
      op.run (given s field op.ty src) (started s src) = .error e := hty ▸ hrun
  refine ⟨fun hw => ?_, fun hw => ?_⟩
  · have hbar := barTarget_local (x := given s field .s src) (u := started s src) (kind := kind) (wordGlobal_local hw)
    refine ⟨fun hmis => hp.exec_error hy (hrun _ (hbar.trans (if_pos hmis))), fun hal hout => hp.exec_error hy (hrun _ (hbar.trans ?_))⟩
    have hspad : ¬ inSpad (trigSc s src).v.toNat 16 = true := fun h => Nat.not_le.2 hout (of_decide_eq_true h)
    have haddr : misuse (given s field .s src) 2 = ⟨0x0D, (trigSc s src).v.toNat, 2⟩ := by
      rw [misuse, given_tN, wordAddr, Nat.mod_eq_of_lt hw]
    exact (if_neg (not_not.2 hal)).trans ((if_neg hspad).trans (congrArg _ haddr))
  · have hword := wordGlobal_global hw (trigSc s src).v.isLt
    have haddr : misuse (given s field .s src) 2 = ⟨0x0D, (trigSc s src).v.toNat - 2 ^ 63, 2⟩ := by
      rw [misuse, given_tN, wordAddr, global_mod hw (trigSc s src).v.isLt]
    refine ⟨hp.globalTraps hy (by decide) fun e he => hrun e (barTarget_global hword (hty ▸ he)), fun q hq hal hden hspad => ?_⟩
    have hal : ((trigSc s src).v.toNat - 2 ^ 63) % 16 = 0 := Nat.sub_mod_eq_zero_of_mod_eq hal
    rw [← haddr]
    exact hp.exec_error hy (hrun _ (barTarget_elsewhere hword (covered_passes hq (by decide) hal hden .s)
      ((congrArg isSpad (pinBytes_headD (by decide))).trans hspad)))

variable (h : Worldly s g src)
include h

theorem Worldly.barriers : ∀ r ∈ ([(Instr.binit, 2, (portSc s 17 0).p = false ∧ 0 < (portSc s 17 0).v.toNat ∧ (portSc s 17 0).v.toNat < 2 ^ 56),
      (Instr.barv, 2, True), (Instr.bexp, 2, (portSc s 17 0).p = false ∧ (portSc s 17 0).v.toNat < 2 ^ 40),
      (Instr.btst, 0, (portSc s 17 2).p = false), (Instr.bwait, 0, (portSc s 17 0).p = false ∧ (portSc s 17 0).v.toNat ≤ 1)]
      : List ((Guard → Source → Instr) × Nat × Prop)), r.2.2 → BarrierTraps s src (r.1 g src) r.2.1 := by
  simp only [List.forall_mem_cons, List.not_mem_nil, false_implies, implies_true, and_true]
  refine ⟨?_, fun _ => ?_, ?_, fun hp => ?_, ?_⟩
  · rintro ⟨hp, hpos, hlt⟩
    refine Performs.barrierTraps (op := binitOp) (field := 548) {} h.ready rfl fun e he => binitOp_error (by simp [hp, h.clean]) ?_ he
    rw [given_aN, Nat.div_eq_of_lt hlt]
    exact not_or.2 ⟨not_not.2 rfl, hpos.ne'⟩
  · exact Performs.barrierTraps (op := arriveOp false) (field := 549) {} h.ready rfl fun e he => arriveOp_error (by simp [h.clean]) (by simp) he
  · rintro ⟨hp, hlt⟩
    refine Performs.barrierTraps (op := arriveOp true) (field := 550) {} h.ready rfl fun e he => arriveOp_error (by simp [hp, h.clean]) ?_ he
    exact fun hle => Nat.not_le.2 hlt (of_decide_eq_true hle)
  · exact Performs.barrierTraps (op := btstOp) (field := 551) {} h.ready rfl fun e he => btstOp_error (by simp [hp, h.clean]) he
  · rintro ⟨hp, hle⟩
    exact Performs.barrierTraps (op := bwaitOp) (field := 552) {} h.ready rfl fun e he => bwaitOp_error (by simp [hp, h.clean]) (Nat.not_lt.2 hle) he

theorem Worldly.misuses (hp : (portSc s 17 0).p = false) :
    (((portSc s 17 0).v = 0 ∨ 2 ^ 56 ≤ (portSc s 17 0).v.toNat) → exec (.binit g src) s = .next (trapped s ⟨0x0D, (trigSc s src).v.toNat % 2 ^ 63, 1⟩))
    ∧ (1 < (portSc s 17 0).v.toNat → exec (.bwait g src) s = .next (trapped s ⟨0x0D, (trigSc s src).v.toNat % 2 ^ 63, 3⟩))
    ∧ (2 ^ 40 ≤ (portSc s 17 0).v.toNat → exec (.bexp g src) s = .next (trapped s ⟨0x0D, (trigSc s src).v.toNat % 2 ^ 63, 4⟩)) := by
  have hclean : ¬ ((portSc s 17 0).p || (trigSc s src).p) = true := by simp [hp, h.clean]
  refine ⟨fun ha => ?_, fun ha => ?_, fun ha => ?_⟩
  · have hbad : (portSc s 17 0).v.toNat / 2 ^ 56 ≠ 0 ∨ (portSc s 17 0).v.toNat = 0 := by
      rcases ha with ha | ha
      · exact .inr (by rw [ha]; rfl)
      · exact .inl (Nat.div_pos ha (Nat.two_pow_pos 56)).ne'
    exact Performs.exec_error (op := binitOp) (field := 548) {} h.ready ((if_neg hclean).trans (if_pos hbad))
  · exact Performs.exec_error (op := bwaitOp) (field := 552) {} h.ready ((if_neg hclean).trans (if_pos ha))
  · exact Performs.exec_error (op := arriveOp true) (field := 550) {} h.ready ((if_neg hclean).trans (if_pos (decide_eq_true ha)))

end

/-! ## Touches (R182, R305, R306) -/

section
variable {s : State} {g : Guard} {src : Source}

theorem filter_assocSet {α β : Type} [DecidableEq α] (p : α × β → Bool) (k : α) (v : β) (l : List (α × β)) (h : ∀ v, p (k, v) = false) :
    (assocSet k v l).filter p = l.filter p := by
  induction l with
  | nil => simp [assocSet, h]
  | cons x l ih =>
    obtain ⟨a, b⟩ := x
    by_cases ha : a = k
    · subst ha
      simp [assocSet, h]
    · simp only [assocSet, if_neg ha, List.filter_cons, ih]

/-- The bundle itself changes none of its cluster's locked pins. -/
theorem lockedPins_started (x : OpIn) (hx : x.who = s.sel.who) : lockedPins x (started s src) = lockedPins x s := by
  unfold lockedPins started setCtx
  dsimp only
  rw [filter_assocSet _ _ _ _ fun v => by simp [hx]]

theorem mem_lockedPins {x : OpIn} {p : Pin} : p ∈ lockedPins x s ↔ (p ∈ x.c0.pins ∧ x.pos ≤ p.last)
    ∨ ∃ k c, (k, c) ∈ s.ctxs ∧ k.clId = x.who.clId ∧ k ≠ x.who ∧ c.node.isSome ∧ c.stopped = false ∧ p ∈ c.pins ∧ coverFrom c ≤ p.last := by
  simp only [lockedPins, List.mem_append, List.mem_filter, List.mem_flatMap, decide_eq_true_eq, Bool.and_eq_true, beq_iff_eq, bne_iff_ne,
    Bool.not_eq_true', Prod.exists, and_assoc]

theorem b2n_mul (p : Bool) (k : Nat) : b2n p * k = if p then k else 0 := by cases p <;> simp [b2n]

theorem touchWord_eq (e size : Nat) : touchWord e size = size + (if pteRead e then 4 else 0) + (if pteWrite e then 8 else 0)
    + (if pteGuard e then 16 else 0) + (if pteWorld e then 32 else 0) := by
  simp only [touchWord, b2n_mul]
  omega

section
variable {x : OpIn} {u : State} {p : Pin}

theorem tchOp_hit (ht : ¬ x.tP = true) (hva : ¬ 2 ^ 56 ≤ x.tN) (h : touchHit x u = some p) : tchOp.run x u = .ok (updCtx x.who (fun c => { c with
    pins := addPin x.pos ⟨x.tN, p.size, p.pte, x.pos + 2, x.pos + 2047, p.born⟩ c.pins })
    (takeHit x 2 (.latch 4) (.value (.sc ⟨BitVec.ofNat 64 (touchWord p.pte.toNat p.size), false⟩) 0) u)) := by
  simp only [tchOp, if_neg ht, if_neg hva, h]
theorem tchOp_miss (ht : ¬ x.tP = true) (hva : ¬ 2 ^ 56 ≤ x.tN) (h : touchHit x u = none) : tchOp.run x u = .ok (takeEntry x 2 (.latch 4) (.walk x.tN)
    (if remapping u (partOf u x.who) (worldOf u x.who) x.c0.pins x.tN then updCtx x.who (fun c => { c with pins := endPins x.pos x.tN c.pins }) u else u)) := by
  simp only [tchOp, if_neg ht, if_neg hva, h]

theorem touchHit_started (x : OpIn) (hx : x.who = s.sel.who) : touchHit x (started s src) = touchHit x s := by
  rw [touchHit, touchHit, lockedPins_started x hx]
  rfl

end

section
variable (hq : Quiet s) (hb : Brings s g src .s) (hr : Room s 1 0 0) (ht : (trigSc s src).p = false)
include hq hb ht

theorem tch_fault (hsnap : (own s).snap = none) (hva : 2 ^ 56 ≤ (trigSc s src).v.toNat) (hr : Room s 1 0 0) :
    exec (.tch g src) s = .next (trapped s ⟨0x05, (trigSc s src).v.toNat, 0⟩) :=
  Performs.exec_error (op := tchOp) (field := 145) {} ⟨hq, hb, hr, hsnap⟩ ((if_neg (Bool.eq_false_iff.1 ht)).trans (if_pos hva))

/-- What a touch that a pin serves does to its context. -/
def touchPinned (s : State) (a : Nat) (p : Pin) (c : Ctx) : Ctx := { c with
  landing := c.landing ++ [⟨(view s).bclk + 2, (view s).bclk, s.sel.slot, .latch 4, true,
    .value (.sc ⟨BitVec.ofNat 64 (touchWord p.pte.toNat p.size), false⟩) 0, c.nextId, 0⟩],
  nextId := c.nextId + 1, pins := addPin (view s).bclk ⟨a, p.size, p.pte, (view s).bclk + 2, (view s).bclk + 2047, p.born⟩ c.pins }

include hr

theorem tch_pinned (hva : (trigSc s src).v.toNat < 2 ^ 56) {p : Pin} (hhit : touchHit (given s 145 .s src) s = some p) :
    exec (.tch g src) s = .next (after s src (touchPinned s (trigSc s src).v.toNat p)) := by
  refine Performs.changes (op := tchOp) (field := 145) (f := touchPinned s _ p) {} hq hb hr (fun _ => ⟨rfl, rfl⟩) ?_
  refine (tchOp_hit (x := given s 145 .s src) (Bool.eq_false_iff.1 ht) (Nat.not_le.2 hva) ((touchHit_started _ rfl).trans hhit)).trans ?_
  rw [takeHit, enterBuffer, given_who, updCtx_updCtx]
  rfl

/-- What a touch does to its context that starts a walk. -/
def touchWalks (s : State) (a : Nat) (ends : Bool) (c : Ctx) : Ctx :=
  lands s 2 (.latch 4) (.walk a) { c with pins := if ends then endPins (view s).bclk a c.pins else c.pins }

theorem tch_walks (hva : (trigSc s src).v.toNat < 2 ^ 56) (hmiss : touchHit (given s 145 .s src) s = none) :
    exec (.tch g src) s = .next (after s src (touchWalks s (trigSc s src).v.toNat
      (remapping s (partOf s s.sel.who) (worldOf s s.sel.who) (view s).pins (trigSc s src).v.toNat))) := by
  refine Performs.changes (op := tchOp) (field := 145) (f := touchWalks s _ _) {} hq hb hr (fun _ => ⟨rfl, rfl⟩) ?_
  refine (tchOp_miss (x := given s 145 .s src) (Bool.eq_false_iff.1 ht) (Nat.not_le.2 hva) ((touchHit_started _ rfl).trans hmiss)).trans (congrArg Except.ok ?_)
  have hmove : remapping (started s src) (partOf (started s src) s.sel.who) (worldOf (started s src) s.sel.who) (view s).pins
      (trigSc s src).v.toNat = remapping s (partOf s s.sel.who) (worldOf s s.sel.who) (view s).pins (trigSc s src).v.toNat := rfl
  simp only [given_who, given_c0, given_tN, hmove]
  cases remapping s (partOf s s.sel.who) (worldOf s s.sel.who) (view s).pins (trigSc s src).v.toNat with
  | true =>
    rw [if_pos rfl, takeEntry, enterBuffer, given_who, updCtx_updCtx]
    rfl
  | false => rfl

end

end
end Sys2Proof.Machine
end

namespace Sys2Proof
open Machine

section
variable {s : State} {g : Guard} {src : Source}

/-- Touches (R182, R305, R306), over the pins that the cluster locks. -/
theorem touch_outcomes (hq : Quiet s) (hb : Brings s g src .s) (hr : Room s 1 0 0) (ht : (trigSc s src).p = false) (hva : (trigSc s src).v.toNat < 2 ^ 56)
    {locked : List Pin} (hlocked : locked = lockedPins (given s 145 .s src) s) :
    (∀ p, remapping s (partOf s s.sel.who) (worldOf s s.sel.who) locked (trigSc s src).v.toNat = false →
      locked.find? (fun p => pinCovers p (trigSc s src).v.toNat) = some p →
      exec (.tch g src) s = .next (after s src (touchPinned s (trigSc s src).v.toNat p)))
    ∧ ((remapping s (partOf s s.sel.who) (worldOf s s.sel.who) locked (trigSc s src).v.toNat = true
        ∨ locked.find? (fun p => pinCovers p (trigSc s src).v.toNat) = none) →
      exec (.tch g src) s = .next (after s src (touchWalks s (trigSc s src).v.toNat
        (remapping s (partOf s s.sel.who) (worldOf s s.sel.who) (view s).pins (trigSc s src).v.toNat)))) := by
  subst hlocked
  refine ⟨fun p hstay hlive => tch_pinned hq hb hr ht hva ((if_neg (Bool.eq_false_iff.1 hstay)).trans hlive), fun hmiss =>
    tch_walks hq hb hr ht hva ?_⟩
  rcases hmiss with hmove | hnone
  · exact if_pos hmove
  · exact (congrArg (ite _ none) hnone).trans (ite_self _)

end

/-- Settles O21: local accesses by their lanes, global ones by the order of their checks, touches by the pins that their cluster locks. -/
theorem memoryAccessTraps : Obligations.MemoryAccessTraps := by
  unfold Obligations.MemoryAccessTraps
  refine ⟨fun s g src hq hb hr ht hsnap => localScalar_traps hq hb hr ht hsnap, fun s g src hq hb hr ht => ?_, fun s g src hq hr hsnap => ?_,
    fun s g src hq hb hr hsnap ht => ?_⟩
  · refine ⟨fun p => mem_lockedPins, fun p hva hstay hlive => ?_, fun hva hmiss => (touch_outcomes hq hb hr ht hva rfl).2 hmiss,
      fun hva hsnap => tch_fault hq hb ht hsnap hva hr⟩
    rw [← touchWord_eq]
    exact (touch_outcomes hq hb hr ht hva rfl).1 p hstay hlive
  · refine ⟨fun hb ht => ?_, fun hb hbP ht => gather_traps hq hr hsnap hb hbP ht⟩
    have h : Vectored s g src := ⟨hq, hr, hsnap, hb, ht⟩
    refine ⟨h.vld, h.vldbf, h.vldi8, h.vldz8, h.vst, h.vstbf, h.vstm, h.vstmc, fun hbP => ⟨h.vlds hbP, h.vsts hbP, h.vldf8 hbP, h.vldx hbP, h.vlde hbP,
      h.vldf8_illegal hbP, h.vldx_illegal hbP, h.vlde_illegal hbP, fun hcP => ?_⟩⟩
    dsimp only
    rw [← bits_low (portSc s 6 2).v.toNat]
    exact ⟨h.vstp_illegal hbP hcP rfl rfl, fun hlegal => ⟨h.vstp_misaligned hbP hcP rfl rfl hlegal, h.vstp_outside hbP hcP rfl rfl hlegal,
      h.vstp_reserve hbP hcP rfl rfl hlegal⟩⟩
  · have h : Worldly s g src := ⟨hq, hb, hr, hsnap, ht⟩
    refine ⟨h.gld, h.gst, h.vgld, h.vgst, fun ha hb hc => ?_, h.barriers, h.misuses⟩
    simp only [List.forall_mem_cons, List.not_mem_nil, false_implies, implies_true, and_true]
    exact ⟨h.atomic (field := 148) (keeps := true) (usesB := false) {} rfl ha hb hc, h.atomic (field := 149) {} rfl ha hb hc, h.atomic (field := 150) {} rfl ha hb hc,
      h.atomic (field := 151) {} rfl ha hb hc, h.atomic (field := 152) {} rfl ha hb hc⟩

end Sys2Proof
